-- ==== Sys2Proof/Word.lean ====
section
/-! DEFINITION. Names of the parts of the STK-4096 and the plain data shapes the state is built from: bytes, sparse maps,
one value per lane, per seat, per voter half and per star channel. Arithmetic on them stands in Machine/Bits.lean. -/

namespace Sys2Proof

/-- A byte. -/
abbrev Byte := BitVec 8
/-- A 32-bit register or record field. -/
abbrev W32 := BitVec 32
/-- A 64-bit state word, output word or digest (R115, R150). -/
abbrev W64 := BitVec 64
/-- A scan number: the low 32 bits of the cycle count (R48). -/
abbrev Scn := BitVec 32

/-- A sparse map in one canonical form: keys strictly rising, no entry equal to what an unlisted key reads as. -/
abbrev SMap (α : Type) := List (Nat × α)

/-- The variants (R4). -/
inductive Variant where | f | t | e
  deriving DecidableEq, Repr, Inhabited

/-- Lanes A to D (R13). -/
inductive Lane where | a | b | c | d
  deriving DecidableEq, Repr, Inhabited

/-- Voter halves X and Y (R13). -/
inductive Half where | x | y
  deriving DecidableEq, Repr, Inhabited

/-- Star channels A and B (R13). -/
inductive Chan where | a | b
  deriving DecidableEq, Repr, Inhabited

/-- Seats S1 to S3 (R179). -/
inductive Seat where | s1 | s2 | s3
  deriving DecidableEq, Repr, Inhabited

/-- Status codes of a completion (R417). -/
inductive Status where
  | ok | pending | busySelftest | deniedMode | deniedSeal | badArg | notReady | checkFail | signatureFail
  | noResource | aborted | stale | unknownOpcode | version | timeout
  deriving DecidableEq, Repr, Inhabited

/-- The clock islands (R13, R587). -/
inductive Island where
  | lane (l : Lane) | x | y | vio | star (c : Chan) | net | mgt | refclk
  deriving DecidableEq, Repr, Inhabited

/-- The quantity of an island limit (R37, R587). -/
inductive Quantity where | clock | voltage | temperature
  deriving DecidableEq, Repr, Inhabited

/-- One value per lane. -/
structure Quad (α : Type) where
  a : α
  b : α
  c : α
  d : α
  deriving DecidableEq, Repr, Inhabited

/-- One value per seat. -/
structure Tri (α : Type) where
  s1 : α
  s2 : α
  s3 : α
  deriving DecidableEq, Repr, Inhabited

/-- One value per star channel. -/
structure Duo (α : Type) where
  a : α
  b : α
  deriving DecidableEq, Repr, Inhabited

/-- One value per voter half. -/
structure Halves (α : Type) where
  x : α
  y : α
  deriving DecidableEq, Repr, Inhabited

/-- The followers of cycle-instant marks (R30). -/
inductive Follower where | x | y | star (c : Chan) | vio
  deriving DecidableEq, Repr, Inhabited

/-- The ranked sources of marks (R31). -/
inductive MarkSource where | net | x | own
  deriving DecidableEq, Repr, Inhabited

/-- What the memories report on an engine's access: nothing, an uncorrectable instruction word, or an uncorrectable
operand word (faults 0x0B to 0x0D of R107). -/
inductive Hw where | ok | code | operand
  deriving DecidableEq, Repr, Inhabited

/-- The fields of an instruction word beside OPC (R81). -/
structure EngArg where
  m3 : Bool
  cmp : BitVec 2
  n : Bool
  opd : BitVec 22
  deriving DecidableEq, Repr, Inhabited

/-- Domain states (R43). -/
inductive DomState where | absent | off | held | run
  deriving DecidableEq, Repr, Inhabited

/-- The reset sources (R479). -/
inductive ResetSrc where
  | retPor | mainPor | resetN | sysReset | ctrlReset | watchdog | netReset | starReset (c : Chan) | laneReset (l : Lane)
  deriving DecidableEq, Repr, Inhabited

/-- Time states (R368). -/
inductive TimeMode where | free | holdover | lockedSecondary | lockedPrimary
  deriving DecidableEq, Repr, Inhabited

/-- The update states (R535). -/
inductive UpdMode where | idle | receiving | staged | activating | awaitCommit | rollback
  deriving DecidableEq, Repr, Inhabited

/-- The kinds of control-plane start (R497). -/
inductive StartKind where | quick | warm | full
  deriving DecidableEq, Repr, Inhabited

/-- The boot sources (R492). -/
inductive BootSource where | recovery | host | nvB | nvA
  deriving DecidableEq, Repr, Inhabited

/-- The two rings of the event recorder (R461). -/
inductive RecRing where | vital | general
  deriving DecidableEq, Repr, Inhabited

/-- A commit record as a voter half receives it (R147). -/
structure CommitRec where
  value : W64
  scn : Scn
  leaseId : BitVec 16
  lane : Nat
  seat : Nat
  pol : Bool
  word : Nat
  tag : W32
  deriving DecidableEq, Repr, Inhabited

/-- The record of a COMMIT_RECORD command: the lane's own next record, or any record with the bridge's parity. -/
inductive RecordSrc where
  | asSent
  | given (r : CommitRec) (parityOk : Bool)
  deriving DecidableEq, Repr, Inhabited

/-- The ready word of a READY_WORD command: the lane's own, or any as received (R182). -/
inductive ReadySrc where
  | asSent
  | given (id : BitVec 16) (renew : Bool) (crc : W32)
  deriving DecidableEq, Repr, Inhabited

/-- Where a staging-path transfer goes: a lane's shadow code bank, a voter half's microcode bank, VIO's firmware bank (R18, R23). What the last
two hold lies outside the state, so whether their own check of it passes comes with the command (log entry 112). -/
inductive StagingTo where
  | lane (l : Lane)
  | half (h : Half) (sound : Bool)
  | vio (sound : Bool)
  deriving DecidableEq, Repr, Inhabited

/-- The boundary ports (R122). -/
inductive Bnd where | bnd0 | bnd1
  deriving DecidableEq, Repr, Inhabited

/-- What VIO's read-back converters deliver for one output (R221): the uncorrected terminal voltage in mV, the load current in mA, and whether
the secondary carrier is present. -/
structure Readback where
  mv : Int
  ma : Nat
  carrier : Bool
  deriving DecidableEq, Repr, Inhabited

/-- The configuration that a node holds (R300): its LINK_ID, its number of elements, whether its mode is COMPAT, the channels it is attached to,
and its schedule table with the action point in ns of each schedule and channel, at key 2 t for A and 2 t + 1 for B. -/
structure NodeCfg where
  linkId : BitVec 16
  n : Nat
  compat : Bool
  chanA : Bool
  chanB : Bool
  aps : SMap Nat
  deriving DecidableEq, Repr, Inhabited

/-- Events of a node's link state on a channel (R303): its power-up or reset with the configuration it holds (R300), PHY link down, PHY link up,
the end of a cycle. -/
inductive NodeEvent where
  | powerUp (cfg : NodeCfg)
  | down
  | up
  | cycleEnd
  deriving DecidableEq, Repr, Inhabited

/-- An upframe record that a star passes on (R295): the start of the frame in ns on its timestamp, and the bytes from DA to VCODE. -/
structure UpRecord where
  start : Nat
  bytes : List Byte
  deriving DecidableEq, Repr, Inhabited

/-- Where a cold-start frame comes from (R312): a lane's sync engine over its bridge, or a node's port. -/
inductive ColdFrom where
  | lane (l : Lane)
  | port (p : BitVec 6)
  deriving DecidableEq, Repr, Inhabited

/-- The data set of a master as its Announce gives it (R362): priority1, clockClass, clockAccuracy, offsetScaledLogVariance, priority2, the
grandmaster's identity and stepsRemoved. -/
structure PtpData where
  prio1 : Nat
  cls : Nat
  accuracy : Nat
  variance : Nat
  prio2 : Nat
  gm : W64
  steps : Nat
  deriving DecidableEq, Repr, Inhabited

/-- A PTP message as NET takes it (R362, R364): port (0 to 3 NET, 4 and 5 BND), domain, sequenceId, the sender's port identity, the time it
carries in ns of the domain's time (origin, receipt, or of a Pdelay_Resp with its Follow_Up the receipt and in `time2` the answer), its
correctionField in ns, the ns from the REFCLK tick to its time stamp at the MII or in the MAC, whether a Follow_Up will come, its log interval,
and an Announce's data set. -/
structure PtpMsg where
  port : Nat
  domain : Nat
  seq : Nat
  master : W64 × Nat
  time : Int
  time2 : Int
  corr : Int
  sub : Int
  twoStep : Bool
  interval : Int
  data : PtpData
  deriving DecidableEq, Repr, Inhabited

/-- A command descriptor at its fetch (R399). -/
structure Descriptor where
  opcode : Nat
  tag : BitVec 16
  fence : Bool
  layout : Nat
  deriving DecidableEq, Repr, Inhabited

/-- The header of a mailbox command at its execution (R399, R419): command ring, owning DTLS session (none: PCIe), tag,
data flags and length, and what its reserved fields hold, taken together as one number. -/
structure CmdHdr where
  ring : Byte
  session : Option Nat
  tag : BitVec 16
  dataIn : Bool
  dataOut : Bool
  dataLen : Nat
  reserved : Nat
  deriving DecidableEq, Repr, Inhabited

/-- The PARAM of SYS_RING_CREATE (R425). -/
structure RingParam where
  ring : Byte
  rtype : Byte
  log2 : Byte
  entrySize : Byte
  cplRing : Byte
  vector : Byte
  coalEntries : BitVec 16
  coalUs : BitVec 16
  eventMask : W32
  base : W64
  deriving DecidableEq, Repr, Inhabited

/-- The PARAM of CVU_CONFIG (R430); `reserved` is what its reserved bits hold. -/
structure CvuParam where
  unit : Byte
  width : Byte
  reserved : Nat
  refout : Bool
  refin : Bool
  point : Byte
  poly : W64
  init : W64
  xorout : W64
  trigger : Byte
  filter : Byte
  count : W32
  deriving DecidableEq, Repr, Inhabited

/-- The PARAM of EXP_SUBSCRIBE (R441) with its ranges. -/
structure SubParam where
  dstIp : W32
  dstUdp : BitVec 16
  netPort : Byte
  divide : BitVec 16
  sub : Byte
  ranges : List (Nat × Nat)
  deriving DecidableEq, Repr, Inhabited

/-- A belay health report as received (R198). -/
structure BelayReport where
  seq : W32
  lane : Lane
  state : Nat
  causes : BitVec 16
  lbistRuns : W32
  mbistRuns : W32
  misr : W64
  rowsUsed : BitVec 16
  colsUsed : Byte
  enginesUsed : Byte
  corrected : W32
  imageVer : W32
  imageHdrCrc : W32
  fwVer : W32
  dieTemp : BitVec 16
  clkDev : BitVec 16
  upt : BitVec 48
  deriving DecidableEq, Repr, Inhabited

/-- A repair maps a faulty row or column of a macro, or a logical engine, onto a spare (R509, R510). -/
inductive Repair where
  | row (memory spare faulty : Nat)
  | col (memory spare faulty : Nat)
  | engine (logical spare : Nat)
  deriving DecidableEq, Repr, Inhabited

/-- A failing cell of a macro (R510). -/
structure Cell where
  memory : Nat
  row : Nat
  col : Nat
  deriving DecidableEq, Repr, Inhabited

/-- What logic BIST and MBIST of a die find: the partitions whose MISR is not the golden signature in the die's fuses, and the failing cells
(R507, R510). -/
structure DieRun where
  partitions : List Nat
  cells : List Cell
  deriving DecidableEq, Repr, Inhabited

/-- The findings of a die's test: of the first run, of its spare rows and columns, each named by macro and spare, and of the run after a
repair (R507, R509, R511). -/
structure DieTest where
  first : DieRun
  badRows : List (Nat × Nat)
  badCols : List (Nat × Nat)
  again : DieRun
  deriving DecidableEq, Repr, Inhabited

/-- What a section of a lane's memory under the belay lane's own test belongs to (R197, R508). -/
inductive TestRegion where
  | codeBank (shadow : Bool)
  | ropeBuffer
  | other
  deriving DecidableEq, Repr, Inhabited

/-- A step of the belay lane's test of itself (R519): 256 patterns, with the partition's MISR and whether it is the golden one, which only the
last of a run settles; or a section of a macro with its failing cells, and whether it is the last of all. -/
inductive BelayStep where
  | logic (misr : W64) (golden : Bool)
  | memory (region : TestRegion) (memory : Nat) (cells : List Cell) (last : Bool)
  deriving DecidableEq, Repr, Inhabited

/-- Which mailbox command an answer belongs to. -/
structure CmdRef where
  ring : Nat
  session : Option Nat
  tag : Nat
  opcode : Nat
  deriving DecidableEq, Repr, Inhabited

/-- A downframe that a star sends on a port (R284): its cycle, the tick at which it started, whether the star ended it early with an FCS that
cannot match (R234, R352), header bytes 0x00 to 0x09, the beacon timing fields, payload and VCODE. -/
structure DownFrame where
  cycle : W32
  start : Nat
  aborted : Bool
  hdr : List Byte
  dly : BitVec 16
  txc : BitVec 16
  annSched : Nat
  annCnt : Nat
  cpIdx : Nat
  reint : Bool
  payload : List Byte
  vcode : W32
  deriving DecidableEq, Repr, Inhabited

/-- A code record (R291). -/
structure CodeRec where
  scn : Scn
  leaseId : BitVec 16
  lane : Lane
  node : Nat
  hdr : List Byte
  vcode : W32
  deriving DecidableEq, Repr, Inhabited

/-- A sync record (R316). -/
structure SyncRec where
  cycle : W32
  leaseId : BitVec 16
  lane : Lane
  sched : Nat
  annSched : Nat
  annCnt : Nat
  deriving DecidableEq, Repr, Inhabited

/-- A boundary telegram (R377). -/
structure Telegram where
  first : Bool
  force : Bool
  srcId : BitVec 16
  dstId : BitVec 16
  tscan : Nat
  seq : W32
  payload : List Byte
  code : W32
  deriving DecidableEq, Repr, Inhabited

end Sys2Proof
end

