-- ==== Sys2Proof/Machine/Bits.lean ====
section
/-! DEFINITION. Plain operations on the shapes of Word.lean: sparse maps, per-part access, bits of words, bytes,
the check-value computation of R452 (which also gives CRC-32C, R131, and both vital codes, R288), the GF(2^64) digest
of R151 and comparison of scan numbers (R48). -/

namespace Sys2Proof


/-! ### Sparse maps -/

/-- What the map holds at key `k`; `d` where nothing is listed. -/
def smGet {α : Type} (d : α) : SMap α → Nat → α
  | [], _ => d
  | (j, v) :: r, k => if j = k then v else smGet d r k

/-- What the map lists at key `k`, if anything. -/
def smFind {α : Type} : SMap α → Nat → Option α
  | [], _ => none
  | (j, v) :: r, k => if j = k then some v else smFind r k

/-- The map without key `k`. -/
def smDrop {α : Type} : SMap α → Nat → SMap α
  | [], _ => []
  | (j, v) :: r, k => if j = k then smDrop r k else (j, v) :: smDrop r k

/-- The map with `v` listed at a key it does not list. -/
def smIns {α : Type} (k : Nat) (v : α) : SMap α → SMap α
  | [] => [(k, v)]
  | (j, w) :: r => if k < j then (k, v) :: (j, w) :: r else (j, w) :: smIns k v r

/-- The map with key `k` reading `v`, kept canonical. -/
def smSet {α : Type} [DecidableEq α] (d : α) (m : SMap α) (k : Nat) (v : α) : SMap α :=
  if v = d then smDrop m k else smIns k v (smDrop m k)

/-- Whether the keys rise strictly from above `lo`. -/
def smRising {α : Type} : Option Nat → SMap α → Bool
  | _, [] => true
  | lo, (j, _) :: r => (match lo with | none => true | some l => decide (l < j)) && smRising (some j) r

/-- The canonical form: keys strictly rising and no entry equal to the default. -/
def smWf {α : Type} [DecidableEq α] (d : α) (m : SMap α) : Bool :=
  smRising none m && m.all (fun p => !(decide (p.2 = d)))

/-- A function applied to every listed value; what becomes the default is dropped. -/
def smMap {α : Type} [DecidableEq α] (d : α) (f : α → α) (m : SMap α) : SMap α :=
  (m.map (fun p => (p.1, f p.2))).filter (fun p => decide (p.2 ≠ d))

/-- The map with key `k` listed as `v`, whatever `v` is. -/
def smPut {α : Type} (m : SMap α) (k : Nat) (v : α) : SMap α := smIns k v (smDrop m k)

/-! ### One value per part -/

def Quad.get {α : Type} (q : Quad α) : Lane → α
  | .a => q.a
  | .b => q.b
  | .c => q.c
  | .d => q.d

def Quad.set {α : Type} (q : Quad α) (l : Lane) (v : α) : Quad α :=
  match l with
  | .a => { q with a := v }
  | .b => { q with b := v }
  | .c => { q with c := v }
  | .d => { q with d := v }

def Tri.get {α : Type} (q : Tri α) : Seat → α
  | .s1 => q.s1
  | .s2 => q.s2
  | .s3 => q.s3

def Tri.set {α : Type} (q : Tri α) (l : Seat) (v : α) : Tri α :=
  match l with
  | .s1 => { q with s1 := v }
  | .s2 => { q with s2 := v }
  | .s3 => { q with s3 := v }

def Duo.get {α : Type} (q : Duo α) : Chan → α
  | .a => q.a
  | .b => q.b

def Duo.set {α : Type} (q : Duo α) (l : Chan) (v : α) : Duo α :=
  match l with
  | .a => { q with a := v }
  | .b => { q with b := v }

def Halves.get {α : Type} (q : Halves α) : Half → α
  | .x => q.x
  | .y => q.y

def Halves.set {α : Type} (q : Halves α) (l : Half) (v : α) : Halves α :=
  match l with
  | .x => { q with x := v }
  | .y => { q with y := v }

/-- The same value for every lane, seat, channel or half. -/
def Quad.all {α : Type} (v : α) : Quad α := ⟨v, v, v, v⟩
def Tri.all {α : Type} (v : α) : Tri α := ⟨v, v, v⟩
def Duo.all {α : Type} (v : α) : Duo α := ⟨v, v⟩
def Halves.all {α : Type} (v : α) : Halves α := ⟨v, v⟩

/-- A function applied to every part's value. -/
def Quad.map {α β : Type} (f : α → β) (q : Quad α) : Quad β := ⟨f q.a, f q.b, f q.c, f q.d⟩
def Duo.map {α β : Type} (f : α → β) (q : Duo α) : Duo β := ⟨f q.a, f q.b⟩
def Tri.map {α β : Type} (f : α → β) (q : Tri α) : Tri β := ⟨f q.s1, f q.s2, f q.s3⟩

/-- The parts in order. -/
def Lane.list : List Lane := [.a, .b, .c, .d]
def Seat.list : List Seat := [.s1, .s2, .s3]
def Chan.list : List Chan := [.a, .b]

/-- Lane codes: 0 A to 3 D (R147). -/
def Lane.idx : Lane → Nat
  | .a => 0
  | .b => 1
  | .c => 2
  | .d => 3

/-- The lane of a code. -/
def Lane.ofIdx : Nat → Option Lane
  | 0 => some .a
  | 1 => some .b
  | 2 => some .c
  | 3 => some .d
  | _ => none

/-- Seat numbers 1 to 3 (R147). -/
def Seat.num : Seat → Nat
  | .s1 => 1
  | .s2 => 2
  | .s3 => 3

/-- Channel codes: 0 A, 1 B. -/
def Chan.idx : Chan → Nat
  | .a => 0
  | .b => 1

/-- The channel of a code. -/
def Chan.ofIdx : Nat → Option Chan
  | 0 => some .a
  | 1 => some .b
  | _ => none

def Chan.other : Chan → Chan
  | .a => .b
  | .b => .a

def Half.other : Half → Half
  | .x => .y
  | .y => .x

/-- Lanes B and D hold state complemented (R144). -/
def Lane.complemented : Lane → Bool
  | .a => false
  | .b => true
  | .c => false
  | .d => true

/-- Status codes (R417). -/
def Status.code : Status → Nat
  | .ok => 0
  | .pending => 1
  | .busySelftest => 2
  | .deniedMode => 3
  | .deniedSeal => 4
  | .badArg => 5
  | .notReady => 6
  | .checkFail => 7
  | .signatureFail => 8
  | .noResource => 9
  | .aborted => 10
  | .stale => 11
  | .unknownOpcode => 12
  | .version => 13
  | .timeout => 14

/-- Island codes of an ISLAND_LIMIT record (R587). -/
def Island.code : Island → Nat
  | .lane l => l.idx
  | .x => 4
  | .y => 5
  | .vio => 6
  | .star c => 7 + c.idx
  | .net => 9
  | .mgt => 10
  | .refclk => 11

/-- The island of a code (R587). -/
def Island.ofCode (n : Nat) : Option Island :=
  [Island.lane .a, .lane .b, .lane .c, .lane .d, .x, .y, .vio, .star .a, .star .b, .net, .mgt, .refclk].find? (fun i => decide (i.code = n))

/-- Quantity codes of an ISLAND_LIMIT record (R587). -/
def Quantity.code : Quantity → Nat
  | .clock => 0
  | .voltage => 1
  | .temperature => 2

/-! ### Bits, bytes and words -/

/-- Bit `i` of a natural number. -/
def bitN (n i : Nat) : Bool := n.testBit i

/-- A Bool as a number. -/
def b2n (b : Bool) : Nat := if b then 1 else 0

/-- The field of `w` bits at bit `lo`. -/
def field (n lo w : Nat) : Nat := (n / 2 ^ lo) % 2 ^ w

/-- The word with bit `i` set to `b`. -/
def setBit {w : Nat} (x : BitVec w) (i : Nat) (b : Bool) : BitVec w :=
  if b then x ||| (1#w <<< i) else x &&& ~~~(1#w <<< i)

/-- The number as `n` bytes, least significant first (R6). -/
def leBytes : Nat → Nat → List Byte
  | 0, _ => []
  | n + 1, x => BitVec.ofNat 8 (x % 256) :: leBytes n (x / 256)

/-- The number that bytes give, least significant first (R6). -/
def ofLe : List Byte → Nat
  | [] => 0
  | b :: r => b.toNat + 256 * ofLe r

/-- The number as `n` bytes, most significant first (R6). -/
def beBytes (n x : Nat) : List Byte := (leBytes n x).reverse

/-- The number that bytes give, most significant first (R6). -/
def ofBe (bs : List Byte) : Nat := ofLe bs.reverse

/-- `len` bytes from offset `off`; bytes beyond the end are not there. -/
def slice (bs : List Byte) (off len : Nat) : List Byte := (bs.drop off).take len

/-- The little-endian field of `len` bytes at `off`. -/
def leAt (bs : List Byte) (off len : Nat) : Nat := ofLe (slice bs off len)

/-- A Nat as a signed number of `w` bits. -/
def signedN (w n : Nat) : Int := if n < 2 ^ (w - 1) then (n : Int) else (n : Int) - (2 ^ w : Nat)

/-- An integer as an unsigned field of `w` bits, two's complement. -/
def ofSigned (w : Nat) (i : Int) : Nat := (i % (2 ^ w : Nat)).toNat

/-- An integer held within limits (R342). -/
def clampI (i lo hi : Int) : Int := if i < lo then lo else if hi < i then hi else i

/-- The size of an integer. -/
def absI (i : Int) : Int := if i < 0 then -i else i

/-- Division rounding up (R7, R136). -/
def ceilDiv (a b : Nat) : Nat := (a + b - 1) / b

/-- Addition that stops at a top value. -/
def satAdd (top a b : Nat) : Nat := min top (a + b)

/-! ### Check values (R452) -/

/-- The low `w` bits of `x` in reversed order (R452). -/
def reflect : Nat → Nat → Nat
  | 0, _ => 0
  | w + 1, x => (x % 2) * 2 ^ w + reflect w (x / 2)

/-- One bit of a check value (R452). -/
def crcBit (w poly reg : Nat) (d : Bool) : Nat :=
  let top := xor (bitN reg (w - 1)) d
  let r := (reg * 2) % 2 ^ w
  if top then r ^^^ poly else r

/-- One byte of a check value (R452). -/
def crcByte (w poly : Nat) (refin : Bool) (reg : Nat) (b : Byte) : Nat :=
  let n := if refin then b.toNat else reflect 8 b.toNat
  [0, 1, 2, 3, 4, 5, 6, 7].foldl (fun r k => crcBit w poly r (bitN n k)) reg

/-- The register after the bytes of a window (R452). -/
def crcReg (w poly : Nat) (refin : Bool) (reg : Nat) (bs : List Byte) : Nat :=
  bs.foldl (crcByte w poly refin) reg

/-- The result that a register gives (R452). -/
def crcOut (w : Nat) (refout : Bool) (xorout reg : Nat) : Nat :=
  (if refout then reflect w reg else reg) ^^^ xorout

/-- CRC-32C with the parameters of channel A in R288, also used for records and blocks. -/
def crc32c (bs : List Byte) : Nat :=
  crcOut 32 true 0xFFFFFFFF (crcReg 32 0x1EDC6F41 true 0xFFFFFFFF bs)

/-- The vital code of a channel over the covered bytes (R288). -/
def vitalCode (c : Chan) (bs : List Byte) : Nat :=
  match c with
  | .a => crc32c bs
  | .b => crcOut 32 true 0xFFFFFFFF (crcReg 32 0x741B8CD7 true 0xFFFFFFFF bs)

/-- The IEEE 802.3 frame check sequence (R280). -/
def fcs32 (bs : List Byte) : Nat :=
  crcOut 32 true 0xFFFFFFFF (crcReg 32 0x04C11DB7 true 0xFFFFFFFF bs)

/-! ### GF(2^64) (R151) -/

/-- Multiplication by alpha = x modulo x^64 + x^4 + x^3 + x + 1 (R151). -/
def gfAlpha (x : W64) : W64 := if x.msb then (x <<< 1) ^^^ 0x1B#64 else x <<< 1

/-- The product in GF(2^64), over the bits of `y` from the lowest of `n`. -/
def gfMulN : Nat → W64 → W64 → W64
  | 0, _, _ => 0#64
  | n + 1, x, y => (if y.getLsbD 0 then x else 0#64) ^^^ gfMulN n (gfAlpha x) (y >>> 1)

/-- The product in GF(2^64). -/
def gfMul (x y : W64) : W64 := gfMulN 64 x y

/-- `base` to the power that the low `f` bits of `k` spell, by squaring. -/
def gfPow : Nat → W64 → Nat → W64
  | 0, _, _ => 1#64
  | f + 1, base, k => gfMul (if k % 2 = 1 then base else 1#64) (gfPow f (gfMul base base) (k / 2))

/-- The term S_i * alpha^(i+1) of a digest (R151). -/
def gfTerm (i : Nat) (s : W64) : W64 := gfMul s (gfPow 24 2#64 (i + 1))

/-- The digest of indexed words (R151). -/
def gfDigest (ws : List (Nat × W64)) : W64 := ws.foldl (fun d p => d ^^^ gfTerm p.1 p.2) 0#64

/-- The sum of alpha^0 to alpha^(n-1), by halving: S(2k) = S(k) (1 + alpha^k). -/
def gfGeo : Nat → Nat → W64
  | 0, _ => 0#64
  | f + 1, n =>
    let k := n / 2
    let s := gfGeo f k
    let e := gfMul s (1#64 ^^^ gfPow 24 2#64 k)
    if n % 2 = 1 then e ^^^ gfPow 24 2#64 (2 * k) else e

/-- The digest of `n` equal words `m` from index `i`. -/
def gfRun (i n : Nat) (m : W64) : W64 := gfMul (gfTerm i m) (gfGeo 24 n)

/-- K_POL: the digest of the complemented-bit masks of the state words (R150, R151). -/
def kPol : W64 :=
  gfRun 0 0x10000 (~~~0#64) ^^^ gfRun 0x10000 0x10000 0x7FFFFFFFF#64 ^^^ gfRun 0x20000 0x400 (~~~0#64) ^^^
  gfRun 0x20400 0x4000 0x3FFFFFFFF#64 ^^^
  (List.range 32).foldl (fun d e => d ^^^ gfTerm (0x24400 + 2 * e) 0x1FFFF#64) 0#64

/-! ### Scan numbers (R48) -/

/-- `b` is later than `a`, modulo 2^32 (R48). -/
def scnBefore (a b : Scn) : Bool := decide (a ≠ b) && decide ((b - a).toNat < 2 ^ 31)

/-- How far `b` lies ahead of `a`, modulo 2^32. -/
def scnAhead (a b : Scn) : Nat := (b - a).toNat

end Sys2Proof
end

