-- ==== Sys2Proof/Syntax.lean ====
section
/-! DEFINITION. The commands of the STK-4096: one constructor per row of spec/opcode_table.json, with the row's operands.
An engine's row carries the lane, the logical engine, what the memories report, and the word's fields beside OPC (R81).
A mailbox row carries its descriptor's header and PARAM (R399, R422). Any other row carries what its event brings. -/

namespace Sys2Proof

/-- A command: one row of the table. -/
inductive Instr where
  /-- NOP (R104). -/
  | nop (l : Lane) (e : BitVec 5) (h : Hw) (x : EngArg)
  /-- END (R104). -/
  | endSeg (l : Lane) (e : BitVec 5) (h : Hw) (x : EngArg)
  /-- SYNC (R104). -/
  | sync (l : Lane) (e : BitVec 5) (h : Hw) (x : EngArg)
  /-- SYNC_BARRIER_LEAVE (R106). -/
  | syncBarrierLeave (l : Lane)
  /-- LD (R93). -/
  | ld (l : Lane) (e : BitVec 5) (h : Hw) (x : EngArg)
  /-- AND (R93). -/
  | andB (l : Lane) (e : BitVec 5) (h : Hw) (x : EngArg)
  /-- OR (R93). -/
  | orB (l : Lane) (e : BitVec 5) (h : Hw) (x : EngArg)
  /-- XOR (R93). -/
  | xorB (l : Lane) (e : BitVec 5) (h : Hw) (x : EngArg)
  /-- ST (R93). -/
  | st (l : Lane) (e : BitVec 5) (h : Hw) (x : EngArg)
  /-- SET (R93). -/
  | setB (l : Lane) (e : BitVec 5) (h : Hw) (x : EngArg)
  /-- RST (R93). -/
  | rst (l : Lane) (e : BitVec 5) (h : Hw) (x : EngArg)
  /-- LDK (R93). -/
  | ldk (l : Lane) (e : BitVec 5) (h : Hw) (x : EngArg)
  /-- BRO (R94). -/
  | bro (l : Lane) (e : BitVec 5) (h : Hw) (x : EngArg)
  /-- BCA (R94). -/
  | bca (l : Lane) (e : BitVec 5) (h : Hw) (x : EngArg)
  /-- BCO (R94). -/
  | bco (l : Lane) (e : BitVec 5) (h : Hw) (x : EngArg)
  /-- JMP (R96). -/
  | jmp (l : Lane) (e : BitVec 5) (h : Hw) (x : EngArg)
  /-- JC (R96). -/
  | jc (l : Lane) (e : BitVec 5) (h : Hw) (x : EngArg)
  /-- TON (R98). -/
  | ton (l : Lane) (e : BitVec 5) (h : Hw) (x : EngArg)
  /-- TOF (R98). -/
  | tof (l : Lane) (e : BitVec 5) (h : Hw) (x : EngArg)
  /-- TP (R98). -/
  | tp (l : Lane) (e : BitVec 5) (h : Hw) (x : EngArg)
  /-- CTU (R102). -/
  | ctu (l : Lane) (e : BitVec 5) (h : Hw) (x : EngArg)
  /-- CTD (R102). -/
  | ctd (l : Lane) (e : BitVec 5) (h : Hw) (x : EngArg)
  /-- CTR (R102). -/
  | ctr (l : Lane) (e : BitVec 5) (h : Hw) (x : EngArg)
  /-- EDR (R101). -/
  | edr (l : Lane) (e : BitVec 5) (h : Hw) (x : EngArg)
  /-- EDF (R101). -/
  | edf (l : Lane) (e : BitVec 5) (h : Hw) (x : EngArg)
  /-- SCRUB_UNCORRECTABLE (R151). -/
  | scrubUncorrectable (l : Lane)
  /-- CI_MARK (R30). -/
  | ciMark (f : Follower) (net : Option Int) (xm : Option Int)
  /-- ADMISSION_SNAPSHOT (R19). -/
  | admissionSnapshot (yCheck : Option W64) (laneFail : List Lane)
  /-- BARRIER_RELEASE (R56). -/
  | barrierRelease
  /-- LEASE_EXPIRY (R182). -/
  | leaseExpiry (k : Seat)
  /-- READY_WORD (R182). -/
  | readyWord (h : Half) (l : Lane) (r : ReadySrc)
  /-- COMMIT_RECORD (R149). -/
  | commitRecord (h : Half) (l : Lane) (r : RecordSrc)
  /-- SKEW_WINDOW_CLOSE (R157). -/
  | skewWindowClose (h : Half) (w : BitVec 11)
  /-- SCAN_DEADLINE (R64). -/
  | scanDeadline (h : Half)
  /-- SUPERVISOR_DIGEST_LATE (R161). -/
  | supervisorDigestLate
  /-- EXPORT_PUBLICATION (R409). -/
  | exportPublication (assembled : Bool)
  /-- CODE_RECORD (R291). -/
  | codeRecord (ch : Chan) (l : Lane) (p : BitVec 6) (given : Option CodeRec)
  /-- SYNC_RECORD (R316). -/
  | syncRecord (ch : Chan) (l : Lane) (given : Option (List Byte))
  /-- DOWNFRAME_START (R293). -/
  | downframeStart (ch : Chan) (p : BitVec 6)
  /-- STAR_UPFRAME (R339). -/
  | starUpframe (ch : Chan) (p : BitVec 6) (start : Nat) (given : Option (List Byte))
  /-- UPFRAME_RECORD (R296). -/
  | upframeRecord (l : Lane) (ch : Chan) (p : BitVec 6)
  /-- ISOLATION_HOLD_END (R345). -/
  | isolationHoldEnd (ch : Chan) (p : BitVec 6)
  /-- STAR_TX_GATE_FAULT (R352): the port whose downframe is still in transmission. -/
  | starTxGateFault (ch : Chan) (p : BitVec 6)
  /-- PORT_LINK_UP (R336): the partner's transmit level, the 1.0 Vpp one where `low`. -/
  | portLinkUp (ch : Chan) (p : BitVec 6) (low : Bool)
  /-- PORT_LINK_DOWN (R336). -/
  | portLinkDown (ch : Chan) (p : BitVec 6)
  /-- STAR_PORT_SELFTEST (R520). -/
  | starPortSelftest (ch : Chan) (p : BitVec 6) (loopback window : Bool)
  /-- PORT_ENERGY_DETECTED (R520). -/
  | portEnergyDetected (ch : Chan) (p : BitVec 6)
  /-- LISTEN_TIMER_EXPIRY (R310). -/
  | listenTimerExpiry (ch : Chan) (l : Lane)
  /-- COLDSTART_FRAME (R312). -/
  | coldstartFrame (ch : Chan) (src : ColdFrom) (start : Nat) (given : Option (List Byte)) (inProgress : List Nat)
  /-- SCHED_CHANGE_DECISION (R328). -/
  | schedChangeDecision
  /-- SCHED_CHANGE_BOUNDARY (R327). -/
  | schedChangeBoundary
  /-- NODE_DOWNFRAME_RECEIVE (R301). -/
  | nodeDownframeReceive (k : BitVec 6) (ch : Chan) (start : Nat) (given : Option (List Byte))
  /-- NODE_LINK_STATE (R303). -/
  | nodeLinkState (k : BitVec 6) (ch : Chan) (ev : NodeEvent)
  /-- NODE_OUTPUT_APPLY (R304). -/
  | nodeOutputApply (k : BitVec 6) (samples : List Byte)
  /-- NODE_UPFRAME_SEND (R306). -/
  | nodeUpframeSend (k : BitVec 6) (ch : Chan) (nfault : Bool)
  /-- RESYNC_IDLE_PART (R167). -/
  | resyncIdlePart (l : Lane)
  /-- CAIRN_CAPTURE_DONE (R193). -/
  | cairnCaptureDone (altered : List (Nat × Nat × W64))
  /-- BELAY_HEALTH_REPORT (R198). -/
  | belayHealthReport (l : Lane) (temp clk : BitVec 16) (given : Option (List Byte))
  /-- BELAY_REPORT_STALE (R199). -/
  | belayReportStale
  /-- CAIRN_LOAD_DONE (R200). -/
  | cairnLoadDone
  /-- TAKEOVER_DEADLINE (R202). -/
  | takeoverDeadline
  /-- BIST_INTERVAL_EXPIRY (R207). -/
  | bistIntervalExpiry
  /-- DIVERSITY_LOST_SET (R174). -/
  | diversityLostSet
  /-- DIVERSITY_ALLOWANCE_EXPIRY (R176). -/
  | diversityAllowanceExpiry
  /-- DIVERSITY_ALLOWANCE_RESTORE (R175). -/
  | diversityAllowanceRestore
  /-- CONTACT_FILTER_CHANGE (R213): at each of the `n` VIO ticks up to this one the contact's input stood at `v` (in 0.1 V, R575). -/
  | contactFilterChange (c : BitVec 5) (b : Bool) (v : BitVec 16) (n : Nat)
  /-- DISCREPANCY_EXPIRY (R216). -/
  | discrepancyExpiry (c : BitVec 5)
  /-- VIN_TEST_SLOT (R214): the contact's input in 0.1 V (R575): at its last unmasked sample, and at the 20 samples from the slot tick on. -/
  | vinTestSlot (c : BitVec 5) (b : Bool) (last : BitVec 16) (vs : List (BitVec 16))
  /-- VOUT_READBACK (R221). -/
  | voutReadback (k : BitVec 5) (r : Readback)
  /-- VOUT_OVERCURRENT (R221): the load current in mA. -/
  | voutOvercurrent (k : BitVec 5) (ma : Nat)
  /-- VOUT_TEST_WINDOW (R222): whether the secondary carrier was present from 5 us after each step's action on. -/
  | voutTestWindow (k : BitVec 5) (c1 c2 c3 : Bool)
  /-- VOUT_CALIBRATION (R224): what the 0 V and the 24.0 V reference read, in mV, and each output's mean load current in mA. -/
  | voutCalibration (zero full : Int) (currents : List (Nat × Nat))
  /-- LOOP_MEASUREMENT (R229). -/
  | loopMeasurement (ohms : Nat)
  /-- SWITCH_POLE_SAMPLE (R227). -/
  | switchPoleSample (h : Half) (levels : Byte)
  /-- SEAL_FAULT_EXPIRY (R228). -/
  | sealFaultExpiry
  /-- VF_LOW_SET (R580): VF has not risen above `v` tenths of a volt for `ticks`. -/
  | vfLowSet (v : BitVec 16) (ticks : Nat)
  /-- VF_LOW_CLEAR (R580): VF has not fallen below `v` tenths of a volt for `ticks`. -/
  | vfLowClear (v : BitVec 16) (ticks : Nat)
  /-- SUPPLY_COLLAPSE_WARNING (R232): the 24 V input has not risen above `v` tenths of a volt for `ticks`. -/
  | supplyCollapseWarning (v : BitVec 16) (ticks : Nat)
  /-- STAR_CONFIRMATION (R233). -/
  | starConfirmation (ch : Chan)
  /-- STAR_CONFIRM_TIMEOUT (R233). -/
  | starConfirmTimeout
  /-- ISLAND_LIMIT_MEASUREMENT (R40). -/
  | islandLimitMeasurement (i : Island) (q : Quantity) (v : W32)
  /-- ISLAND_LIMIT_CLEAR (R41). -/
  | islandLimitClear (i : Island) (q : Quantity) (j : Island)
  /-- BRIDGE_PARITY_FAULT (R35). -/
  | bridgeParityFault (rx : Island) (tx : Island) (again : Bool)
  /-- RESET_SOURCE_ASSERT (R479). -/
  | resetSourceAssert (r : ResetSrc)
  /-- RESET_SOURCE_RELEASE (R479). -/
  | resetSourceRelease (r : ResetSrc) (mV ticks : Nat) (rest : Bool)
  /-- DOMAIN_RELEASE (R482). -/
  | domainRelease (strap : List Nat) (energyMj : Nat)
  /-- RET_POR (R479). -/
  | retPor (mV : Nat)
  /-- MAIN_POR (R479). -/
  | mainPor (mV ticks : Nat) (railOut : Bool)
  /-- RESET_N_DEBOUNCE (R489). -/
  | resetNDebounce (level : Bool) (ticks : Nat)
  /-- RESET_N_STUCK (R490). -/
  | resetNStuck
  /-- RESET_N_STUCK_CLEAR (R490). -/
  | resetNStuckClear
  /-- MGT_WATCHDOG_EXPIRY (R479). -/
  | mgtWatchdogExpiry
  /-- HEARTBEAT_TICK (R391). -/
  | heartbeatTick
  /-- START_ATTEMPT_SUCCESS (R499). -/
  | startAttemptSuccess
  /-- START_TIMEOUT (R497). -/
  | startTimeout
  /-- BACKOFF_EXPIRY (R501). -/
  | backoffExpiry
  /-- HOLDUP_STORE_CHARGED (R573). -/
  | holdupStoreCharged
  /-- BACKUP_CELL_MEASURE (R582). -/
  | backupCellMeasure (mV : Nat)
  /-- INLET_AIR_OVERTEMP (R584): the inlet air has stood at `t` degrees C, signed, or above for `ticks` ticks. -/
  | inletAirOvertemp (t : BitVec 16) (ticks : Nat)
  /-- TB3_WHOLE_HOUR (R360). -/
  | tb3WholeHour
  /-- PTP_SYNC (R362). -/
  | ptpSync (m : PtpMsg)
  /-- PTP_FOLLOW_UP (R362). -/
  | ptpFollowUp (m : PtpMsg)
  /-- PTP_ANNOUNCE (R362). -/
  | ptpAnnounce (m : PtpMsg)
  /-- PTP_DELAY_RESP (R362). -/
  | ptpDelayResp (m : PtpMsg)
  /-- PTP_PDELAY_REQ (R362). -/
  | ptpPdelayReq (m : PtpMsg)
  /-- PTP_PDELAY_RESP (R362). -/
  | ptpPdelayResp (m : PtpMsg)
  /-- SYNC_TIMEOUT (R364). -/
  | syncTimeout (sec : Bool)
  /-- ANNOUNCE_TIMEOUT (R364). -/
  | announceTimeout (sec : Bool)
  /-- PRIMARY_REVERT (R368). -/
  | primaryRevert
  /-- HOLDOVER_EXPIRY (R368). -/
  | holdoverExpiry
  /-- SLEW_COMPLETE (R365). -/
  | slewComplete
  /-- TIME_MAP_RECORD (R372). -/
  | timeMapRecord
  /-- BOUNDARY_TELEGRAM_RECEIVE (R380). -/
  | boundaryTelegramReceive (p : Bnd) (frame : List Byte)
  /-- BOUNDARY_TELEGRAM_SEND (R378). -/
  | boundaryTelegramSend (p : Bnd)
  /-- CYCLE_POINT_MESSAGE (R335). -/
  | cyclePointMessage (i : BitVec 3)
  /-- MBX_ENABLE (R396). -/
  | mbxEnable
  /-- MBX_RESET (R393). -/
  | mbxReset
  /-- DOORBELL (R394). -/
  | doorbell (r : Byte) (i : BitVec 12)
  /-- EXP_STATUS_READ (R391). -/
  | expStatusRead
  /-- TIME_LATCH (R395). -/
  | timeLatch
  /-- REGISTER_WRITE (R387). -/
  | registerWrite (off : BitVec 14) (v : W32)
  /-- COMMAND_FETCH (R401). -/
  | commandFetch (r : Byte) (session : Option Nat) (d : Descriptor)
  /-- COMPLETION_POST (R402). -/
  | completionPost
  /-- EVENT_POST (R403). -/
  | eventPost
  /-- INTERRUPT_COALESCE_EXPIRY (R405). -/
  | interruptCoalesceExpiry (r : Byte)
  /-- DTLS_HANDSHAKE (R388). -/
  | dtlsHandshake (port : BitVec 2) (peer : W32) (chain : List (List Byte))
  /-- DTLS_CMD_DATAGRAM (R407). -/
  | dtlsCmdDatagram (sn : Nat) (r : Byte) (index : Nat) (ds : List Descriptor)
  /-- DTLS_CPL_ACK (R408). -/
  | dtlsCplAck (sn : Nat) (r : Byte) (index : Nat)
  /-- DTLS_KEEPALIVE (R408). -/
  | dtlsKeepalive (sn : Nat)
  /-- DTLS_RETRANSMIT (R408). -/
  | dtlsRetransmit (sn : Nat) (r : Byte)
  /-- DTLS_IDLE_TIMEOUT (R388). -/
  | dtlsIdleTimeout (sn : Nat)
  /-- EXPORT_STREAM_SEND (R415). -/
  | exportStreamSend (sub : BitVec 6)
  /-- MGT_SNAPSHOT_EVAL (R391). -/
  | mgtSnapshotEval
  /-- FORCE_TIMEOUT (R245). -/
  | forceTimeout (slot : BitVec 2)
  /-- OLC_SWAP_BOUNDARY (R265). -/
  | olcSwapBoundary
  /-- STAGING_TRANSFER_DONE (R23). -/
  | stagingTransferDone (target : StagingTo)
  /-- RECORD_INTAKE (R467). -/
  | recordIntake
  /-- COALESCE_WINDOW_EXPIRY (R467). -/
  | coalesceWindowExpiry (r : RecRing)
  /-- PAGE_COMMIT (R468). -/
  | pageCommit (r : RecRing)
  /-- FREEZE_EXPIRY (R472). -/
  | freezeExpiry
  /-- LOG_FREEZE_BIT (R472). -/
  | logFreezeBit
  /-- LOG_UNFREEZE_BIT (R472). -/
  | logUnfreezeBit
  /-- LOG_CURSOR_WRITE (R473). -/
  | logCursorWrite (ctrl : Bool) (v : W32)
  /-- LOG_WIN_LOAD_DONE (R473). -/
  | logWinLoadDone
  /-- LOG_WIN_AUTO_READ (R473). -/
  | logWinAutoRead
  /-- CVU_ENABLE_WRITE (R451). -/
  | cvuEnableWrite (u : BitVec 4) (v : W32)
  /-- CVU_OPEN_WRITE (R454). -/
  | cvuOpenWrite (u : BitVec 4)
  /-- CVU_CLOSE_WRITE (R454). -/
  | cvuCloseWrite (u : BitVec 4) (bytes : List Byte)
  /-- CVU_RESULT_ACK_WRITE (R457). -/
  | cvuResultAckWrite (u : BitVec 4) (v : W32)
  /-- CVU_WINDOW_CLOSE (R455). -/
  | cvuWindowClose (u : BitVec 4) (bytes : List Byte)
  /-- CVU_UNIT_TEST (R459). -/
  | cvuUnitTest (u : BitVec 4)
  /-- UPD_BANK_STEP (R537). -/
  | updBankStep (readBackOk : Bool)
  /-- MGT_BANK_SWAP (R538). -/
  | mgtBankSwap (confirms : Bool)
  /-- STAR_STEP_TIMEOUT (R539). -/
  | starStepTimeout (ch : Chan)
  /-- VIO_FIRMWARE_SWAP (R540). -/
  | vioFirmwareSwap
  /-- VOTER_MICROCODE_SWAP (R541). -/
  | voterMicrocodeSwap
  /-- ROM_BLOCK_GO (R550). -/
  | romBlockGo (index : BitVec 16) (crc : W32) (block : List Byte)
  /-- RECOVERY_DATAGRAM (R551). -/
  | recoveryDatagram (index : W32) (crc : W32) (block : List Byte)
  /-- SHUTDOWN_BIST_DONE (R515). -/
  | shutdownBistDone
  /-- LANE_TEST_DONE (R518). -/
  | laneTestDone (l : Lane) (found : DieTest)
  /-- BELAY_TEST_STEP (R519). -/
  | belayTestStep (step : BelayStep)
  /-- NAND_SCRUB_REGION (R514). -/
  | nandScrubRegion (region : Byte) (done : Bool)
  /-- FUSE_BURN_DONE (R513). -/
  | fuseBurnDone (unburnt : List Nat) (again : DieRun)
  /-- SYS_RESET_ASSERT (R424). -/
  | sysResetAssert
  /-- SYS_NOP (R424). -/
  | sysNop (c : CmdHdr) (echo : W32)
  /-- SYS_REG_READ (R424). -/
  | sysRegRead (c : CmdHdr) (off : W32) (count : BitVec 16)
  /-- SYS_RING_CREATE (R425). -/
  | sysRingCreate (c : CmdHdr) (q : RingParam)
  /-- SYS_RING_DESTROY (R424). -/
  | sysRingDestroy (c : CmdHdr) (r : Byte)
  /-- SYS_SHUTDOWN (R424). -/
  | sysShutdown (c : CmdHdr) (flags : Byte)
  /-- SYS_START (R424). -/
  | sysStart (c : CmdHdr)
  /-- SYS_RESET (R424). -/
  | sysReset (c : CmdHdr)
  /-- SYS_CTRL_RESET (R424). -/
  | sysCtrlReset (c : CmdHdr)
  /-- SYS_TRIP (R424). -/
  | sysTrip (c : CmdHdr)
  /-- SYS_BLOCK_RESET (R424). -/
  | sysBlockReset (c : CmdHdr) (t : Byte)
  /-- CFG_WRITE (R426). -/
  | cfgWrite (c : CmdHdr) (block : Byte) (data : List Byte)
  /-- CFG_READ (R426). -/
  | cfgRead (c : CmdHdr) (block : Byte)
  /-- CFG_SET (R426). -/
  | cfgSet (c : CmdHdr) (id : Byte) (v : W32)
  /-- CFG_GET (R426). -/
  | cfgGet (c : CmdHdr) (id : Byte)
  /-- CFG_KEY_REMOVE (R426). -/
  | cfgKeyRemove (c : CmdHdr) (i : Byte)
  /-- TIM_LATCH (R427). -/
  | timLatch (c : CmdHdr)
  /-- TIM_MAP (R427). -/
  | timMap (c : CmdHdr)
  /-- TIM_PTP (R427). -/
  | timPtp (c : CmdHdr)
  /-- LOG_READ (R428). -/
  | logRead (c : CmdHdr) (r : Byte) (from_ : W32) (count : BitVec 16)
  /-- LOG_FREEZE (R428). -/
  | logFreeze (c : CmdHdr)
  /-- LOG_UNFREEZE (R428). -/
  | logUnfreeze (c : CmdHdr)
  /-- LOG_CLEAR (R475). -/
  | logClear (c : CmdHdr) (r : Byte)
  /-- LOG_STREAM (R428). -/
  | logStream (c : CmdHdr) (sr : Byte) (r : Byte) (from_ : W32)
  /-- LOG_HEALTH (R428). -/
  | logHealth (c : CmdHdr) (l : Byte)
  /-- LOG_CYCLES (R428). -/
  | logCycles (c : CmdHdr) (first : BitVec 16) (count : BitVec 16)
  /-- LOG_BELAY (R428). -/
  | logBelay (c : CmdHdr)
  /-- CVU_CONFIG (R430). -/
  | cvuConfig (c : CmdHdr) (q : CvuParam)
  /-- CVU_READ (R429). -/
  | cvuRead (c : CmdHdr) (u : Byte)
  /-- CVU_READ_ACK (R429). -/
  | cvuReadAck (c : CmdHdr) (u : Byte) (seq : W32)
  /-- CVU_TRIGGER (R429). -/
  | cvuTrigger (c : CmdHdr) (u : Byte) (action : Byte) (bytes : List Byte)
  /-- CVU_DISABLE (R429). -/
  | cvuDisable (c : CmdHdr) (u : Byte)
  /-- FRC_SET (R241). -/
  | frcSet (c : CmdHdr) (id : W32) (v : BitVec 16)
  /-- FRC_CLEAR (R242). -/
  | frcClear (c : CmdHdr) (id : W32)
  /-- FRC_CLEAR_ALL (R242). -/
  | frcClearAll (c : CmdHdr)
  /-- FRC_LIST (R431). -/
  | frcList (c : CmdHdr)
  /-- OLC_LOAD_BEGIN (R433). -/
  | olcLoadBegin (c : CmdHdr) (target : Byte) (len : W32) (crc : W32)
  /-- OLC_LOAD_DATA (R433). -/
  | olcLoadData (c : CmdHdr) (off : W32) (data : List Byte)
  /-- OLC_LOAD_END (R433). -/
  | olcLoadEnd (c : CmdHdr)
  /-- OLC_SWAP (R263). -/
  | olcSwap (c : CmdHdr) (w : W32)
  /-- OLC_CANCEL (R264). -/
  | olcCancel (c : CmdHdr)
  /-- OLC_DISCARD (R433). -/
  | olcDiscard (c : CmdHdr)
  /-- OLC_STATUS (R433). -/
  | olcStatus (c : CmdHdr)
  /-- UPD_BEGIN (R531). -/
  | updBegin (c : CmdHdr) (pkg : W64) (blocks : W32)
  /-- UPD_BLOCK (R532). -/
  | updBlock (c : CmdHdr) (index : W32) (crc : W32) (data : List Byte)
  /-- UPD_BITMAP (R533). -/
  | updBitmap (c : CmdHdr) (first : W32) (count : W32)
  /-- UPD_VERIFY (R534). -/
  | updVerify (c : CmdHdr)
  /-- UPD_ACTIVATE (R537). -/
  | updActivate (c : CmdHdr)
  /-- UPD_ABORT (R535). -/
  | updAbort (c : CmdHdr)
  /-- UPD_COMMIT (R545). -/
  | updCommit (c : CmdHdr) (fuseOk : Bool)
  /-- UPD_REVERT (R546). -/
  | updRevert (c : CmdHdr)
  /-- UPD_STATUS (R536). -/
  | updStatus (c : CmdHdr)
  /-- REQ_WRITE (R435). -/
  | reqWrite (c : CmdHdr) (a : W32) (count : Byte) (flags : Byte) (v : BitVec 16)
  /-- REQ_PULSE (R439). -/
  | reqPulse (c : CmdHdr) (a : W32) (count : Byte) (flags : Byte) (v : BitVec 16) (hold : Byte)
  /-- REQ_WRITE_MULTI (R435). -/
  | reqWriteMulti (c : CmdHdr) (flags : Byte) (es : List (W32 × Byte × BitVec 16))
  /-- REQ_READ (R435). -/
  | reqRead (c : CmdHdr) (a : W32) (bits : W32)
  /-- LNK_CFG_WRITE (R440). -/
  | lnkCfgWrite (c : CmdHdr) (block : Byte) (data : List Byte)
  /-- LNK_CFG_READ (R440). -/
  | lnkCfgRead (c : CmdHdr) (block : Byte)
  /-- LNK_SCHED_CHANGE (R326). -/
  | lnkSchedChange (c : CmdHdr) (t : Byte)
  /-- LNK_PORT_POWER (R355). -/
  | lnkPortPower (c : CmdHdr) (ch : Byte) (p : Byte) (on : Byte)
  /-- LNK_PORT_UNLOCK (R440). -/
  | lnkPortUnlock (c : CmdHdr) (ch : Byte) (p : Byte)
  /-- LNK_PORT_STATUS (R440). -/
  | lnkPortStatus (c : CmdHdr) (ch : Byte) (first : Byte) (count : Byte)
  /-- LNK_CHANNEL_POWER (R45). -/
  | lnkChannelPower (c : CmdHdr) (ch : Byte) (on : Byte)
  /-- LNK_CP_SUB (R334). -/
  | lnkCpSub (c : CmdHdr) (sub : Byte) (en : Byte) (vector : Byte) (off : W32) (div : W32)
  /-- EXP_SUBSCRIBE (R442). -/
  | expSubscribe (c : CmdHdr) (q : SubParam)
  /-- EXP_UNSUBSCRIBE (R443). -/
  | expUnsubscribe (c : CmdHdr) (sub : Byte)
  /-- EXP_LIST (R443). -/
  | expList (c : CmdHdr)
  /-- EXP_READ (R444). -/
  | expRead (c : CmdHdr) (off : W32) (len : W32)
  /-- TST_ROTATE (R445). -/
  | tstRotate (c : CmdHdr) (l : Byte)
  /-- TST_STATUS (R522). -/
  | tstStatus (c : CmdHdr)
  /-- TST_FUSE_REPAIR (R513). -/
  | tstFuseRepair (c : CmdHdr) (l : Byte)
  /-- TST_SHUTDOWN_RECORD (R516). -/
  | tstShutdownRecord (c : CmdHdr)
  /-- DBG_ATTACH (R446). -/
  | dbgAttach (c : CmdHdr) (l : Byte)
  /-- DBG_DETACH (R560). -/
  | dbgDetach (c : CmdHdr)
  /-- DBG_HALT (R562). -/
  | dbgHalt (c : CmdHdr)
  /-- DBG_RESUME (R564). -/
  | dbgResume (c : CmdHdr)
  /-- DBG_READ (R561). -/
  | dbgRead (c : CmdHdr) (space : Byte) (a : W32) (len : W32)
  /-- DBG_WRITE (R561). -/
  | dbgWrite (c : CmdHdr) (space : Byte) (a : W32) (data : List Byte)
  /-- ILLEGAL_OPCODE (R107). -/
  | illegalOpcode (l : Lane) (e : BitVec 5) (h : Hw)
  /-- NET_LINK_CHANGE (R375). -/
  | netLinkChange (port : BitVec 3) (up : Bool) (ingress egress : Nat)
  /-- PERST_N (R567). -/
  | perstN
  /-- DTLS_ALERT (R408). -/
  | dtlsAlert (sn : Nat)
  /-- DELAY_REQ_SEND (R362). -/
  | delayReqSend (port : Nat) (sec : Bool) (p2p : Bool)
  /-- ARP_ICMP_ECHO (R375). -/
  | arpIcmpEcho (port : BitVec 2) (frame : List Byte)
  /-- MGT_BOOT_COMPLETE (R498). -/
  | mgtBootComplete (bankOk : Bool) (otherOk : Bool)
  /-- START_LOAD_COMPLETE (R141). -/
  | startLoadComplete (componentsOk : Bool)
  /-- DIE_BIST_DONE (R515). -/
  | dieBistDone (block : BitVec 4) (found : DieTest)
  /-- MBX_RESET_DONE (R393). -/
  | mbxResetDone
  /-- PORT_DOWN_DEGRADED (R559). -/
  | portDownDegraded (ch : Chan) (p : BitVec 6)
  /-- SUPPLY_RECOVERY (R232). -/
  | supplyRecovery (v : BitVec 16) (ticks : Nat)
  deriving DecidableEq, Repr

end Sys2Proof
end

