-- ==== Sys2Proof/Decode.lean ====
section
/-! DEFINITION. Words of commands, and words of engine instructions. The table gives no row any bits, so no word spells a
command; the 32-bit words that the engines fetch are decoded here (R81, R82). -/

namespace Sys2Proof

/-- The command that a word spells by the table's bits: the table gives no row bits, so none (log entry 7). -/
def decodeTableWord (_nbits _w : Nat) : Option Instr := none

/-- The opcode field of an instruction word (R81). -/
def opcodeOf (w : W32) : Nat := (w >>> 26).toNat

/-- The fields of an instruction word beside OPC (R81). -/
def argOf (w : W32) : EngArg :=
  ⟨w.getLsbD 25, BitVec.ofNat 2 (field w.toNat 23 2), w.getLsbD 22, BitVec.ofNat 22 (field w.toNat 0 22)⟩

/-- An instruction word from its opcode and fields (R81). -/
def engWord (opc : Nat) (x : EngArg) : W32 :=
  BitVec.ofNat 32 (opc * 2 ^ 26 + b2n x.m3 * 2 ^ 25 + x.cmp.toNat * 2 ^ 23 + b2n x.n * 2 ^ 22 + x.opd.toNat)

/-- The defined opcodes (R82). -/
def definedOpcodes : List Nat :=
  [0x01, 0x02, 0x03, 0x04, 0x05, 0x06, 0x07, 0x08, 0x09, 0x0A, 0x0B, 0x0C, 0x0D, 0x0E, 0x10, 0x11, 0x18, 0x19, 0x1A,
   0x1C, 0x1D, 0x1E, 0x20, 0x21]

/-- OPC is in the opcode map (R82). -/
def opcodeDefined (opc : Nat) : Bool := definedOpcodes.contains opc

end Sys2Proof
end

