-- ==== Sys2Proof/Config.lean ====
section
/-! DEFINITION. What one module fixes and the spec does not give: identity values, cryptography, and the free values
(log entries 1, 2 and 6). Nothing here has a body that a proof could read, but the constants the spec states. -/

namespace Sys2Proof.Config

open Sys2Proof

/-- Free values: what the spec leaves open is one of these, drawn in the order of State.free (log entry 1). -/
opaque freeValue : Nat → W64

/-- HW_REVISION, MBX_MINOR and the 64-bit serial number (R390: per module, per firmware). -/
opaque hwRevision : BitVec 16
opaque mbxMinor : Byte
opaque serial : W64

/-- IMG_FMT_MIN and IMG_FMT_MAX of a lane firmware version (R390). -/
opaque imgFmtMin : W32 → Nat
opaque imgFmtMax : W32 → Nat

/-- The FMT_VER range an MGT firmware version accepts for a block (R548): block, oldest and current. -/
opaque fmtMin : W32 → Nat → Nat
opaque fmtCur : W32 → Nat → Nat
/-- A single step of an MGT firmware version's migration chain (R548): block, the FMT_VER k that it starts from, the bytes; those of format k + 1,
or none where the step fails. -/
opaque migrateStep : W32 → Nat → Nat → List Byte → Option (List Byte)
/-- A single step for an item without a block of its own succeeds (R547, R548). -/
opaque itemStepOk : W32 → Nat → Nat → Bool

/-- Manifest FMT_VER supported by a boot loader version (R534 row 3). -/
opaque manifestFmtOk : W32 → Nat → Bool

/-- The SHA-384 digest (R139, R528). -/
opaque sha384 : List Byte → List Byte
/-- ECDSA P-384 verification: key, digest, signature (R139, R528). -/
opaque ecdsaOk : List Byte → List Byte → List Byte → Bool
/-- The firmware-signing key of the mask ROM (R528). -/
opaque firmwareKey : List Byte
/-- RFC 3394 unwrap under the device-class key; none where its integrity check fails (R529, R534 row 6). -/
opaque unwrapKey : List Byte → Option (List Byte)
/-- AES-256-CTR over a block: key, nonce, block number, bytes (R529). -/
opaque aesCtr : List Byte → List Byte → Nat → List Byte → List Byte
/-- Whether a certificate is a DER X.509 v3 certificate with an ECDSA P-384 key (R426). -/
opaque certOk : List Byte → Bool

/-- A DTLS peer's certificate chain verifies against a trust anchor, and its handshake with it (R388). -/
opaque peerOk : List Byte → List (List Byte) → Bool
/-- The 64-bit check value over an admission snapshot (R21). -/
opaque admissionCheck : SMap W64 → W64
/-- Codes of record fields that the spec names and does not state: 0 to 2 the event codes for a weak store (R573), a low cell (R582)
and hot inlet air (R584); 3 to 5 the cause of SESSION_CLOSED (R408); 6 and 7 the kind of CAL_FAULT (R349, R350); 8 the event code of a macro or lane without a spare left (R524); from 64 on the source of COLDSTART_REFUSED by rank (R312), 511 where no contender remains. -/
opaque unstatedCode : Nat → Nat

/-- The managed NAND region that a command reads or writes (R419 row 9). -/
opaque nandRegion : Nat → Nat

/-- The phase correction of a servo's virtual clock for an offset (R364). -/
opaque servoPhase : Int → Int
/-- The servo's next FREQ from its offset and FREQ (R364). -/
opaque servoFreq : Int → Int → Int
/-- T_scan in microseconds by its code (R131). -/
def tscanUs : Nat → Nat
  | 0 => 125
  | 1 => 250
  | 2 => 500
  | 3 => 1000
  | _ => 2000

/-- REFCLK ticks per T_scan, 25 per microsecond (R59). -/
def tscanTicks (c : Nat) : Nat := 25 * tscanUs c

/-- The engine budget in cycles at 0.98 GHz (R59). -/
def budget (c : Nat) : Nat := (tscanUs c - 38) * 980

/-- REFCLK ticks of an hour of TB3 (R360). -/
def hourTicks : Nat := 90000000000

end Sys2Proof.Config
end

