-- ==== Sys2Proof/Machine/StateA.lean ====
section
/-! DEFINITION. State of the lanes and of the voter: engines, units, banks and images, commit streams, votes, leases,
cairns, takeover and transfer of seats. Each field names the rule of the spec that gives it. -/

namespace Sys2Proof.Machine

open Sys2Proof

/-! ### The application image (chapter 4) -/

/-- A variable entry (R134). -/
structure VarDecl where
  id : Nat
  addr : Nat
  kind : Nat
  width : Nat
  forceable : Bool
  restr : BitVec 16
  init : BitVec 16
  deriving DecidableEq, Repr, Inhabited

/-- A timer entry (R135). -/
structure TimerDecl where
  id : Nat
  index : Nat
  tkind : Nat
  attr : Nat
  presetMs : Nat
  deriving DecidableEq, Repr, Inhabited

/-- An edge entry (R135). -/
structure EdgeDecl where
  id : Nat
  index : Nat
  ekind : Nat
  prev0 : Bool
  deriving DecidableEq, Repr, Inhabited

/-- A counter entry (R135). -/
structure CounterDecl where
  id : Nat
  index : Nat
  pv : Nat
  rv : Nat
  deriving DecidableEq, Repr, Inhabited

/-- An element entry (R135). -/
structure ElementDecl where
  element : Nat
  ekind : Nat
  cycleBit : Nat
  deriving DecidableEq, Repr, Inhabited

/-- An application image as loaded (R131 to R139). -/
structure Image where
  tscan : Nat
  variants : Nat
  stationId : W32
  imageVer : W32
  compilerVer : W32
  buildTai : Nat
  hdrCrc : W32
  instrCount : Nat
  code : SMap W32
  segments : List (List (Nat × Nat))
  vars : List VarDecl
  timers : List TimerDecl
  edges : List EdgeDecl
  counters : List CounterDecl
  elements : List ElementDecl
  certCycles : Nat
  certTscan : Nat
  phases : List (Nat × Nat)
  barriers : List Nat
  deriving DecidableEq, Repr, Inhabited

/-! ### Lanes (chapters 3 to 5) -/

/-- What an engine is doing in the scan (R79, R104, R108). -/
inductive EngRun where | finished | running | waiting (b : Nat) | faulted
  deriving DecidableEq, Repr, Inhabited

/-- An engine's architected registers (R76) and the cycles it spent in the scan (R88). -/
structure Engine where
  run : EngRun
  acc : Bool
  stack : BitVec 16
  bsd : Nat
  pc : Nat
  seg : Nat
  bar : Option Nat
  cycles : Nat
  deriving DecidableEq, Repr, Inhabited

/-- A timer (R98). -/
structure TimerState where
  run : Bool
  et : W32
  q : Bool
  inp : Bool
  deriving DecidableEq, Repr, Inhabited

/-- A counter (R102). -/
structure CounterState where
  cv : W32
  ciu : Bool
  cid : Bool
  deriving DecidableEq, Repr, Inhabited

/-- Where a lane stands in its scan (R56). -/
inductive LanePhase where | stopped | evaluating | committing | idle
  deriving DecidableEq, Repr, Inhabited

/-- The memories and engines of a lane, in architected polarity (R76 to R80, R113, R150); `writes` is what each engine has written in
the phase in progress, which the other engines do not see yet (R90). Of the supervisor: its registers, its data region by 64-bit word but for
the tables that LaneState holds, and the region as it was last cleaned to memory (R152, R192). -/
structure LaneCore where
  engines : SMap Engine
  vars : SMap W64
  timers : SMap TimerState
  edges : SMap W64
  counters : SMap CounterState
  writes : SMap (SMap Bool)
  supRegs : SMap W64
  supMem : SMap W64
  supClean : SMap W64
  active : Option Image
  shadow : Option Image
  phase : LanePhase
  fwVer : W32
  deriving DecidableEq, Repr, Inhabited

/-- The lane's commit stream and its own lease copy (R145, R146, R182, R184). -/
structure LaneCommit where
  pos : Halves Nat
  withdraw : Option Nat
  withdrawnTo : Halves Bool
  leaseSeat : Option Seat
  leaseId : BitVec 16
  leaseExpiry : Scn
  renewBad : Bool
  deriving DecidableEq, Repr, Inhabited

/-- What a lane keeps of a node on a channel (R284, R289, R296, R297): LAST, ECHO, cycles missed, failures by row, the
upframe accepted and its cycle, the cycle of the last record checked, whether the channel was valid at the latch, flags, and the schedule it acknowledged. -/
structure NodeLink where
  last : Option (BitVec 8)
  echo : BitVec 8
  misses : Nat
  fails : SMap Nat
  got : Option (BitVec 8)
  gotAt : Nat
  seenAt : Option Nat
  payload : List Byte
  valid : Bool
  nfault : Bool
  nrestr : Bool
  ack : Option Nat
  deriving DecidableEq, Repr, Inhabited

/-- The lane's boundary link of one port (R122, R123, R380); `got` is the telegram accepted in cycle `gotAt`, `firsts` counts telegrams with
FIRST. -/
structure LaneBoundary where
  age : Nat
  last : Option (BitVec 32)
  candidate : Option (BitVec 32)
  got : Option (List Byte)
  gotAt : Nat
  firsts : Nat
  deriving DecidableEq, Repr, Inhabited

/-- A force in the force table (R238, R239). -/
structure Force where
  value : BitVec 16
  any : Bool
  deriving DecidableEq, Repr, Inhabited

/-- The vote state of a lane (R171). -/
inductive LaneVote where
  | absent | starting | seated | resync | verify | vacated | failed | belay
  deriving DecidableEq, Repr, Inhabited

/-- The health report of a lane (R173, R428); `failedAt` is TB3 whole hours and fraction. -/
structure LaneHealth where
  oddValue : Nat
  oddLate : Nat
  oddSeq : Nat
  withdrawals : SMap Nat
  latent : Nat
  resyncStarted : Nat
  resyncDone : Nat
  resyncFailed : Nat
  failedAt : Option (Nat × Nat)
  lastCause : Nat
  corrected : Nat
  deriving DecidableEq, Repr, Inhabited

/-- A lane's own tests since its domain left reset, as its health reports give them (R198, R519): `steps` are the logic BIST steps of the run
in progress, `trial` the repairs that wait for their retest. -/
structure LaneTest where
  seq : W32
  lbistRuns : W32
  mbistRuns : W32
  misr : W64
  steps : Nat
  lbistFail : Bool
  mbistFail : Bool
  trial : List Repair
  corrected : W32
  sentAt : Option Nat
  deriving DecidableEq, Repr, Inhabited

/-- A schedule change as a lane holds it: its schedule, the scan that carried it, and what the lane has decided (R327, R328). -/
structure LaneChange where
  t : Nat
  a : Scn
  decided : Option Bool
  deriving DecidableEq, Repr, Inhabited

/-- A lane. -/
structure LaneState where
  core : LaneCore
  commit : LaneCommit
  nodes : SMap NodeLink
  change : Option LaneChange
  bnd0 : LaneBoundary
  bnd1 : LaneBoundary
  forces : SMap Force
  listen : Duo Nat
  cseq : Duo (BitVec 8)
  notice : Duo W32
  coldTx : Duo (Option (List Byte))
  presets : SMap W32
  edgeFresh : List Nat
  health : LaneHealth
  selfTest : LaneTest
  deriving DecidableEq, Repr, Inhabited

/-! ### The vote (chapter 5) -/

/-- What a voter half has of one seat for one word. -/
inductive VoteVal where | absent | value (v : W64) | wrong (v : W64) | late | withdrawal (cause : Byte)
  deriving DecidableEq, Repr, Inhabited

/-- A half's judgement of a seat for a word (R155, R163). -/
inductive Judgement where | open_ | agreeing | oddValue | oddSeq | late | withdrawn
  deriving DecidableEq, Repr, Inhabited

/-- One word in a voter half: when its skew window opened, the seats' records, the judgements, the voted value. -/
structure WordVote where
  opened : Option Nat
  arrived : Tri (Option Nat)
  vals : Tri VoteVal
  judged : Tri Judgement
  voted : Option W64
  closed : Bool
  deriving DecidableEq, Repr, Inhabited

/-- A voter half's state of the scan in progress: the word due from each lane, the words, the seats judged out. -/
structure HalfVote where
  due : Quad Nat
  words : SMap WordVote
  out : Tri (Option Nat)
  shadow : SMap W64
  shadowOdd : Quad Bool
  timely : Bool
  deriving DecidableEq, Repr, Inhabited

/-! ### Seats (chapter 6) -/

/-- Seat states (R186). -/
inductive SeatMode where | vacant | held | opened | handover
  deriving DecidableEq, Repr, Inhabited

/-- A lease record (R181); `ended` once its expiry has been recorded (R188). -/
structure Lease where
  holder : Lane
  id : BitVec 16
  grant : Scn
  expiry : Scn
  revoked : Bool
  ended : Bool
  deriving DecidableEq, Repr, Inhabited

/-- A seat: its state, the lane it is held open for, the idle parts used for it, whether its verification scan runs, and
the lease records of both halves; `fw` is the lane firmware version that the last holder ran (R194). -/
structure SeatState where
  mode : SeatMode
  lease : Halves (Option Lease)
  openFor : Option Lane
  openScans : Nat
  verifying : Bool
  fw : Option W32
  deriving DecidableEq, Repr, Inhabited

/-- A ready word as a half received it (R182). -/
structure ReadyWord where
  leaseId : BitVec 16
  renew : Bool
  shadowCrc : W32
  deriving DecidableEq, Repr, Inhabited

/-- A cairn: the 532 blocks of one lane (R166, R190), and voter half Y's digests of them (R191). -/
structure Cairn where
  scn : Scn
  image : LaneState
  digests : SMap W64
  deriving DecidableEq, Repr, Inhabited

/-- A cairn capture in progress (R192): the source's rope buffer, its block digests as announced, the blocks to be sent, and how many
bytes of them the rope has carried. -/
structure Capture where
  source : Lane
  scn : Scn
  snapshot : LaneState
  digests : SMap W64
  failed : Nat
  blocks : List Nat
  sent : Nat
  deriving DecidableEq, Repr, Inhabited

/-- Why a lane without a seat is being brought up (R200, R204, R206). -/
inductive JoinFor where | takeover | handback | rotation
  deriving DecidableEq, Repr, Inhabited

/-- How far it is: loading the cairn, joined and catching up, its copy complete, in its scan of comparison, waiting for the
boundary. -/
inductive JoinStep where | loading | waitRelease | catchUp | copied | compare | handover (c : Scn)
  deriving DecidableEq, Repr, Inhabited

/-- A takeover, handback or rotation in progress (R200 to R206); `sent` counts the bytes of the cairn that the rope has carried. -/
structure Join where
  lane : Lane
  seat : Seat
  why : JoinFor
  step : JoinStep
  start : Scn
  sent : Nat
  deriving DecidableEq, Repr, Inhabited

/-- What a comparator-test injection does (R177): flips of two output-word bits, a record held back, flips of two state-digest bits. -/
inductive InjectKind where | outputs | held | digest
  deriving DecidableEq, Repr, Inhabited

/-- A comparator-test injection of the silent scan in progress (R177): where it is made, the bit position it starts from, the word held
back, and the flips made so far, of a bit that held 1 and of one that held 0, each with its word. -/
structure Injection where
  half : Half
  target : Seat
  kind : InjectKind
  pos : Nat
  word : Nat
  one : Option (Nat × Nat)
  zero : Option (Nat × Nat)
  deriving DecidableEq, Repr, Inhabited

/-- The comparator test of a start (R177, R178, R180). `clear` says that the values latched at the cycle instant of the silent scan in progress
have every trip-class channel in order, and `tripClassRun` counts such scans (R232). -/
structure StartTest where
  silent : Nat
  cands : Tri (Option Lane)
  ineligible : Tri Bool
  injection : Option Injection
  detected : Halves (List (Nat × Nat))
  tripClassRun : Nat
  clear : Bool
  deriving DecidableEq, Repr, Inhabited

/-- Diversity of the voting seats (R174 to R176). `remain` is DIV_REMAIN of the retention SRAM, in 2^-16 hours (R486), as of
TB3 tick `since` while the flag is set; `both` is when both polarities began to vote. -/
structure Diversity where
  lackRun : Nat
  lost : Bool
  hours : Nat
  since : Nat
  both : Option Nat
  remain : Nat
  deriving DecidableEq, Repr, Inhabited

/-- The voted words of a scan, as both halves voted them equal (R154), those that a half delivers otherwise because of its output
forces (R243, R247), and the code lanes (R292). -/
structure VotedScan where
  scn : Scn
  words : SMap W64
  forced : Halves (SMap W64)
  codeLanes : List (Lane × BitVec 16)
  silent : Bool
  deriving DecidableEq, Repr, Inhabited

/-- The voter: both halves and what they share over the cross-bridge; `slots` are the lanes that voted for the seats as the scan began,
`copyEnd` the tick at which the copy into a lane in this scan's idle part ends (R167, R195). -/
structure Voter where
  running : Bool
  scn : Scn
  released : Bool
  halves : Halves HalfVote
  seats : Tri SeatState
  nextLease : Halves (BitVec 16)
  laneVote : Quad LaneVote
  resyncAt : Quad (List Nat)
  ready : Halves (Quad (Option ReadyWord))
  now : VotedScan
  last : VotedScan
  cairn : Option Cairn
  capture : Option Capture
  join : Option Join
  test : StartTest
  diversity : Diversity
  belay : Option (BelayReport × Nat)
  firstScan : Bool
  votedRun : Bool
  votingSeats : Nat
  slots : Tri (Option Lane)
  copyEnd : Quad (Option Nat)
  fwVer : Halves W32
  deriving DecidableEq, Repr, Inhabited

/-- Seat rotation and in-service test (R206 to R209); `waiting` holds the lanes that come due while an activation holds rotations off (R556), `fwFails` counts failures in a row of one lane's catch-up with new firmware
(R542), `deferred` is the TB3 tick since which the rotation at the head of the queue has been deferred (R209). -/
structure Rotation where
  queue : List Lane
  waiting : List Lane
  active : Option Lane
  testing : Bool
  forFirmware : Bool
  fwFails : Nat
  deferred : Option Nat
  lastAt : Nat
  intervalHours : Nat
  requested : Option Nat
  excluded : Quad Bool
  deriving DecidableEq, Repr, Inhabited

/-- The admission gate between MGT and the voter (R19 to R21, R125 to R127); `cut` is the staging copy as the snapshot's cut-off found it,
where MGT has written since (R54). -/
structure Admission where
  staging : SMap W64
  snapshot : SMap W64
  xCheck : W64
  yCheck : W64
  laneOk : Quad Bool
  discard : Bool
  taken : Bool
  cut : Option (SMap W64)
  deriving DecidableEq, Repr, Inhabited

/-- A follower of cycle-instant marks (R30, R31): its last cycle instant in ns of REFCLK time, the cycle count that went with it, and
whether it has had one since its domain left reset, so that it can predict the next. -/
structure FollowerState where
  source : MarkSource
  missed : Nat
  runNet : Nat
  runX : Nat
  ciNs : Nat
  cycle : Nat
  seen : Bool
  deriving DecidableEq, Repr, Inhabited

/-- A limit condition (R37 to R41): whether it stands, the readings in limit since, the island it concerns (of a temperature the hotter of
its pair), and the reading that last counted towards its clearance. -/
structure LimitState where
  out : Bool
  inRun : Nat
  who : Nat
  last : W32
  deriving DecidableEq, Repr, Inhabited

end Sys2Proof.Machine
end

