-- ==== Sys2Proof/Machine/StateB.lean ====
section
/-! DEFINITION. State of vital I/O, the switch bank, trips, forces, online change, the stars and the field nodes. -/

namespace Sys2Proof.Machine

open Sys2Proof

/-! ### Vital I/O (chapter 7) -/

/-- A contact of a VIN channel (R213 to R215): its filtered state, the run of unmasked samples of one raw level that its filter counts, the tick
of the last sample it has seen, and the TB1 slot, from 1, that it was last tested in. -/
structure Contact where
  closed : Bool
  fault : Bool
  passes : Nat
  raw : Bool
  run : Nat
  upTo : Nat
  slot : Nat
  deriving DecidableEq, Repr, Inhabited

/-- A VIN channel's evaluation (R216). -/
structure VinState where
  a : Contact
  b : Contact
  value : Bool
  contactA : Bool
  contactB : Bool
  discrepant : Bool
  differSince : Option Nat
  deriving DecidableEq, Repr, Inhabited

/-- A VIN_CFG entry (R212). -/
structure VinCfg where
  use : Nat
  trip : Bool
  filter : Nat
  discMs : Nat
  deriving DecidableEq, Repr, Inhabited

/-- A VOUT_CFG entry (R212). -/
structure VoutCfg where
  use : Bool
  loadNom : Nat
  deriving DecidableEq, Repr, Inhabited

/-- A VOUT or MODULE_ALIVE (R219 to R226); the cause of FAILED is coded as in R476. -/
structure VoutState where
  commanded : Bool
  gate : Bool
  xTrain : Bool
  yTrain : Bool
  failed : Option Nat
  retest : Bool
  changedAt : Nat
  learnSum : Nat
  learnCount : Nat
  learned : Nat
  offRun : Nat
  testing : Bool
  deriving DecidableEq, Repr, Inhabited

/-- A switch pole as a half reads it (R227). -/
structure Pole where
  debounced : Option Bool
  level : Bool
  run : Nat
  deriving DecidableEq, Repr, Inhabited

/-- Vital I/O (chapter 7). `reading` and `loopAt` are the last loop reading and its tick (R229); the `cal` fields are what the two references read
at the last calibration, and its tick (R224). -/
structure VioState where
  vinCfg : SMap VinCfg
  voutCfg : SMap VoutCfg
  cfgValid : Bool
  vin : SMap VinState
  capture : W64 × W64
  vout : SMap VoutState
  reading : Nat
  loop : Nat
  loopAt : Option Nat
  calZero : Int
  calFull : Int
  calAt : Option Nat
  fwVer : W32
  deriving DecidableEq, Repr, Inhabited

/-- The sealed switch bank and its loop word (R227 to R231); `sampled` is the tick of each half's last sample. -/
structure SealState where
  poles : Halves (SMap Pole)
  sampled : Halves (Option Nat)
  diffSince : SMap Nat
  fault : Bool
  s1AtStart : Bool
  s8AtStart : Bool
  judged : Bool
  deriving DecidableEq, Repr, Inhabited

/-- What a star has answered to a trip (R233). -/
inductive StarConfirm where | pending | notRunning | confirmed (ticks : Nat) | missed
  deriving DecidableEq, Repr, Inhabited

/-- A trip (R232 to R236). Bit c - 6 of `mask` is trigger RESTART_CAUSE c, bit 9 is R176. -/
structure TripState where
  inForce : Bool
  mask : BitVec 16
  t0 : Nat
  scn : Scn
  ctrlReset : Bool
  confirm : Duo StarConfirm
  recorded : Bool
  supplyLow : Bool
  supplyOkSince : Option Nat
  deriving DecidableEq, Repr, Inhabited

/-! ### Forces and online change (chapter 8) -/

/-- A force request as MGT holds it (R243, R245, R254, R432): its slot (none while it waits for one), the scans since it
was written there, and, once acted on, its status, its scan and the forces removed. -/
structure ForceReq where
  cmd : CmdRef
  slot : Option Nat
  fseq : BitVec 16
  fop : Nat
  varId : Nat
  value : BitVec 16
  scans : Nat
  result : Option (Status × Scn × Nat)
  deriving DecidableEq, Repr, Inhabited

/-- Forcing (R237 to R255): the table of each half, per slot the FSEQ of the previous scan and the last one acted on with
its result, the same of the online-change field, MGT's requests, the stored forces with value, KIND and WIDTH, and the forces with
their bit addresses that acted when the last run ended, until the next start has judged them (R252). -/
structure ForceState where
  out : Halves (SMap Force)
  slotPrev : SMap (BitVec 16)
  slotSeen : SMap (BitVec 16)
  slotResult : SMap Nat
  oseqPrev : BitVec 16
  oseqSeen : BitVec 16
  oseqResult : Nat
  nextFseq : BitVec 16
  pending : List ForceReq
  stored : SMap (BitVec 16 × Nat × Nat)
  prior : SMap (Force × Nat)
  pAnyLast : Bool
  active : Bool
  deriving DecidableEq, Repr, Inhabited

/-- Online-change states (R255). -/
inductive OlcMode where | idle | staged | swapping
  deriving DecidableEq, Repr, Inhabited

/-- An entry of the transfer map (R257). -/
structure MapEntry where
  id : Nat
  etype : Nat
  pos : Nat
  deriving DecidableEq, Repr, Inhabited

/-- An image load in progress: target, length, HDR_CRC, and the pieces received, latest first (R433). -/
structure OlcLoad where
  target : Nat
  len : Nat
  crc : W32
  pieces : List (Nat × List Byte)
  deriving DecidableEq, Repr, Inhabited

/-- What a certificate fails in, as the refusal record names it (R138): the TSCAN field, the PHASES field, a phase, the total. -/
inductive CertItem where | tscan | phases | phase (p : Nat) | total
  deriving DecidableEq, Repr, Inhabited

/-- Online change (R256 to R270, R433): the staged image, or the one on the staging path while `loadCmd` waits; what the
certificate of the last image refused fails in. -/
structure OlcState where
  mode : OlcMode
  image : Option Image
  map : List MapEntry
  digest : W64
  w : Scn
  swapCmd : Option CmdRef
  cancelCmd : Option CmdRef
  load : Option OlcLoad
  loadCmd : Option CmdRef
  restage : Bool
  swapped : Bool
  oseq : BitVec 16
  certItem : Option CertItem
  deriving DecidableEq, Repr, Inhabited

/-! ### Stars (chapters 9 to 11) -/

/-- A PORT_CFG entry (R274). -/
structure PortCfg where
  use : Bool
  mode : Nat
  level : Bool
  n : Nat
  cableM : Nat
  deriving DecidableEq, Repr, Inhabited

/-- A SCHED_PORT entry (R322). -/
structure SchedPort where
  apNs : Nat
  lMax : Nat
  req : Bool
  cpo : List Nat
  deriving DecidableEq, Repr, Inhabited

/-- A BND_PORT entry (R376). -/
structure BndCfg where
  localId : BitVec 16
  partnerId : BitVec 16
  en : Bool
  ptpP : Bool
  ptpS : Bool
  p2p : Bool
  twoStep : Bool
  asym : Int
  deriving DecidableEq, Repr, Inhabited

/-- The link configuration and schedule blocks in force (R274, R322), and the boundary entries that the voter halves and lanes
run from (R376). -/
structure LinkCfg where
  linkId : BitVec 16
  ports : SMap PortCfg
  count : Nat
  start : Nat
  cscapA : W64
  cscapB : W64
  sched : SMap SchedPort
  bnd : SMap BndCfg
  deriving DecidableEq, Repr, Inhabited

/-- Port states (R336). -/
inductive PortMode where | disabled | off | linkDown | integrating | active | isolated | locked
  deriving DecidableEq, Repr, Inhabited

/-- A star port (R336 to R350). `dly` is held at 1/16 ns; `quiet` is the cycle of the last frame start of an isolated port,
`tookAt` the cycle of the last accepted upframe, `downSince` when the port left INTEGRATING and ACTIVE (R559). -/
structure PortState where
  mode : PortMode
  linkUp : Bool
  txc : Int
  dly : Nat
  seeded : Bool
  slew : Option Nat
  calFault : Bool
  vcount : Nat
  isoAt : List Nat
  edgeCnt : Nat
  quiet : Nat
  samples : List Nat
  outliers : List Nat
  outRange : Nat
  inRun : Nat
  fcsErrors : Nat
  falseCarrier : Nat
  lastSched : Option Nat
  lastForce : Bool
  tookAt : Option Nat
  isoCal : Bool
  isoCycle : Option Nat
  downSince : Option Nat
  deriving DecidableEq, Repr, Inhabited

/-- A cold-start frame in contention (R312): its rank, its start in ns on the star's timestamp, its schedule, the port of a node's, its bytes. -/
structure ColdFrame where
  rank : Nat
  startNs : Nat
  sched : Nat
  port : Option Nat
  bytes : List Byte
  deriving DecidableEq, Repr, Inhabited

/-- Star channel states (R307). -/
inductive ChanMode where | down | coldStart | nodeLed | running
  deriving DecidableEq, Repr, Inhabited

/-- A star channel (R307 to R319, R336 to R353). -/
structure StarState where
  mode : ChanMode
  leader : Option Lane
  applied : Nat
  annSched : Nat
  annCnt : Nat
  named : Bool
  ports : SMap PortState
  contention : List ColdFrame
  coldSince : Nat
  winner : Option ColdFrame
  firstAfter : Nat
  codes : List CodeRec
  syncs : List SyncRec
  substitution : Bool
  txFaults : Nat
  txFaultCycle : Option Nat
  isolatedAll : Bool
  reintAt : Option Nat
  beaconOf : Option Nat
  sent : SMap DownFrame
  deriving DecidableEq, Repr, Inhabited

/-- What else a star holds: lanes it reported (R294, R317), autonomous continuation (R319), a cycle made restrictive by a
bridge fault (R35), its firmware, its FIELD_ASYM entries once MGT has handed them over (R374, R376), port tests, the latest upframe record of each port
(R295), and the cold-start frame it has forwarded on the wire (R313). -/
structure StarAux where
  odd : List (Lane × Nat)
  autonomous : Bool
  restrAll : Bool
  badFor : Option Nat
  fwVer : W32
  asym : Option (SMap Int)
  selfTest : SMap Bool
  passed : SMap UpRecord
  coldSent : SMap (List Byte)
  /-- The hour of TB3 in which each port was last tested (R514). -/
  testedIn : SMap Nat
  deriving DecidableEq, Repr, Inhabited

/-- Node link states (R303). -/
inductive NodeLinkMode where | init | listen | sync | active
  deriving DecidableEq, Repr, Inhabited

/-- How a node classed a frame (R301). -/
inductive RxClass where | ignored | beaconRestr | beaconBad | normal
  deriving DecidableEq, Repr, Inhabited

/-- A node's state on one channel (R300 to R306): the cycles it entered SYNC and ACTIVE in, the USEQ of its latest upframes by cycle,
DLY and TXC of its last beacon, the start in ns of this cycle's first beacon, whether it brought one, the payload of this cycle's valid normal
downframe where it counts, whether the end of this cycle has been taken, and its last upframe with its start in ns. -/
structure NodeChan where
  mode : NodeLinkMode
  missed : Nat
  echoBad : Nat
  first : Bool
  syncAt : W32
  activeAt : W32
  useq : BitVec 8
  sentUseq : List (W32 × BitVec 8)
  dly : Nat
  txc : Int
  beacon : Bool
  beaconAt : Nat
  rx : Option (List Byte)
  lastNormal : BitVec 8
  ended : Bool
  tx : Option (Nat × List Byte)
  deriving DecidableEq, Repr, Inhabited

/-- A field node (R300 to R306, R325, R329): its cycle instant in ns of REFCLK time, the SCHED of this cycle's beacons, the
schedule it acknowledges, the cycle of the announced boundary and the schedule confirmed for it; `samples` are its inputs of this cycle. -/
structure NodeState where
  ch : Duo NodeChan
  cycle : W32
  ci : Nat
  sched : Nat
  heard : Option Nat
  ack : Option Nat
  boundary : Option W32
  confirmed : Option Nat
  deaf : Bool
  muted : Bool
  outputs : List Byte
  nrestr : Bool
  samples : List Byte
  cfg : NodeCfg
  deriving DecidableEq, Repr, Inhabited

/-- A schedule change in progress (R326 to R330), with what the module follows. -/
structure SchedChange where
  cmd : CmdRef
  t : Nat
  a : Option Scn
  confirmed : Option Bool
  deriving DecidableEq, Repr, Inhabited

/-- Schedule in force, schedule change and cycle-point subscriptions with OFFSET, VECTOR and DIVIDE (R320, R326, R334), and one more
than the cycle of each one's last message. -/
structure SchedState where
  inForce : Nat
  change : Option SchedChange
  cpSubs : SMap (Nat × Nat × Nat)
  cpSent : SMap Nat
  deriving DecidableEq, Repr, Inhabited

end Sys2Proof.Machine
end

