-- ==== Sys2Proof/Machine/StateC.lean ====
section
/-! DEFINITION. State of power, time, network, mailbox, check-value units, recorder, start, self-test, update and debug. -/

namespace Sys2Proof.Machine

open Sys2Proof

/-! ### Time and network (chapter 12) -/

/-- REFCLK ticks since TB1's origin, TB2, TB3 and its ticks within the hour (R360, R485), HEARTBEAT and its last change (R391). -/
structure ClockState where
  tick : Nat
  tb2 : Nat
  tb3Hours : Nat
  tb3Ticks : Nat
  hoursPending : Nat
  heartbeat : W32
  beatAt : Nat
  deriving DecidableEq, Repr, Inhabited

/-- A master that Announce messages have shown (R362): its port identity, the port it is heard on, its data set, its log announce interval, and
when its last two Announces came. -/
structure Foreign where
  master : W64 × Nat
  port : Nat
  data : PtpData
  interval : Int
  last : Nat
  prev : Option Nat
  deriving DecidableEq, Repr, Inhabited

/-- A servo (R364). The virtual clock is TB1 + `vOff`. Per port it holds the measured delay, the request in flight, the last Sync's origin and receipt
times, and the log interval and tick of its requests; of FREQ the last 64 computations. -/
structure Servo where
  locked : Bool
  good : Nat
  bad : Nat
  master : Option (W64 × Nat)
  vOff : Int
  offset : Int
  meanDelay : Int
  freq : Int
  freqs : List Int
  foreign : List Foreign
  delays : SMap Int
  pending : Option (Nat × Nat)
  reqAt : SMap (Nat × Nat)
  syncAt : SMap (Int × Int)
  reqEvery : SMap Int
  reqLast : SMap Nat
  lastSync : Nat
  interval : Int
  lockedAt : Nat
  deriving DecidableEq, Repr, Inhabited

/-- The time map (R372). -/
structure TimeMap where
  tb2 : Nat
  sec : Nat
  ns : Nat
  frac : Nat
  state : Nat
  deriving DecidableEq, Repr, Inhabited

/-- The NET time engine (R357 to R370). TB0 is held in units of 2^-16 ns; `ciNext` and `ciMark` are the next and the last
cycle-instant mark of NET in units of 2^-16 ns of REFCLK time, none before it has taken over the running phase (R32). -/
structure TimeState where
  tb0 : Nat
  resid : Int
  valid : Bool
  freq : Int
  mode : TimeMode
  slew : Option Int
  fault : Bool
  p : Servo
  s : Servo
  diff : Option Int
  settled : Bool
  holdSince : Nat
  map : Option TimeMap
  hold : Nat
  ciNext : Option Nat
  ciMark : Option Nat
  deriving DecidableEq, Repr, Inhabited

/-- A NET_PORT entry (R376); `masked` is PREFIX. -/
structure NetPortCfg where
  ip : W32
  gateway : W32
  masked : Nat
  ptpP : Bool
  ptpS : Bool
  p2p : Bool
  twoStep : Bool
  mbx : Bool
  exp : Bool
  asym : Int
  mbxUdp : Nat
  expUdp : Nat
  deriving DecidableEq, Repr, Inhabited

/-- The network configuration block in force (R376). -/
structure NetCfg where
  domP : Nat
  domS : Nat
  revert : Bool
  secEn : Bool
  holdoverS : Nat
  ciPhase : Nat
  net : SMap NetPortCfg
  bnd : SMap BndCfg
  fieldAsym : SMap Int
  deriving DecidableEq, Repr, Inhabited

/-- The network block (R375, R378); `latency` is each PHY's measured ingress and egress in ns (R373), `leaving` the frames of the telegrams sent, `firstCount` counts the telegrams of a port since the control-plane start (R379), `outgoing` are the outgoing boundary images of the last published snapshot (R124). -/
structure NetState where
  cfg : Option NetCfg
  linkUp : SMap Bool
  latency : SMap (Nat × Nat)
  discarded : Nat
  answered : Nat
  sentPdelay : Nat
  sentDelayReq : Nat
  telegramsSent : Nat
  sent : SMap Telegram
  leaving : SMap (List Byte)
  firstCount : SMap Nat
  outgoing : Option (Scn × SMap W64)
  deriving DecidableEq, Repr, Inhabited

/-! ### Mailbox (chapters 13 and 14) -/

/-- A finished command or an event entry (R399). -/
structure Completion where
  ring : Nat
  session : Option Nat
  tag : Nat
  opcode : Nat
  status : Status
  dataDone : Nat
  estMs : Nat
  dup : Bool
  result : List Byte
  data : List Byte
  phase : Bool
  cmdIndex : Nat
  deriving DecidableEq, Repr, Inhabited

/-- A ring (R396, R397, R402, R403, R405). Of a DTLS session MGT holds the command descriptors too (R396). -/
structure RingS where
  rtype : Nat
  state : Nat
  session : Option Nat
  log2 : Nat
  prod : Nat
  cons : Nat
  cplRing : Nat
  vector : Nat
  coalEntries : Nat
  coalUs : Nat
  eventMask : W32
  entrySize : Nat
  base : W64
  unsent : Nat
  firstAt : Option Nat
  lost : Nat
  phase : Bool
  slots : SMap Completion
  descs : SMap Descriptor
  stream : Option (Nat × Nat)
  deriving DecidableEq, Repr, Inhabited

/-- A command in flight (R400). -/
structure InFlight where
  ring : Nat
  session : Option Nat
  tag : Nat
  opcode : Nat
  fence : Bool
  deriving DecidableEq, Repr, Inhabited

/-- A DTLS session (R388, R398, R407, R408): its NET port and peer, the tick of the last datagram from the host, per ring the
retransmissions since the last acknowledgement, the number of the next datagram to the host, and the last datagram sent. -/
structure Session where
  id : Nat
  port : Nat
  peer : W32
  lastRx : Nat
  tries : SMap Nat
  dseq : W32
  datagram : List Byte
  deriving DecidableEq, Repr, Inhabited

/-- An event waiting to be posted (R447). -/
structure EventMsg where
  code : Nat
  result : List Byte
  deriving DecidableEq, Repr, Inhabited

/-- The time read latch (R395). -/
structure TimeLatch where
  netDown : Bool
  seq : BitVec 16
  tb0 : Nat
  tb1 : Nat
  tb2 : Nat
  tb3Hours : Nat
  tb3Frac : Nat
  status : W32
  deriving DecidableEq, Repr, Inhabited

/-- The BAR0 registers that MGT keeps or the host writes (R391, R394). -/
structure RegFile where
  devStatus : W32
  domainState : W32
  seatStatus : W32
  sealStatus : W32
  timeStatus : W32
  startStatus : W32
  laneState : W32
  expLatch : W32
  mbxEn : Bool
  mbxReset : Bool
  admCmd : W64
  admCpl : W64
  admEntries : W32
  alert : BitVec 6
  alertEn : BitVec 6
  scratch : W32
  msixTable : SMap W32
  msixPending : W64
  deriving DecidableEq, Repr, Inhabited

/-- An export subscription (R441 to R443). -/
structure ExpSub where
  dstIp : W32
  dstUdp : Nat
  netPort : Nat
  ranges : List (Nat × Nat)
  divide : Nat
  parts : Nat
  sent : Nat
  abandoned : Nat
  current : Option (Scn × Nat)
  deriving DecidableEq, Repr, Inhabited

/-- A published snapshot (R24, R25, R248, R409, R410). -/
structure Snapshot where
  scn : Scn
  imageCrc : W32
  tripCnt : W32
  fseqDone : SMap (BitVec 16)
  fresult : SMap Nat
  oseqDone : BitVec 16
  oresult : Nat
  diag : SMap NodeLink
  forces : SMap Force
  vars : SMap W64
  deriving DecidableEq, Repr, Inhabited

/-- The export area: two buffers and the current index (R25, R409); `datagram` is the last export datagram sent (R415). -/
structure ExportState where
  buf0 : Option Snapshot
  buf1 : Option Snapshot
  cur : Bool
  valid : Bool
  scn : Scn
  subs : SMap ExpSub
  evaluated : Option Snapshot
  cycleBase : Option Snapshot
  datagram : List Byte
  tripCnt : W32
  deriving DecidableEq, Repr, Inhabited

/-- A REQ_PULSE target (R439) and a command with SNAP = 1 that waits for its snapshot (R438). -/
structure Pulse where
  addr : Nat
  count : Nat
  left : Nat
  deriving DecidableEq, Repr, Inhabited

/-- The mailbox (chapters 13 and 14). -/
structure MbxState where
  ready : Bool
  rings : SMap RingS
  inflight : List InFlight
  finished : List Completion
  events : List EventMsg
  sessions : List Session
  regs : RegFile
  latch : TimeLatch
  turn : Nat
  pulses : List Pulse
  snapWait : List (CmdRef × Option Nat)
  interrupts : List Nat
  trustAnchor : List Byte
  pulseDiscards : Nat
  deriving DecidableEq, Repr, Inhabited

/-! ### Check-value units (chapter 15) -/

/-- A check-value unit (R450). -/
structure Cvu where
  enable : Bool
  point : Nat
  trigger : Nat
  refout : Bool
  refin : Bool
  width : Nat
  filter : Nat
  count : W32
  poly : W64
  init : W64
  xorout : W64
  result : W64
  seq : W32
  valid : Bool
  winOpen : Bool
  cfgErr : Bool
  overrun : BitVec 16
  winBytes : W32
  winScn : W32
  underTest : Bool
  /-- The bytes of the open window so far (R454). -/
  window : List Byte
  /-- Windows that have closed and whose result the unit is still to show, the oldest first, each with the scan in which it closed (R455). -/
  ended : List (W32 × List Byte)
  deriving DecidableEq, Repr, Inhabited

/-! ### Event recorder (chapter 16) -/

/-- What a block reports to MGT for the recorder (R461, R476). -/
structure Report where
  ring : RecRing
  kind : Nat
  code : Nat
  source : Nat
  upt : Nat
  key : List Byte
  detail : List Byte
  deriving DecidableEq, Repr, Inhabited

/-- A recorder record (R461). -/
structure Rec where
  seq : W32
  pcc : Nat
  ophH : Nat
  ophF : Nat
  ev : Report
  rept : Nat
  lastOfs : Nat
  isOpen : Bool
  sat : Bool
  closedAt : Nat
  deriving DecidableEq, Repr, Inhabited

/-- A ring of the recorder (R465): committed records by slot. -/
structure RecRingS where
  next : W32
  count : Nat
  overwritten : Nat
  committed : SMap Rec
  deriving DecidableEq, Repr, Inhabited

/-- The recorder (R461 to R475). -/
structure RecorderState where
  reports : List Report
  vital : RecRingS
  general : RecRingS
  vitalIn : List Rec
  generalIn : List Rec
  freeze : List Rec
  frozen : Bool
  frozenUntil : Nat
  lost : Nat
  lostFirst : Nat
  lostLast : Nat
  lostCause : Nat
  vitalLost : Bool
  vitalLossCount : Nat
  winRing : RecRing
  autoInc : Bool
  winReady : Bool
  cursor : W32
  window : Option (List Byte)
  deriving DecidableEq, Repr, Inhabited

/-- Per-element cycle counters (R477, R478). -/
structure CycleCounters where
  counts : SMap W32
  persisted : SMap W32
  persistedOph : Nat
  deriving DecidableEq, Repr, Inhabited

/-! ### Power, reset and start (chapter 17) -/

/-- The retention SRAM (R486); DIV_REMAIN stands with the diversity of the voter. -/
structure RetSram where
  crcOk : Bool
  bank : Nat
  bankFails : Nat
  evidPcc : W32
  recUsedPcc : W32
  uncommitted : Nat
  deriving DecidableEq, Repr, Inhabited

/-- The retention registers and RESET_N (R485 to R490); `levelSince` is the tick of the last change of its debounced level. -/
structure RetState where
  pcc : W32
  valid : Bool
  stuckReset : Bool
  resetnLevel : Bool
  failedStarts : BitVec 16
  sram : RetSram
  levelSince : Nat
  deriving DecidableEq, Repr, Inhabited

/-- The power sequencer (R43, R479 to R484, R504): when each asserted source was asserted, whether a reset that reaches PD1 and PD5
has not yet been followed by a release of PD1, whether the mask ROM acts as RECOVERY, and when MGT asserts SYS_RESET (R424). -/
structure PowerState where
  domains : SMap DomState
  sources : List ResetSrc
  assertedAt : List (ResetSrc × Nat)
  fullReset : Bool
  recovery : Bool
  sysResetAt : Option Nat
  lastRelease : Nat
  refclkHeld : Bool
  shutdownHold : Bool
  bootCfg : Option Nat
  strapInvalid : Bool
  pcieDown : Bool
  linkMode : Nat
  tb1Restart : Bool
  pccBump : Bool
  deriving DecidableEq, Repr, Inhabited

/-- The station-data store (R252, R346, R426, R478, R487, R516): what survives a loss of power; among it the image marked
active (R141, R267) and the staged image (R256, R268), byte for byte. -/
structure StoreState where
  image : List Byte
  staged : List Byte
  vioBlock : List Byte
  netBlock : List Byte
  linkBlock : List Byte
  schedBlock : List Byte
  keys : SMap (List Byte)
  lockList : List Nat
  pccCopy : W32
  divMirror : Nat
  coalMs : Nat
  freezeS : Nat
  shutdownRunning : Bool
  /-- FMT_VER of the items without a block of their own, by number, as stored: 5 the stored forces, 6 the lock list, 7 the soft repair maps, 8 the
  cycle counters (R547). -/
  itemFmt : SMap Nat
  deriving DecidableEq, Repr, Inhabited

/-- The control-plane start (R497 to R503): the start attempts so far (R177), whether the attempt follows a reset that reaches PD1, and whether MGT boots after its
watchdog. -/
structure StartState where
  attempts : Nat
  inAttempt : Bool
  kind : StartKind
  began : Nat
  bound : Nat
  held : Nat
  runSince : Option Nat
  result : Nat
  backoffUntil : Option Nat
  bivouac : Bool
  loaded : Bool
  booted : Bool
  bistDone : Bool
  service : Bool
  causes : List Nat
  restartCause : Nat
  firstVoted : Scn
  viaMgt : Bool
  wdBoot : Bool
  shutdownPending : Bool
  skipBist : Bool
  storeCharged : Bool
  deriving DecidableEq, Repr, Inhabited

/-! ### Self-test, update, debug, electrical (chapters 18 to 21) -/

/-- The shutdown-BIST record (R516). -/
structure BistRecord where
  complete : Bool
  passed : Bool
  abandoned : Bool
  pcc : W32
  ophH : Nat
  ophF : Nat
  tested : BitVec 16
  lbistFail : BitVec 16
  mbistFail : BitVec 16
  repairNew : Nat
  durationMs : Nat
  uptEnd : Nat
  deriving DecidableEq, Repr, Inhabited

/-- Self-test and repair (chapter 18). `softMap` and `fuseMap` hold the repairs of each block (R512, R513); `belayPart` is the partition or macro
that the belay lane tests (R519, R522), `belayReport` the last
belay report that MGT has received (R198, R428). -/
structure BistState where
  running : Bool
  endAt : Nat
  done : BitVec 16
  lFail : BitVec 16
  mFail : BitVec 16
  repairs : Nat
  startedAt : Nat
  record : Option BistRecord
  softMap : SMap (List Repair)
  fuseMap : SMap (List Repair)
  belayPart : Nat
  nandRegion : Option Nat
  nandEnd : Nat
  lastResult : SMap (Nat × Nat × Nat)
  fuseBurn : Option (Lane × CmdRef)
  belayReport : Option BelayReport
  /-- The period of 24 operating hours in which each region of the managed NAND was last scrubbed (R514). -/
  scrubbed : SMap Nat
  deriving DecidableEq, Repr, Inhabited

/-- A component set's versions (R390, R526), in code order. -/
structure Versions where
  boot : W32
  mgt : W32
  lane : W32
  voter : W32
  star : W32
  vio : W32
  deriving DecidableEq, Repr, Inhabited

/-- The manifest of the staged package, as verified (R527). -/
structure Manifest where
  secVer : Nat
  variants : Nat
  codes : SMap (W32 × W32)
  components : Nat
  imgFmtMin : Nat
  imgFmtMax : Nat
  deriving DecidableEq, Repr, Inhabited

/-- Firmware update (chapter 19): banks P and Q, the activation record (step, whether it has begun, steps complete, previous
versions), and the configuration blocks as they stood before the activation (R548). -/
structure UpdState where
  mode : UpdMode
  pkgId : W64
  blocks : Nat
  held : SMap (List Byte)
  step : Nat
  manifest : Option Manifest
  active : Versions
  bankP : Versions
  bankQ : Versions
  previous : Versions
  fuseSecVer : Nat
  lastStatus : Nat
  preferred : Nat
  originals : Option (SMap (List Byte))
  unconfirmed : Nat
  used : Nat
  begun : Bool
  complete : List Nat
  stepSince : Nat
  stepScn : Scn
  refusals : Nat
  shadowVio : Option W32
  shadowVoter : Halves (Option W32)
  romResult : Nat
  romComplete : Bool
  confirmed : Bool
  /-- The formats of the other items before the activation (R548). -/
  origFmt : SMap Nat
  /-- INDEX and ROM_CRC of the mask ROM's load window (R550). -/
  romIndex : Nat
  romCrc : W32
  /-- The latest reply of the mask ROM in RECOVERY (R551). -/
  romReply : List Byte
  deriving DecidableEq, Repr, Inhabited

/-- A piece of a debug write: the one lane it is for, or none where it goes to every lane, space, byte address, bytes, and the command that ends
with it (R561). -/
structure DebugPiece where
  only : Option Lane
  space : Nat
  addr : Nat
  bytes : List Byte
  last : Option CmdRef
  deriving DecidableEq, Repr, Inhabited

/-- Debug attachment (R560 to R564); `lockstep` is LOCKSTEP_BROKEN, `before` the attached lane as it stood after its last commit
before the scan `lastScn` (R561). -/
structure DebugState where
  attached : Option Lane
  halted : Option Lane
  lockstep : Bool
  trippedByHalt : Bool
  pieces : List DebugPiece
  haltCmd : Option CmdRef
  before : LaneState
  lastScn : Scn
  deriving DecidableEq, Repr, Inhabited

/-- The module's electrical boundary and its degradation sources (R559, R573, R580 to R584). -/
structure ElectricState where
  vfLow : Bool
  storeWeak : Bool
  cellLow : Bool
  foreignEnergy : Bool
  portDown : List Nat
  /-- The tick of the last measurement of the cell since PD1 started (R582). -/
  cellAt : Option Nat
  deriving DecidableEq, Repr, Inhabited

end Sys2Proof.Machine
end

