-- ==== Sys2Proof/Machine/Defaults.lean ====
section
/-! DEFINITION. The values that the parts of the state hold after reset, and what an unlisted key of each sparse map
reads as. A value that the spec states is cited; every other is a DESIGN CHOICE of log entries 4 and 5. -/

namespace Sys2Proof.Machine

open Sys2Proof

/-- An engine before its first scan: finished, BAR none (R76, R79). DESIGN CHOICE (4) for ACC, stack and PC. -/
def Engine.zero : Engine := ⟨.finished, false, 0, 0, 0, 0, none, 0⟩
/-- A timer at control-plane start (R98). -/
def TimerState.zero : TimerState := ⟨false, 0, false, false⟩
/-- A counter that no table declares (R150). -/
def CounterState.zero : CounterState := ⟨0, false, false⟩
/-- A lane's memories before its first load. -/
def LaneCore.zero : LaneCore := ⟨[], [], [], [], [], [], [], [], [], none, none, .stopped, 0⟩
def LaneCommit.zero : LaneCommit := ⟨⟨0, 0⟩, none, ⟨false, false⟩, none, 0, 0, false⟩
/-- No LAST, ECHO 0 (R284, R296). -/
def NodeLink.zero : NodeLink := ⟨none, 0, 0, [], none, 0, none, [], false, false, false, none⟩
/-- AGE begins at 8, no LAST, no candidate (R123, R380). -/
def LaneBoundary.zero : LaneBoundary := ⟨8, none, none, none, 0, 0⟩
def LaneHealth.zero : LaneHealth := ⟨0, 0, 0, [], 0, 0, 0, 0, none, 0, 0⟩
def LaneTest.zero : LaneTest := ⟨0, 0, 0, 0, 0, false, false, [], 0, none⟩
def LaneState.zero : LaneState :=
  ⟨LaneCore.zero, LaneCommit.zero, [], none, LaneBoundary.zero, LaneBoundary.zero, [], ⟨0, 0⟩, ⟨0, 0⟩, ⟨0, 0⟩, ⟨none, none⟩, [], [], LaneHealth.zero, LaneTest.zero⟩

def WordVote.zero : WordVote :=
  ⟨none, ⟨none, none, none⟩, ⟨.absent, .absent, .absent⟩, ⟨.open_, .open_, .open_⟩, none, false⟩
def HalfVote.zero : HalfVote := ⟨⟨0, 0, 0, 0⟩, [], ⟨none, none, none⟩, [], ⟨false, false, false, false⟩, false⟩
/-- A seat is VACANT before a grant (R186). -/
def SeatState.zero : SeatState := ⟨.vacant, ⟨none, none⟩, none, 0, false, none⟩
def VotedScan.zero : VotedScan := ⟨0, [], ⟨[], []⟩, [], true⟩
def StartTest.zero : StartTest := ⟨0, ⟨none, none, none⟩, ⟨false, false, false⟩, none, ⟨[], []⟩, 0, false⟩
/-- The allowance is 72 hours by default (R175). -/
def Diversity.zero : Diversity := ⟨0, false, 72, 0, none, 72 * 65536⟩
/-- Lease IDs start at 0x0001 (R181). VOTING_SEATS of a start's first scan, behind which no vote stands, reads 0: R120 lists 1 to 3 only
(DESIGN CHOICE, log entry 99). -/
def Voter.zero : Voter :=
  ⟨false, 0, false, ⟨HalfVote.zero, HalfVote.zero⟩, ⟨SeatState.zero, SeatState.zero, SeatState.zero⟩, ⟨1, 1⟩,
   ⟨.absent, .absent, .absent, .absent⟩, ⟨[], [], [], []⟩, ⟨⟨none, none, none, none⟩, ⟨none, none, none, none⟩⟩,
   VotedScan.zero, VotedScan.zero, none, none, none, StartTest.zero, Diversity.zero, none, false, false, 0, ⟨none, none, none⟩,
   ⟨none, none, none, none⟩, ⟨0, 0⟩⟩
/-- The in-service BIST interval is 24 hours by default (R207). -/
def Rotation.zero : Rotation := ⟨[], [], none, false, false, 0, none, 0, 24, none, ⟨false, false, false, false⟩⟩
/-- The staging copy is 0 in every position (R126). -/
def Admission.zero : Admission := ⟨[], [], 0, 0, ⟨true, true, true, true⟩, false, false, none⟩
def FollowerState.zero : FollowerState := ⟨.own, 0, 0, 0, 0, 0, false⟩
def LimitState.zero : LimitState := ⟨false, 0, 0, 0⟩

/-- Every filtered state starts as open (R213). -/
def Contact.zero : Contact := ⟨false, false, 0, false, 0, 0, 0⟩
def VinState.zero : VinState := ⟨Contact.zero, Contact.zero, false, false, false, false, none⟩
def VinCfg.zero : VinCfg := ⟨0, false, 0, 0⟩
def VoutCfg.zero : VoutCfg := ⟨false, 0⟩
/-- Every VOUT is de-energised (R495). -/
def VoutState.zero : VoutState := ⟨false, false, false, false, none, false, 0, 0, 0, 0, 0, false⟩
/-- No debounced state (R227). -/
def Pole.zero : Pole := ⟨none, false, 0⟩
/-- LOOP reads 0b11, not yet measured (R231); the read-back starts uncorrected. -/
def VioState.zero : VioState := ⟨[], [], false, [], (0, 0), [], 3, 3, none, 0, 24000, none, 0⟩
def SealState.zero : SealState := ⟨⟨[], []⟩, ⟨none, none⟩, [], false, false, false, false⟩
def TripState.zero : TripState := ⟨false, 0, 0, 0, false, ⟨.pending, .pending⟩, false, false, none⟩

def ForceState.zero : ForceState := ⟨⟨[], []⟩, [], [], [], 0, 0, 0, 1, [], [], [], false, false⟩
def OlcState.zero : OlcState := ⟨.idle, none, [], 0, 0, none, none, none, none, false, false, 0, none⟩

/-- The value of a PORT_CFG entry that the block does not supply (R274, R275). -/
def PortCfg.zero : PortCfg := ⟨false, 0, false, 0, 0⟩
def SchedPort.zero : SchedPort := ⟨0, 0, false, []⟩
def LinkCfg.zero : LinkCfg := ⟨0, [], 0, 0, 0, 0, [], []⟩
/-- PORT_STATUS reads 0: DISABLED (R337). -/
def PortState.zero : PortState :=
  ⟨.disabled, false, 0, 0, false, none, false, 0, [], 0, 0, [], [], 0, 0, 0, 0, none, false, none, false, none, none⟩
/-- A star is DOWN while its domain is not in RUN (R307). -/
def StarState.zero : StarState :=
  ⟨.down, none, 0, 0, 0, false, [], [], 0, none, 0, [], [], false, 0, none, false, none, none, []⟩
def StarAux.zero : StarAux := ⟨[], false, false, none, 0, none, [], [], [], []⟩
/-- A node is in INIT after its power-up (R303) and holds restrictive outputs (R305). -/
def NodeChan.zero : NodeChan :=
  ⟨.init, 0, 0, false, 0, 0, 0, [], 0, 0, false, 0, none, 0, false, none⟩
/-- A node that has not been powered is attached to nothing (R300). -/
def NodeCfg.zero : NodeCfg := ⟨0, 0, false, false, false, []⟩
def NodeState.zero : NodeState :=
  ⟨⟨NodeChan.zero, NodeChan.zero⟩, 0, 0, 0, none, none, none, none, true, false, [], true, [], NodeCfg.zero⟩
def SchedState.zero : SchedState := ⟨0, none, [], []⟩

def ClockState.zero : ClockState := ⟨0, 0, 0, 0, 0, 0, 0⟩
def Servo.zero : Servo := ⟨false, 0, 0, none, 0, 0, 0, 0, [], [], [], none, [], [], [], [], 0, 0, 0⟩
/-- TB0 counts from 0, invalid, in FREE (R360, R367, R369). -/
def TimeState.zero : TimeState :=
  ⟨0, 0, false, 0, .free, none, false, Servo.zero, Servo.zero, none, false, 0, none, 0, none, none⟩
def NetPortCfg.zero : NetPortCfg := ⟨0, 0, 0, false, false, false, false, false, false, 0, 0, 0⟩
def BndCfg.zero : BndCfg := ⟨0, 0, false, false, false, false, false, 0⟩
def NetState.zero : NetState := ⟨none, [], [], 0, 0, 0, 0, 0, [], [], [], none⟩

def RingS.zero : RingS := ⟨0, 0, none, 0, 0, 0, 0, 0, 0, 0, 0, 0, 0, 0, none, 0, true, [], [], none⟩
def TimeLatch.zero : TimeLatch := ⟨false, 0, 0, 0, 0, 0, 0, 0⟩
/-- The Reset columns of R391 and of the host control registers (R392 to R394). -/
def RegFile.zero : RegFile :=
  ⟨0x08000000, 0x00AAAAAF, 0, 0xC0000000, 0, 0, 0xFFFF7777, 0, false, false, 0, 0, 0x00400040, 0, 0, 0, [], 0⟩
def MbxState.zero : MbxState :=
  ⟨false, [], [], [], [], [], RegFile.zero, TimeLatch.zero, 0, [], [], [], [], 0⟩
def ExportState.zero : ExportState := ⟨none, none, false, false, 0, [], none, none, [], 0⟩
/-- The Reset column of R450. -/
def Cvu.zero : Cvu := ⟨false, 0, 0, false, false, 0, 0, 0, 0, 0, 0, 0, 0, false, false, false, 0, 0, 0, false, [], []⟩
def RecRingS.zero : RecRingS := ⟨0, 0, 0, []⟩
def RecorderState.zero : RecorderState :=
  ⟨[], RecRingS.zero, RecRingS.zero, [], [], [], false, 0, 0, 0, 0, 0, false, 0, .vital, false, false, 0, none⟩
def CycleCounters.zero : CycleCounters := ⟨[], [], 0⟩

def RetSram.zero : RetSram := ⟨false, 0, 0, 0xFFFFFFFF, 0xFFFFFFFF, 0⟩
/-- The Reset columns of R485. -/
def RetState.zero : RetState := ⟨0, false, false, true, 0, RetSram.zero, 0⟩
/-- Every fitted domain but PD0 is HELD by MAIN_POR (R479). -/
def PowerState.zero : PowerState :=
  ⟨[(0, .run)], [.mainPor], [(.mainPor, 0)], true, false, none, 0, false, false, none, false, true, 1, true, true⟩
/-- The parameters at their defaults (R426). -/
def StoreState.zero : StoreState :=
  ⟨[], [], [], [], [], [], [], [], 0, 0, 1000, 60, false, []⟩
/-- BIVOUAC reads 1 after reset (R391). -/
def StartState.zero : StartState :=
  ⟨0, false, .full, 0, 0, 0, none, 0, none, true, false, false, false, false, [1, 2], 0, 0, false, false, false, false, false⟩
def BistState.zero : BistState :=
  ⟨false, 0, 0, 0, 0, 0, 0, none, [], [], 0, none, 0, [], none, none, []⟩
def Versions.zero : Versions := ⟨0, 0, 0, 0, 0, 0⟩
def UpdState.zero : UpdState :=
  ⟨.idle, 0, 0, [], 0, none, Versions.zero, Versions.zero, Versions.zero, Versions.zero, 0, 0, 0, none, 0, 0, false, [], 0, 0, 0, none, ⟨none, none⟩, 0, false, false, [], 0, 0, []⟩
def DebugState.zero : DebugState := ⟨none, none, false, false, [], none, LaneState.zero, 0⟩
def ElectricState.zero : ElectricState := ⟨false, false, false, false, [], none⟩

end Sys2Proof.Machine
end

