-- ==== Sys2Proof/Machine/State.lean ====
section
/-! DEFINITION. The state of the module, what a step can stop with, and the state after reset. -/

namespace Sys2Proof.Machine

open Sys2Proof

/-- The reasons a step can fault. Every command of the table has an effect, so none is raised. -/
inductive Fault where
  /-- Raised by nothing: the spec gives every command of the table an effect (safe). -/
  | none_
  deriving DecidableEq, Repr

/-- The reasons a step can be refused. -/
inductive Refusal where
  /-- Raised by an arm of exec for a row without a meaning; no arm raises it now (safe). -/
  | notModelled (mnemonic : String)
  deriving DecidableEq, Repr

/-- The followers of cycle-instant marks (R30). -/
structure Followers where
  x : FollowerState
  y : FollowerState
  a : FollowerState
  b : FollowerState
  vio : FollowerState
  deriving DecidableEq, Repr, Inhabited

/-- The control plane: lanes, voter, seats, admission, vital I/O, trips, forces, online change. -/
structure Control where
  lanes : Quad LaneState
  voter : Voter
  rot : Rotation
  adm : Admission
  followers : Followers
  island : SMap LimitState
  bridgeTries : SMap Nat
  vio : VioState
  seals : SealState
  trip : TripState
  force : ForceState
  olc : OlcState
  dbg : DebugState
  deriving DecidableEq, Repr, Inhabited

/-- The data plane: stars, nodes, schedules, time, network. -/
structure DataPlane where
  cfg : LinkCfg
  stars : Duo StarState
  aux : Duo StarAux
  nodes : SMap NodeState
  sched : SchedState
  time : TimeState
  net : NetState
  deriving DecidableEq, Repr, Inhabited

/-- The management plane: mailbox, export, check-value units, recorder, store, self-test, update. -/
structure Manage where
  mbx : MbxState
  exp : ExportState
  cvu : SMap Cvu
  recorder : RecorderState
  cycles : CycleCounters
  store : StoreState
  start : StartState
  bist : BistState
  upd : UpdState
  elec : ElectricState
  deriving DecidableEq, Repr, Inhabited

/-- The whole module, and the queue of commands that wait, first in, first out. `free` counts the free values drawn. -/
structure State where
  variant : Variant
  tscan : Nat
  clk : ClockState
  ret : RetState
  power : PowerState
  ctl : Control
  data : DataPlane
  mgt : Manage
  free : Nat
  pending : List Instr
  deriving DecidableEq, Repr

/-- The control plane with nothing loaded. -/
def Control.zero : Control :=
  ⟨⟨LaneState.zero, LaneState.zero, LaneState.zero, LaneState.zero⟩, Voter.zero, Rotation.zero, Admission.zero,
   ⟨FollowerState.zero, FollowerState.zero, FollowerState.zero, FollowerState.zero, FollowerState.zero⟩, [], [],
   VioState.zero, SealState.zero, TripState.zero, ForceState.zero, OlcState.zero, DebugState.zero⟩

/-- The data plane with nothing loaded. -/
def DataPlane.zero : DataPlane :=
  ⟨LinkCfg.zero, ⟨StarState.zero, StarState.zero⟩, ⟨StarAux.zero, StarAux.zero⟩, [], SchedState.zero, TimeState.zero, NetState.zero⟩

/-- The management plane with nothing loaded. -/
def Manage.zero : Manage :=
  ⟨MbxState.zero, ExportState.zero, [], RecorderState.zero, CycleCounters.zero, StoreState.zero, StartState.zero,
   BistState.zero, UpdState.zero, ElectricState.zero⟩

/-- The module right after RET_POR has released, with MAIN_POR still asserted: PD0 runs and every other domain is HELD
(R43, R479, R485). Variant F and T_scan 250 us (R47) are log entry 3. -/
def State.reset : State :=
  ⟨.f, 1, ClockState.zero, RetState.zero, PowerState.zero, Control.zero, DataPlane.zero, Manage.zero, 0, []⟩

end Sys2Proof.Machine
end

