-- ==== Sys2Proof/Machine/Ops.lean ====
section
/-! DEFINITION. The named operations over the state: reads, one-part updates, time, domains, switches, reports to the
recorder, events and command completions. -/

namespace Sys2Proof.Machine

open Sys2Proof

/-! ### Updates of one part -/

def onCtl (f : Control → Control) (s : State) : State := { s with ctl := f s.ctl }
def onData (f : DataPlane → DataPlane) (s : State) : State := { s with data := f s.data }
def onMgt (f : Manage → Manage) (s : State) : State := { s with mgt := f s.mgt }
def onVoter (f : Voter → Voter) (s : State) : State := onCtl (fun c => { c with voter := f c.voter }) s
def onRot (f : Rotation → Rotation) (s : State) : State := onCtl (fun c => { c with rot := f c.rot }) s
def onAdm (f : Admission → Admission) (s : State) : State := onCtl (fun c => { c with adm := f c.adm }) s
def onVio (f : VioState → VioState) (s : State) : State := onCtl (fun c => { c with vio := f c.vio }) s
def onSeal (f : SealState → SealState) (s : State) : State := onCtl (fun c => { c with seals := f c.seals }) s
def onTrip (f : TripState → TripState) (s : State) : State := onCtl (fun c => { c with trip := f c.trip }) s
def onForce (f : ForceState → ForceState) (s : State) : State := onCtl (fun c => { c with force := f c.force }) s
def onOlc (f : OlcState → OlcState) (s : State) : State := onCtl (fun c => { c with olc := f c.olc }) s
def onDbg (f : DebugState → DebugState) (s : State) : State := onCtl (fun c => { c with dbg := f c.dbg }) s
def onLane (l : Lane) (f : LaneState → LaneState) (s : State) : State :=
  onCtl (fun c => { c with lanes := c.lanes.set l (f (c.lanes.get l)) }) s
def onLanes (f : LaneState → LaneState) (s : State) : State := onCtl (fun c => { c with lanes := c.lanes.map f }) s
def onCore (l : Lane) (f : LaneCore → LaneCore) (s : State) : State := onLane l (fun x => { x with core := f x.core }) s
def onStar (c : Chan) (f : StarState → StarState) (s : State) : State :=
  onData (fun d => { d with stars := d.stars.set c (f (d.stars.get c)) }) s
def onAux (c : Chan) (f : StarAux → StarAux) (s : State) : State :=
  onData (fun d => { d with aux := d.aux.set c (f (d.aux.get c)) }) s
def onPort (c : Chan) (p : Nat) (f : PortState → PortState) (s : State) : State :=
  onStar c (fun st => { st with ports := smSet PortState.zero st.ports p (f (smGet PortState.zero st.ports p)) }) s
def onNode (k : Nat) (f : NodeState → NodeState) (s : State) : State :=
  onData (fun d => { d with nodes := smSet NodeState.zero d.nodes k (f (smGet NodeState.zero d.nodes k)) }) s
def onSched (f : SchedState → SchedState) (s : State) : State := onData (fun d => { d with sched := f d.sched }) s
def onTime (f : TimeState → TimeState) (s : State) : State := onData (fun d => { d with time := f d.time }) s
def onNet (f : NetState → NetState) (s : State) : State := onData (fun d => { d with net := f d.net }) s
def onMbx (f : MbxState → MbxState) (s : State) : State := onMgt (fun m => { m with mbx := f m.mbx }) s
def onRegs (f : RegFile → RegFile) (s : State) : State := onMbx (fun m => { m with regs := f m.regs }) s
def onExp (f : ExportState → ExportState) (s : State) : State := onMgt (fun m => { m with exp := f m.exp }) s
def onRec (f : RecorderState → RecorderState) (s : State) : State := onMgt (fun m => { m with recorder := f m.recorder }) s
def onStore (f : StoreState → StoreState) (s : State) : State := onMgt (fun m => { m with store := f m.store }) s
def onStart (f : StartState → StartState) (s : State) : State := onMgt (fun m => { m with start := f m.start }) s
def onBist (f : BistState → BistState) (s : State) : State := onMgt (fun m => { m with bist := f m.bist }) s
def onUpd (f : UpdState → UpdState) (s : State) : State := onMgt (fun m => { m with upd := f m.upd }) s
def onElec (f : ElectricState → ElectricState) (s : State) : State := onMgt (fun m => { m with elec := f m.elec }) s
def onClk (f : ClockState → ClockState) (s : State) : State := { s with clk := f s.clk }
def onRet (f : RetState → RetState) (s : State) : State := { s with ret := f s.ret }
def onPower (f : PowerState → PowerState) (s : State) : State := { s with power := f s.power }
def onCvu (u : Nat) (f : Cvu → Cvu) (s : State) : State :=
  onMgt (fun m => { m with cvu := smSet Cvu.zero m.cvu u (f (smGet Cvu.zero m.cvu u)) }) s
/-- A window of a check-value unit has closed; its result follows (R454, R455). -/
def cvuEnd (now : Scn) (b : List Byte) (u : Cvu) : Cvu := { u with window := [], ended := u.ended ++ [(now, b)] }

/-- Points whose bytes no state of the module holds: a command ring's descriptors in the host's memory, and what MGT lays out in the NAND store. -/
def pointOutside (p : Nat) : Bool := decide (p = 12) || decide (p = 22) || decide (p = 23)

/-- At a cycle instant a scan-boundary window closes and the next one opens; the first opens at the first cycle instant after ENABLE is set
(R454). -/
def cvuAtCi (s : State) : State :=
  let next := fun (u : Cvu) =>
    let u := if u.winOpen ∧ pointOutside u.point = false then cvuEnd s.ctl.voter.scn u.window u else u
    { u with winOpen := true }
  onMgt (fun m => { m with cvu := smMap Cvu.zero (fun u => if u.enable ∧ u.trigger = 0 then next u else u) m.cvu }) s

/-- Whole windows of `n` bytes at the front of a stream, and what is left (R454). -/
def cvuCut : Nat → Nat → List Byte → List (List Byte) × List Byte
  | 0, _, b => ([], b)
  | f + 1, n, b =>
    if b.length < n then ([], b)
    else
      let r := cvuCut f n (b.drop n)
      (b.take n :: r.1, r.2)

/-- Bytes of a snoop point reach a unit: the part of a frame or of another unit of the point, `first` where they begin it and `last` where they end
it (R454). -/
def cvuTake (now : Scn) (first last : Bool) (b : List Byte) (u : Cvu) : Cvu :=
  match u.trigger with
  | 1 =>
    if first || u.winOpen then
      let w := if first then b else u.window ++ b
      if last then { cvuEnd now w u with winOpen := false } else { u with winOpen := true, window := w }
    else u
  | 2 =>
    let w := u.window ++ b
    let r := cvuCut w.length u.count.toNat w
    { u with winOpen := !r.2.isEmpty, window := r.2, ended := u.ended ++ r.1.map (fun x => (now, x)) }
  | _ => if u.winOpen then { u with window := u.window ++ b } else u

/-- The unit snoops a point, with its ring or port (R453). -/
def cvuTaps (p f : Nat) (u : Cvu) : Bool := u.enable && decide (u.point = p) && decide (u.filter = f)

/-- Bytes pass a snoop point: every unit set to it takes a copy (R449, R453). -/
def snoop (p f : Nat) (first last : Bool) (b : List Byte) (s : State) : State :=
  if s.mgt.cvu.any (fun q => cvuTaps p f q.2) then
    onMgt (fun m => { m with cvu := smMap Cvu.zero (fun u => if cvuTaps p f u then cvuTake s.ctl.voter.scn first last b u else u) m.cvu }) s
  else s
def onRing (r : Nat) (f : RingS → RingS) (s : State) : State :=
  onMbx (fun m => { m with rings := smSet RingS.zero m.rings r (f (smGet RingS.zero m.rings r)) }) s

/-- An item of the station-data store without a block of its own is stored, in the current format of the running MGT firmware (R547, R548). -/
def itemStored (k : Nat) (s : State) : State :=
  onStore (fun x => { x with itemFmt := smPut x.itemFmt k (Config.fmtCur s.mgt.upd.active.mgt k) }) s

/-- The numbers of these items: the stored forces, the lock list, the soft repair maps, the cycle counters (R547). -/
def forcesItem : Nat := 5
def locksItem : Nat := 6
def repairsItem : Nat := 7
def cyclesItem : Nat := 8

/-! ### Reads -/

def lane (s : State) (l : Lane) : LaneState := s.ctl.lanes.get l
def star (s : State) (c : Chan) : StarState := s.data.stars.get c
def port (s : State) (c : Chan) (p : Nat) : PortState := smGet PortState.zero (star s c).ports p
def portCfg (s : State) (c : Chan) (p : Nat) : PortCfg := smGet PortCfg.zero s.data.cfg.ports (64 * c.idx + p)
def node (s : State) (k : Nat) : NodeState := smGet NodeState.zero s.data.nodes k
def ringOf (s : State) (r : Nat) : RingS := smGet RingS.zero s.mgt.mbx.rings r
def cvuOf (s : State) (u : Nat) : Cvu := smGet Cvu.zero s.mgt.cvu u
def voter (s : State) : Voter := s.ctl.voter
def scn (s : State) : Scn := s.ctl.voter.scn
/-- The running image: that of a lane that holds a voting seat, or with none of the first lane that holds one (R142). -/
def runImage (s : State) : Option Image :=
  let seated := Seat.list.filterMap (fun k =>
    let x := s.ctl.voter.seats.get k
    match x.mode with
    | .held | .handover => x.lease.x.map (·.holder)
    | _ => none)
  (seated ++ Lane.list).findSome? (fun l => (s.ctl.lanes.get l).core.active)
/-- A run in SERVICE is in force (R421). -/
def inService (s : State) : Bool := s.mgt.start.service && !s.mgt.start.bivouac
/-- The lanes that a variant carries (R4). -/
def fitted (v : Variant) : List Lane :=
  match v with
  | .f => [.a, .b, .c, .d]
  | .t => [.a, .b, .c]
  | .e => [.a, .b]
/-- The seats of a variant (R179). -/
def seatsOf (v : Variant) : List Seat :=
  match v with
  | .f | .t => [.s1, .s2, .s3]
  | .e => [.s1, .s2]
/-- The home lane of a seat (R179). -/
def homeLane : Seat → Lane
  | .s1 => .a
  | .s2 => .b
  | .s3 => .c
/-- The key of a port entry, and of a node on a channel. -/
def portKey (c : Chan) (p : Nat) : Nat := 64 * c.idx + p

/-! ### Free values (log entry 1) -/

/-- The next free value. -/
def freeNow (s : State) : W64 := Config.freeValue s.free
/-- One free value drawn. -/
def drawn (s : State) : State := { s with free := s.free + 1 }

/-! ### Time (R360) -/

/-- TB1 in ns: 40 ns a REFCLK tick. -/
def tb1 (s : State) : Nat := 40 * s.clk.tick
/-- UPT: TB1 in whole microseconds. -/
def upt (s : State) : Nat := s.clk.tick / 25
/-- The TB3 fraction in units of 2^-16 hour. -/
def ophFrac (s : State) : Nat := s.clk.tb3Ticks * 65536 / Config.hourTicks
/-- TB3's whole hours: those that MGT holds and those that RET has counted since (R360). -/
def ophHours (s : State) : Nat := s.clk.tb3Hours + s.clk.hoursPending
/-- TB3 in REFCLK ticks, whole hours and fraction together. -/
def tb3Tick (s : State) : Nat := ophHours s * Config.hourTicks + s.clk.tb3Ticks
/-- The diversity allowance left, in 2^-16 hours: it is consumed on TB3 while DIVERSITY_LOST is set (R175). -/
def diversityLeft (s : State) : Nat :=
  let d := s.ctl.voter.diversity
  if d.lost then d.remain - (tb3Tick s - d.since) * 65536 / Config.hourTicks else d.remain
/-- The consumption so far is booked in the retention SRAM (R175, R486). -/
def bookDiversity (s : State) : State :=
  onVoter (fun v => { v with diversity := { v.diversity with remain := diversityLeft s, since := tb3Tick s } }) s
/-- Milliseconds in REFCLK ticks (R7). -/
def msTicks (n : Nat) : Nat := 25000 * n

/-! ### Cycle instants (R30, R48, R59) -/

/-- T_scan in ns of REFCLK time. -/
def tscanNs (s : State) : Nat := 1000 * Config.tscanUs s.tscan
/-- The REFCLK tick in which a follower's last cycle instant lies. -/
def FollowerState.lastCi (q : FollowerState) : Nat := q.ciNs / 40
/-- The tick of the last cycle instant at a voter half. -/
def halfCi (s : State) (h : Half) : Nat := match h with | .x => s.ctl.followers.x.lastCi | .y => s.ctl.followers.y.lastCi
/-- A half's next cycle instant as it expects it, in REFCLK ticks. -/
def nextCi (s : State) (h : Half) : Nat := halfCi s h + Config.tscanTicks s.tscan
/-- The deadline of the scan in progress: 25 us before the next cycle instant (R59). -/
def deadlineTick (s : State) : Nat := nextCi s .x - 625
/-- The cycle in progress: the number of voter half X's last cycle instant (R48, R49). -/
def cycleNow (s : State) : Nat := s.ctl.followers.x.cycle

/-! ### Island limits (R37 to R41) -/

/-- The neighbour pairs for the die-temperature limit (R38). -/
def neighbourPairs : List (Island × Island) :=
  [(.lane .a, .lane .b), (.lane .b, .lane .c), (.lane .c, .lane .d), (.x, .lane .a), (.x, .lane .b), (.y, .lane .c), (.y, .lane .d),
   (.x, .y), (.vio, .x), (.vio, .y), (.star .a, .net), (.star .b, .net), (.mgt, .net)]
/-- The number of the pair that two islands form, if they are neighbours. -/
def pairIndex (i j : Island) : Option Nat :=
  neighbourPairs.findIdx? (fun p => decide (p = (i, j)) || decide (p = (j, i)))
/-- The key of a clock or voltage condition of an island, and of a pair's temperature condition. -/
def limitKey (i : Island) (q : Quantity) : Nat := 3 * i.code + q.code
def pairKey (n : Nat) : Nat := 64 + n
/-- A limit of an island is exceeded (R40). -/
def islandOut (s : State) (i : Island) : Bool :=
  s.ctl.island.any (fun p => p.2.out && decide (p.2.who = i.code))

/-! ### The admission staging copy (R19, R54) -/

/-- The cut-off of the next snapshot has come: a write in its tick or later misses it (R19, R54). -/
def pastCutoff (s : State) : Bool :=
  (voter s).running && !s.ctl.adm.taken && decide (nextCi s .x ≤ s.clk.tick + 125)
/-- MGT writes its staging copy; the snapshot takes what the copy held at its cut-off (R54). -/
def onStaging (f : SMap W64 → SMap W64) (s : State) : State :=
  onAdm (fun a => { a with staging := f a.staging,
                           cut := if pastCutoff s && a.cut.isNone then some a.staging else a.cut }) s

/-! ### Domains (R43, R4) -/

/-- The domain is not fitted in the variant (R4, R43). -/
def domAbsent (v : Variant) (d : Nat) : Bool :=
  match v with
  | .f => false
  | .t => d == 10
  | .e => d == 9 || d == 10
/-- A domain's state (R43): an unlisted domain is HELD. -/
def dom (s : State) (d : Nat) : DomState :=
  if domAbsent s.variant d then .absent else smGet .held s.power.domains d
def domRun (s : State) (d : Nat) : Bool := dom s d == .run
def setDom (d : Nat) (x : DomState) (s : State) : State :=
  onPower (fun p => { p with domains := smSet .held p.domains d x }) s
def laneDom (l : Lane) : Nat := 7 + l.idx
def starDom (c : Chan) : Nat := 3 + c.idx

/-! ### Switches (R227, R228, R231) -/

/-- A debounced pole. -/
def poleOn (s : State) (h : Half) (i : Nat) : Option Bool := (smGet Pole.zero (s.ctl.seals.poles.get h) i).debounced
/-- The position of switch Si as read: on when both debounced poles read on. -/
def switchRead (s : State) (i : Nat) : Bool :=
  (poleOn s .x i == some true) && (poleOn s .y i == some true)
/-- The effective position of switch Si: off while SEAL_FAULT is set (R228). -/
def switchOn (s : State) (i : Nat) : Bool := !s.ctl.seals.fault && switchRead s i
/-- S2 and S5 have no effect while the run is in ENGINEERING and S1 is effectively off; they act in ENGINEERING only
(R228). -/
def engSwitchOn (s : State) (i : Nat) : Bool :=
  !s.mgt.start.service && !s.mgt.start.bivouac && switchOn s 1 && switchOn s i
/-- P_ANY (R239). -/
def pAny (s : State) : Bool := engSwitchOn s 5
/-- A byte of switch positions, bit i - 1 for Si (R231). -/
def switchByte (f : Nat → Bool) : Nat := [1, 2, 3, 4, 5, 6, 7, 8].foldl (fun n i => n + b2n (f i) * 2 ^ (i - 1)) 0
/-- SEAL_STATUS (R231). -/
def sealWord (s : State) : W32 :=
  BitVec.ofNat 32 (s.ctl.vio.loop * 2 ^ 30 + b2n s.ctl.seals.fault * 2 ^ 29 + switchByte (switchOn s) * 65536 +
    switchByte (fun i => poleOn s .y i == some true) * 256 + switchByte (fun i => poleOn s .x i == some true))

/-! ### Reports, events, completions -/

/-- MGT is told to write a record: it enters the reports that RECORD_INTAKE files (R461, R467; log entry 9). -/
def report (r : RecRing) (code source : Nat) (key detail : List Byte) (s : State) : State :=
  onRec (fun m => { m with reports := m.reports ++ [⟨r, 0, code, source, upt s, key, detail⟩] }) s
/-- A record that is vital in SERVICE and general otherwise (R476). -/
def reportSvc (code source : Nat) (key detail : List Byte) (s : State) : State :=
  report (if inService s then .vital else .general) code source key detail s
/-- An event is raised (R447): it waits for EVENT_POST. -/
def raise (code : Nat) (result : List Byte) (s : State) : State :=
  onMbx (fun m => { m with events := m.events ++ [⟨code, result⟩] }) s
/-- A word of the MSI-X table. PCI Express leaves every vector masked at reset (R389, R405): the map lists what differs from that. -/
def msixWord (s : State) (i : Nat) : W32 := smGet 0#32 s.mgt.mbx.regs.msixTable i ^^^ (if i % 4 = 3 then 1#32 else 0#32)
/-- A vector is masked by its MSI-X table entry (R389, R405). -/
def vectorMasked (s : State) (v : Nat) : Bool := (msixWord s (4 * v + 3)).getLsbD 0
/-- A message of a vector: sent, or pending while the vector is masked (R335, R405). -/
def sendVector (v : Nat) (s : State) : State :=
  if vectorMasked s v then onRegs (fun r => { r with msixPending := setBit r.msixPending v true }) s
  else onMbx (fun m => { m with interrupts := m.interrupts ++ [v] }) s
/-- An ALERT bit is set; where it is enabled, vector 0 carries it (R391, R405). -/
def alert (i : Nat) (s : State) : State :=
  let s := onRegs (fun r => { r with alert := setBit r.alert i true }) s
  if s.mgt.mbx.regs.alertEn.getLsbD i && !s.power.pcieDown then sendVector 0 s else s
def byte (n : Nat) : List Byte := leBytes 1 n
def le2 (n : Nat) : List Byte := leBytes 2 n
def le4 (n : Nat) : List Byte := leBytes 4 n
/-- Bytes followed by their CRC-32C. -/
def withCrc (b : List Byte) : List Byte := b ++ le4 (crc32c b)
def scnLe (s : State) : List Byte := le4 (scn s).toNat

/-- A command finishes with a status: its completion waits for COMPLETION_POST (R399, R402). -/
def finishRef (c : CmdRef) (st : Status) (est : Nat) (result data : List Byte) (s : State) : State :=
  onMbx (fun m => { m with finished := m.finished ++
    [⟨c.ring, c.session, c.tag, c.opcode, st, data.length, est, false, result, data, false, 0⟩] }) s
/-- Which command an answer belongs to. -/
def refOf (c : CmdHdr) (opcode : Nat) : CmdRef := ⟨c.ring.toNat, c.session, c.tag.toNat, opcode⟩
def finish (c : CmdHdr) (opcode : Nat) (st : Status) (result data : List Byte) (s : State) : State :=
  finishRef (refOf c opcode) st 0 result data s

/-! ### Variables of a lane (R113, R150) -/

def varBit (m : SMap W64) (a : Nat) : Bool := (smGet 0#64 m (a / 64)).getLsbD (a % 64)
def setVarBit (a : Nat) (b : Bool) (m : SMap W64) : SMap W64 :=
  smSet 0#64 m (a / 64) (setBit (smGet 0#64 m (a / 64)) (a % 64) b)
/-- `w` bits from address `a` set to the low bits of `v`, least significant at the lowest address (R113). -/
def setVarBits : Nat → Nat → Nat → SMap W64 → SMap W64
  | 0, _, _, m => m
  | w + 1, a, v, m => setVarBits w (a + 1) (v / 2) (setVarBit a (v % 2 == 1) m)
/-- The number that `w` bits from address `a` spell. -/
def varBits : Nat → Nat → SMap W64 → Nat
  | 0, _, _ => 0
  | w + 1, a, m => b2n (varBit m a) + 2 * varBits w (a + 1) m
/-- The declared variable that a bit lies in. -/
def declAt (i : Image) (a : Nat) : Option VarDecl :=
  i.vars.find? (fun v => decide (v.addr ≤ a) && decide (a < v.addr + v.width))
/-- The restrictive value of a bit: 0 where no variable declares it (R55, R123). -/
def restrBit (i : Option Image) (a : Nat) : Bool :=
  match i with
  | none => false
  | some i => match declAt i a with
    | none => false
    | some v => v.restr.getLsbD (a - v.addr)

end Sys2Proof.Machine
end

