-- ==== Sys2Proof/Machine/Flags.lean ====
section
/-! DEFINITION. What the units compute: timers (R98), edge detectors (R101), counters and their comparison (R102). -/

namespace Sys2Proof.Machine

open Sys2Proof

/-- TON with input `inp` and preset `p` (R98). -/
def tonNext (inp : Bool) (p : W32) (t : TimerState) : TimerState :=
  if !inp then { t with run := false, et := 0, q := false }
  else if !t.run then { t with run := true, et := 0, q := p == 0 }
  else
    let et := min (t.et.toNat + 1) p.toNat
    { t with et := BitVec.ofNat 32 et, q := decide (p.toNat ≤ et) }

/-- TOF (R98). -/
def tofNext (inp : Bool) (p : W32) (t : TimerState) : TimerState :=
  if inp then { t with run := false, et := 0, q := true }
  else if t.run then
    let et := min (t.et.toNat + 1) p.toNat
    { t with et := BitVec.ofNat 32 et, q := decide (et < p.toNat), run := decide (et < p.toNat) }
  else if t.q then { t with run := p != 0, et := 0, q := p != 0 }
  else { t with q := false }

/-- TP (R98, R99). -/
def tpNext (inp : Bool) (p : W32) (t : TimerState) : TimerState :=
  let t' : TimerState :=
    if t.run then
      let et := t.et + 1
      if p.toNat ≤ et.toNat then { t with et := et, run := false, q := false } else { t with et := et, q := true }
    else if inp && !t.inp && (p != 0) then { t with run := true, et := 0, q := true }
    else { t with q := false }
  { t' with inp := inp }

/-- Q of EDR and of EDF (R101). -/
def edrOut (inp prev : Bool) : Bool := inp && !prev
def edfOut (inp prev : Bool) : Bool := prev && !inp

/-- The comparison that CMP selects (R102). -/
def counterCmp (cmp : BitVec 2) (cv pv : W32) : Bool :=
  if cmp = 0#2 then decide (pv.toNat ≤ cv.toNat)
  else if cmp = 1#2 then cv == 0
  else if cmp = 2#2 then cv == pv
  else cv != 0

/-- CTU counts up on a rising edge, saturating (R102). -/
def ctuNext (inp : Bool) (c : CounterState) : CounterState :=
  { c with cv := if inp && !c.ciu then (if c.cv = 0xFFFFFFFF#32 then c.cv else c.cv + 1) else c.cv, ciu := inp }

/-- CTD counts down on a rising edge, saturating (R102). -/
def ctdNext (inp : Bool) (c : CounterState) : CounterState :=
  { c with cv := if inp && !c.cid then (if c.cv = 0 then c.cv else c.cv - 1) else c.cv, cid := inp }

/-- CTR loads RV while its input is 1 (R102). -/
def ctrNext (inp : Bool) (rv : W32) (c : CounterState) : CounterState := { c with cv := if inp then rv else c.cv }

end Sys2Proof.Machine
end

