-- ==== Sys2Proof/Machine/Operands.lean ====
section
/-! DEFINITION. Operand forms of engine instructions: bit addresses with their access class (R83, R84), index operands of
the units (R85), jump targets (R97), reserved fields (R81, R104), and the word that an engine fetches (R80). -/

namespace Sys2Proof.Machine

open Sys2Proof

/-- Addresses that an engine may read: all but the reserved range (R83, R84). -/
def engReadable (a : Nat) : Bool := !(decide (0x02A000 ≤ a) && decide (a < 0x040000))

/-- The two outgoing boundary images (R122). -/
def bndOutgoing (a : Nat) : Bool :=
  (decide (0x021400 ≤ a) && decide (a < 0x021580)) || (decide (0x021C00 ≤ a) && decide (a < 0x021D80))

/-- Addresses that an engine may write (R83, R113, R122). -/
def engWritable (a : Nat) : Bool :=
  (decide (0x010000 ≤ a) && decide (a < 0x020000)) || (decide (0x020080 ≤ a) && decide (a < 0x020090)) ||
  bndOutgoing a || (decide (0x040000 ≤ a) && decide (a < 0x400000))

/-- The fault of a read-class bit operand: OPERAND_RANGE, then VARIABLE_UNCORRECTABLE (R84, R93). -/
def readFault (h : Hw) (a : Nat) : Option Nat :=
  if !engReadable a then some 0x03 else if h = .operand then some 0x0C else none

/-- The fault of a write-class bit operand (R84, R93). -/
def writeFault (h : Hw) (a : Nat) : Option Nat :=
  if !engReadable a then some 0x03 else if !engWritable a then some 0x04 else if h = .operand then some 0x0C else none

/-- The reserved bits common to every opcode: M3 and, outside the counters, CMP (R81). -/
def modOk (x : EngArg) : Bool := !x.m3 && (x.cmp == 0#2)

/-- A word with no operand and no N (NOP, END, BRO). -/
def plainOk (x : EngArg) : Bool := modOk x && !x.n && (x.opd == 0#22)

/-- The declaration of a timer of a kind: 0 TON, 1 TOF, 2 TP (R85, R135). -/
def timerDecl (i : Image) (kind n : Nat) : Option TimerDecl :=
  if n < 65536 then i.timers.find? (fun t => decide (t.index = n) && decide (t.tkind = kind)) else none

/-- The declaration of an edge detector of a kind: 0 EDR, 1 EDF (R85, R135). -/
def edgeDecl (i : Image) (kind n : Nat) : Option EdgeDecl :=
  if n < 65536 then i.edges.find? (fun t => decide (t.index = n) && decide (t.ekind = kind)) else none

/-- The declaration of a counter (R85, R135). -/
def counterDecl (i : Image) (n : Nat) : Option CounterDecl :=
  if n < 16384 then i.counters.find? (fun t => decide (t.index = n)) else none

/-- The fault of a unit operand: OPERAND_RANGE where it is not declared, then UNIT_UNCORRECTABLE (R85, R98). -/
def unitFault {α : Type} (h : Hw) (d : Option α) : Option Nat :=
  if d.isNone then some 0x03 else if h = .operand then some 0x0D else none

/-! ### Engines and the words they fetch -/

/-- Engine `e` of a lane. -/
def engine (c : LaneCore) (e : Nat) : Engine := smGet Engine.zero c.engines e

/-- The core with an engine replaced. -/
def setEngine (e : Nat) (g : Engine) (c : LaneCore) : LaneCore := { c with engines := smSet Engine.zero c.engines e g }

/-- The segment list of an engine in an image (R133). -/
def segList (i : Image) (e : Nat) : List (Nat × Nat) := (i.segments.drop e).head?.getD []

/-- Start and length of the segment an engine is in. -/
def segAt (i : Image) (e : Nat) (g : Engine) : Option (Nat × Nat) := (segList i e).drop g.seg |>.head?

/-- What an engine's fetch at its PC finds: a word inside its segment, or that PC lies beyond it (R80, R107). -/
inductive Fetch where | nothing | overrun (w : W32) | word (w : W32) (last : Nat)
  deriving DecidableEq, Repr

/-- The fetch of engine `e` from the active bank. -/
def fetchWord (c : LaneCore) (e : Nat) (g : Engine) : Fetch :=
  match c.active with
  | none => .nothing
  | some i => match segAt i e g with
    | none => .nothing
    | some (start, len) =>
      if start ≤ g.pc ∧ g.pc < start + len then .word (smGet 0#32 i.code g.pc) (start + len - 1)
      else .overrun (smGet 0#32 i.code g.pc)

/-- Whether a jump from word address `p` with offset `k` stays at or before the segment's END (R96, R97). -/
def jumpOk (p k last : Nat) : Bool := decide (p + 1 + k ≤ last)

end Sys2Proof.Machine
end

