-- ==== Sys2Proof/Machine/Repair.lean ====
section
/-! DEFINITION. Repair from spare rows, columns and engines: the analysis of what a test finds, and the verdict on a die (R77, R507 to
R512). -/

namespace Sys2Proof.Machine

open Sys2Proof

/-! ### The repairs of a block (R509, R512) -/

/-- The repairs that a block runs with: those in its fuses and those of its soft map (R512, R513). -/
def repairsOf (s : State) (block : Nat) : List Repair := smGet [] s.mgt.bist.fuseMap block ++ smGet [] s.mgt.bist.softMap block

def isRow : Repair → Bool
  | .row _ _ _ => true
  | _ => false

def isCol : Repair → Bool
  | .col _ _ _ => true
  | _ => false

def isEngine : Repair → Bool
  | .engine _ _ => true
  | _ => false

/-- Spare engines of a lane in use (R198). -/
def enginesUsed (s : State) (l : Lane) : Nat := ((repairsOf s l.idx).filter isEngine).length

/-- Free spare rows of a macro: of its 4, those neither in use nor faulty themselves (R509). -/
def freeRows (rs : List Repair) (bad : List (Nat × Nat)) (m : Nat) : List Nat :=
  (List.range 4).filter (fun k => !bad.contains (m, k) && !rs.any (fun r => match r with | .row m' k' _ => decide (m' = m ∧ k' = k) | _ => false))

/-- Free spare columns of a macro, of its 2 (R509). -/
def freeCols (rs : List Repair) (bad : List (Nat × Nat)) (m : Nat) : List Nat :=
  (List.range 2).filter (fun k => !bad.contains (m, k) && !rs.any (fun r => match r with | .col m' k' _ => decide (m' = m ∧ k' = k) | _ => false))

/-! ### The analysis of a macro (R510) -/

/-- An analysis in progress: the failing cells not yet covered, as row and column, the spares still free, and the repairs made. -/
structure Analysis where
  cells : List (Nat × Nat)
  rows : List Nat
  cols : List Nat
  made : List Repair
  deriving DecidableEq, Repr, Inhabited

/-- A row takes a spare row, while one is free. -/
def takeRow (m r : Nat) (a : Analysis) : Analysis :=
  match a.rows with
  | [] => a
  | k :: rest => ⟨a.cells.filter (fun c => decide (c.1 ≠ r)), rest, a.cols, a.made ++ [.row m k r]⟩

/-- A column takes a spare column, while one is free. -/
def takeCol (m r : Nat) (a : Analysis) : Analysis :=
  match a.cols with
  | [] => a
  | k :: rest => ⟨a.cells.filter (fun c => decide (c.2 ≠ r)), a.rows, rest, a.made ++ [.col m k r]⟩

/-- Rule 1: a row with failing cells in more than the free spare columns. -/
def rowRule (m : Nat) (a : Analysis) (r : Nat) : Analysis :=
  if a.cols.length < (a.cells.filter (fun c => decide (c.1 = r))).length then takeRow m r a else a

/-- Rule 2: a column with failing cells in more than the free spare rows. -/
def colRule (m : Nat) (a : Analysis) (r : Nat) : Analysis :=
  if a.rows.length < (a.cells.filter (fun c => decide (c.2 = r))).length then takeCol m r a else a

/-- Rule 3: a failing cell that is left takes a spare row while one is free, and then a spare column. -/
def cellRule (m : Nat) (a : Analysis) (c : Nat × Nat) : Analysis :=
  if !a.cells.contains c then a else if a.rows.isEmpty then takeCol m c.2 a else takeRow m c.1 a

/-- The failing cells of a macro in ascending row and column. The order in which the rules go through rows, columns and cells is open (DESIGN
CHOICE, log entry 113). -/
def macroCells (m : Nat) (cs : List Cell) : List (Nat × Nat) :=
  ((cs.filter (fun c => decide (c.memory = m))).foldl (fun (x : SMap (Nat × Nat)) c => smPut x (c.row * 2 ^ 32 + c.col) (c.row, c.col)) []).map (·.2)

/-- The repairs of a macro by the rules in their order; none where it is unrepairable. -/
def analyse (rs : List Repair) (t : DieTest) (m : Nat) : Option (List Repair) :=
  let cs := macroCells m t.first.cells
  let a : Analysis := ⟨cs, freeRows rs t.badRows m, freeCols rs t.badCols m, []⟩
  let a := (cs.map (·.1)).foldl (rowRule m) a
  let a := (cs.map (·.2)).foldl (colRule m) a
  let a := cs.foldl (cellRule m) a
  if a.cells.isEmpty then some a.made else none

/-- Every macro with failing cells. -/
def faultyMacros (cs : List Cell) : List Nat := (cs.foldl (fun (x : SMap Nat) c => smPut x c.memory c.memory) []).map (·.2)

/-- The repairs of all macros; none where one of them is unrepairable. -/
def memoryRepairs (rs : List Repair) (t : DieTest) : Option (List Repair) :=
  (faultyMacros t.first.cells).foldl (fun acc m => match acc, analyse rs t m with
    | some x, some y => some (x ++ y)
    | _, _ => none) (some [])

/-! ### Engines (R77, R510) -/

/-- The physical engine of a logical one: the spare of its latest repair, else its own; the spares are engines 32 and 33 (R46, R507; DEDUCED,
log entry 113). -/
def carrier (rs : List Repair) (e : Nat) : Nat :=
  rs.foldl (fun p r => match r with | .engine e' k => if e' = e then 32 + k else p | _ => p) e

/-- The physical engine that carries a logical one after repair (R77). -/
def physicalEngine (s : State) (l : Lane) (e : Nat) : Nat := carrier (repairsOf s l.idx) e

/-- A partition of a lane that is in use: that of an engine which carries a logical one, of the supervisor core, or of the units and ports. -/
def partitionUsed (rs : List Repair) (p : Nat) : Bool :=
  decide (34 ≤ p) || (List.range 32).any (fun e => decide (carrier rs e = p))

/-- A failing engine partition maps the logical engine it carries onto a free spare engine that has itself passed; none where it cannot. -/
def engineRule (failing : List Nat) (rs : List Repair) (acc : Option (List Repair)) (p : Nat) : Option (List Repair) :=
  match acc with
  | none => none
  | some made =>
    let all := rs ++ made
    let free := (List.range 2).filter (fun k => !failing.contains (32 + k) && !all.any (fun r => match r with | .engine _ k' => decide (k' = k) | _ => false))
    match (List.range 32).find? (fun e => decide (carrier all e = p)), free with
    | some e, k :: _ => if p < 34 then some (made ++ [.engine e k]) else none
    | _, _ => none

/-- The engine repairs of a die; voter halves and stars have no spare engines. -/
def engineRepairs (block : Nat) (rs : List Repair) (t : DieTest) : Option (List Repair) :=
  if block < 4 then (t.first.partitions.filter (partitionUsed rs)).foldl (engineRule t.first.partitions rs) (some [])
  else if t.first.partitions.isEmpty then some [] else none

/-! ### The verdict on a die (R507, R511) -/

/-- The verdict: logic BIST and MBIST as first run, failures that were repaired left out; the repairs made, whether they were retested, and
the retest of each. -/
structure Verdict where
  logic : Bool
  memory : Bool
  made : List Repair
  retested : Bool
  logicAgain : Bool
  memoryAgain : Bool
  deriving DecidableEq, Repr, Inhabited

/-- A second run finds nothing: no partition in use failing, no cell. -/
def logicClean (block : Nat) (rs : List Repair) (r : DieRun) : Bool :=
  if block < 4 then (r.partitions.filter (partitionUsed rs)).isEmpty else r.partitions.isEmpty

/-- The verdict on a die: the analysis, and where it repaired all, the test that found the fault run once more (R510, R511). -/
def verdict (s : State) (block : Nat) (t : DieTest) : Verdict :=
  let rs := repairsOf s block
  match engineRepairs block rs t, memoryRepairs rs t with
  | some le, some me =>
    let made := le ++ me
    ⟨true, true, made, !made.isEmpty, le.isEmpty || logicClean block (rs ++ made) t.again, me.isEmpty || t.again.cells.isEmpty⟩
  | le, me => ⟨le.isSome, me.isSome, [], false, true, true⟩

/-- Logic BIST has passed, after any retest. -/
def Verdict.lPass (v : Verdict) : Bool := v.logic && v.logicAgain

/-- MBIST has passed, after any retest. -/
def Verdict.mPass (v : Verdict) : Bool := v.memory && v.memoryAgain

/-- The die passes: every partition passes and every macro is free of faults (R507). -/
def Verdict.passes (v : Verdict) : Bool := v.lPass && v.mPass

/-- The repairs that stand: those of a die that passes (R511). -/
def Verdict.kept (v : Verdict) : List Repair := if v.passes then v.made else []

/-- What repairs have just left without a spare: the macros with neither row nor column, and the lane with no engine, shown as 0xFFFF (R524). -/
def usedUp (rs : List Repair) (made : List Repair) : List Nat :=
  (made.filterMap (fun r => match r with
    | .engine _ _ => if 2 ≤ (rs.filter isEngine).length then some 0xFFFF else none
    | .row m _ _ | .col m _ _ => if (freeRows rs [] m).isEmpty && (freeCols rs [] m).isEmpty then some m else none)).eraseDups

end Sys2Proof.Machine
end

