-- ==== Sys2Proof/Machine/Engine.lean ====
section
/-! DEFINITION. The bit-logic engines: what an engine's instruction does to its lane (R76 to R109), and the lane's
withdrawal that an engine fault brings (R108). -/

namespace Sys2Proof.Machine

open Sys2Proof

/-! ### Withdrawal and faults -/

/-- The lane gives up its seat: it owes one withdrawal record of this cause, sends no other record of the scan and does
not renew its lease (R108, R146). The first cause stands. -/
def laneWithdraw (cause : Nat) (x : LaneState) : LaneState :=
  match x.commit.withdraw with
  | some _ => x
  | none => { x with core := { x.core with phase := .stopped },
                     commit := { x.commit with withdraw := some cause, renewBad := true } }

/-- SOURCE of a lane's engine or supervisor (R463). -/
def laneSource (l : Lane) (inst : Nat) : Nat := (8 + l.idx) * 4096 + inst

/-- The word at an engine's PC, as the code bank stores it. -/
def wordAtPc (c : LaneCore) (g : Engine) : W32 :=
  match c.active with
  | none => 0
  | some i => smGet 0#32 i.code g.pc

/-- The vital record ENGINE_FAULT (R109, R476). Of a word with an uncorrectable error (0x0B) the spec does not say what `the instruction
word as fetched` holds: a free value (log entry 96). -/
def faultRecord (l : Lane) (e code further : Nat) (s : State) : State :=
  let c := (lane s l).core
  let g := engine c e
  let w := if code = 0x0B then (freeNow s).toNat % 2 ^ 32 else (wordAtPc c g).toNat
  let s := if code = 0x0B then drawn s else s
  report .vital 0x0201 (laneSource l e)
    (byte l.idx ++ byte e ++ byte (physicalEngine s l e) ++ byte code ++ le2 g.seg ++ le4 g.pc ++
      le4 w ++ byte further) (scnLe s) s

/-- Engines fault in one engine cycle, each with its code: the record names the lowest and counts the others, the lane stops and
withdraws (R108, R109). -/
def enginesFault (l : Lane) (fs : List (Nat × Nat)) (s : State) : State :=
  match fs with
  | [] => s
  | (e, code) :: rest =>
    let s := faultRecord l e code rest.length s
    onLane l (fun x =>
      laneWithdraw code { x with core := fs.foldl (fun c k => setEngine k.1 { engine c k.1 with run := .faulted } c) x.core }) s

/-! ### Phases and visibility (R90) -/

/-- A bit as an engine reads it: what it wrote itself in this phase, else the store as the phase found it (R90). -/
def engBit (c : LaneCore) (e a : Nat) : Bool :=
  match smFind (smGet [] c.writes e) a with
  | some b => b
  | none => varBit c.vars a

/-- A bit that an engine writes: its next instruction sees it, the other engines from the next phase on (R90). -/
def putEngBit (e a : Nat) (b : Bool) (c : LaneCore) : LaneCore :=
  { c with writes := smSet [] c.writes e (smPut (smGet [] c.writes e) a b) }

/-- A phase ends: what the engines wrote in it stands in the store for all of them, engine 0's writes first (R90). -/
def phaseEnds (c : LaneCore) : LaneCore :=
  let put := fun (m : SMap W64) (w : Nat × SMap Bool) => w.2.foldl (fun m p => setVarBit p.1 p.2 m) m
  { c with vars := c.writes.foldl put c.vars, writes := [] }

/-! ### One instruction -/

/-- What an instruction makes of its engine and lane, or the fault code it meets. -/
abbrev EngResult := Except Nat (Engine × LaneState)

/-- The lane evaluates, its engine executes, and the scan's deadline has not come: no engine instruction runs in the 25 us reserve
(R58). -/
def engRunning (s : State) (l : Lane) (e : Nat) : Bool :=
  (lane s l).core.phase == .evaluating && (engine (lane s l).core e).run == .running && decide (s.clk.tick < deadlineTick s)

/-- The engine after an instruction of `n` cycles that goes on with the next word (R88). -/
def engNext (n : Nat) (g : Engine) : Engine := { g with pc := g.pc + 1, cycles := g.cycles + n }

/-- A check of reserved fields: RESERVED_FIELD where it fails (R107). -/
def reserved (ok : Bool) (r : EngResult) : EngResult := if ok then r else .error 0x02

/-- The fault where there is one, else the effect (R89). Where an instruction meets several conditions of R107 the spec gives no
order: a reserved field comes first, then range or protection, then a memory error, and of END the branch stack before BAR: DESIGN
CHOICE, log entry 97. -/
def orFault (f : Option Nat) (r : EngResult) : EngResult :=
  match f with
  | some c => .error c
  | none => r

/-- A read-class bit instruction: ACC becomes `f ACC (V[a] xor n)` (R93). -/
def bitRead (f : Bool → Bool → Bool) (e : Nat) (h : Hw) (x : EngArg) (g : Engine) (st : LaneState) : EngResult :=
  reserved (modOk x) (orFault (readFault h x.opd.toNat)
    (.ok (engNext 1 { g with acc := f g.acc (xor (engBit st.core e x.opd.toNat) x.n) }, st)))

/-- A write-class bit instruction: V[a] becomes `f (ACC xor n) V[a]`, ACC stays (R93). -/
def bitWrite (f : Bool → Bool → Bool) (e : Nat) (h : Hw) (x : EngArg) (g : Engine) (st : LaneState) : EngResult :=
  let c := putEngBit e x.opd.toNat (f (xor g.acc x.n) (engBit st.core e x.opd.toNat)) st.core
  reserved (modOk x) (orFault (writeFault h x.opd.toNat) (.ok (engNext 1 g, { st with core := c })))

/-- LDK (R93). -/
def constAct (x : EngArg) (g : Engine) (st : LaneState) : EngResult :=
  reserved (modOk x && (x.opd == 0#22)) (.ok (engNext 1 { g with acc := x.n }, st))

/-- NOP (R104). -/
def nopAct (x : EngArg) (g : Engine) (st : LaneState) : EngResult := reserved (plainOk x) (.ok (engNext 1 g, st))

/-- BRO (R94). -/
def branchOpen (x : EngArg) (g : Engine) (st : LaneState) : EngResult :=
  reserved (plainOk x) (orFault (if g.bsd = 16 then some 0x06 else none)
    (.ok (engNext 1 { g with stack := setBit g.stack g.bsd g.acc, bsd := g.bsd + 1 }, st)))

/-- The top entry of the branch stack. -/
def branchTop (g : Engine) : Bool := g.stack.getLsbD (g.bsd - 1)

/-- A close of a parenthesis: ACC becomes `f (pop) (ACC xor n)` (R94). -/
def branchClose (f : Bool → Bool → Bool) (x : EngArg) (g : Engine) (st : LaneState) : EngResult :=
  reserved (modOk x && (x.opd == 0#22)) (orFault (if g.bsd = 0 then some 0x07 else none)
    (.ok (engNext 1 { g with acc := f (branchTop g) (xor g.acc x.n), bsd := g.bsd - 1 }, st)))

/-! ### Units -/

/-- The preset of a timer in scans: the one carried through an online change, else the declared one (R136, R258). -/
def presetOf (st : LaneState) (i : Image) (d : TimerDecl) : W32 :=
  match (st.presets.find? (fun p => p.1 = d.index)) with
  | some p => p.2
  | none => BitVec.ofNat 32 (ceilDiv (d.presetMs * 1000) (Config.tscanUs i.tscan))

/-- A timer instruction of kind `kind` (R98). A carried preset is dropped at the execution that leaves RUN = 0 (R258). -/
def timerStep (kind : Nat) (f : Bool → W32 → TimerState → TimerState) (h : Hw) (x : EngArg) (g : Engine) (st : LaneState) : EngResult :=
  reserved (modOk x)
    (match st.core.active with
     | none => .error 0x03
     | some i => orFault (unitFault h (timerDecl i kind x.opd.toNat))
       (match timerDecl i kind x.opd.toNat with
        | none => .error 0x03
        | some d =>
          let t := f g.acc (presetOf st i d) (smGet TimerState.zero st.core.timers d.index)
          .ok (engNext 4 { g with acc := xor t.q x.n },
            { st with core := { st.core with timers := smSet TimerState.zero st.core.timers d.index t },
                      presets := if t.run then st.presets else smDrop st.presets d.index })))

/-- PREV of an edge detector. -/
def edgePrev (m : SMap W64) (k : Nat) : Bool := varBit m k

/-- An edge instruction of kind `kind` (R101). A detector new at a swap takes the current input as PREV (R259). -/
def edgeStep (kind : Nat) (f : Bool → Bool → Bool) (h : Hw) (x : EngArg) (g : Engine) (st : LaneState) : EngResult :=
  reserved (modOk x)
    (match st.core.active with
     | none => .error 0x03
     | some i => orFault (unitFault h (edgeDecl i kind x.opd.toNat))
       (let k := x.opd.toNat
        let prev := if st.edgeFresh.contains k then g.acc else edgePrev st.core.edges k
        .ok (engNext 2 { g with acc := xor (f g.acc prev) x.n },
          { st with core := { st.core with edges := setVarBit k g.acc st.core.edges },
                    edgeFresh := st.edgeFresh.filter (fun j => j ≠ k) })))

/-- A counter's state: of a declared counter that nothing has changed since its load, what the load wrote. -/
def counterOf (c : LaneCore) (k : Nat) : CounterState := smGet CounterState.zero c.counters k

/-- A counter instruction: the counter after it, and the comparison CMP selects xor n to ACC (R102). -/
def counterStep (f : Bool → CounterDecl → CounterState → CounterState) (h : Hw) (x : EngArg) (g : Engine) (st : LaneState) : EngResult :=
  reserved (!x.m3)
    (match st.core.active with
     | none => .error 0x03
     | some i => orFault (unitFault h (counterDecl i x.opd.toNat))
       (match counterDecl i x.opd.toNat with
        | none => .error 0x03
        | some d =>
          let c := f g.acc d (counterOf st.core d.index)
          .ok (engNext 4 { g with acc := xor (counterCmp x.cmp c.cv (BitVec.ofNat 32 d.pv)) x.n },
            { st with core := { st.core with counters := smSet CounterState.zero st.core.counters d.index c } })))

/-! ### Barriers and ends -/

/-- The logical engines in order. -/
def engineIds : List Nat := (List.range 32)

/-- All 32 engines wait at a barrier. -/
def allWaiting (c : LaneCore) : Bool :=
  engineIds.all (fun e => match (engine c e).run with | .waiting _ => true | _ => false)

/-- The engines wait with different numbers (R105). -/
def waitsDiffer (c : LaneCore) : Bool :=
  engineIds.any (fun e => decide ((engine c e).run ≠ (engine c 0).run))

/-- After an arrival: engines that arrived with different numbers all fault when the last arrives (R105). -/
def judgeBarrier (l : Lane) (s : State) : State :=
  let c := (lane s l).core
  if allWaiting c && waitsDiffer c then enginesFault l (engineIds.map (fun e => (e, 0x09))) s else s

/-- All 32 engines leave the barrier in one engine cycle, 2 cycles after the last arrival, and the next phase begins (R90, R104,
R106). -/
def leaveBarrier (c : LaneCore) : LaneCore :=
  let c := phaseEnds c
  let last := engineIds.foldl (fun m e => max m (engine c e).cycles) 0
  engineIds.foldl (fun c e =>
    match (engine c e).run with
    | .waiting b =>
      let g := engine c e
      setEngine e { g with run := .running, bar := some b, pc := g.pc + 1, cycles := last + 2 } c
    | _ => c) c

/-- The last of the 32 engines has finished: the last phase ends and the lane sends its commit stream (R79, R90, R145). -/
def endOfScan (c : LaneCore) : LaneCore :=
  if engineIds.all (fun e => (engine c e).run == .finished) then { phaseEnds c with phase := .committing } else c

/-- END: the next segment, or the engine's end of the scan (R79, R95, R104). -/
def endAct (x : EngArg) (e : Nat) (g : Engine) (st : LaneState) : EngResult :=
  reserved (plainOk x)
    (if g.bsd ≠ 0 then .error 0x08
     else match st.core.active with
      | none => .error 0x09
      | some i => match (segList i e).drop (g.seg + 1) |>.head? with
        | some (start, _) =>
          .ok ({ g with seg := g.seg + 1, pc := start, acc := false, bsd := 0, cycles := g.cycles + 2 }, st)
        | none => if g.bar = i.barriers.getLast? then .ok ({ g with run := .finished, cycles := g.cycles + 2 }, st)
                  else .error 0x09)

/-- SYNC: the engine waits for all 32 (R104, R105). -/
def syncAct (x : EngArg) (g : Engine) (st : LaneState) : EngResult :=
  reserved (modOk x && !x.n && decide (x.opd.toNat < 256))
    (match g.bar with
     | none => .ok ({ g with run := .waiting x.opd.toNat }, st)
     | some b => if x.opd.toNat ≤ b then .error 0x09 else .ok ({ g with run := .waiting x.opd.toNat }, st))

/-- JMP and JC: the target is checked whether or not the jump is taken (R96, R97). -/
def jumpAct (ok : Bool) (taken : Bool) (x : EngArg) (g : Engine) (last : Nat) (st : LaneState) : EngResult :=
  reserved ok
    (if jumpOk g.pc x.opd.toNat last then
      .ok (if taken then { g with pc := g.pc + 1 + x.opd.toNat, cycles := g.cycles + 2 } else engNext 1 g, st)
     else .error 0x05)

/-! ### The word that an engine executes -/

/-- What a word of an opcode does in engine `e` (R93 to R104); none for an opcode outside the map (R82). -/
def wordAct (opc e : Nat) (h : Hw) (x : EngArg) (g : Engine) (last : Nat) (st : LaneState) : Option EngResult :=
  match opc with
  | 0x01 => some (nopAct x g st)
  | 0x02 => some (endAct x e g st)
  | 0x03 => some (syncAct x g st)
  | 0x04 => some (bitRead (fun _ v => v) e h x g st)
  | 0x05 => some (bitRead (fun a v => a && v) e h x g st)
  | 0x06 => some (bitRead (fun a v => a || v) e h x g st)
  | 0x07 => some (bitRead (fun a v => xor a v) e h x g st)
  | 0x08 => some (bitWrite (fun a _ => a) e h x g st)
  | 0x09 => some (bitWrite (fun a v => a || v) e h x g st)
  | 0x0A => some (bitWrite (fun a v => !a && v) e h x g st)
  | 0x0B => some (constAct x g st)
  | 0x0C => some (branchOpen x g st)
  | 0x0D => some (branchClose (fun p a => p && a) x g st)
  | 0x0E => some (branchClose (fun p a => p || a) x g st)
  | 0x10 => some (jumpAct (modOk x && !x.n) true x g last st)
  | 0x11 => some (jumpAct (modOk x) (xor g.acc x.n) x g last st)
  | 0x18 => some (timerStep 0 tonNext h x g st)
  | 0x19 => some (timerStep 1 tofNext h x g st)
  | 0x1A => some (timerStep 2 tpNext h x g st)
  | 0x1C => some (counterStep (fun a _ c => ctuNext a c) h x g st)
  | 0x1D => some (counterStep (fun a _ c => ctdNext a c) h x g st)
  | 0x1E => some (counterStep (fun a d c => ctrNext a (BitVec.ofNat 32 d.rv) c) h x g st)
  | 0x20 => some (edgeStep 0 edrOut h x g st)
  | 0x21 => some (edgeStep 1 edfOut h x g st)
  | _ => none

/-- The fault that the next word of a running engine meets, where the memories report nothing (R107). -/
def faultAhead (s : State) (l : Lane) (e : Nat) : Option Nat :=
  let st := lane s l
  let g := engine st.core e
  if engRunning s l e then
    match fetchWord st.core e g with
    | .nothing => none
    | .overrun _ => some 0x0A
    | .word w last => match wordAct (opcodeOf w) e .ok (argOf w) g last st with
      | none => some 0x01
      | some (.error c) => some c
      | some (.ok _) => none
  else none

/-- The engines that fault in the engine cycle in which engine `e` meets fault `c`, in their order: those as many cycles into the scan
whose own next word faults (R109). -/
def faultsWith (s : State) (l : Lane) (e c : Nat) : List (Nat × Nat) :=
  let core := (lane s l).core
  engineIds.filterMap (fun k =>
    if k = e then some (e, c)
    else if (engine core k).cycles = (engine core e).cycles then (faultAhead s l k).map (fun d => (k, d))
    else none)

/-- Engine `e` of lane `l` executes the word of opcode `opc` and fields `x`, if that is the word it fetches; otherwise
nothing happens (log entry 10). A fault leaves every variable, register and unit as it was (R89). -/
def engStep (opc : Nat) (l : Lane) (e : Nat) (h : Hw) (x : EngArg) (s : State) : State :=
  if engRunning s l e then
    let st := lane s l
    let g := engine st.core e
    match fetchWord st.core e g with
    | .word w last =>
      if opcodeOf w = opc ∧ argOf w = x ∧ h ≠ .code then
        match wordAct opc e h x g last st with
        | some (.error c) => enginesFault l (faultsWith s l e c) s
        | some (.ok (g', st')) => onLane l (fun _ => { st' with core := setEngine e g' st'.core }) s
        | none => s
      else s
    | _ => s
  else s

/-! ### The meanings -/

/-- NOP (R104). -/
def execNop (l : Lane) (e : BitVec 5) (h : Hw) (x : EngArg) (s : State) : Host.Outcome State Fault Refusal :=
  .next (engStep 0x01 l e.toNat h x s)

/-- END (R79, R95, R104). When the 32nd engine ends, the lane's commit stream starts (R145). -/
def execEndSeg (l : Lane) (e : BitVec 5) (h : Hw) (x : EngArg) (s : State) : Host.Outcome State Fault Refusal :=
  .next (onCore l (fun c => if c.phase = .evaluating then endOfScan c else c)
    (engStep 0x02 l e.toNat h x s))

/-- SYNC (R104, R105). -/
def execSync (l : Lane) (e : BitVec 5) (h : Hw) (x : EngArg) (s : State) : Host.Outcome State Fault Refusal :=
  .next (judgeBarrier l (engStep 0x03 l e.toNat h x s))

/-- SYNC_BARRIER_LEAVE (R106). -/
def execSyncBarrierLeave (l : Lane) (s : State) : Host.Outcome State Fault Refusal :=
  .next (onCore l (fun c => if c.phase = .evaluating ∧ allWaiting c ∧ !waitsDiffer c ∧ s.clk.tick < deadlineTick s then leaveBarrier c else c) s)

/-- LD (R93). -/
def execLd (l : Lane) (e : BitVec 5) (h : Hw) (x : EngArg) (s : State) : Host.Outcome State Fault Refusal :=
  .next (engStep 0x04 l e.toNat h x s)

/-- AND (R93). -/
def execAndB (l : Lane) (e : BitVec 5) (h : Hw) (x : EngArg) (s : State) : Host.Outcome State Fault Refusal :=
  .next (engStep 0x05 l e.toNat h x s)

/-- OR (R93). -/
def execOrB (l : Lane) (e : BitVec 5) (h : Hw) (x : EngArg) (s : State) : Host.Outcome State Fault Refusal :=
  .next (engStep 0x06 l e.toNat h x s)

/-- XOR (R93). -/
def execXorB (l : Lane) (e : BitVec 5) (h : Hw) (x : EngArg) (s : State) : Host.Outcome State Fault Refusal :=
  .next (engStep 0x07 l e.toNat h x s)

/-- ST (R93). -/
def execSt (l : Lane) (e : BitVec 5) (h : Hw) (x : EngArg) (s : State) : Host.Outcome State Fault Refusal :=
  .next (engStep 0x08 l e.toNat h x s)

/-- SET (R93). -/
def execSetB (l : Lane) (e : BitVec 5) (h : Hw) (x : EngArg) (s : State) : Host.Outcome State Fault Refusal :=
  .next (engStep 0x09 l e.toNat h x s)

/-- RST (R93). -/
def execRst (l : Lane) (e : BitVec 5) (h : Hw) (x : EngArg) (s : State) : Host.Outcome State Fault Refusal :=
  .next (engStep 0x0A l e.toNat h x s)

/-- LDK (R93). -/
def execLdk (l : Lane) (e : BitVec 5) (h : Hw) (x : EngArg) (s : State) : Host.Outcome State Fault Refusal :=
  .next (engStep 0x0B l e.toNat h x s)

/-- BRO (R94). -/
def execBro (l : Lane) (e : BitVec 5) (h : Hw) (x : EngArg) (s : State) : Host.Outcome State Fault Refusal :=
  .next (engStep 0x0C l e.toNat h x s)

/-- BCA (R94). -/
def execBca (l : Lane) (e : BitVec 5) (h : Hw) (x : EngArg) (s : State) : Host.Outcome State Fault Refusal :=
  .next (engStep 0x0D l e.toNat h x s)

/-- BCO (R94). -/
def execBco (l : Lane) (e : BitVec 5) (h : Hw) (x : EngArg) (s : State) : Host.Outcome State Fault Refusal :=
  .next (engStep 0x0E l e.toNat h x s)

/-- JMP (R96). -/
def execJmp (l : Lane) (e : BitVec 5) (h : Hw) (x : EngArg) (s : State) : Host.Outcome State Fault Refusal :=
  .next (engStep 0x10 l e.toNat h x s)

/-- JC (R96). -/
def execJc (l : Lane) (e : BitVec 5) (h : Hw) (x : EngArg) (s : State) : Host.Outcome State Fault Refusal :=
  .next (engStep 0x11 l e.toNat h x s)

/-- TON (R98). -/
def execTon (l : Lane) (e : BitVec 5) (h : Hw) (x : EngArg) (s : State) : Host.Outcome State Fault Refusal :=
  .next (engStep 0x18 l e.toNat h x s)

/-- TOF (R98). -/
def execTof (l : Lane) (e : BitVec 5) (h : Hw) (x : EngArg) (s : State) : Host.Outcome State Fault Refusal :=
  .next (engStep 0x19 l e.toNat h x s)

/-- TP (R98, R99). -/
def execTp (l : Lane) (e : BitVec 5) (h : Hw) (x : EngArg) (s : State) : Host.Outcome State Fault Refusal :=
  .next (engStep 0x1A l e.toNat h x s)

/-- CTU (R102). -/
def execCtu (l : Lane) (e : BitVec 5) (h : Hw) (x : EngArg) (s : State) : Host.Outcome State Fault Refusal :=
  .next (engStep 0x1C l e.toNat h x s)

/-- CTD (R102). -/
def execCtd (l : Lane) (e : BitVec 5) (h : Hw) (x : EngArg) (s : State) : Host.Outcome State Fault Refusal :=
  .next (engStep 0x1D l e.toNat h x s)

/-- CTR (R102). -/
def execCtr (l : Lane) (e : BitVec 5) (h : Hw) (x : EngArg) (s : State) : Host.Outcome State Fault Refusal :=
  .next (engStep 0x1E l e.toNat h x s)

/-- EDR (R101). -/
def execEdr (l : Lane) (e : BitVec 5) (h : Hw) (x : EngArg) (s : State) : Host.Outcome State Fault Refusal :=
  .next (engStep 0x20 l e.toNat h x s)

/-- EDF (R101). -/
def execEdf (l : Lane) (e : BitVec 5) (h : Hw) (x : EngArg) (s : State) : Host.Outcome State Fault Refusal :=
  .next (engStep 0x21 l e.toNat h x s)

/-- ILLEGAL_OPCODE: a fetched word of no defined opcode, an uncorrectable one, or a fetch beyond the segment (R82, R107). -/
def execIllegalOpcode (l : Lane) (e : BitVec 5) (h : Hw) (s : State) : Host.Outcome State Fault Refusal :=
  .next (if engRunning s l e.toNat then
    let c := (lane s l).core
    match fetchWord c e.toNat (engine c e.toNat) with
    | .nothing => s
    | .overrun _ => enginesFault l (faultsWith s l e.toNat 0x0A) s
    | .word w _ =>
      if h = .code then enginesFault l (faultsWith s l e.toNat 0x0B) s
      else if opcodeDefined (opcodeOf w) then s else enginesFault l (faultsWith s l e.toNat 0x01) s
  else s)

/-- SCRUB_UNCORRECTABLE: a double-bit error found by the scrub is a withdrawal of cause 0x81 (R151, R148). -/
def execScrubUncorrectable (l : Lane) (s : State) : Host.Outcome State Fault Refusal :=
  .next (if (lane s l).core.phase ≠ .stopped ∧ (lane s l).core.active.isSome then onLane l (laneWithdraw 0x81) s else s)

end Sys2Proof.Machine
end

