-- ==== Sys2Proof/Machine/Flow.lean ====
section
/-! DEFINITION. Events that run through the whole module: reset sources and held domains (R479, R44), start attempts and
their failure (R497 to R503), trips (R232 to R236), the states that the seats and the lane configuration show. -/

namespace Sys2Proof.Machine

open Sys2Proof

/-! ### What the seats show -/

/-- The seat votes: HELD or in HANDOVER (R554). -/
def SeatVotes (x : SeatState) : Bool := x.mode == .held || x.mode == .handover

/-- The number of voting seats (R554). -/
def votingCount (s : State) : Nat := (Seat.list.filter (fun k => SeatVotes ((voter s).seats.get k))).length

/-- The image identity that belay reports are compared with: that of the active image (R199). -/
def activeIdentity (s : State) : Option (W32 × W32) := (runImage s).map (fun i => (i.imageVer, i.hdrCrc))

/-- BELAY_READY: the latest report of the belay lane reads AVAILABLE, is no older than 2.5 s and matches the active image (R199). -/
def belayReady (s : State) : Bool :=
  let v := voter s
  match s.variant, v.belay with
  | .f, some (r, at_) => decide (v.laneVote.get r.lane = .belay) && decide (r.state = 0) && decide (r.causes = 0) && decide (s.clk.tick ≤ at_ + 62500000) &&
      decide (some (r.imageVer, r.imageHdrCrc) = activeIdentity s)
  | _, _ => false

/-- The control plane runs: it has voted, no trip is in force and it is not in bivouac. -/
def ctlRuns (s : State) : Bool := (voter s).running && (voter s).votedRun && !s.ctl.trip.inForce && !s.mgt.start.bivouac

/-- Silent scans run: a start before its first voted scan (R69). -/
def silentRun (s : State) : Bool := (voter s).running && !(voter s).votedRun && !s.ctl.trip.inForce

/-- The lane configuration, coded as LANE_CFG (R391, R554). -/
def laneCfg (s : State) : Nat :=
  if !ctlRuns s then 0
  else match votingCount s with
    | 1 => 1
    | 2 => 2
    | 3 => if belayReady s then 4 else 3
    | _ => 0

/-- The lane that holds a seat. -/
def holder (s : State) (k : Seat) : Option Lane := ((voter s).seats.get k).lease.x.map (·.holder)

/-- The seat whose voting lease a lane holds. -/
def seatOf (s : State) (l : Lane) : Option Seat :=
  Seat.list.find? (fun k => SeatVotes ((voter s).seats.get k) && (holder s k == some l))

/-- SOURCE of a voter half (R463). -/
def voterSource (h : Half) (inst : Nat) : Nat := (match h with | .x => 4 | .y => 5) * 4096 + inst

/-- A Kelronyx schedule change is announced: a release has carried it, and it is neither in effect nor aborted (R265, R327). -/
def schedAnnounced (s : State) : Bool :=
  match s.data.sched.change with
  | some c => (match c.a with | some a => scnBefore (scn s) (a + 17) && decide (c.confirmed ≠ some false) | none => false)
  | none => false

/-! ### Reset sources and domains -/

/-- The domains that a source reaches (R479). -/
def reach : ResetSrc → List Nat
  | .retPor => [0, 1, 2, 3, 4, 5, 6, 7, 8, 9, 10, 11]
  | .mainPor | .resetN | .sysReset => [1, 2, 3, 4, 5, 6, 7, 8, 9, 10, 11]
  | .ctrlReset => [5, 6, 7, 8, 9, 10, 11]
  | .watchdog => [1]
  | .netReset => [2]
  | .starReset c => [starDom c]
  | .laneReset l => [laneDom l]

/-- A source that reaches the domain is asserted. -/
def reached (s : State) (d : Nat) : Bool := s.power.sources.any (fun r => (reach r).contains d)

/-- Nothing drives an output (R219, R232). -/
def deadVout (now : Nat) (v : VoutState) : VoutState :=
  { v with changedAt := if v.commanded then now else v.changedAt,
           commanded := false, gate := false, xTrain := false, yTrain := false, testing := false }

/-- Every output and MODULE_ALIVE without drive. -/
def allDead (s : State) : State := onVio (fun v => { v with vout := smMap VoutState.zero (deadVout s.clk.tick) v.vout }) s

/-- What survives in a star's port when its domain is held: what MGT keeps of it (R344, R346). -/
def portKept (p : PortState) : PortState := { PortState.zero with isoAt := p.isoAt }

/-- A star as its domain leaves reset: DOWN, with what MGT keeps of its ports (R307, R354). -/
def starFresh (x : StarState) : StarState := { StarState.zero with ports := smMap PortState.zero portKept x.ports }

/-- A lane as its domain is held: it has no non-volatile memory; MGT keeps its health report (R173). -/
def laneFresh (x : LaneState) : LaneState := { LaneState.zero with health := x.health }

/-- Both voter halves as PD5 and PD6 are held; the diversity remainder is in retention SRAM (R175). -/
def voterFresh (v : Voter) : Voter :=
  { Voter.zero with diversity := { Diversity.zero with hours := v.diversity.hours, remain := v.diversity.remain } }

/-- A lane as records carry it; 0xFF for none (log entry 11). -/
def laneByte : Option Lane → Nat
  | some l => l.idx
  | none => 0xFF

/-- SEAT_CHANGE of a kind (R188, R476). -/
def seatChange (k : Seat) (kind : Nat) (out inn : Option Lane) (idOut idIn : BitVec 16) (s : State) : State :=
  report .vital 0x0205 (voterSource .x k.num)
    (byte k.num ++ byte kind ++ byte (laneByte out) ++ byte (laneByte inn) ++ le2 idOut.toNat ++ le2 idIn.toNat) (scnLe s) s

/-- The ID of a seat's lease. -/
def leaseIdOf (s : State) (k : Seat) : BitVec 16 :=
  match ((voter s).seats.get k).lease.x with
  | some g => g.id
  | none => 0

/-- A seat's state changed. -/
def onSeat (k : Seat) (f : SeatState → SeatState) (s : State) : State :=
  onVoter (fun v => { v with seats := v.seats.set k (f (v.seats.get k)) }) s

/-- A lane's vote state changed; a lane whose domain is not in RUN stays ABSENT (R171). -/
def setVote (l : Lane) (x : LaneVote) (s : State) : State :=
  if domRun s (laneDom l) then onVoter (fun v => { v with laneVote := v.laneVote.set l x }) s else s

/-! ### Joins that end early (R202, R205, R209) -/

/-- What the belay lane reports of itself: STATE, and causes beside those of its last report (R198, R200, R202). -/
def belayState (state : Nat) (causes : BitVec 16) (s : State) : State :=
  match (voter s).belay with
  | some (r, t) =>
    let r := { r with state := state, causes := r.causes ||| causes }
    onBist (fun b => { b with belayReport := if domRun s 1 then some r else b.belayReport }) (onVoter (fun v => { v with belay := some (r, t) }) s)
  | none => s

/-- A planned transfer can still be cancelled: it is not in HANDOVER, or the release of scan C - 1 lies ahead (R186, R205). -/
def cancellable (s : State) (j : Join) : Bool :=
  match j.step with
  | .handover c => scnBefore (scn s) (c - 1)
  | _ => true

/-- A takeover, handback or rotation is abandoned; the lane becomes seatless again, and a rotation waits for its next
opportunity; after a takeover it reports itself UNAVAILABLE with the cause (R202, R205, R209). -/
def abandonJoin (causes : BitVec 16) (s : State) : State :=
  match (voter s).join with
  | none => s
  | some j =>
    let s := match j.why with
      | .takeover => belayState 1 causes (seatChange j.seat 9 none (some j.lane) 0 0 s)
      | .handback | .rotation => match j.step with
        | .handover _ => seatChange j.seat 6 (((voter s).seats.get j.seat).lease.x.map (·.holder)) (some j.lane) (leaseIdOf s j.seat) 0 s
        | _ => s
    let s := onVoter (fun v => { v with join := none }) s
    let s := match j.why with
      | .rotation => onRot (fun r => { r with queue := homeLane j.seat :: r.queue, active := none }) s
      | _ => s
    let s := onSeat j.seat (fun x => if x.mode = .handover then { x with mode := .held } else x) s
    onCore j.lane (fun c => { c with phase := .stopped }) s

/-- The lane being brought up leaves RUN: what can still be cancelled ends; a HANDOVER past the release of scan C - 1 is decided at that of C,
where the lane has sent no records (R186, R188, R202, R205). -/
def joinLost (l : Lane) (s : State) : State :=
  match (voter s).join with
  | some j => if j.lane = l && cancellable s j then abandonJoin 0 s else s
  | none => s

/-- CAIRN_ABANDONED with its failed check (R193). -/
def cairnAbandon (check : Nat) (s : State) : State :=
  report .general 0x020C (voterSource .x 0) (byte check) (scnLe s) (onVoter (fun v => { v with capture := none }) s)

/-- A capture whose source leaves its seat or RUN is abandoned (R192 step 5). -/
def captureSourceLost (l : Lane) (s : State) : State :=
  match (voter s).capture with
  | some c => if c.source = l then cairnAbandon 5 s else s
  | none => s

/-- RESYNC_FAILED with its failure and the scan that showed it, and the held seat falls vacant (R169). -/
def resyncFail (k : Seat) (l : Lane) (code : Nat) (n : Scn) (s : State) : State :=
  let s := report .vital 0x0203 (voterSource .x k.num) (byte l.idx ++ byte k.num ++ byte code) (le4 n.toNat) s
  let s := onLane l (fun x => { x with health := { x.health with resyncFailed := x.health.resyncFailed + 1 } }) s
  let s := if s.ctl.rot.active = some l then onRot (fun r => { r with fwFails := r.fwFails + 1 }) s else s
  setVote l .vacated (onSeat k (fun x => { x with mode := .vacant, openFor := none, openScans := 0, verifying := false }) s)

/-- A lane's domain leaves RUN: it is ABSENT from the vote, its resynchronisation fails, its capture is abandoned,
and what was being done to seat it ends (R44, R169 code 5, R171, R192, R202, R205). -/
def laneLeaves (l : Lane) (s : State) : State :=
  let s := captureSourceLost l s
  let s := (seatsOf s.variant).foldl (fun s k =>
    if ((voter s).seats.get k).mode = .opened ∧ ((voter s).seats.get k).openFor = some l then resyncFail k l 5 (scn s) s else s) s
  onVoter (fun v => { v with laneVote := v.laneVote.set l .absent }) (onLane l laneFresh (joinLost l s))

/-- A command in flight ends with ABORTED. -/
def abortRef (c : Option CmdRef) (s : State) : State :=
  match c with
  | none => s
  | some c => finishRef c .aborted 0 [] [] s

/-- The online-change state that a kind of OLC record leaves; none where it changes none (R269, R588). -/
def olcStateOf (kind : Nat) : Option Nat :=
  match kind with
  | 1 | 4 | 6 | 10 => some 1
  | 3 => some 2
  | 5 | 7 | 9 => some 0
  | _ => none

/-- OLC record (R588), and the OLC event where the state changes (R447). -/
def olcRecord (kind status w : Nat) (crc : W32) (s : State) : State :=
  let s := report .vital 0x0402 0 (byte kind ++ byte status ++ le4 w ++ le4 crc.toNat) [] s
  match olcStateOf kind with
  | some st => raise 0x0005 (byte st ++ byte status ++ le2 0 ++ le4 w) s
  | none => s

/-- An online change overtaken by a control-plane start: a load on the staging path ends, a swap returns to STAGED, and the
image is to be staged again (R268, R448). -/
def olcOvertaken (s : State) : State :=
  let o := s.ctl.olc
  let s := abortRef o.loadCmd (abortRef o.cancelCmd (abortRef o.swapCmd s))
  let s := onOlc (fun o => { o with loadCmd := none, cancelCmd := none, swapCmd := none }) s
  if o.mode = .idle then onOlc (fun o => { o with image := none }) s
  else
    let s := if o.mode = .swapping then
        olcRecord 10 Status.aborted.code o.w.toNat (match o.image with | none => 0 | some i => i.hdrCrc) s
      else s
    onOlc (fun o => { o with mode := .staged, restage := true, swapped := false }) s

/-- A variable's declared address in the running image; 0 where it has none. -/
def varAddr (s : State) (id : Nat) : Nat :=
  match runImage s with
  | none => 0
  | some i => match i.vars.find? (fun v => v.id = id) with | some v => v.addr | none => 0

/-- FORCE: a force set, replaced or cleared, with its cause (R251, R476). -/
def forceRecord (id addr : Nat) (old new : Option Force) (cause : Nat) (s : State) : State :=
  let cls := match new, old with | some f, _ => f.any | none, some f => f.any | none, none => false
  let val := fun (o : Option Force) => match o with | some f => f.value.toNat | none => 0
  report .vital 0x0401 0
    (le4 id ++ le4 addr ++ le2 (val old) ++ le2 (val new) ++ byte (1 + b2n cls) ++ byte cause ++
      byte (b2n old.isSome + 2 * b2n new.isSome)) (scnLe s) s

/-- FRC requests that a control-plane start overtakes complete with ABORTED (R245). The forces that acted are kept for the start, which records
what it changes (R251, R252; DESIGN CHOICE, log entry 115). -/
def forcesOvertaken (s : State) : State :=
  let s := s.ctl.force.pending.foldl (fun s q => finishRef q.cmd .aborted 0 [] [] s) s
  let acted := s.ctl.force.out.x.map (fun p => (p.1, p.2, varAddr s p.1))
  let prior := if (voter s).released then acted else s.ctl.force.prior
  let s := onStaging (fun m => [0, 1, 2, 3].foldl (fun m j => setVarBits 16 (0x029C00 + 0x80 * j) 0 m) m) s
  onForce (fun f => { f with out := Halves.all [], slotPrev := [], slotSeen := [], slotResult := [], oseqPrev := 0, prior := prior,
                             oseqSeen := 0, oseqResult := 0, pending := [], pAnyLast := false, active := false }) s

/-- A schedule change has ended: no lane and no command holds it any more. -/
def changeEnds (s : State) : State :=
  onSched (fun x => { x with change := none }) (onLanes (fun x => { x with change := none }) s)

/-- An announced schedule change is aborted (R330). -/
def schedOvertaken (s : State) : State :=
  match s.data.sched.change with
  | none => s
  | some c =>
    let at_ := match c.a with | some a => (a + 17).toNat | none => 0
    let s := raise 0x000A (byte c.t ++ byte Status.aborted.code ++ le2 0 ++ le4 at_) (finishRef c.cmd .aborted 0 [] [] s)
    changeEnds s

/-- A rotation ends for a lane: the record and the TEST event (R207, R209, R445, R447, R476). -/
def rotationEnds (l : Lane) (st : Status) (s : State) : State :=
  raise 0x0007 (byte l.idx ++ byte 1 ++ byte st.code)
    (report .vital 0x0209 0 (byte l.idx ++ byte st.code) []
      (onRot (fun r => { r with active := none, testing := false, fwFails := 0,
                                requested := if r.queue.isEmpty then none else r.requested }) s))

/-- Rotations in progress or pending are abandoned: every seat stays with its holder, and each one that TST_ROTATE asked for is
answered (R209, R448, R524). -/
def rotationsAbandoned (s : State) : State :=
  let asked := if s.ctl.rot.requested.isSome then s.ctl.rot.queue else []
  let s := match s.ctl.rot.active with
    | some l => rotationEnds l .aborted s
    | none => s
  let s := asked.foldl (fun s l => rotationEnds l .aborted s) s
  onRot (fun r => { r with queue := [], requested := none }) s

/-- The attachment of a debugger ends with the run; a halt or a write that has not acted yet is aborted (R557, R560). -/
def debugEnds (s : State) : State :=
  let s := s.ctl.dbg.pieces.foldl (fun s p => abortRef p.last s) (abortRef s.ctl.dbg.haltCmd s)
  onDbg (fun d => { DebugState.zero with lastScn := d.lastScn }) s

/-- The voter is held: the run ends with all it held (R44, R268, R557, R560). SEAL_FAULT stands until the next start judges the bank: R228
clears it at no other time, where the Reset column of R231 gives 0 (DESIGN CHOICE, log entry 104). -/
def ctlDown (s : State) : State :=
  let s := bookDiversity (schedOvertaken (forcesOvertaken (olcOvertaken s)))
  let s := rotationsAbandoned (debugEnds s)
  let s := onAdm (fun a => { a with snapshot := [], taken := false, discard := false, laneOk := Quad.all true, cut := none }) s
  let s := onSeal (fun q => { q with poles := Halves.all [], sampled := Halves.all none, diffSince := [], judged := false }) s
  let s := onStar .a (fun x => { x with named := false }) (onStar .b (fun x => { x with named := false }) s)
  onVoter voterFresh s

/-- MGT is held: what it holds outside the store, the recorder's holding memory and RET is lost (R17, R126, R402). -/
def mgtDown (s : State) : State :=
  let s := onMgt (fun m => { m with
    mbx := { MbxState.zero with trustAnchor := m.mbx.trustAnchor },
    exp := { m.exp with subs := [], evaluated := none, cycleBase := none, buf0 := none, buf1 := none, valid := false, tripCnt := 0 },
    cvu := [], elec := { m.elec with cellAt := none },
    bist := { m.bist with nandRegion := none, fuseBurn := none, belayReport := none } }) s
  let s := onSched (fun x => { x with cpSubs := [], cpSent := [] }) (onStart (fun x => { x with booted := false }) s)
  let s := onOlc (fun o => { o with swapCmd := none, cancelCmd := none, load := none, loadCmd := none,
                                    image := if o.mode = .idle then none else o.image }) s
  let s := onClk (fun c => { c with heartbeat := 0 }) s
  let s := onRec (fun m => { m with winRing := .vital, autoInc := false, winReady := false, cursor := 0, window := none,
                                    vitalLost := false }) s
  let s := onDbg (fun d => { d with pieces := [], haltCmd := none }) (onTime (fun t => { t with map := none }) s)
  onForce (fun f => { f with pending := [] }) (onStaging (fun _ => []) s)

/-- VIO after its domain leaves reset: MGT keeps the FAULT state of every contact and the list of FAILED outputs
(R215, R225). The slot in progress has had its slot tick, so no contact is tested in it. -/
def vioFresh (now : Nat) (v : VioState) : VioState :=
  let keep := fun (c : Contact) => { Contact.zero with fault := c.fault, upTo := now, slot := now / 12500 + 1 }
  let vin := smMap VinState.zero (fun c => { VinState.zero with a := keep c.a, b := keep c.b }) v.vin
  let vout := smMap VoutState.zero (fun o => { VoutState.zero with failed := o.failed, retest := o.failed.isSome }) v.vout
  { VioState.zero with vin := vin, vout := vout, fwVer := v.fwVer }

/-- The follower of a domain starts afresh (R30). -/
def followerLost (d : Nat) (s : State) : State :=
  onCtl (fun c =>
    let q := c.followers
    { c with followers := match d with
      | 3 => { q with a := FollowerState.zero }
      | 4 => { q with b := FollowerState.zero }
      | 5 => { q with x := FollowerState.zero }
      | 6 => { q with y := FollowerState.zero }
      | 11 => { q with vio := FollowerState.zero }
      | _ => q }) s

/-- What the rest of the module loses as a domain leaves RUN (R44). -/
def domainLost (d : Nat) (s : State) : State :=
  let s := followerLost d s
  match d with
  | 1 => mgtDown s
  | 2 => onTime (fun t => { TimeState.zero with map := t.map }) (onNet (fun _ => NetState.zero) s)
  | 3 => onStar .a starFresh (onAux .a (fun _ => StarAux.zero) s)
  | 4 => onStar .b starFresh (onAux .b (fun _ => StarAux.zero) s)
  | 5 => ctlDown s
  | 6 => s
  | 7 => laneLeaves .a s
  | 8 => laneLeaves .b s
  | 9 => laneLeaves .c s
  | 10 => laneLeaves .d s
  | 11 => onVio (vioFresh s.clk.tick) s
  | _ => s

/-- A domain is held in reset; one that is OFF stays OFF (R43, R484). -/
def holdDomain (d : Nat) (s : State) : State :=
  match dom s d with
  | .run => setDom d .held (domainLost d s)
  | _ => s

/-! ### Start attempts -/

/-- The RESTART_CAUSE code that a source brings by itself; 0 for none (R479). -/
def sourceCause : ResetSrc → Nat
  | .retPor => 0x01
  | .mainPor => 0x02
  | .resetN => 0x03
  | .sysReset => 0x04
  | .ctrlReset => 0x05
  | _ => 0

/-- The component set in the bank other than BANK, as P and Q name them (R537); P is the bank that BOOT_CFG names. -/
def otherSet (s : State) : Versions := if s.ret.sram.bank = s.mgt.upd.preferred then s.mgt.upd.bankQ else s.mgt.upd.bankP

/-- The component set that the start in force loads from (R17, R494, R502): on HOST the one the mask ROM holds. -/
def curSet (s : State) : Versions :=
  match s.power.bootCfg with
  | some k => if 4 ≤ k ∧ k < 8 then s.mgt.upd.active
              else if s.mgt.upd.used = s.mgt.upd.preferred then s.mgt.upd.bankP else s.mgt.upd.bankQ
  | none => s.mgt.upd.active

/-- The other firmware bank holds a component set (R502). -/
def otherBankHolds (s : State) : Bool := !(otherSet s == Versions.zero)

/-- START_ATTEMPT and the START event as an attempt ends (R499, R447, R476). -/
def attemptEnds (st : Status) (s : State) : State :=
  let first := le4 s.mgt.start.firstVoted.toNat
  let fails := le2 s.ret.failedStarts.toNat
  let s := report .vital 0x0101 0 (byte st.code ++ byte (laneCfg s) ++ byte s.ret.sram.bank) (fails ++ first) s
  let s := raise 0x0002 (byte st.code ++ byte (laneCfg s) ++ fails ++ first) s
  onStart (fun x => { x with inAttempt := false, result := st.code, runSince := none }) s

/-- The wait after the n-th consecutive failure in seconds (R501). -/
def backoffSeconds (n : Nat) : Nat := if n ≥ 7 then 64 else 2 ^ (n - 1)

/-- A cause is noted for the next control-plane start (R121, R480). -/
def noteCause (c : Nat) (s : State) : State :=
  if c = 0 then s else onStart (fun x => { x with causes := x.causes ++ [c] }) s

/-- What a reset that reaches PD2 and PD5 restarts: the cycle count and the blocks handed to the stars (R49, R360). -/
def countRestart (s : State) : State :=
  onPower (fun p => { p with fullReset := true })
    (onClk (fun c => { c with tb2 := 0 }) (onData (fun d => { d with cfg := LinkCfg.zero }) s))

/-- SINGLE_CHANNEL (R354, R476): one star leaves or joins while the other is in RUN and the control plane runs. -/
def singleChannel (c : Chan) (entry : Bool) (s : State) : State :=
  if (voter s).running && domRun s (starDom c.other) then
    reportSvc 0x0506 ((2 + c.idx) * 4096 + 0xFFF) (byte c.idx ++ byte (b2n entry)) [] s
  else s

/-- Single-channel operation begins where a source takes one star out of RUN. -/
def singleBegins (r : ResetSrc) (s : State) : State :=
  match r with
  | .starReset c => if domRun s (starDom c) then singleChannel c true s else s
  | _ => s

/-- The source is asserted and the domains it reaches are held. -/
def rawAssert (r : ResetSrc) (s : State) : State :=
  let s := if s.power.sources.contains r then s
    else onPower (fun p => { p with sources := p.sources ++ [r], assertedAt := p.assertedAt ++ [(r, s.clk.tick)] }) s
  let s := (reach r).foldl (fun s d => if d = 0 then s else holdDomain d s) (singleBegins r s)
  if (reach r).contains 1 && (reach r).contains 5 then countRestart s else s

/-- A backoff wait ends (R501): CTRL_RESET is no longer held for it. -/
def endWait (s : State) : State :=
  onPower (fun p => { p with sources := p.sources.filter (fun q => decide (q ≠ .ctrlReset)),
                             assertedAt := p.assertedAt.filter (fun q => decide (q.1 ≠ .ctrlReset)) })
    (onStart (fun x => { x with backoffUntil := none }) s)

/-- BANK after a failed attempt: the fourth on one bank changes it where the other holds a set that verifies (R502). -/
def bankAfterFail (verifies : Bool) (s : State) : State :=
  let fails := s.ret.sram.bankFails + 1
  let nv := match s.power.bootCfg with | some c => decide (8 ≤ c) | none => true
  if !nv then s
  else if fails < 4 then onRet (fun r => { r with sram := { r.sram with bankFails := fails } }) s
  else if verifies && otherBankHolds s then
    rawAssert .sysReset (endWait (noteCause 0x0F (onRet (fun r => { r with sram := { r.sram with bank := 1 - r.sram.bank, bankFails := 0 } }) s)))
  else onRet (fun r => { r with sram := { r.sram with bankFails := 0 } }) s

/-- A start attempt fails: counters advance, the record and the event are written, CTRL_RESET holds the control plane
through the backoff wait and the module is in bivouac (R500 to R503). -/
def startFail (st : Status) (s : State) : State :=
  if s.mgt.start.inAttempt then
    let s := onRet (fun r => { r with failedStarts := BitVec.ofNat 16 (satAdd 65535 r.failedStarts.toNat 1) }) s
    let s := attemptEnds st s
    let wait := 25000000 * backoffSeconds s.ret.failedStarts.toNat
    let s := onStart (fun x => { x with bivouac := true, service := false, backoffUntil := some (s.clk.tick + wait) }) s
    let s := rawAssert .ctrlReset (noteCause 0x0F s)
    bankAfterFail (decide (st ≠ .signatureFail)) s
  else s

/-- A source is asserted with the cause it brings; where it reaches PD5 it ends an attempt in progress, unless main power
was lost (R479, R499, R500), and a reset that also reaches PD1 ends a backoff wait (R501). -/
def assertSrc (r : ResetSrc) (cause : Nat) (s : State) : State :=
  let five := (reach r).contains 5
  let powerLost := decide (r = .retPor ∨ r = .mainPor)
  let s := if five then noteCause cause s else s
  let s := if five && s.mgt.start.inAttempt then
      (if powerLost then onStart (fun x => { x with inAttempt := false }) s else startFail .aborted s)
    else s
  let s := if five && (reach r).contains 1 then endWait (onStart (fun x => { x with bivouac := true }) s) else s
  rawAssert r s

/-! ### Trips -/

/-- The mask bit of a trigger: RESTART_CAUSE c is bit c - 6; 15 stands for the diversity allowance, bit 9 (R476). SYS_CTRL_RESET is
no trigger of the mask. -/
def trigBit (cause : Nat) : BitVec 16 := if cause < 6 then 0 else BitVec.ofNat 16 (2 ^ (cause - 6))
/-- CAUSE of the TRIP event: 0 for R176 (R447). -/
def causeByte (cause : Nat) : Nat := if cause = 15 then 0 else cause

/-- The lowest RESTART_CAUSE that a mask names; 0 where only R176 is named (R121, R235). -/
def maskCause (m : BitVec 16) : Nat :=
  match ([0, 1, 2, 3, 4, 5, 6, 7, 8].find? (fun i => m.getLsbD i)) with
  | some i => i + 6
  | none => 0

/-- A star's confirmation as the TRIP record gives it (R233). -/
def confirmCode : StarConfirm → Nat
  | .confirmed t => min t 500
  | .notRunning => 0xFFFF
  | .pending | .missed => 0xFFFE

/-- A trip waits to settle: in force, not recorded, no star still to confirm, and 12 us have passed since t0 (R233). -/
def tripSettles (s : State) : Bool :=
  let t := s.ctl.trip
  t.inForce && !t.recorded && t.confirm.a != .pending && t.confirm.b != .pending && decide (t.t0 + 300 ≤ s.clk.tick)

/-- Once no star in RUN is still to confirm, and no earlier than 12 us after t0: the TRIP record, stamped t0, is written and, where due,
CTRL_RESET is asserted together with the STAR_RESET of a star that has not confirmed (R233, R236). -/
def tripSettle (s : State) : State :=
  let t := s.ctl.trip
  if tripSettles s then
    let s := onRec (fun m => { m with reports := m.reports ++ [⟨.vital, 0, 0x0102, voterSource .x 0, t.t0 / 25,
      le2 t.mask.toNat ++ byte (b2n t.ctrlReset),
      le4 t.scn.toNat ++ le2 (confirmCode t.confirm.a) ++ le2 (confirmCode t.confirm.b)⟩] }) s
    let s := onTrip (fun t => { t with recorded := true }) s
    let s := if t.confirm.a = .missed then rawAssert (.starReset .a) s else s
    let s := if t.confirm.b = .missed then rawAssert (.starReset .b) s else s
    if t.ctrlReset then assertSrc .ctrlReset (maskCause t.mask) s else s
  else s

/-- The trip comes into force: every removal means stops, every lane halts, both stars are told to substitute and the TRIP
event is raised (R233). -/
def tripNow (cause : Nat) (reset : Bool) (s : State) : State :=
  let conf := fun c => if domRun s (starDom c) then StarConfirm.pending else StarConfirm.notRunning
  let s := onTrip (fun t => { t with inForce := true, mask := trigBit cause, t0 := s.clk.tick, scn := scn s,
                                     ctrlReset := reset, confirm := ⟨conf .a, conf .b⟩, recorded := false }) s
  let s := onLanes (fun x => { x with core := { x.core with phase := .stopped } }) (allDead s)
  let s := onExp (fun x => { x with tripCnt := x.tripCnt + 1 }) (alert 1 s)
  let s := raise 0x0001 (scnLe s ++ byte (causeByte cause) ++ byte (b2n reset)) s
  let s := if s.ctl.dbg.trippedByHalt then s else debugEnds s
  tripSettle (schedOvertaken (olcOvertaken s))

/-- A trip trigger is judged. In bivouac and before the blocks run nothing judges it; in the silent scans it fails the
start; while a trip is in force it is added to its record (R232, R235). What becomes of a trigger judged once that record is written the
spec does not say: it stands in the mask of State alone (DESIGN CHOICE, log entry 105). -/
def trip (cause : Nat) (reset : Bool) (s : State) : State :=
  if s.ctl.trip.inForce then
    onTrip (fun t => { t with mask := t.mask ||| trigBit cause,
                              ctrlReset := t.ctrlReset || (reset && decide (t.t0 = s.clk.tick)) }) s
  else if silentRun s then startFail .aborted s
  else if ctlRuns s then tripNow cause reset s
  else s

/-- The triggers by name (R232). -/
def tripXY (s : State) : State := trip 0x07 true s
def trip2oo2 (s : State) : State := trip 0x08 true s
def tripSeats (s : State) : State := trip 0x09 true s

end Sys2Proof.Machine
end

