-- ==== Sys2Proof/Machine/Command.lean ====
section
/-! DEFINITION. The frame of every mailbox command: the order in which MGT judges a fetched descriptor (R419 to R422), and
the conditions that many commands share. Rows 1 and 2 of R419 are judged at the fetch. -/

namespace Sys2Proof.Machine

open Sys2Proof

/-- MGT runs and takes commands (R498). -/
def mgtUp (s : State) : Bool := domRun s 1 && s.mgt.start.booted

/-- BAR0 answers the PCIe host: the link is up and PD1 runs (R386, R387). -/
def barUp (s : State) : Bool := domRun s 1 && !s.power.pcieDown

/-- REFCLK ticks until an instant, in milliseconds rounded up; never 0, at most 0xFFFF (R399, R420). -/
def leftMs (s : State) (end_ : Nat) : Nat := min 0xFFFF (max 1 (ceilDiv (end_ - s.clk.tick) 25000))

/-- Row 3 of R419: the data flags stand as the command's Data column says, DATA_LEN is inside the command's and the
transport's limit (R399), and every reserved field is 0. -/
def formOk (c : CmdHdr) (din dout : Bool) (lenOk : Bool) : Bool :=
  decide (c.reserved = 0) && (c.dataIn == din) && (c.dataOut == dout) &&
  (!(din || dout) || (lenOk && decide (c.dataLen ≤ (match c.session with | some _ => 8192 | none => 1048576))))

/-- The first row that applies decides (R419). -/
def judge (rows : List (Bool × Status)) : Option Status := (rows.find? (·.1)).map (·.2)

/-- A command is judged by row 3, row 4 unless it is exempt (R420), and the rows of its own; then it acts. A row of its own
that answers BUSY_SELFTEST is row 9: the NAND region is under test (R399, R514). -/
def cmdRun (c : CmdHdr) (op : Nat) (form exempt : Bool) (rows : List (Bool × Status)) (act : State → State) (s : State) : State :=
  if !mgtUp s then s
  else if !form then finish c op .badArg [] [] s
  else if s.mgt.bist.running && !exempt then finishRef (refOf c op) .busySelftest (leftMs s s.mgt.bist.endAt) [] [] s
  else match judge rows with
    | some .busySelftest => finishRef (refOf c op) .busySelftest (leftMs s s.mgt.bist.nandEnd) [] [] s
    | some st => finish c op st [] [] s
    | none => act s

/-- Row 9: the NAND region that a command reads or writes is under test. -/
def nandBusy (s : State) (op : Nat) : Bool := decide (s.mgt.bist.nandRegion = some (Config.nandRegion op))

/-- The control plane is not running: bivouac, a trip in force, or a start before its first voted scan (R241). -/
def notRunning (s : State) : Bool := !ctlRuns s

/-- Bits `w` from an address of the admission area of a map, and written there (R113, R254). -/
def admRead (w a : Nat) (m : SMap W64) : Nat := varBits w a m
def admWrite (w a v : Nat) (s : State) : State := onStaging (setVarBits w a v) s

end Sys2Proof.Machine
end

