-- ==== Sys2Proof/Machine/Cvu.lean ====
section
/-! DEFINITION. The check-value units (R449 to R460): their registers, windows, results and acknowledgement, and the CVU commands (R429,
R430). -/

namespace Sys2Proof.Machine

open Sys2Proof

/-! ### Settings (R450, R451) -/

/-- The snoop points are 0 to 25 (R453). -/
def pointOk (p : Nat) : Bool := decide (p < 26)

/-- FILTER lies in the range of its point (R453). -/
def filterOk (p f : Nat) : Bool :=
  if p = 12 ∨ p = 13 then decide (f < 256) else if 14 ≤ p ∧ p ≤ 17 then decide (f < 64) else decide (f = 0)

/-- The setting that a unit holds is valid (R451). -/
def cvuSettingOk (x : Cvu) : Bool :=
  decide (1 ≤ x.width) && decide (x.width ≤ 64) && decide (x.poly.toNat < 2 ^ x.width) && decide (x.init.toNat < 2 ^ x.width) &&
  decide (x.xorout.toNat < 2 ^ x.width) && x.poly.getLsbD 0 && pointOk x.point && filterOk x.point x.filter &&
  !(decide (x.trigger = 2) && decide (x.count = 0))

/-- A write of ENABLE = 1 to a unit that stands still (R451). -/
def cvuStart (x : Cvu) : Cvu := if cvuSettingOk x then { x with enable := true, cfgErr := false } else { x with cfgErr := true }

/-- The result of a window (R452). -/
def cvuResult (x : Cvu) (bytes : List Byte) : W64 :=
  BitVec.ofNat 64 (crcOut x.width x.refout x.xorout.toNat (crcReg x.width x.poly.toNat x.refin x.init.toNat bytes))

/-- A window closes (R455). -/
def cvuDone (scn : Scn) (r : W64) (n : W32) (x : Cvu) : Cvu :=
  { x with overrun := if x.valid then BitVec.ofNat 16 (satAdd 0xFFFF x.overrun.toNat 1) else x.overrun,
           result := r, winBytes := n, winScn := scn, seq := x.seq + 1, valid := true }

def cvuClose (scn : Scn) (bytes : List Byte) (x : Cvu) : Cvu := cvuDone scn (cvuResult x bytes) (BitVec.ofNat 32 bytes.length) x

/-- The results of the windows that have closed are shown. -/
def cvuShow (x : Cvu) : Cvu := { x.ended.foldl (fun x q => cvuClose q.1 q.2 x) x with ended := [] }

/-- A write of ENABLE = 0: an open window is discarded; one that has closed has its result first (R451, R455, R458). -/
def cvuStop (x : Cvu) : Cvu := { cvuShow x with enable := false, winOpen := false, window := [], valid := false, overrun := 0 }

/-- The RW fields of CTRL (R450). -/
def cvuFields (v : W32) (x : Cvu) : Cvu :=
  let n := v.toNat
  { x with point := field n 24 5, trigger := field n 22 2, refout := bitN n 21, refin := bitN n 20, width := field n 8 7,
           filter := field n 0 8 }

/-- A write of CTRL but for its software triggers (R451). -/
def cvuCtrl (v : W32) (x : Cvu) : Cvu :=
  let on := v.getLsbD 31
  if x.enable then (if on then x else cvuStop x)
  else
    let x := cvuFields v x
    if on then cvuStart x else cvuStop x

/-- A test of the unit is abandoned: its registers read as before it (R459). -/
def cvuTouched (x : Cvu) : Cvu := { x with underTest := false }

/-! ### Windows (R452 to R455) -/

/-- The domain whose traffic a point carries (R453). -/
def pointDom (p : Nat) : Nat :=
  if p < 8 then 7 + p % 4 else if p = 8 ∨ p = 10 then 5 else if p = 9 then 6 else if p = 14 ∨ p = 15 then 3
  else if p = 16 ∨ p = 17 then 4 else if 18 ≤ p ∧ p ≤ 21 then 2 else 1

/-- The bytes of a point's unit where they are fixed (R453). -/
def pointUnit (p : Nat) : Option Nat :=
  if p < 8 then some 20 else if p < 10 then some 8200 else if p = 10 then some 4096 else if p = 11 then some 524288
  else if 22 ≤ p ∧ p ≤ 24 then some 4096 else if p = 25 then some 64 else none

/-- These bytes make a window of the unit's trigger, at a point whose bytes lie outside the module's state (R453, R454). -/
def windowFits (s : State) (x : Cvu) (bytes : List Byte) : Bool :=
  let runs := domRun s (pointDom x.point)
  pointOutside x.point && match x.trigger with
  | 0 => x.winOpen && (runs || bytes.isEmpty)
  | 1 => runs && !bytes.isEmpty && (match pointUnit x.point with | some n => decide (bytes.length = n) | none => true)
  | 2 => runs && decide (bytes.length = x.count.toNat)
  | _ => false

/-- The unit is under software trigger and runs (R454). -/
def softUnit (x : Cvu) : Bool := x.enable && decide (x.trigger = 3)

/-- An OPEN: a window that was open is discarded (R454). -/
def cvuOpen (x : Cvu) : Cvu := if softUnit x then { x with winOpen := true, window := [] } else x

/-- A CLOSE (R454): ignored while no window is open. -/
def cvuSoftClose (scn : Scn) (bytes : List Byte) (x : Cvu) : Cvu :=
  if softUnit x ∧ x.winOpen then { cvuClose scn bytes x with winOpen := false, window := [] } else x

/-- RESULT_ACK (R457). -/
def cvuAck (v : W32) (x : Cvu) : Cvu := if v = x.seq then { x with valid := false } else x

/-- The bytes that a software window held: what the unit took; at a point outside the module's state those given, none where its source is not
in RUN (R453). -/
def softBytes (s : State) (u : Nat) (bytes : List Byte) : List Byte :=
  let x := cvuOf s u
  if !pointOutside x.point then x.window else if domRun s (pointDom x.point) then bytes else []

/-! ### Writes over BAR0 -/

/-- CVU_ENABLE_WRITE (R451, R458): a write of CTRL. -/
def execCvuEnableWrite (u : BitVec 4) (v : W32) (s : State) : Host.Outcome State Fault Refusal :=
  .next (if barUp s then onCvu u.toNat (fun x => cvuCtrl v (cvuTouched x)) s else s)

/-- CVU_OPEN_WRITE (R454). -/
def execCvuOpenWrite (u : BitVec 4) (s : State) : Host.Outcome State Fault Refusal :=
  .next (if barUp s then onCvu u.toNat (fun x => cvuOpen (cvuTouched x)) s else s)

/-- CVU_CLOSE_WRITE (R454): `bytes` passed the snoop point since the window opened, where the module's state holds none of them. -/
def execCvuCloseWrite (u : BitVec 4) (bytes : List Byte) (s : State) : Host.Outcome State Fault Refusal :=
  .next (if barUp s then onCvu u.toNat (fun x => cvuSoftClose (scn s) (softBytes s u.toNat bytes) (cvuTouched x)) s else s)

/-- CVU_RESULT_ACK_WRITE (R457). -/
def execCvuResultAckWrite (u : BitVec 4) (v : W32) (s : State) : Host.Outcome State Fault Refusal :=
  .next (if barUp s then onCvu u.toNat (fun x => cvuAck v (cvuTouched x)) s else s)

/-- CVU_WINDOW_CLOSE (R454, R455): a window of a scan, of a frame or of COUNT bytes has closed, and the unit shows its result. `bytes` are those of
the window where the module's state holds none of them. -/
def execCvuWindowClose (u : BitVec 4) (bytes : List Byte) (s : State) : Host.Outcome State Fault Refusal :=
  .next (
    let x := cvuOf s u.toNat
    if domRun s 1 && x.enable then
      match x.ended with
      | (n, b) :: rest => onCvu u.toNat (fun y => { cvuClose n b y with ended := rest }) s
      | [] => if windowFits s x bytes then onCvu u.toNat (cvuClose (scn s) bytes) s else s
    else s)

/-- CVU_UNIT_TEST (R459): a test of a unit whose ENABLE is 0 begins, or ends; its registers stand. -/
def execCvuUnitTest (u : BitVec 4) (s : State) : Host.Outcome State Fault Refusal :=
  .next (if mgtUp s && !(cvuOf s u.toNat).enable then onCvu u.toNat (fun x => { x with underTest := !x.underTest }) s else s)

/-! ### The CVU commands (R429, R430) -/

/-- The setting of CVU_CONFIG (R430). -/
def cvuSetting (q : CvuParam) (x : Cvu) : Cvu :=
  { cvuStop x with point := q.point.toNat, trigger := q.trigger.toNat, refout := q.refout, refin := q.refin, width := q.width.toNat,
                   filter := q.filter.toNat, count := q.count, poly := q.poly, init := q.init, xorout := q.xorout }

/-- A field of CVU_CONFIG is out of range (R430, R451). -/
def cvuParamBad (q : CvuParam) : Bool :=
  decide (q.reserved ≠ 0) || decide (15 < q.unit.toNat) || decide (3 < q.trigger.toNat) || (decide (q.trigger ≠ 2) && decide (q.count ≠ 0)) ||
  !cvuSettingOk (cvuSetting q Cvu.zero)

/-- CVU_CONFIG (R430, R451). -/
def execCvuConfig (c : CmdHdr) (q : CvuParam) (s : State) : Host.Outcome State Fault Refusal :=
  .next (cmdRun c 0x0400 (formOk c false false true) false [(cvuParamBad q, .badArg)]
    (fun s => finish c 0x0400 .ok [] [] (onCvu q.unit.toNat (fun x => cvuStart (cvuSetting q (cvuTouched x))) s)) s)

/-- A unit that a command names. -/
def unitBad (u : Byte) : Bool := decide (15 < u.toNat)

/-- CVU_READ (R429, R450). -/
def execCvuRead (c : CmdHdr) (u : Byte) (s : State) : Host.Outcome State Fault Refusal :=
  .next (cmdRun c 0x0401 (formOk c false true (decide (16 ≤ c.dataLen))) false [(unitBad u, .badArg)]
    (fun s =>
      let s := onCvu u.toNat cvuTouched s
      let x := cvuOf s u.toNat
      finish c 0x0401 .ok [] (leBytes 8 x.result.toNat ++ le4 x.seq.toNat ++
        le4 (b2n x.valid + 2 * b2n x.winOpen + x.overrun.toNat * 65536)) s) s)

/-- CVU_READ_ACK (R429): STALE leaves VALID as it is. -/
def execCvuReadAck (c : CmdHdr) (u : Byte) (seq : W32) (s : State) : Host.Outcome State Fault Refusal :=
  .next (cmdRun c 0x0402 (formOk c false false true) false [(unitBad u, .badArg)]
    (fun s =>
      let st := if (cvuOf s u.toNat).seq = seq then Status.ok else .stale
      finish c 0x0402 st [] [] (onCvu u.toNat (fun x => cvuAck seq (cvuTouched x)) s)) s)

/-- CVU_TRIGGER (R429): `bytes` passed the snoop point in the window that a close ends, where the module's state holds none of them. -/
def execCvuTrigger (c : CmdHdr) (u action : Byte) (bytes : List Byte) (s : State) : Host.Outcome State Fault Refusal :=
  .next (cmdRun c 0x0403 (formOk c false false true) false
    [(!unitBad u && decide ((cvuOf s u.toNat).trigger ≠ 3), .notReady), (unitBad u || (decide (action ≠ 1) && decide (action ≠ 2)), .badArg)]
    (fun s =>
      let s := onCvu u.toNat (fun x =>
        let x := cvuTouched x
        if action = 1 then cvuOpen x else cvuSoftClose (scn s) (softBytes s u.toNat bytes) x) s
      finish c 0x0403 .ok (le4 (cvuOf s u.toNat).seq.toNat) [] s) s)

/-- CVU_DISABLE (R429). -/
def execCvuDisable (c : CmdHdr) (u : Byte) (s : State) : Host.Outcome State Fault Refusal :=
  .next (cmdRun c 0x0404 (formOk c false false true) false [(unitBad u, .badArg)]
    (fun s => finish c 0x0404 .ok [] [] (onCvu u.toNat (fun x => cvuStop (cvuTouched x)) s)) s)

end Sys2Proof.Machine
end

