-- ==== Sys2Proof/Machine/LaneWords.lean ====
section
/-! DEFINITION. A lane's state as words and blocks: the state words (R150), the supervisor's data region with the tables that the lane
holds there (R152, R249, R258, R297, R380), the 532 blocks and their digests (R166), and the rope's copies (R165 to R167, R208). -/

namespace Sys2Proof.Machine

open Sys2Proof

/-! ### State words (R150) -/

/-- The state words of an engine (R150). -/
def engineWords (e : Nat) (g : Engine) : List (Nat × W64) :=
  let stack := g.stack.toNat % 2 ^ g.bsd
  let bar := match g.bar with | none => 0 | some b => b * 2 ^ 22 + 2 ^ 30
  [(0x24400 + 2 * e, BitVec.ofNat 64 (b2n g.acc + 2 * stack + g.bsd * 2 ^ 17 + bar)),
   (0x24401 + 2 * e, BitVec.ofNat 64 (g.pc + g.seg * 2 ^ 32))]

/-- The state word of a timer (R150). -/
def timerWord (t : TimerState) : W64 :=
  BitVec.ofNat 64 (t.et.toNat + b2n t.run * 2 ^ 32 + b2n t.q * 2 ^ 33 + b2n t.inp * 2 ^ 34)

/-- The state word of a counter (R150). -/
def counterWord (c : CounterState) : W64 := BitVec.ofNat 64 (c.cv.toNat + b2n c.ciu * 2 ^ 32 + b2n c.cid * 2 ^ 33)

/-- The listed state words of a lane, in true polarity (R150). -/
def coreWords (c : LaneCore) : List (Nat × W64) :=
  c.vars ++ c.timers.map (fun p => (0x10000 + p.1, timerWord p.2)) ++ c.edges.map (fun p => (0x20000 + p.1, p.2)) ++
  c.counters.map (fun p => (0x20400 + p.1, counterWord p.2)) ++ (c.engines.map (fun p => engineWords p.1 p.2)).flatten

/-- The state digest of a lane in true polarity (R151). -/
def stateDigest (c : LaneCore) : W64 := gfDigest (coreWords c)

/-- A state word of a lane in true polarity (R150). -/
def stateWord (c : LaneCore) (i : Nat) : W64 :=
  if i < 0x10000 then smGet 0#64 c.vars i
  else if i < 0x20000 then timerWord (smGet TimerState.zero c.timers (i - 0x10000))
  else if i < 0x20400 then smGet 0#64 c.edges (i - 0x20000)
  else if i < 0x24400 then counterWord (counterOf c (i - 0x20400))
  else match (engineWords ((i - 0x24400) / 2) (engine c ((i - 0x24400) / 2))).find? (fun p => p.1 = i) with
    | some p => p.2
    | none => 0

/-- A state word of a lane replaced (R150). -/
def setStateWord (i : Nat) (v : W64) (c : LaneCore) : LaneCore :=
  let n := v.toNat
  if i < 0x10000 then { c with vars := smSet 0#64 c.vars i v }
  else if i < 0x20000 then
    { c with timers := smSet TimerState.zero c.timers (i - 0x10000) ⟨bitN n 32, BitVec.ofNat 32 n, bitN n 33, bitN n 34⟩ }
  else if i < 0x20400 then { c with edges := smSet 0#64 c.edges (i - 0x20000) v }
  else if i < 0x24400 then
    { c with counters := smSet CounterState.zero c.counters (i - 0x20400) ⟨BitVec.ofNat 32 n, bitN n 32, bitN n 33⟩ }
  else
    let e := (i - 0x24400) / 2
    let g := engine c e
    if (i - 0x24400) % 2 = 0 then
      setEngine e { g with acc := bitN n 0, stack := BitVec.ofNat 16 (field n 1 16), bsd := min 16 (field n 17 5),
                           bar := if bitN n 30 then some (field n 22 8) else none } c
    else setEngine e { g with pc := field n 0 22, seg := field n 32 22 } c

/-! ### The supervisor's data region (R152, R166)

Its 960 KiB are 122,880 words of 8 bytes. Where the tables lie in it, and how they are laid out, the spec does not say (DESIGN CHOICE, log
entry 106): forces from word 0, edge detectors of R259 from 1,024, nodes from 2,048, boundary ports from 2,176, the schedule change at 2,180, presets from 4,096. -/

/-- The words of the data region; the supervisor's memory goes on with the lane-local region of 64 KiB (R152, R166). -/
def regionSize : Nat := 122880

/-- A word of the region that a table of the lane fills. -/
def tableIndex (i : Nat) : Bool := decide (i < 2181) || (decide (4096 ≤ i) && decide (i < 69632))

/-- The words that the force table, the new edge detectors, LAST, ECHO and the acknowledgement of the nodes, LAST and the candidate of the
boundary ports, the schedule change and the carried presets fill (R249, R258, R259, R297, R327, R380). -/
def tableWords (x : LaneState) : SMap W64 :=
  let put := fun (m : SMap W64) (p : Nat × Nat) => smSet 0#64 m p.1 (BitVec.ofNat 64 p.2)
  let opt := fun (o : Option (BitVec 32)) => match o with | some v => v.toNat + 2 ^ 32 | none => 0
  let fs := ((List.range x.forces.length).zip x.forces).map (fun p =>
    (p.1, p.2.1 + p.2.2.value.toNat * 2 ^ 32 + b2n p.2.2.any * 2 ^ 48 + 2 ^ 49))
  let ns := x.nodes.map (fun p => (2048 + p.1, (match p.2.last with | some v => v.toNat + 2 ^ 8 | none => 0) + p.2.echo.toNat * 2 ^ 16 +
    (match p.2.ack with | some t => 2 ^ 27 + t * 2 ^ 24 | none => 0)))
  let bs := [(2176, opt x.bnd0.last), (2177, opt x.bnd0.candidate), (2178, opt x.bnd1.last), (2179, opt x.bnd1.candidate)]
  let ps := x.presets.map (fun p => (4096 + p.1, p.2.toNat + 2 ^ 32))
  let cs := match x.change with
    | some c => [(2180, c.a.toNat + c.t * 2 ^ 32 + (match c.decided with | some d => 2 ^ 37 + b2n d * 2 ^ 36 | none => 0) + 2 ^ 38)]
    | none => []
  let es := x.edgeFresh.foldl (fun m i => setVarBit (65536 + i) true m) []
  (fs ++ ns ++ bs ++ cs ++ ps).foldl put es

/-- The data region of a lane by word: its tables, and what its supervisor keeps beside them. -/
def regionWords (x : LaneState) : SMap W64 := (tableWords x).foldl (fun m p => smSet 0#64 m p.1 p.2)
  (x.core.supMem.filter (fun p => decide (p.1 < regionSize)))

/-- A lane whose data region holds the given words. -/
def withRegion (w : SMap W64) (x : LaneState) : LaneState :=
  let at_ := fun (i : Nat) => (smGet 0#64 w i).toNat
  let opt := fun (i : Nat) => if bitN (at_ i) 32 then some (BitVec.ofNat 32 (at_ i)) else none
  let part := fun (lo hi : Nat) => w.filter (fun p => decide (lo ≤ p.1) && decide (p.1 < hi))
  let keys := (x.nodes.map (·.1)) ++ ((part 2048 2176).map (fun p => p.1 - 2048)).filter (fun k => (smFind x.nodes k).isNone)
  { x with
    core := { x.core with supMem := w.filter (fun p => !tableIndex p.1) ++ x.core.supMem.filter (fun p => decide (regionSize ≤ p.1)) },
    forces := (part 0 1024).foldl (fun m p => let n := p.2.toNat
      if bitN n 49 then smPut m (n % 2 ^ 32) ⟨BitVec.ofNat 16 (n / 2 ^ 32), bitN n 48⟩ else m) [],
    edgeFresh := (part 1024 2048).flatMap (fun p => ((List.range 64).filter (fun b => p.2.getLsbD b)).map (fun b => 64 * (p.1 - 1024) + b)),
    nodes := keys.foldl (fun m k => let n := at_ (2048 + k)
      smSet NodeLink.zero m k { smGet NodeLink.zero m k with last := if bitN n 8 then some (BitVec.ofNat 8 n) else none,
                                                             echo := BitVec.ofNat 8 (n / 2 ^ 16),
                                                             ack := if bitN n 27 then some (field n 24 3) else none }) x.nodes,
    change := (let n := at_ 2180
      if bitN n 38 then some ⟨field n 32 4, BitVec.ofNat 32 n, if bitN n 37 then some (bitN n 36) else none⟩ else none),
    bnd0 := { x.bnd0 with last := opt 2176, candidate := opt 2177 },
    bnd1 := { x.bnd1 with last := opt 2178, candidate := opt 2179 },
    presets := (part 4096 69632).foldl (fun m p => if p.2.getLsbD 32 then smPut m (p.1 - 4096) (BitVec.ofNat 32 p.2.toNat) else m) [] }

/-- The digest index of a word of the region: a line of 64 bytes gives its address, then its eight words, from the line address on (R152). -/
def lineIndex (i : Nat) : Nat := 64 * (i / 8) + 1 + i % 8

/-- The lines of the region that differ from what was last cleaned to memory: the dirty lines (DESIGN CHOICE, log entry 106). -/
def dirtyLines (x : LaneState) : List Nat :=
  let w := regionWords x
  let ks := (w.filter (fun p => decide (smGet 0#64 x.core.supClean p.1 ≠ p.2))).map (fun p => p.1 / 8) ++
    (x.core.supClean.filter (fun p => decide (smGet 0#64 w p.1 ≠ p.2))).map (fun p => p.1 / 8)
  ks.eraseDups

/-- The supervisor digest: the registers, and each dirty line's address and words (R152). -/
def supervisorDigest (x : LaneState) : W64 :=
  let w := regionWords x
  gfDigest (x.core.supRegs ++ (dirtyLines x).flatMap (fun n =>
    (64 * n, BitVec.ofNat 64 (64 * n)) :: (List.range 8).map (fun k => (lineIndex (8 * n + k), smGet 0#64 w (8 * n + k)))))

/-- The lane cleans its dirty lines (R192). -/
def cleaned (x : LaneState) : LaneState := { x with core := { x.core with supClean := regionWords x } }

/-! ### Blocks (R166) -/

/-- The block of a state word, and of a word of the region; block 291 holds the supervisor registers. -/
def blockOf (i : Nat) : Nat := i / 512
def regionBlock (i : Nat) : Nat := 292 + i / 512

/-- The words of a lane that are not 0, each with its block and its digest index. -/
def indexedWords (x : LaneState) : List (Nat × Nat × W64) :=
  (coreWords x.core).map (fun p => (blockOf p.1, p.1, p.2)) ++ x.core.supRegs.map (fun p => (291, p.1, p.2)) ++
  (regionWords x).map (fun p => (regionBlock p.1, lineIndex p.1, p.2))

/-- The digests of the blocks of a lane in true polarity; a block of zeros has 0 (R166). -/
def blockDigests (x : LaneState) : SMap W64 :=
  (indexedWords x).foldl (fun m p => smSet 0#64 m p.1 (smGet 0#64 m p.1 ^^^ gfTerm p.2.1 p.2.2)) []

/-- How many blocks pass between two lanes: between different firmware versions only those of state words (R208). -/
def sharedBlocks (src dst : LaneCore) : Nat := if src.fwVer = dst.fwVer then 532 else 291

/-- The blocks below `n` whose digests differ, in block order. -/
def differingKeys (n : Nat) (a b : SMap W64) : List Nat := (List.range n).filter (fun k => smGet 0#64 a k ≠ smGet 0#64 b k)

/-- The blocks in which two lanes differ, by their digests (R167 steps 2 and 3). -/
def differingBlocks (src dst : LaneState) : List Nat := differingKeys (sharedBlocks src.core dst.core) (blockDigests src) (blockDigests dst)

/-- One word of a block as received: state word, supervisor register, or word of the region. -/
def putBlockWord (b i : Nat) (v : W64) (x : LaneState) : LaneState :=
  if b < 291 then { x with core := setStateWord (512 * b + i) v x.core }
  else if b = 291 then { x with core := { x.core with supRegs := smSet 0#64 x.core.supRegs i v } }
  else withRegion (smSet 0#64 (regionWords x) (512 * (b - 292) + i) v) x

/-- The words of `a` inside a range, the words of `b` outside it. -/
def spliceWords (lo hi : Nat) (a b : SMap W64) : SMap W64 :=
  let inside := fun (p : Nat × W64) => decide (lo ≤ p.1) && decide (p.1 < hi)
  (a.filter inside).foldl (fun m p => smSet 0#64 m p.1 p.2) (b.filter (fun p => !inside p))

/-- One block copied in whole (R167 step 5); a block of the data region brings with it which of its lines are clean. -/
def copyBlock (src : LaneState) (b : Nat) (dst : LaneState) : LaneState :=
  if b < 291 then
    let keep := (coreWords dst.core).filter (fun p => decide (blockOf p.1 = b))
    let words := (coreWords src.core).filter (fun p => decide (blockOf p.1 = b))
    { dst with core := words.foldl (fun c p => setStateWord p.1 p.2 c) (keep.foldl (fun c p => setStateWord p.1 0 c) dst.core) }
  else if b = 291 then { dst with core := { dst.core with supRegs := src.core.supRegs } }
  else
    let lo := 512 * (b - 292)
    let x := withRegion (spliceWords lo (lo + 512) (regionWords src) (regionWords dst)) dst
    { x with core := { x.core with supClean := spliceWords lo (lo + 512) src.core.supClean dst.core.supClean } }

/-- Blocks copied in order. -/
def copyBlocks (bs : List Nat) (src dst : LaneState) : LaneState := bs.foldl (fun x b => copyBlock src b x) dst

/-- Every block that passes between the two, in architected polarity (R165 to R167, R200, R208). -/
def copyLane (src dst : LaneState) : LaneState :=
  let c := { dst.core with vars := src.core.vars, timers := src.core.timers, edges := src.core.edges,
                           counters := src.core.counters, engines := src.core.engines }
  if src.core.fwVer = dst.core.fwVer then
    withRegion (regionWords src) { dst with core := { c with supRegs := src.core.supRegs, supClean := src.core.supClean } }
  else { dst with core := c }

/-- A lane with cleared state: its banks and its firmware stay (R200 step 2). -/
def clearedLane (x : LaneState) : LaneState :=
  withRegion [] { x with core := { LaneCore.zero with active := x.core.active, shadow := x.core.shadow, fwVer := x.core.fwVer } }

/-! ### The force table from voter half X (R249) -/

/-- The bytes of a force table as X sends it. -/
def forceTableBytes (t : SMap Force) : List Byte :=
  t.flatMap (fun p => leBytes 4 p.1 ++ leBytes 2 p.2.value.toNat ++ leBytes 2 (b2n p.2.any))

/-- A lane whose supervisor blocks the rope does not carry takes the whole table from half X; half Y checks its CRC-32C against its own
copy, and a difference is an X/Y disagreement (R156, R249). -/
def giveForces (l : Lane) (s : State) : State :=
  let t := s.ctl.force.out
  if crc32c (forceTableBytes t.x) = crc32c (forceTableBytes t.y) then onLane l (fun x => { x with forces := t.x }) s else tripXY s

end Sys2Proof.Machine
end

