-- ==== Sys2Proof/Machine/Seats.lean ====
section
/-! DEFINITION. Seats and their leases: records of seat changes, revocation, takeover and its end
(R179 to R205). -/

namespace Sys2Proof.Machine

open Sys2Proof

/-! ### Records of seats -/

/-- Both halves' lease records marked revoked (R183). -/
def revoked (x : SeatState) : SeatState :=
  { x with lease := ⟨x.lease.x.map (fun g => { g with revoked := true }), x.lease.y.map (fun g => { g with revoked := true })⟩ }

/-- The lane that a copy comes from: the voting seat of the target's polarity, else the lowest voting seat (R165). -/
def copySource (s : State) (target : Lane) : Option Lane :=
  let voting := Seat.list.filter (fun k => SeatVotes ((voter s).seats.get k))
  let lanes := voting.filterMap (holder s)
  match lanes.find? (fun l => l.complemented == target.complemented && l ≠ target) with
  | some l => some l
  | none => lanes.find? (fun l => l ≠ target)

/-- The resynchronisations that lose their source as the lane of seat `k` leaves it, as the seats stood in `s0` (R169 code 4). -/
def sourceLeaves (k : Seat) (s0 s : State) : State :=
  Seat.list.foldl (fun s j =>
    let x := (voter s0).seats.get j
    match x.mode, x.openFor with
    | .opened, some m =>
      let copied := match (voter s0).laneVote.get m with | .resync | .verify => true | _ => false
      if j ≠ k ∧ copied = true ∧ (holder s0 k).isSome = true ∧ copySource s0 m = holder s0 k then resyncFail j m 4 (scn s) s else s
    | _, _ => s) s

/-- The lease of a seat is revoked, its holder has the notice, and the seat takes another state; a cairn capture from
it is abandoned (R183, R184, R186, R188, R192). -/
def revokeSeat (k : Seat) (mode : SeatMode) (openFor : Option Lane) (s : State) : State :=
  let out := holder s k
  let s0 := s
  let s := seatChange k 2 out none (leaseIdOf s k) 0 s
  let s := match out with
    | some l => onLane l (fun x => { x with commit := { x.commit with leaseSeat := none } }) s
    | none => s
  let s := match out with | some l => captureSourceLost l s | none => s
  sourceLeaves k s0 (onSeat k (fun x => { revoked x with mode := mode, openFor := openFor, openScans := 0, verifying := false }) s)

/-! ### Takeover (R200) -/

/-- A vacated seat is taken over by the belay lane while it is available: it reports STATE = TAKEOVER and starts loading the cairn
(R200). -/
def startTakeover (k : Seat) (s : State) : State :=
  if belayReady s && (voter s).join.isNone then
    match (voter s).belay with
    | some (r, _) =>
      let s := belayState 2 0 (seatChange k 7 none (some r.lane) 0 0 s)
      onVoter (fun v => { v with join := some ⟨r.lane, k, .takeover, .loading, v.scn, 0⟩ }) s
    | none => s
  else s

/-- A seat falls VACANT: a takeover starts where a lane stands by, and a planned transfer of another seat that can still be cancelled gives
way to it. A lane already caught up for this seat takes it over (R186, R200, R205). -/
def seatVacated (k : Seat) (s : State) : State :=
  match (voter s).join with
  | some j =>
    if j.seat = k then
      match j.step with
      | .handover _ =>
        let s := belayState 2 0 (seatChange k 7 none (some j.lane) 0 0 s)
        onVoter (fun v => { v with join := some { j with why := .takeover, step := .compare, start := v.scn } }) s
      | _ => onVoter (fun v => { v with join := some { j with why := .takeover, start := v.scn } })
               (belayState 2 0 (seatChange k 7 none (some j.lane) 0 0 s))
    else startTakeover k (match j.why with | .takeover => s | _ => if cancellable s j then abandonJoin 0 s else s)
  | none => startTakeover k s

/-- Fewer seats vote than the run needs: one in ENGINEERING's SINGLE, else two (R160, R187, R562). -/
def tooFewSeats (s : State) : Bool :=
  if s.ctl.dbg.lockstep then votingCount s == 0 else decide (votingCount s < 2)

/-! ### Leaving a seat by the vote (R164, R170, R171) -/

/-- Resynchronisations of a lane that started within the preceding operating hour of TB3 (R170). -/
def recentResyncs (s : State) (l : Lane) : Nat :=
  (((voter s).resyncAt.get l).filter (fun t => decide (tb3Tick s < t + Config.hourTicks))).length

/-- A lane judged odd is to be resynchronised, or is declared failed at the fourth within the hour; the seat is held open
for it, or falls vacant (R164, R170, R186). -/
def leaveOdd (k : Seat) (l : Lane) (s : State) : State :=
  let wasHandover := ((voter s).seats.get k).mode == .handover
  if recentResyncs s l ≥ 3 then
    let s := setVote l .failed (revokeSeat k .vacant none s)
    let s := report .vital 0x0204 (voterSource .x k.num) (byte l.idx) (scnLe s) s
    let s := onLane l (fun x => { x with health := { x.health with failedAt := some (ophHours s, ophFrac s) } }) s
    seatVacated k s
  else if wasHandover then seatVacated k (setVote l .vacated (revokeSeat k .vacant none s))
  else
    let s := setVote l .resync (revokeSeat k .opened (some l) s)
    let s := onLane l (fun x => { x with health := { x.health with resyncStarted := x.health.resyncStarted + 1 } }) s
    onVoter (fun v => { v with resyncAt := v.resyncAt.set l (v.resyncAt.get l ++ [tb3Tick s]) }) s

/-- A lane withdrawn leaves its seat vacant (R164, R171). -/
def leaveWithdrawn (k : Seat) (l : Lane) (s : State) : State :=
  seatVacated k (setVote l .vacated (revokeSeat k .vacant none s))

/-! ### Output forces on the voted words (R243, R247) -/

/-- The declared variable of an ID. -/
def varById (i : Image) (id : Nat) : Option VarDecl := i.vars.find? (fun v => v.id = id)

/-- A word of outputs with the output forces of a table put over its bits (R243). -/
def forcedBy (i : Image) (t : SMap Force) (w : Nat) (v : W64) : W64 :=
  t.foldl (fun v p => match varById i p.1 with
    | some d =>
      let at_ := if d.kind = 2 then some ((d.addr - 0x010000) / 64, (d.addr - 0x010000) % 64)
        else if d.kind = 4 then some (1024, d.addr - 0x020080) else none
      match at_ with
      | some (u, b) =>
        if u = w then
          let mask := BitVec.ofNat 64 ((2 ^ d.width - 1) * 2 ^ b)
          (v &&& ~~~mask) ||| BitVec.ofNat 64 (p.2.value.toNat * 2 ^ b)
        else v
      | none => v
    | none => v) v

/-- A word as a half delivers it: output forces replace the voted bits (R243, R247). -/
def forcedWord (s : State) (h : Half) (w : Nat) (v : W64) : W64 :=
  match runImage s with
  | none => v
  | some i => forcedBy i (s.ctl.force.out.get h) w v

/-- A word of a scan as a half delivered it to the stars and VIO (R243). -/
def delivered (q : VotedScan) (h : Half) (w : Nat) : Option W64 :=
  match smFind (q.forced.get h) w with
  | some v => some v
  | none => smFind q.words w

end Sys2Proof.Machine
end

