-- ==== Sys2Proof/Machine/Vote.lean ====
section
/-! DEFINITION. The vote: commit records, their acceptance, the decision per word, the exchange between the halves, what a
judgement does to a seat, the skew window, the scan deadline (R145 to R163, R172, R177, R64 to R67, R192). -/

namespace Sys2Proof.Machine

open Sys2Proof

/-! ### Commit records (R145 to R148) -/

/-- Bytes 0x00 to 0x0F of a commit record (R147). -/
def recordBytes (r : CommitRec) : List Byte :=
  leBytes 8 r.value.toNat ++ le4 r.scn.toNat ++ le2 r.leaseId.toNat ++
  le2 (r.lane * 16384 + r.seat * 4096 + b2n r.pol * 2048 + r.word)

/-- TAG (R147). -/
def recordTag (r : CommitRec) : W32 :=
  BitVec.ofNat 32 (crc32c (recordBytes r)) ^^^ BitVec.ofNat 32 (0x10000000 * (r.lane + 1))

/-- A scan with SCN mod 64 = 0 (R190). -/
def cairnScan (n : Scn) : Bool := decide (n.toNat % 64 = 0)

/-- The last position of a scan's commit stream, counted from 0 (R145). -/
def lastWord (n : Scn) : Nat := if cairnScan n then 1026 else 1025

/-- The seat a lane marks its records with: that of its own lease copy (R184). -/
def ownSeat (x : LaneState) : Nat := match x.commit.leaseSeat with | some k => k.num | none => 0
def ownLease (x : LaneState) : BitVec 16 := match x.commit.leaseSeat with | some _ => x.commit.leaseId | none => 0

/-- The value that a lane sends for a word, as it holds it (R148). -/
def sentValue (s : State) (l : Lane) (w : Nat) : W64 :=
  let c := (lane s l).core
  if w < 1024 then
    let v := smGet 0#64 c.vars (1024 + w)
    if l.complemented then ~~~v else v
  else if w = 1024 then
    let v := BitVec.ofNat 64 (varBits 16 0x020080 c.vars)
    if l.complemented then ~~~v else v
  else if w = 1025 then (if l.complemented then stateDigest c ^^^ kPol else stateDigest c)
  else supervisorDigest (lane s l)

/-- The record with its TAG. -/
def tagged (r : CommitRec) : CommitRec := { r with tag := recordTag r }

/-- The record that a lane emits next towards a half: its withdrawal, or the next of its stream (R145, R146). -/
def nextRecord (s : State) (h : Half) (l : Lane) : Option CommitRec :=
  let x := lane s l
  let pos := x.commit.pos.get h
  match x.commit.withdraw with
  | some c => if x.commit.withdrawnTo.get h then none
              else some (tagged ⟨BitVec.ofNat 64 c, scn s, ownLease x, l.idx, ownSeat x, l.complemented, 0x7FF, 0⟩)
  | none => if x.core.phase = .committing ∧ pos ≤ lastWord (scn s) then
              some (tagged ⟨sentValue s l pos, scn s, ownLease x, l.idx, ownSeat x, l.complemented, pos, 0⟩)
            else none

/-- The lane has emitted one record towards a half. When both halves have the whole stream its commit is complete. -/
def emitted (h : Half) (l : Lane) (s : State) : State :=
  onLane l (fun x =>
    match x.commit.withdraw with
    | some _ => { x with commit := { x.commit with withdrawnTo := x.commit.withdrawnTo.set h true } }
    | none =>
      if x.core.phase = .committing then
        let pos := x.commit.pos.set h (x.commit.pos.get h + 1)
        let done := decide (lastWord (scn s) < pos.x) && decide (lastWord (scn s) < pos.y)
        { x with commit := { x.commit with pos := pos },
                 core := if done then { x.core with phase := .idle } else x.core }
      else x) s

/-- A record's value in true form (R148, R153). -/
def trueValue (r : CommitRec) : W64 :=
  if r.pol && decide (r.word ≤ 1024) then ~~~r.value
  else if r.pol && decide (r.word = 1025) then r.value ^^^ kPol
  else r.value

/-! ### Which seats vote a word -/

/-- A half's state of the scan. -/
def halfOf (s : State) (h : Half) : HalfVote := (voter s).halves.get h
def onHalf (h : Half) (f : HalfVote → HalfVote) (s : State) : State :=
  onVoter (fun v => { v with halves := v.halves.set h (f (v.halves.get h)) }) s

/-- The lane in a slot of the vote: a candidate during silent scans, else the holder of a voting seat (R157, R177). -/
def slotLane (s : State) (k : Seat) : Option Lane :=
  if silentRun s then (voter s).test.cands.get k
  else if SeatVotes ((voter s).seats.get k) then holder s k else none

/-- A half holds the injection of this silent scan at its input for this slot and word: the record held back, or one in which it has flipped a
bit (R177). -/
def injected (s : State) (h : Half) (k : Seat) (w : Nat) : Bool :=
  match (voter s).test.injection with
  | none => false
  | some i => decide (i.half = h) && decide (i.target = k) &&
      (match i.kind with
       | .held => decide (w = i.word)
       | _ => decide (i.one.map (·.1) = some w) || decide (i.zero.map (·.1) = some w))

/-- The first bit from a position on, counted around, that holds a value. -/
def bitHolding (v : W64) (b : Bool) (pos : Nat) : Option Nat :=
  ((List.range 64).map (fun k => (pos + k) % 64)).find? (fun k => v.getLsbD k == b)

/-- A half sees whether a bit of a word that it compares is 1: half Y compares in complemented form (R153). -/
def comparedForm (h : Half) (v : W64) : W64 := match h with | .x => v | .y => ~~~v

/-- A bit of a word flipped. -/
def flipBit (v : W64) (k : Nat) : W64 := setBit v k (!v.getLsbD k)

/-- A record as it reaches the comparator of the injecting half (R177): of output words the bit at the position of the sequence is flipped in
the first word where it holds 1 and in the first other word where it holds 0; of a digest the first bit from there on that holds 1 and the
first that holds 0. Where no word up to the last two holds the value at that position, those two are flipped at it as they stand (DESIGN
CHOICE, log entry 13). -/
def injectFlips (i : Injection) (w : Nat) (v : W64) : Injection × W64 :=
  let u := comparedForm i.half v
  match i.kind with
  | .held => (i, v)
  | .digest =>
    if w ≠ 1025 then (i, v)
    else
      let a := bitHolding u true i.pos
      let b := bitHolding u false i.pos
      ({ i with one := a.map (w, ·), zero := b.map (w, ·) }, [a, b].foldl (fun v k => match k with | some k => flipBit v k | none => v) v)
  | .outputs =>
    let due := b2n i.one.isNone + b2n i.zero.isNone
    let last := decide (1024 ≤ w + due)
    if 1024 ≤ w then (i, v)
    else if i.one.isNone && (u.getLsbD i.pos || last) then ({ i with one := some (w, i.pos) }, flipBit v i.pos)
    else if i.zero.isNone && (!u.getLsbD i.pos || last) then ({ i with zero := some (w, i.pos) }, flipBit v i.pos)
    else (i, v)

/-- The slots that vote word `w` in a half: seats that vote, or voted until the half judged them out at an earlier word
(R157), without a slot under injection (R177). -/
def votersOf (s : State) (h : Half) (w : Nat) : List Seat :=
  Seat.list.filter (fun k =>
    ((slotLane s k).isSome || ((halfOf s h).out.get k).isSome) && !injected s h k w &&
    (match (halfOf s h).out.get k with | some o => decide (w ≤ o) | none => true))

/-- The slot of a lane for the word due from it. -/
def slotOf (s : State) (h : Half) (l : Lane) : Option Seat :=
  Seat.list.find? (fun k => (slotLane s k == some l) && ((halfOf s h).out.get k).isNone)

/-- A word in a half. -/
def wordOf (s : State) (h : Half) (w : Nat) : WordVote := smGet WordVote.zero (halfOf s h).words w
def onWord (h : Half) (w : Nat) (f : WordVote → WordVote) (s : State) : State :=
  onHalf h (fun x => { x with words := smPut x.words w (f (smGet WordVote.zero x.words w)) }) s

/-! ### The decision per word (R158 to R160) -/

def VoteVal.isAbsent : VoteVal → Bool
  | .absent => true
  | _ => false

def VoteVal.isWithdrawal : VoteVal → Bool
  | .withdrawal _ => true
  | _ => false

/-- A record is present: it carries a value, equal or not. -/
def VoteVal.present : VoteVal → Bool
  | .value _ | .wrong _ => true
  | _ => false

/-- How many records carry a value. -/
def countValue (v : W64) (vs : List VoteVal) : Nat := (vs.filter (fun x => x == .value v)).length

/-- The voted word: the value of two equal records, or in SINGLE the one seat's (R158 to R160). -/
def pairValue (vs : List VoteVal) : Option W64 :=
  vs.findSome? (fun x => match x with
    | .value v => if vs.length = 1 ∨ 2 ≤ countValue v vs then some v else none
    | _ => none)

/-- The RESTART_CAUSE of the trip that the records bring where no word can be voted any more (R158 to R160). One record present, one late and
one withdrawn fits rows 6 and 9 of R158, and the table gives no order: row 6, 2oo2 disagreement (DESIGN CHOICE, log entry 102). -/
def noVote (vs : List VoteVal) : Option Nat :=
  let absent := (vs.filter VoteVal.isAbsent).length
  let gone := (vs.filter VoteVal.isWithdrawal).length
  let here := (vs.filter VoteVal.present).length
  if (pairValue vs).isSome then none
  else if vs.length = 3 then
    if 2 ≤ gone then some 0x09
    else if absent ≠ 0 then none
    else if 2 ≤ here then some 0x08
    else if gone = 1 ∧ here = 1 then some 0x08
    else some 0x09
  else if vs.length = 2 then
    if gone ≠ 0 then some 0x09
    else if absent ≠ 0 then none
    else if here = 0 then some 0x09
    else some 0x08
  else if absent ≠ 0 then none
  else some 0x09

/-- A seat's judgement against the voted value (R155, R158). -/
def judgeVal (v : W64) : VoteVal → Judgement
  | .absent => .open_
  | .value u => if u = v then .agreeing else .oddValue
  | .wrong _ => .oddSeq
  | .late => .late
  | .withdrawal _ => .withdrawn

/-- A judgement that takes the lane out of the vote. -/
def Judgement.leaves : Judgement → Bool
  | .open_ | .agreeing => false
  | _ => true

/-- A half votes a word where it can: the voted value, the judgement of every seat, and who is out from the next word on.
Where no word can be voted the module trips (R158 to R160). -/
def voteWord (h : Half) (w : Nat) (s : State) : State :=
  let x := wordOf s h w
  let ks := votersOf s h w
  let vs := ks.map (fun k => x.vals.get k)
  match (match x.voted with | some v => some v | none => pairValue vs) with
  | some v =>
    let judge := fun (y : WordVote) (j : Tri Judgement) (k : Seat) =>
      if j.get k = .open_ then j.set k (judgeVal v (y.vals.get k)) else j
    let s := onWord h w (fun y => { y with voted := some v, judged := ks.foldl (judge y) y.judged }) s
    let leaving := ks.filter (fun k => ((wordOf s h w).judged.get k).leaves && ((halfOf s h).out.get k).isNone)
    let s := onHalf h (fun y => { y with out := leaving.foldl (fun o k => o.set k (some w)) y.out }) s
    let hit := Seat.list.filter (fun k => injected s h k w && (match x.vals.get k with | .value u => decide (u ≠ v) | _ => false))
    let seen := (voter s).test.detected.get h ++ hit.map (fun k => (k.num, w))
    onVoter (fun y => { y with test := { y.test with detected := y.test.detected.set h seen } }) s
  | none => match noVote vs with
    | some c => trip c true s
    | none => s

/-- The words of a half beyond `w` that are open and not yet voted: a seat judged out at `w` no longer votes them. -/
def laterWords (s : State) (h : Half) (w : Nat) : List Nat :=
  ((halfOf s h).words.filter (fun p => decide (w < p.1) && p.2.voted.isNone && p.2.opened.isSome)).map (·.1)

/-! ### What a judgement does (R163, R164, R172) -/

/-- The cause code of LANE_JUDGED (R163). -/
def judgeCause (w : Nat) : Judgement → Nat
  | .oddValue => if w ≤ 1024 then 1 else 5
  | .late => 2
  | .oddSeq => 3
  | .withdrawn => 4
  | _ => 0

/-- The value and the withdrawal code that a slot's record brought. -/
def valOf : VoteVal → W64
  | .value v => v
  | _ => 0
def withdrawCode : VoteVal → Nat
  | .withdrawal c => c.toNat
  | _ => 0

/-- The health counters of a lane after a judgement (R172, R173). -/
def countJudgement (w : Nat) (j : Judgement) (code : Nat) (x : LaneHealth) : LaneHealth :=
  match j with
  | .oddValue => { x with oddValue := x.oddValue + 1, latent := if 1024 < w then x.latent + 1 else x.latent }
  | .late => { x with oddLate := x.oddLate + 1 }
  | .oddSeq => { x with oddSeq := x.oddSeq + 1 }
  | .withdrawn => { x with withdrawals := smSet 0 x.withdrawals code (smGet 0 x.withdrawals code + 1), lastCause := code }
  | _ => x

/-- LANE_JUDGED (R163, R476). -/
def laneJudged (l : Lane) (seat cause code word before after : Nat) (voted odd : W64) (s : State) : State :=
  report .vital 0x0202 (voterSource .x seat)
    (byte l.idx ++ byte seat ++ byte cause ++ byte code ++ le2 word ++ byte before ++ byte after ++ scnLe s)
    (leBytes 6 voted.toNat ++ leBytes 6 odd.toNat) s

/-- A judgement on which both halves agree takes effect: the lane leaves its seat; in a silent scan the candidate is not
eligible (R163, R164, R178). -/
def judgeOut (w : Nat) (k : Seat) (j : Judgement) (s : State) : State :=
  if silentRun s then
    onVoter (fun v => { v with test := { v.test with ineligible := v.test.ineligible.set k true } }) s
  else match holder s k with
    | none => s
    | some l =>
      if SeatVotes ((voter s).seats.get k) then
        let x := wordOf s .x w
        let before := laneCfg s
        let code := withdrawCode (x.vals.get k)
        let s := onLane l (fun y => { y with health := countJudgement w j code y.health }) s
        let s := match j with | .withdrawn => leaveWithdrawn k l s | _ => leaveOdd k l s
        let cause := judgeCause w j
        let voted := if cause = 3 ∨ cause = 4 then 0 else x.voted.getD 0
        let odd := if cause = 1 ∨ cause = 5 then valOf (x.vals.get k) else 0
        let s := laneJudged l k.num cause code w before (laneCfg s) voted odd s
        if tooFewSeats s then tripSeats s else s
      else s

/-! ### The exchange between the halves (R155, R156) -/

/-- How Y's judgement stands against X's: equal, adopted from X, not to be decided yet, or an X/Y disagreement. -/
inductive Exchange where | same | adopt | wait | trip
  deriving DecidableEq, Repr

/-- R155's tolerance band: Y's record came within 288 ticks, between 288 and 312, or later (or not at all). -/
def exchange (jx jy : Judgement) (arrived : Option Nat) : Exchange :=
  if jx = .open_ ∨ jy = .open_ then .wait
  else if jx = jy then .same
  else match jx, jy with
    | .late, _ => match arrived with
      | some d => if d ≤ 288 then .trip else .adopt
      | none => .trip
    | _, .late => match arrived with
      | some d => if 312 < d then .trip else .adopt
      | none => .trip
    | _, _ => .trip

/-- A word as a half delivers it, listed where an output force changes it (R243). -/
def putForced (s : State) (h : Half) (w : Nat) (v : W64) (m : SMap W64) : SMap W64 :=
  let u := forcedWord s h w v
  if u = v then m else smPut m w u

/-- A word confirmed by both halves is delivered to the stars and VIO, with the output forces of the scan applied (R154, R155,
R243). -/
def deliver (w : Nat) (v : W64) (s : State) : State :=
  if w ≤ 1024 then
    onVoter (fun x => { x with now := { x.now with
      words := smPut x.now.words w v,
      forced := ⟨putForced s .x w v x.now.forced.x, putForced s .y w v x.now.forced.y⟩ } }) s
  else s

/-- A word that both halves deliver passes their snoop points (R453). -/
def snoopWord (w : Nat) (v : W64) (s : State) : State :=
  if w ≤ 1024 then
    let one := fun (p : Nat) (h : Half) (s : State) => snoop p 0 (decide (w = 0)) (decide (w = 1024)) (leBytes 8 (forcedWord s h w v).toNat) s
    one 9 .y (one 8 .x s)
  else s

/-- The exchange of one seat's judgement of one word. -/
def exchangeSeat (w : Nat) (s : State) (k : Seat) : State :=
  if s.ctl.trip.inForce || injected s .x k w || injected s .y k w then s
  else
    let jx := (wordOf s .x w).judged.get k
    let y := wordOf s .y w
    match exchange jx (y.judged.get k) (y.arrived.get k) with
    | .wait => s
    | .trip => tripXY s
    | .same => if jx.leaves then judgeOut w k jx s else s
    | .adopt =>
      let s := onWord .y w (fun z => { z with judged := z.judged.set k jx }) s
      if jx.leaves then judgeOut w k jx (onHalf .y (fun z => { z with out := z.out.set k (some w) }) s) else s

/-- The lanes of different firmware vote no supervisor digest (R208). -/
def mixedFirmware (s : State) : Bool :=
  let vs := ((Seat.list.filter (fun k => SeatVotes ((voter s).seats.get k))).filterMap (holder s)).map (fun l => (lane s l).core.fwVer)
  vs.any (fun v => decide (some v ≠ vs.head?))

/-- A cairn capture starts once both halves have voted the state digest of a cairn scan: every voting lane cleans its supervisor's dirty lines
and copies its blocks into its rope buffer, and the lowest voting lane is the source, which is to send the blocks whose digests differ from
those of the latest valid cairn (R192). Checks 1 and 2 of R193 are made on the digests then announced; between lanes of different firmware
versions the capture covers the blocks of state words (R208). -/
def captureStart (s : State) : State :=
  let voting := (Seat.list.filter (fun k => SeatVotes ((voter s).seats.get k))).filterMap (holder s)
  match Lane.list.find? (fun l => voting.contains l) with
  | none => s
  | some l =>
    let n := if mixedFirmware s then 291 else 532
    let s := voting.foldl (fun s m => onLane m cleaned s) s
    let x := lane s l
    let d := (blockDigests x).filter (fun p => decide (p.1 < n))
    let equal := voting.all (fun m => (differingKeys n d (blockDigests (lane s m))).isEmpty)
    let total := (d.filter (fun p => decide (p.1 < 291))).foldl (fun v p => v ^^^ p.2) 0#64
    let bad := if !equal then 1 else if (wordOf s .x 1025).voted = some total then 0 else 2
    let send := match (voter s).cairn with | some c => differingKeys n d c.digests | none => List.range n
    onVoter (fun v => { v with capture := some ⟨l, v.scn, x, d, bad, send, 0⟩ }) s

/-- The lanes that the voter halves name with a scan's words: those whose state digest agreed, with their lease IDs (R292); in a
silent scan the candidates still eligible, with 0 (R316). -/
def codeLanesOf (s : State) : List (Lane × BitVec 16) :=
  Seat.list.filterMap (fun k =>
    match slotLane s k with
    | some l =>
      if silentRun s then (if (voter s).test.ineligible.get k then none else some (l, 0))
      else if (wordOf s .x 1025).judged.get k = .agreeing then some (l, leaseIdOf s k) else none
    | none => none)

/-- After a word's vote in a half: both halves' voted values must be equal, then each seat's judgement (R155, R156). -/
def xyWord (w : Nat) (s : State) : State :=
  if s.ctl.trip.inForce || !(voter s).running then s
  else match (wordOf s .x w).voted, (wordOf s .y w).voted with
    | some a, some b =>
      if a ≠ b then tripXY s
      else
        let first := (smFind (voter s).now.words w).isNone
        let s := deliver w a (if first then snoopWord w a s else s)
        let s := Seat.list.foldl (exchangeSeat w) s
        let s := if w = 1025 then onVoter (fun v => { v with now := { v.now with codeLanes := codeLanesOf s } }) s else s
        if w = 1025 ∧ cairnScan (scn s) ∧ (voter s).capture.isNone ∧ first ∧ ctlRuns s then captureStart s else s
    | _, _ => s

/-- Voting and exchange of a word and of the later words that its judgements leave to fewer seats. -/
def settleWord (h : Half) (w : Nat) (s : State) : State :=
  let s := xyWord w (voteWord h w s)
  (laterWords s h w).foldl (fun s u => xyWord u (voteWord h u s)) s

/-! ### COMMIT_RECORD (R149) -/

/-- A lane whose records are compared for diagnosis only (R157, R167, R200). -/
def shadowing (s : State) (l : Lane) : Bool :=
  (match (voter s).laneVote.get l with | .resync | .verify => true | _ => false) ||
  (match (voter s).join with | some j => decide (j.lane = l) | none => false)

/-- The record names a seat and lease that the lane holds now (R149). -/
def holdsLease (s : State) (l : Lane) (r : CommitRec) : Bool :=
  match seatOf s l with
  | some k => decide (r.seat = k.num) && decide (r.leaseId = leaseIdOf s k)
  | none => false

/-- Row 1 of R149: the record does not count as received. -/
def recordBroken (l : Lane) (r : CommitRec) (parityOk : Bool) : Bool :=
  !parityOk || decide (r.tag ≠ recordTag r) || decide (r.lane ≠ l.idx) || decide (r.pol ≠ l.complemented) ||
  !(decide (r.word ≤ 1026) || decide (r.word = 0x7FF))

/-- The island code of a voter half (R587). -/
def halfIsland : Half → Nat
  | .x => 4
  | .y => 5

/-- A value as the half compares it, where the half injects into this slot's records (R177). -/
def atComparator (h : Half) (k : Seat) (w : Nat) (v : VoteVal) (s : State) : VoteVal × State :=
  match v, (voter s).test.injection with
  | .value u, some i =>
    if i.half = h ∧ i.target = k then
      let r := injectFlips i w u
      (.value r.2, onVoter (fun x => { x with test := { x.test with injection := some r.1 } }) s)
    else (v, s)
  | _, _ => (v, s)

/-- The record is held back at the half's input, beyond the skew window (R177). -/
def heldBack (s : State) (h : Half) (k : Seat) (w : Nat) : Bool :=
  match (voter s).test.injection with
  | some i => i.kind == .held && injected s h k w
  | none => false

/-- A record's place in the vote of a slot: the value (with the injection of a silent scan), a disagreement, or a
withdrawal; the first one opens the skew window (R149, R157, R177). -/
def placeRecord (h : Half) (k : Seat) (w : Nat) (v : VoteVal) (s : State) : State :=
  if heldBack s h k w then s
  else
    let now := s.clk.tick
    let r := atComparator h k w v s
    onWord h w (fun x =>
      let t0 := x.opened.getD now
      if (x.vals.get k).isAbsent || (x.vals.get k == .late) then
        { x with opened := some t0, arrived := x.arrived.set k (some (now - t0)),
                 vals := if x.vals.get k == .late then x.vals else x.vals.set k r.1 }
      else x) r.2

/-- A shadow's record is kept for the comparison of the scan (R167, R168). -/
def placeShadow (h : Half) (l : Lane) (w : Nat) (ok : Bool) (v : W64) (s : State) : State :=
  onHalf h (fun x => if ok then { x with shadow := smPut x.shadow (2048 * l.idx + w) v }
                     else { x with shadowOdd := x.shadowOdd.set l true }) s

/-- The next word due from a lane moves on. -/
def dueNext (h : Half) (l : Lane) (s : State) : State :=
  onHalf h (fun x => { x with due := x.due.set l (x.due.get l + 1) }) s

/-- A withdrawal of a lane whose stream is complete: no word is left to vote, and the lane is judged withdrawn once both halves have
it (R146, R155, R163): DEDUCED, log entry 46. -/
def withdrawAfter (h : Half) (k : Seat) (w : Nat) (s : State) : State :=
  let s := onWord h w (fun x => { x with judged := x.judged.set k .withdrawn }) s
  exchangeSeat w (onHalf h (fun x => { x with out := x.out.set k (some w) }) s) k

/-- Rows 3 to 5 of R149 for a record of a lane with or without a slot. -/
def takeRecord (h : Half) (l : Lane) (r : CommitRec) (s : State) : State :=
  let w := (halfOf s h).due.get l
  let inOrder := decide (r.scn = scn s) && decide (r.word = w)
  match slotOf s h l with
  | some k =>
    if r.word = 0x7FF then
      let s := placeRecord h k w (.withdrawal (BitVec.ofNat 8 r.value.toNat)) s
      if lastWord (scn s) < w then withdrawAfter h k w s else settleWord h w s
    else if lastWord (scn s) < w then s
    else
      let s := dueNext h l (placeRecord h k w (if inOrder then .value (trueValue r) else .wrong (trueValue r)) s)
      if w = 1026 ∧ mixedFirmware s then s else settleWord h w s
  | none =>
    if r.word = 0x7FF then placeShadow h l w false 0 s
    else dueNext h l (placeShadow h l w inOrder (trueValue r) s)

/-- A voter half takes a commit record (R149). The attempts byte of the general record of row 1, which the spec does not state for a record
of a lane, is 0 (DESIGN CHOICE, log entry 103). -/
def acceptRecord (h : Half) (l : Lane) (r : CommitRec) (parityOk : Bool) (s : State) : State :=
  if recordBroken l r parityOk then
    report .general 0x020A (voterSource h 0) (byte (halfIsland h) ++ byte l.idx) (byte 0) s
  else if !(holdsLease s l r) && !(shadowing s l) && !silentRun s then
    report .vital 0x020E (voterSource h r.seat) (byte l.idx ++ byte r.seat ++ le2 r.leaseId.toNat)
      (le2 r.word ++ le4 r.scn.toNat) s
  else takeRecord h l r s

/-- Records are voted: the barrier has been released and no trip has halted the lanes (R233). -/
def voting (s : State) : Bool := (voter s).running && (voter s).released && !s.ctl.trip.inForce

/-- A record as a half receives it passes the snoop point of its lane (R453). -/
def snoopRecord (h : Half) (l : Lane) (r : CommitRec) (s : State) : State :=
  snoop (match h with | .x => l.idx | .y => 4 + l.idx) 0 true true (recordBytes r ++ le4 r.tag.toNat) s

/-- COMMIT_RECORD (R149): the lane's own next record, or one as received. A withdrawal that a lane sends of itself is its self-diagnosis: its
supervisor's self-check (0x80) and a stack or cache fault (0x84) come this way (R146, R148). -/
def execCommitRecord (h : Half) (l : Lane) (r : RecordSrc) (s : State) : Host.Outcome State Fault Refusal :=
  .next (if voting s then
    match r with
    | .asSent => match nextRecord s h l with
      | none => s
      | some q => acceptRecord h l q true (emitted h l (snoopRecord h l q s))
    | .given q ok =>
      let s := snoopRecord h l q s
      let s := if q.word = 0x7FF ∧ !recordBroken l q ok then onLane l (laneWithdraw (q.value.toNat % 256)) s else s
      acceptRecord h l q ok (emitted h l s)
  else s)

/-- SKEW_WINDOW_CLOSE (R157): 300 ticks after the window opened, seats without a record are late. X times lateness; Y
adopts X's judgement up to the end of the tolerance band (R155). -/
def execSkewWindowClose (h : Half) (w : BitVec 11) (s : State) : Host.Outcome State Fault Refusal :=
  .next (if voting s then
    let x := wordOf s h w.toNat
    match x.opened with
    | none => s
    | some t0 =>
      if s.clk.tick < t0 + 300 then s
      else
        let late := fun k => (x.vals.get k).isAbsent &&
          (match h with
           | .x => true
           | .y => decide ((wordOf s .x w.toNat).judged.get k = .late) || decide (t0 + 312 < s.clk.tick))
        let ks := (votersOf s h w.toNat).filter late
        let s := onWord h w.toNat (fun y => { y with closed := true, vals := ks.foldl (fun v k => v.set k .late) y.vals }) s
        let held := (Seat.list.filter (fun k => heldBack s h k w.toNat)).map (fun k => (k.num, w.toNat))
        let s := onVoter (fun v => { v with test := { v.test with detected := v.test.detected.set h (v.test.detected.get h ++ held) } }) s
        settleWord h w.toNat s
  else s)

/-! ### The deadline (R57, R64 to R67, R161) -/

/-- The commit of the scan is complete at a half: every output word, the direct-VIO word and the state digest are voted
(R57). -/
def commitComplete (s : State) (h : Half) : Bool :=
  decide (((halfOf s h).words.filter (fun p => decide (p.1 ≤ 1025) && p.2.voted.isSome)).length = 1026)

/-- The lane's last engine has reached END in this scan; a halt since leaves its engines as they were. -/
def reachedEnd (s : State) (l : Lane) : Bool := engineIds.all (fun e => (engine (lane s l).core e).run == .finished)

/-- OVERRUN (R67, R476): of each seat the lane that began the scan there, also where a judgement within the scan has taken the seat from
it. -/
def overrunRecord (coinciding : BitVec 16) (s : State) : State :=
  let reachedWord := fun k => match (voter s).slots.get k with | some l => (halfOf s .x).due.get l | none => 0
  let ends := Seat.list.foldl (fun n k => match (voter s).slots.get k with
    | some l => n + b2n (reachedEnd s l) * 2 ^ (k.num - 1) | none => n) 0
  report .vital 0x0103 (voterSource .x 0)
    (le2 (reachedWord .s1) ++ le2 (reachedWord .s2) ++ le2 (reachedWord .s3) ++ byte ends ++ le2 coinciding.toNat) (scnLe s) s

/-- SCAN_DEADLINE (R64): a trip of an earlier tick leaves nothing to judge; a complete commit is in time, also beside a trip of the same
tick; a commit that is not complete is an overrun, recorded with what coincided with it. -/
def execScanDeadline (h : Half) (s : State) : Host.Outcome State Fault Refusal :=
  .next (
    let d := nextCi s h - 625
    if (voter s).running && (voter s).released && decide (d ≤ s.clk.tick) && !(halfOf s h).timely then
      if s.ctl.trip.inForce && decide (s.ctl.trip.t0 < d) then s
      else if commitComplete s h then onHalf h (fun x => { x with timely := true }) s
      else trip 0x06 true (overrunRecord (if s.ctl.trip.inForce then s.ctl.trip.mask else 0) s)
    else s)

/-- SUPERVISOR_DIGEST_LATE (R161): 8 us before the next cycle instant, a supervisor digest not yet decided is late for every
seat that has not sent it. -/
def execSupervisorDigestLate (s : State) : Host.Outcome State Fault Refusal :=
  .next (if voting s && cairnScan (scn s) && !mixedFirmware s &&
      decide (nextCi s .x ≤ s.clk.tick + 200) then
    [Half.x, Half.y].foldl (fun s h =>
      if (wordOf s h 1026).voted.isSome then s
      else
        let ks := (votersOf s h 1026).filter (fun k => ((wordOf s h 1026).vals.get k).isAbsent)
        settleWord h 1026 (onWord h 1026 (fun y => { y with vals := ks.foldl (fun v k => v.set k .late) y.vals }) s)) s
  else s)

end Sys2Proof.Machine
end

