-- ==== Sys2Proof/Machine/Forces.lean ====
section
/-! DEFINITION. Forces (R237 to R255, R260, R431, R432): judgement, the tables of the lanes and of the voter halves, the slots
of the system request block, where forces act, and the FRC commands. -/

namespace Sys2Proof.Machine

open Sys2Proof

/-! ### Variables that can carry a force -/

/-- Kinds that a force can stand on, and where it acts (R240). -/
def forceableKind (d : VarDecl) : Bool :=
  d.kind == 1 || d.kind == 2 || d.kind == 3 || d.kind == 4 ||
  (d.kind == 6 && ((decide (0x021000 ≤ d.addr) && decide (d.addr < 0x021180)) ||
                   (decide (0x021800 ≤ d.addr) && decide (d.addr < 0x021980))))
def forceableVar (d : VarDecl) : Bool := d.forceable && forceableKind d
/-- OUTPUT and VIO_OUT: forced after the vote. -/
def outputVar (d : VarDecl) : Bool := d.kind == 2 || d.kind == 4

/-- A value is any-value where it differs from RESTR (R238). -/
def anyValue (d : VarDecl) (v : BitVec 16) : Bool := decide (v ≠ d.restr)

/-- Rows 2 to 7 of R241 against a force table. -/
def judgeForce (s : State) (i : Option Image) (t : SMap Force) (id : Nat) (v : BitVec 16) : Option Status :=
  match i.bind (fun i => varById i id) with
  | none => some .badArg
  | some d => judge [
      (!forceableVar d, .badArg),
      (decide (2 ^ d.width ≤ v.toNat), .badArg),
      (anyValue d v && s.mgt.start.service, .deniedMode),
      (anyValue d v && !pAny s, .deniedSeal),
      ((smFind t id).isNone && decide (1024 ≤ t.length), .noResource)]

/-- The force of a value on a variable of the running image. -/
def forceOf (s : State) (id : Nat) (v : BitVec 16) : Force :=
  match (runImage s).bind (fun i => varById i id) with
  | some d => ⟨v, anyValue d v⟩
  | none => ⟨v, true⟩

/-! ### The tables -/

/-- The lanes that execute the application: holders of voting seats, lanes being resynchronised or verified, a joined lane,
the candidates of the silent scans (R56, R167, R177, R200). -/
def runs (s : State) (l : Lane) : Bool :=
  domRun s (laneDom l) &&
  ((seatOf s l).isSome ||
   (match (voter s).laneVote.get l with | .resync | .verify | .starting => silentRun s || ctlRuns s | _ => false) ||
   (match (voter s).join with
    | some j => decide (j.lane = l) && (match j.step with | .loading | .waitRelease => false | _ => true)
    | none => false))

/-- The whole force table as the control plane holds it. -/
def forceTable (s : State) : SMap Force := s.ctl.force.out.x

/-- One change of the table, in both halves and in every lane that executes. -/
def onTables (f : SMap Force → SMap Force) (s : State) : State :=
  let s := Lane.list.foldl (fun s l => if runs s l then onLane l (fun x => { x with forces := f x.forces }) s else s) s
  onForce (fun x => { x with out := ⟨f x.out.x, f x.out.y⟩ }) s

/-- Forces removed together with their records (R251). -/
def removeForces (sel : Nat → Force → Bool) (cause : Nat) (s : State) : State :=
  let gone := (forceTable s).filter (fun p => sel p.1 p.2)
  let s := gone.foldl (fun s p => forceRecord p.1 (varAddr s p.1) (some p.2) none cause s) s
  onTables (fun t => t.filter (fun p => !sel p.1 p.2)) s

/-- Every any-value force is removed at the latch of the first scan whose release carries P_ANY = 0 after one with P_ANY = 1
(R253). -/
def pAnyRemoval (s : State) : State :=
  let now := pAny s
  let s := if s.ctl.force.pAnyLast && !now then removeForces (fun _ f => f.any) 2 s else s
  onForce (fun f => { f with pAnyLast := now }) s

/-! ### Slots of the system request block (R254, R255) -/

/-- Where slot `j` starts. -/
def slotBase (j : Nat) : Nat := 0x029C00 + 0x80 * j

/-- The dissenting-checker mask of a request that every checker refuses: lanes A to D bits 1 to 4, and for an output the
halves, bits 5 and 6 (R244, R476). -/
def dissentMask (lanes : List Lane) (out : Bool) : Nat :=
  lanes.foldl (fun n l => n + 2 * 2 ^ l.idx) 0 + (if out then 0x60 else 0)

/-- A force request acts in scan n, or every checker leaves it (R243, R244): its result, and how many forces it removed. -/
def forceAct (fop id : Nat) (v : BitVec 16) (s : State) : State × Status × Nat :=
  let img := runImage s
  let lanes := Lane.list.filter (runs s)
  let out := match img.bind (fun i => varById i id) with | some d => outputVar d | none => false
  let refusing := lanes.filter (fun l => (judgeForce s img (lane s l).forces id v).isSome)
  let half := out && (judgeForce s img (forceTable s) id v).isSome
  if fop = 1 then
    if refusing.isEmpty && !half then
      let f := forceOf s id v
      let s := forceRecord id (varAddr s id) (smFind (forceTable s) id) (some f) 1 s
      (onTables (fun t => smPut t id f) s, .ok, 0)
    else
      (report .vital 0x0208 0 (byte 3 ++ byte (dissentMask refusing half) ++ byte Status.checkFail.code ++
        le4 (match img with | some i => i.hdrCrc.toNat | none => 0)) [] s, .checkFail, 0)
  else if fop = 2 then (removeForces (fun k _ => k = id) 1 s, .ok, 0)
  else if fop = 3 then (removeForces (fun _ _ => true) 1 s, .ok, (forceTable s).length)
  else (s, .badArg, 0)

/-- A slot whose FSEQ differs from that of the previous scan, and is not 0, is acted on (R255). -/
def slotAct (s : State) (j : Nat) : State :=
  let m := s.ctl.adm.snapshot
  let fseq := BitVec.ofNat 16 (admRead 16 (slotBase j) m)
  let prev := smGet 0#16 s.ctl.force.slotPrev j
  let s := onForce (fun f => { f with slotPrev := smSet 0#16 f.slotPrev j fseq }) s
  if fseq = 0 ∨ fseq = prev then s
  else
    let r := forceAct (admRead 2 (slotBase j + 0x10) m) (admRead 32 (slotBase j + 0x20) m)
      (BitVec.ofNat 16 (admRead 16 (slotBase j + 0x40) m)) s
    onForce (fun f => { f with
      slotSeen := smSet 0#16 f.slotSeen j fseq,
      slotResult := smSet 0 f.slotResult j r.2.1.code,
      pending := f.pending.map (fun q =>
        if q.slot = some j ∧ q.fseq = fseq then { q with result := some (r.2.1, scn s, r.2.2) } else q) }) r.1

/-- What forces do at the latch of scan n, before any input force is applied: P_ANY, then slots 0 to 3 in order (R253,
R255); a request in a slot has stood there one scan longer (R245). -/
def forceLatch (s : State) : State :=
  let s := onForce (fun f => { f with pending := f.pending.map (fun q => if q.slot.isSome then { q with scans := q.scans + 1 } else q) }) s
  let s := [0, 1, 2, 3].foldl slotAct (pAnyRemoval s)
  onForce (fun f => { f with active := !f.out.x.isEmpty }) s

/-! ### Where forces act -/

/-- Input forces replace what the lane latched (R243, R246). -/
def inputForces (i : Image) (t : SMap Force) (m : SMap W64) : SMap W64 :=
  t.foldl (fun m p => match varById i p.1 with
    | some d => if outputVar d then m else setVarBits d.width d.addr p.2.value.toNat m
    | none => m) m

/-! ### MGT's side: slots and the store (R245, R252, R432) -/

/-- The lowest free slot. -/
def freeSlot (s : State) : Option Nat :=
  [0, 1, 2, 3].find? (fun j => !(s.ctl.force.pending.any (fun q => q.slot = some j)))

/-- MGT writes the oldest waiting request into a free slot with the next FSEQ, which is never 0 (R254, R432). -/
def fillSlot (s : State) : State :=
  match freeSlot s, s.ctl.force.pending.find? (fun q => q.slot.isNone) with
  | some j, some q =>
    let fseq := s.ctl.force.nextFseq
    let s := admWrite 16 (slotBase j + 0x40) q.value.toNat (admWrite 32 (slotBase j + 0x20) q.varId
      (admWrite 2 (slotBase j + 0x10) q.fop (admWrite 16 (slotBase j) fseq.toNat s)))
    onForce (fun f => { f with
      nextFseq := if fseq = 0xFFFF#16 then 1 else fseq + 1,
      pending := f.pending.map (fun r => if r = q then { r with slot := some j, fseq := fseq, scans := 0 } else r) }) s
  | _, _ => s

/-- MGT fills every slot it can. -/
def fillSlots (s : State) : State := fillSlot (fillSlot (fillSlot (fillSlot s)))

/-- A request that MGT accepted waits for a slot (R243, R432). -/
def enqueueForce (c : CmdRef) (fop id : Nat) (v : BitVec 16) (s : State) : State :=
  fillSlots (onForce (fun f => { f with pending := f.pending ++ [⟨c, none, 0, fop, id, v, 0, none⟩] }) s)

/-- The store holds a restrictive force (R252). -/
def storeForce (id : Nat) (v : BitVec 16) (s : State) : State :=
  match (runImage s).bind (fun i => varById i id) with
  | some d => itemStored forcesItem (onForce (fun f => { f with stored := smPut f.stored id (v, d.kind, d.width) }) s)
  | none => s

/-- The stored forces follow the table that an export snapshot shows: a restrictive force of the table is stored, any other
is removed unless a request to set it is still in flight (R252). -/
def syncStore (t : SMap Force) (s : State) : State :=
  let inFlight := fun (id : Nat) => s.ctl.force.pending.any (fun q => q.fop = 1 ∧ q.varId = id ∧ q.result.isNone)
  let s := onForce (fun f => { f with stored := f.stored.filter (fun p =>
    inFlight p.1 || (match smFind t p.1 with | some x => !x.any | none => false)) }) s
  t.foldl (fun s p => if p.2.any then s else storeForce p.1 p.2.value s) s

/-- Requests that the export snapshot shows as acted on complete, and their slots are free again (R245, R431). -/
def completeForces (shown : Scn) (s : State) : State :=
  let due := fun (q : ForceReq) => match q.result with | some (_, n, _) => !scnBefore shown n | none => false
  let s := (s.ctl.force.pending.filter due).foldl (fun s q => match q.result with
    | some (st, n, removed) =>
      let extra := if st = .ok then (if q.fop = 1 then byte (1 + b2n (forceOf s q.varId q.value).any)
                                     else if q.fop = 3 then le2 removed else []) else []
      finishRef q.cmd st 0 (if st = .ok then le4 n.toNat ++ extra else []) [] s
    | none => s) s
  fillSlots (onForce (fun f => { f with pending := f.pending.filter (fun q => !due q) }) s)

/-! ### Across a swap and a start (R252, R260) -/

/-- A force does not survive against a new image: its ID is gone, its KIND or WIDTH changed, it cannot carry a force, or it
would be any-value while P_ANY does not hold (R260). -/
def forceGone (new : Image) (pany : Bool) (id kind width : Nat) (v : BitVec 16) : Bool :=
  match varById new id with
  | none => true
  | some d => decide (d.kind ≠ kind) || decide (d.width ≠ width) || !forceableVar d || (anyValue d v && !pany)

/-- The table carried into a new image: who goes is recorded, and the classes are judged again (R238, R260). -/
def carryForces (old new : Image) (s : State) : State :=
  let pany := pAny s
  let gone := fun (id : Nat) (f : Force) => match varById old id with
    | some d => forceGone new pany id d.kind d.width f.value
    | none => true
  let s := removeForces gone 4 s
  onTables (fun t => t.map (fun p => (p.1, ⟨p.2.value, match varById new p.1 with
    | some d => anyValue d p.2.value | none => true⟩))) s

/-- Step 1 of R252: stored forces against the starting image; those that do not survive leave the store. What the start changes against the
forces that acted before is recorded: a stored force that did not act is set, one that does not survive and every any-value force are
removed (R251). -/
def storedSurvive (i : Image) (service : Bool) (s : State) : State :=
  let pany := !service && switchOn s 1 && switchOn s 5
  let prior := s.ctl.force.prior
  let gone := fun (p : Nat × BitVec 16 × Nat × Nat) => forceGone i pany p.1 p.2.2.1 p.2.2.2 p.2.1
  let addr := fun (id : Nat) => match varById i id with | some d => d.addr | none => 0
  let keep := s.ctl.force.stored.filter (fun p => !gone p)
  let t := keep.map (fun p => (p.1, (⟨p.2.1, match varById i p.1 with | some d => anyValue d p.2.1 | none => false⟩ : Force)))
  let s := (prior.filter (fun p => p.2.1.any && (smFind t p.1).isNone)).foldl (fun s p => forceRecord p.1 p.2.2 (some p.2.1) none 3 s) s
  let s := (s.ctl.force.stored.filter gone).foldl (fun s p => forceRecord p.1 (addr p.1) (some ⟨p.2.1, false⟩) none 3 s) s
  let s := (t.filter (fun p => (smFind prior p.1).map (·.1.value) ≠ some p.2.value)).foldl (fun s p =>
    forceRecord p.1 (addr p.1) ((smFind prior p.1).map (·.1)) (some p.2) 3 s) s
  let s := onLanes (fun x => { x with forces := t }) s
  onForce (fun f => { f with stored := keep, out := Halves.all t, prior := [], pAnyLast := pany, active := !t.isEmpty }) s

/-! ### The FRC commands (R241, R242, R431) -/

/-- FRC_SET (R241). A restrictive force is stored before its request enters a slot (R252). -/
def execFrcSet (c : CmdHdr) (id : W32) (v : BitVec 16) (s : State) : Host.Outcome State Fault Refusal :=
  .next (cmdRun c 0x0500 (formOk c false false true) false
    [(notRunning s, .notReady),
     ((judgeForce s (runImage s) (forceTable s) id.toNat v).isSome,
      (judgeForce s (runImage s) (forceTable s) id.toNat v).getD .ok)]
    (fun s =>
      let s := if (forceOf s id.toNat v).any then s else storeForce id.toNat v s
      enqueueForce (refOf c 0x0500) 1 id.toNat v s) s)

/-- FRC_CLEAR (R242). One that names a variable without a force, and without a request in flight for it, is done at once. -/
def execFrcClear (c : CmdHdr) (id : W32) (s : State) : Host.Outcome State Fault Refusal :=
  .next (cmdRun c 0x0501 (formOk c false false true) false [(notRunning s, .notReady)]
    (fun s =>
      if (smFind (forceTable s) id.toNat).isNone ∧ !(s.ctl.force.pending.any (fun q => q.varId = id.toNat ∨ q.fop = 3)) then
        finish c 0x0501 .ok (scnLe s) [] s
      else enqueueForce (refOf c 0x0501) 2 id.toNat 0 s) s)

/-- FRC_CLEAR_ALL (R242). -/
def execFrcClearAll (c : CmdHdr) (s : State) : Host.Outcome State Fault Refusal :=
  .next (cmdRun c 0x0502 (formOk c false false true) false [(notRunning s, .notReady)]
    (fun s => enqueueForce (refOf c 0x0502) 3 0 0 s) s)

/-- The store follows the table for one variable whose request no snapshot showed (R252). -/
def storeBack (id : Nat) (s : State) : State :=
  match smFind (forceTable s) id with
  | some f => if f.any then onForce (fun x => { x with stored := smDrop x.stored id }) s else storeForce id f.value s
  | none => onForce (fun x => { x with stored := smDrop x.stored id }) s

/-- FORCE_TIMEOUT: a request that no snapshot shows by the 64th scan after it was written into its slot is withdrawn, whether the control plane
has acted on it or not (R245). -/
def execForceTimeout (slot : BitVec 2) (s : State) : Host.Outcome State Fault Refusal :=
  .next (match s.ctl.force.pending.find? (fun q => q.slot = some slot.toNat ∧ 64 ≤ q.scans) with
    | none => s
    | some q =>
      let s := admWrite 16 (slotBase slot.toNat) 0 s
      let s := onForce (fun f => { f with pending := f.pending.filter (fun r => r ≠ q) }) s
      fillSlots (finishRef q.cmd .timeout 0 [] [] (if q.fop = 1 then storeBack q.varId s else s)))

end Sys2Proof.Machine
end

