-- ==== Sys2Proof/Machine/ImageCheck.lean ====
section
/-! DEFINITION. The application image container: its parsing and the checks of R140 in their order (R111, R112, R131 to
R139). -/

namespace Sys2Proof.Machine

open Sys2Proof

/-! ### The container (R131, R132) -/

/-- A directory entry (R131). -/
structure DirEntry where
  stype : Nat
  resv : Nat
  offset : Nat
  length : Nat
  crc : Nat
  deriving DecidableEq, Repr

/-- The list cut into pieces of `n` items. -/
def chunks {α : Type} (n : Nat) : Nat → List α → List (List α)
  | 0, _ => []
  | f + 1, l => if l.isEmpty then [] else l.take n :: chunks n f (l.drop n)

/-- The directory of an image (R131). -/
def directory (b : List Byte) : List DirEntry :=
  (List.range (leAt b 0x00E 2)).map (fun i =>
    let o := 0x100 + 16 * i
    ⟨leAt b o 2, leAt b (o + 2) 2, leAt b (o + 4) 4, leAt b (o + 8) 4, leAt b (o + 12) 4⟩)

/-- The bytes of a section of a type; none where it does not appear. -/
def sectionBytes (b : List Byte) (ty : Nat) : List Byte :=
  match (directory b).find? (fun e => decide (e.stype = ty)) with
  | some e => slice b e.offset e.length
  | none => []

/-- Row 1 of R140. -/
def row1 (b : List Byte) : Bool :=
  decide (256 ≤ b.length) && decide (leAt b 0 4 = 0x494C4849) && decide (leAt b 6 2 = 0x100) &&
  decide (leAt b 0xFC 4 = crc32c (b.take 0xFC)) && decide (leAt b 8 4 = b.length) &&
  decide (0x100 + 16 * leAt b 0x00E 2 ≤ b.length) &&
  (directory b).all (fun e => decide (e.offset % 8 = 0) && decide (e.offset + e.length ≤ b.length) && decide (e.crc = crc32c (slice b e.offset e.length)))

/-! ### Sections (R132 to R137) -/

/-- The words of a section, little-endian. -/
def words32 (b : List Byte) : List W32 := (chunks 4 (b.length / 4) b).map (fun x => BitVec.ofNat 32 (ofLe x))

/-- The segment lists, engine by engine; none where the section does not have their form (R133). -/
def parseSegments : Nat → List W32 → Option (List (List (Nat × Nat)))
  | 0, r => if r.isEmpty then some [] else none
  | n + 1, r => match r with
    | [] => none
    | c :: r =>
      if r.length < 2 * c.toNat then none
      else
        let pairs := (chunks 2 c.toNat (r.take (2 * c.toNat))).map (fun x => ((x.getD 0 0).toNat, (x.getD 1 0).toNat))
        (parseSegments n (r.drop (2 * c.toNat))).map (fun l => pairs :: l)

def parseVar (b : List Byte) : VarDecl :=
  ⟨leAt b 0 4, leAt b 4 4 % 2 ^ 22, leAt b 8 1, leAt b 9 1, bitN (leAt b 10 2) 0, BitVec.ofNat 16 (leAt b 12 2), BitVec.ofNat 16 (leAt b 14 2)⟩
def parseTimer (b : List Byte) : TimerDecl := ⟨leAt b 0 4, leAt b 4 2, leAt b 6 1, leAt b 7 1, leAt b 8 4⟩
def parseEdge (b : List Byte) : EdgeDecl := ⟨leAt b 0 4, leAt b 4 2, leAt b 6 1, decide (leAt b 7 1 = 1)⟩
def parseCounter (b : List Byte) : CounterDecl := ⟨leAt b 0 4, leAt b 4 2, leAt b 8 4, leAt b 12 4⟩
def parseElement (b : List Byte) : ElementDecl := ⟨leAt b 0 2 % 4096, leAt b 2 1, leAt b 3 1 % 16⟩

/-- The entries of a section. -/
def entries (b : List Byte) (ty size : Nat) : List (List Byte) :=
  let s := sectionBytes b ty
  chunks size (s.length / size) s

/-- The numbers of the SYNCs that an engine executes (R105). -/
def syncsOf (ws : List W32) : List Nat :=
  (ws.filter (fun w => decide (opcodeOf w = 0x03))).map (fun w => (argOf w).opd.toNat % 256)

/-- The words of an engine's straight-line path: its segments in order. -/
def pathWords (code : List W32) (segs : List (Nat × Nat)) : List W32 :=
  (segs.map (fun p => (code.drop p.1).take p.2)).flatten

/-- The image that the bytes spell, before it is judged. -/
def parseImage (b : List Byte) : Image :=
  let code := words32 (sectionBytes b 1)
  let segs := (parseSegments 32 (words32 (sectionBytes b 2))).getD []
  let cert := sectionBytes b 8
  { tscan := leAt b 0xC 1, variants := leAt b 0xD 1, stationId := BitVec.ofNat 32 (leAt b 0x10 4),
    imageVer := BitVec.ofNat 32 (leAt b 0x14 4), compilerVer := BitVec.ofNat 32 (leAt b 0x18 4),
    buildTai := leAt b 0x20 8, hdrCrc := BitVec.ofNat 32 (leAt b 0xFC 4), instrCount := leAt b 0x28 4,
    code := ((List.range code.length).zip code).filter (fun p => decide (p.2 ≠ 0)),
    segments := segs, vars := (entries b 3 16).map parseVar, timers := (entries b 4 16).map parseTimer,
    edges := (entries b 5 8).map parseEdge, counters := (entries b 6 16).map parseCounter,
    elements := (entries b 7 4).map parseElement, certCycles := leAt cert 0 4, certTscan := leAt cert 6 1,
    phases := (chunks 8 (leAt cert 4 2) (cert.drop 8)).map (fun x => (leAt x 0 4, leAt x 4 1)),
    barriers := syncsOf (pathWords code (segs.headD [])) }

/-! ### Rows 2 to 5 -/

/-- The digest bytes of R139: every byte before SIGNATURE, with the CRC field of its own directory entry as 0. -/
def signedBytes (b : List Byte) : List Byte :=
  match ((List.range (directory b).length).zip (directory b)).find? (fun p => decide (p.2.stype = 0xF)) with
  | some (i, e) => let o := 0x100 + 16 * i + 12
                   (b.take o ++ leBytes 4 0 ++ b.drop (o + 4)).take e.offset
  | none => b

/-- Row 3 of R140: the signature verifies under the key enrolled at the index (R139). -/
def signatureOk (keys : SMap (List Byte)) (b : List Byte) : Bool :=
  let g := sectionBytes b 0xF
  let k := leAt g 0 1
  decide (k < 4) && (match smFind keys k with
    | some key => Config.ecdsaOk key (Config.sha384 (signedBytes b)) (slice g 8 96)
    | none => false)

/-- The variant's bit of VARIANTS (R131). -/
def variantBit : Variant → Nat
  | .f => 0
  | .t => 1
  | .e => 2

/-- Row 4 of R140; `live` is the active image's TSCAN at online change. -/
def row4 (v : Variant) (live : Option Nat) (i : Image) : Bool :=
  bitN i.variants (variantBit v) && decide (i.variants < 8) && decide (i.tscan ≤ 4) && (match live with | some t => decide (i.tscan = t) | none => true)

/-- Row 5 of R140: an index of a timer or an edge detector, 16 bits, lies within its unit's 65,536 always. -/
def row5 (i : Image) : Bool := decide (i.instrCount ≤ 4194304) && i.counters.all (fun c => decide (c.index < 16384))

/-! ### Row 6: declarations (R9, R116, R128 to R136) -/

/-- The kind of variable that an address may hold, with the address's range as a number (R113, R135). -/
def rangeOf (a : Nat) : Nat × Nat :=
  if a < 0x10000 then (1, 0)
  else if a < 0x20000 then (2, 1)
  else if a < 0x20080 then (3, 2)
  else if a < 0x20090 then (4, 3)
  else if 0x20100 ≤ a ∧ a < 0x20200 then (5, 4)
  else if 0x20200 ≤ a ∧ a < 0x20280 then (5, 5)
  else if 0x21000 ≤ a ∧ a < 0x21185 then (6, 6)
  else if 0x21400 ≤ a ∧ a < 0x21580 then (7, 7)
  else if 0x21800 ≤ a ∧ a < 0x21985 then (6, 8)
  else if 0x21C00 ≤ a ∧ a < 0x21D80 then (7, 9)
  else if 0x22000 ≤ a ∧ a < 0x28000 then (8, 10)
  else if 0x28000 ≤ a ∧ a < 0x29C00 then (8, 11)
  else if 0x40000 ≤ a ∧ a < 0x400000 then (9, 12)
  else (0, 13)

/-- A variable's declaration (R128, R129, R134, R135). -/
def varOk (v : VarDecl) : Bool :=
  (decide (v.width = 1) || (decide (v.width = 16) && decide (v.addr % 16 = 0))) &&
  decide ((rangeOf v.addr).1 = v.kind) && decide (v.kind ≠ 0) &&
  decide (rangeOf (v.addr + v.width - 1) = rangeOf v.addr) &&
  decide (v.restr.toNat < 2 ^ v.width) && decide (v.init.toNat < 2 ^ v.width) &&
  (if v.kind = 5 ∨ v.kind = 8 then !v.forceable && decide (v.restr = 0) && decide (v.init = 0) else true) &&
  (if v.kind = 2 ∨ v.kind = 4 then decide (v.restr = 0) else true)

/-- No two items are equal. -/
def noRepeat {α : Type} [DecidableEq α] : List α → Bool
  | [] => true
  | a :: r => !r.contains a && noRepeat r

/-- No two variables share a bit (R128). -/
def varsApart : List VarDecl → Bool
  | [] => true
  | v :: r => r.all (fun u => decide (v.addr + v.width ≤ u.addr) || decide (u.addr + u.width ≤ v.addr)) && varsApart r

/-- No two segments overlap (R133). -/
def segsApart : List (Nat × Nat) → Bool
  | [] => true
  | p :: r => r.all (fun q => decide (p.1 + p.2 ≤ q.1) || decide (q.1 + q.2 ≤ p.1)) && segsApart r

/-- Every reserved field of the container and its tables that belongs to row 6 is 0, and every encoded field holds a listed value (R9, R131 to
R136, R139). -/
def fieldsOk (b : List Byte) : Bool :=
  decide (leAt b 0x1C 4 = 0) && (slice b 0x2C 0xD0).all (fun x => decide (x = 0)) &&
  (directory b).all (fun e => decide (e.resv = 0)) &&
  (entries b 3 16).all (fun x => decide (leAt x 4 4 < 2 ^ 22) && decide (leAt x 10 2 < 2) &&
    decide (1 ≤ leAt x 8 1) && decide (leAt x 8 1 ≤ 9)) &&
  (entries b 4 16).all (fun x => decide (leAt x 12 4 = 0) && decide (leAt x 6 1 ≤ 2) && decide (leAt x 7 1 ≤ 1)) &&
  (entries b 5 8).all (fun x => decide (leAt x 6 1 ≤ 1) && decide (leAt x 7 1 ≤ 1)) &&
  (entries b 6 16).all (fun x => decide (leAt x 6 2 = 0)) &&
  (entries b 7 4).all (fun x => decide (leAt x 0 2 < 4096) && decide (leAt x 3 1 < 16)) &&
  (slice (sectionBytes b 0xF) 1 7).all (fun x => decide (x = 0))

/-- The section types that an image has, each once (R132), SIGNATURE the last in the file (R131). -/
def sectionsOk (b : List Byte) : Bool :=
  let ts := (directory b).map (·.stype)
  noRepeat ts && decide (ts.length = 9) && [1, 2, 3, 4, 5, 6, 7, 8, 0xF].all (fun t => ts.contains t) &&
  (directory b).all (fun e => match (directory b).find? (fun f => decide (f.stype = 0xF)) with
    | some g => decide (e.offset + e.length ≤ g.offset + g.length) | none => false) &&
  decide ((sectionBytes b 0xF).length = 104) &&
  decide ((sectionBytes b 1).length % 4 = 0) && decide ((sectionBytes b 2).length % 4 = 0) &&
  decide ((sectionBytes b 3).length % 16 = 0) && decide ((sectionBytes b 4).length % 16 = 0) &&
  decide ((sectionBytes b 5).length % 8 = 0) && decide ((sectionBytes b 6).length % 16 = 0) &&
  decide ((sectionBytes b 7).length % 4 = 0)

/-- The bit addresses that an instruction word names. -/
def namedBit (w : W32) : Option Nat :=
  if 0x04 ≤ opcodeOf w ∧ opcodeOf w ≤ 0x0A then some (argOf w).opd.toNat else none

/-- Row 6 of R140. -/
def row6 (b : List Byte) (i : Image) : Bool :=
  let code := words32 (sectionBytes b 1)
  let ids := i.vars.map (·.id) ++ i.timers.map (·.id) ++ i.edges.map (·.id) ++ i.counters.map (·.id)
  let segs := i.segments.flatten
  sectionsOk b && fieldsOk b && decide (code.length = i.instrCount) &&
  decide (i.segments.length = 32) && i.segments.all (fun l => !l.isEmpty) && segsApart segs &&
  segs.all (fun p => decide (p.1 + p.2 ≤ code.length)) && decide ((segs.map (·.2)).sum = code.length) &&
  noRepeat ids && ids.all (fun n => decide (n ≠ 0) && decide (n ≠ 0xFFFFFFFF)) &&
  i.vars.all varOk && varsApart i.vars &&
  i.timers.all (fun t => decide (t.presetMs ≤ 0x0FFFFFFF)) && noRepeat (i.timers.map (·.index)) &&
  noRepeat (i.edges.map (·.index)) && noRepeat (i.counters.map (·.index)) &&
  i.elements.all (fun e => decide (1 ≤ e.ekind) && decide (e.ekind ≤ 5)) && noRepeat (i.elements.map (·.element)) &&
  code.all (fun w => match namedBit w with | some a => (declAt i a).isSome | none => true)

/-! ### Row 7: the code (R111) -/

/-- A word has a defined opcode and zero reserved bits (R81, R104). -/
def wordOk (w : W32) : Bool :=
  let x := argOf w
  let o := opcodeOf w
  opcodeDefined o && !x.m3 && (decide (0x1C ≤ o ∧ o ≤ 0x1E) || decide (x.cmp = 0)) &&
  (if o = 0x01 ∨ o = 0x02 ∨ o = 0x0C then !x.n && decide (x.opd = 0)
   else if o = 0x03 then !x.n && decide (x.opd.toNat < 256)
   else if o = 0x0B ∨ o = 0x0D ∨ o = 0x0E then decide (x.opd = 0)
   else if o = 0x10 then !x.n
   else true)

/-- A word's operand has the access class or the declaration that it needs (R83, R85). -/
def operandOk (i : Image) (w : W32) : Bool :=
  let a := (argOf w).opd.toNat
  let o := opcodeOf w
  if 0x04 ≤ o ∧ o ≤ 0x07 then engReadable a
  else if 0x08 ≤ o ∧ o ≤ 0x0A then engWritable a
  else if 0x18 ≤ o ∧ o ≤ 0x1A then (timerDecl i (o - 0x18) a).isSome
  else if 0x1C ≤ o ∧ o ≤ 0x1E then (counterDecl i a).isSome
  else if o = 0x20 ∨ o = 0x21 then (edgeDecl i (o - 0x20) a).isSome
  else true

/-- What a word does to the branch depth; none where it leaves 0 to 16. -/
def depthStep (w : W32) (d : Nat) : Option Nat :=
  if opcodeOf w = 0x0C then (if d = 16 then none else some (d + 1))
  else if opcodeOf w = 0x0D ∨ opcodeOf w = 0x0E then (if d = 0 then none else some (d - 1))
  else some d

/-- The branch depth after words on the straight line, from 0. -/
def depthAfter (ws : List W32) : Option Nat := ws.foldl (fun d w => d.bind (depthStep w)) (some 0)

/-- A skip span: no unit, SYNC or END instruction, branch-balanced, never below its starting depth (R97). -/
def spanOk (ws : List W32) : Bool :=
  ws.all (fun w => !(([0x02, 0x03, 0x18, 0x19, 0x1A, 0x1C, 0x1D, 0x1E, 0x20, 0x21] : List Nat).contains (opcodeOf w))) &&
  decide (depthAfter ws = some 0)

/-- Every jump of a segment stays at or before its END over a good skip span (R96, R97). -/
def jumpsOk : List W32 → Bool
  | [] => true
  | w :: r => (if opcodeOf w = 0x10 ∨ opcodeOf w = 0x11 then
      decide ((argOf w).opd.toNat < r.length) && spanOk (r.take (argOf w).opd.toNat) else true) && jumpsOk r

/-- A segment ends with its only END, at depth 0 (R111). -/
def segmentOk (ws : List W32) : Bool :=
  (match ws.getLast? with | some w => decide (opcodeOf w = 0x02) | none => false) &&
  decide ((ws.filter (fun w => decide (opcodeOf w = 0x02))).length = 1) && decide (depthAfter ws = some 0) && jumpsOk ws

/-- Numbers rise strictly. -/
def rising : List Nat → Bool
  | a :: b :: r => decide (a < b) && rising (b :: r)
  | _ => true

/-- How often words of an opcode name an index. -/
def uses (ws : List W32) (o a : Nat) : Nat :=
  (ws.filter (fun w => decide (opcodeOf w = o) && decide ((argOf w).opd.toNat = a))).length

/-- Unit use (R92, R103, R111). -/
def unitsOk (i : Image) (paths : List (List W32)) : Bool :=
  let all := paths.flatten
  i.timers.all (fun t => decide (uses all (0x18 + t.tkind) t.index = 1)) &&
  i.edges.all (fun t => decide (uses all (0x20 + t.ekind) t.index = 1)) &&
  i.counters.all (fun c => [0x1C, 0x1D, 0x1E].all (fun o => decide (uses all o c.index ≤ 1)) &&
    decide ((paths.filter (fun p => [0x1C, 0x1D, 0x1E].any (fun o => decide (uses p o c.index ≠ 0)))).length ≤ 1))

/-- A path cut into phases at its SYNCs (R89 to R91). -/
def phasesOf : List W32 → List (List W32)
  | [] => [[]]
  | w :: r => if opcodeOf w = 0x03 then [] :: phasesOf r
              else match phasesOf r with
                | p :: q => (w :: p) :: q
                | [] => [[w]]

def bitsRead (ws : List W32) : List Nat :=
  (ws.filter (fun w => decide (0x04 ≤ opcodeOf w ∧ opcodeOf w ≤ 0x07))).map (fun w => (argOf w).opd.toNat)
def bitsWritten (ws : List W32) : List Nat :=
  (ws.filter (fun w => decide (0x08 ≤ opcodeOf w ∧ opcodeOf w ≤ 0x0A))).map (fun w => (argOf w).opd.toNat)

/-- In a phase, no bit that one engine writes is read or written by another (R91). -/
def exclusive : List (List W32) → Bool
  | [] => true
  | p :: r => r.all (fun q =>
      (bitsWritten p).all (fun a => !(bitsRead q).contains a && !(bitsWritten q).contains a) &&
      (bitsWritten q).all (fun a => !(bitsRead p).contains a)) && exclusive r

/-- The engines' phases, phase by phase. -/
def byPhase (paths : List (List W32)) : List (List (List W32)) :=
  let ps := paths.map phasesOf
  (List.range ((ps.map List.length).foldl max 0)).map (fun j => ps.map (fun p => p.getD j []))

/-- Row 7 of R140. -/
def row7 (i : Image) (code : List W32) : Bool :=
  let paths := i.segments.map (pathWords code)
  code.all (fun w => wordOk w && operandOk i w) &&
  i.segments.flatten.all (fun p => segmentOk ((code.drop p.1).take p.2)) &&
  paths.all (fun p => decide (syncsOf p = i.barriers)) && rising i.barriers && unitsOk i paths && (byPhase paths).all exclusive

/-! ### Row 8: the certificate (R112, R137, R138) -/

/-- The cost of an instruction outside jumps and SYNC (R93 to R104). -/
def wordCost (w : W32) : Nat :=
  let o := opcodeOf w
  if 0x18 ≤ o ∧ o ≤ 0x1E then 4
  else if o = 0x20 ∨ o = 0x21 ∨ o = 0x02 ∨ o = 0x10 then 2
  else 1

/-- The worst case of words on a straight line: a jump stands for itself together with its skip span (R112). -/
def lineCost : Nat → List W32 → Nat
  | 0, _ => 0
  | _ + 1, [] => 0
  | f + 1, w :: r =>
    let k := (argOf w).opd.toNat
    if opcodeOf w = 0x11 then max 2 (1 + lineCost f (r.take k)) + lineCost f (r.drop k)
    else if opcodeOf w = 0x10 then 2 + lineCost f (r.drop k)
    else wordCost w + lineCost f r

/-- The figure of each phase (R112, steps 1 and 2). -/
def phaseFigures (i : Image) (code : List W32) : List Nat :=
  let ph := byPhase (i.segments.map (pathWords code))
  ((List.range ph.length).zip ph).map (fun p =>
    (p.2.map (fun ws => lineCost (ws.length + 1) ws)).foldl max 0 + (if p.1 + 1 < ph.length then 2 else 0))

/-- The first failing item of the certificate (R138): of the bound, the first phase whose recomputed figure exceeds its own, or the total where
none does. -/
def certFailure (b : List Byte) (i : Image) (code : List W32) : Option CertItem :=
  let figs := phaseFigures i code
  if i.certTscan ≠ i.tscan then some .tscan
  else if leAt (sectionBytes b 8) 4 2 ≠ i.barriers.length + 1 ∨ (sectionBytes b 8).length ≠ 8 + 8 * (i.barriers.length + 1) then some .phases
  else if i.certCycles < figs.sum then
    match (figs.zip i.phases).findIdx? (fun p => decide (p.2.1 < p.1)) with
    | some p => some (.phase p)
    | none => some .total
  else if Config.budget i.tscan < i.certCycles then some .total
  else none

/-- Every reserved field of the certificate is 0, and CRIT_ENGINE names one of the 32 engines (R9, R137). -/
def certFieldsOk (b : List Byte) (i : Image) : Bool :=
  let cert := sectionBytes b 8
  decide (leAt cert 7 1 = 0) && i.phases.all (fun p => decide (p.2 < 32)) &&
  (chunks 8 (leAt cert 4 2) (cert.drop 8)).all (fun x => decide (leAt x 5 3 = 0))

/-- Row 8 of R140. -/
def row8 (b : List Byte) (i : Image) (code : List W32) : Bool := certFieldsOk b i && (certFailure b i code).isNone

/-- The checks of R140 in order: the status of the first row that fails, or the image. -/
def checkImage (fw : W32) (v : Variant) (keys : SMap (List Byte)) (live : Option Nat) (b : List Byte) : Except Status Image :=
  let i := parseImage b
  let code := words32 (sectionBytes b 1)
  if !row1 b then .error .checkFail
  else if leAt b 4 2 < Config.imgFmtMin fw ∨ Config.imgFmtMax fw < leAt b 4 2 then .error .version
  else if !signatureOk keys b then .error .signatureFail
  else if !row4 v live i then .error .badArg
  else if !row5 i then .error .badArg
  else if !row6 b i then .error .checkFail
  else if !row7 i code then .error .checkFail
  else if !row8 b i code then .error .checkFail
  else .ok i

end Sys2Proof.Machine
end

