-- ==== Sys2Proof/Machine/Olc.lean ====
section
/-! DEFINITION. Online change (R256 to R270, R433, R588): the load, the transfer map with its digest and budget, the swap
request, the decision at the boundary W and the map's effect on a lane. -/

namespace Sys2Proof.Machine

open Sys2Proof

/-! ### Entities and the transfer map (R257) -/

/-- An entity of an image with its declaration. -/
inductive Entity where
  | var (d : VarDecl)
  | timer (d : TimerDecl)
  | edge (d : EdgeDecl)
  | counter (d : CounterDecl)
  deriving DecidableEq, Repr

def Entity.id : Entity → Nat
  | .var d => d.id
  | .timer d => d.id
  | .edge d => d.id
  | .counter d => d.id

/-- Bit address or index. -/
def Entity.pos : Entity → Nat
  | .var d => d.addr
  | .timer d => d.index
  | .edge d => d.index
  | .counter d => d.index

/-- The entity class of an OLC record of kind 8 (R588). -/
def Entity.cls : Entity → Nat
  | .var _ => 1
  | .timer _ => 2
  | .edge _ => 3
  | .counter _ => 4

/-- The entry type of a new entity (R257). -/
def Entity.newType : Entity → Nat
  | .var _ => 2
  | .timer _ => 4
  | .edge _ => 6
  | .counter _ => 8

def entitiesOf (i : Image) : List Entity :=
  i.vars.map .var ++ i.timers.map .timer ++ i.edges.map .edge ++ i.counters.map .counter

def entityOf (i : Image) (id : Nat) : Option Entity := (entitiesOf i).find? (fun e => e.id = id)

/-- Variables that keep their value when they move (R257). -/
def movesValue (d : VarDecl) : Bool := d.kind == 2 || d.kind == 4 || d.kind == 7 || d.kind == 9

/-- The entry types of an entity of the staged image against the active image's entity of the same ID; 9 is REMOVED. -/
def entryTypes (old : Option Entity) (new : Entity) : List Nat :=
  match old, new with
  | none, n => [n.newType]
  | some (.var o), .var d =>
    if o.kind ≠ d.kind ∨ o.width ≠ d.width then [9, 2]
    else if o.addr ≠ d.addr ∧ movesValue d then [1] else []
  | some (.timer o), .timer d =>
    if o.tkind ≠ d.tkind then [9, 4]
    else if o.index ≠ d.index ∨ o.presetMs ≠ d.presetMs ∨ o.attr ≠ d.attr then [3] else []
  | some (.edge o), .edge d => if o.index ≠ d.index ∨ o.ekind ≠ d.ekind then [5] else []
  | some (.counter o), .counter d => if o.index ≠ d.index ∨ o.pv ≠ d.pv ∨ o.rv ≠ d.rv then [7] else []
  | some _, n => [9, n.newType]

/-- The transfer map in ascending ID, a REMOVED entry before the entry of the staged image (R257). -/
def transferMap (old new : Image) : List MapEntry :=
  let put := fun (m : SMap MapEntry) (e : MapEntry) => smPut m (2 * e.id + (if e.etype = 9 then 0 else 1)) e
  let m := (entitiesOf new).foldl (fun m e =>
    (entryTypes (entityOf old e.id) e).foldl (fun m t => put m ⟨e.id, t, if t = 9 then 0 else e.pos⟩) m) []
  let m := (entitiesOf old).foldl (fun m e => if (entityOf new e.id).isNone then put m ⟨e.id, 9, 0⟩ else m) m
  m.map (·.2)

/-- The 64-bit word of an entry (R257). -/
def mapWord (e : MapEntry) : W64 := BitVec.ofNat 64 (e.id + e.etype * 2 ^ 32 + e.pos * 2 ^ 36)

/-- The transfer-map digest (R257). -/
def mapDigest (m : List MapEntry) : W64 := gfDigest ((List.range m.length).zip (m.map mapWord))

/-- The cycles of applying a map (R262). -/
def swapCost (m : List MapEntry) : Nat := 2000 + 4 * m.length

/-! ### The map's effect on a lane (R257 to R259) -/

/-- Variables across the swap: removed and changed ones zeroed, moved ones copied, new ones at 0 or INIT. -/
def swapVars (old new : Image) (m : SMap W64) : SMap W64 :=
  let same := fun (o d : VarDecl) => decide (o.kind = d.kind) && decide (o.width = d.width)
  let m1 := old.vars.foldl (fun x o => match varById new o.id with
    | some d => if same o d then x else setVarBits o.width o.addr 0 x
    | none => setVarBits o.width o.addr 0 x) m
  new.vars.foldl (fun x d => match varById old d.id with
    | some o =>
      if same o d then (if o.addr ≠ d.addr ∧ movesValue d then setVarBits d.width d.addr (varBits o.width o.addr m) x else x)
      else setVarBits d.width d.addr (if outputVar d then 0 else d.init.toNat) x
    | none => setVarBits d.width d.addr (if outputVar d then 0 else d.init.toNat) x) m1

/-- The preset of a timer declaration in scans (R136). -/
def declPreset (i : Image) (d : TimerDecl) : W32 := BitVec.ofNat 32 (ceilDiv (d.presetMs * 1000) (Config.tscanUs i.tscan))

/-- A timer under TMR_KEEP: its state and the preset in effect from scan W on (R258). -/
def keepTimer (pOld pNew : W32) (d : TimerDecl) (t : TimerState) : TimerState × W32 :=
  if !t.run then (t, pNew)
  else if d.tkind = 0 ∧ t.q then ({ t with et := pNew }, pNew)
  else if d.attr = 0 then (t, if pOld.toNat < pNew.toNat then pNew else pOld)
  else (t, if pOld.toNat < pNew.toNat then pOld else pNew)

/-- Timers and carried presets across the swap. -/
def swapTimers (old new : Image) (st : LaneState) : SMap TimerState × SMap W32 :=
  new.timers.foldl (fun (ts, ps) d =>
    match old.timers.find? (fun o => o.id = d.id) with
    | none => (ts, ps)
    | some o =>
      if o.tkind ≠ d.tkind then (ts, ps)
      else
        let t := smGet TimerState.zero st.core.timers o.index
        if (entryTypes (some (.timer o)) (.timer d)).isEmpty then
          (smSet TimerState.zero ts d.index t,
           match smFind st.presets o.index with | some p => smPut ps d.index p | none => ps)
        else
          let r := keepTimer (presetOf st old o) (declPreset new d) d t
          (smSet TimerState.zero ts d.index r.1, if r.2 = declPreset new d then ps else smPut ps d.index r.2)) ([], [])

/-- Edge detectors across the swap: PREV copied; a new one takes its first input as PREV (R257, R259). -/
def swapEdges (old new : Image) (st : LaneState) : SMap W64 × List Nat :=
  new.edges.foldl (fun (es, fresh) d =>
    match old.edges.find? (fun o => o.id = d.id) with
    | none => (es, fresh ++ [d.index])
    | some o => (setVarBit d.index (edgePrev st.core.edges o.index) es,
                 if st.edgeFresh.contains o.index then fresh ++ [d.index] else fresh)) ([], [])

/-- Counters across the swap (R257). -/
def swapCounters (old new : Image) (st : LaneState) : SMap CounterState :=
  new.counters.foldl (fun cs d =>
    match old.counters.find? (fun o => o.id = d.id) with
    | none => smSet CounterState.zero cs d.index ⟨BitVec.ofNat 32 d.rv, false, false⟩
    | some o => smSet CounterState.zero cs d.index (counterOf st.core o.index)) []

/-- A lane applies the map to the state left by scan W - 1 and exchanges its code banks (R266, steps 2 and 4). -/
def swapLane (old new : Image) (st : LaneState) : LaneState :=
  let t := swapTimers old new st
  let e := swapEdges old new st
  { st with
    core := { st.core with vars := swapVars old new st.core.vars, timers := t.1, edges := e.1,
                           counters := swapCounters old new st, active := some new, shadow := some old },
    presets := t.2, edgeFresh := e.2 }

/-! ### Records and the ends of a swap -/

/-- HDR_CRC of the staged image; 0 with none. -/
def stagedCrc (s : State) : W32 := match s.ctl.olc.image with | some i => i.hdrCrc | none => 0

/-- The OLC_SWAP in flight completes. -/
def finishSwap (st : Status) (result : List Byte) (s : State) : State :=
  match s.ctl.olc.swapCmd with
  | none => s
  | some c => onOlc (fun o => { o with swapCmd := none }) (finishRef c st 0 result [] s)

/-- The OLC_CANCEL in flight completes. -/
def finishCancel (st : Status) (result : List Byte) (s : State) : State :=
  match s.ctl.olc.cancelCmd with
  | none => s
  | some c => onOlc (fun o => { o with cancelCmd := none }) (finishRef c st 0 result [] s)

/-- The OLC_LOAD_END in flight completes. -/
def finishLoad (st : Status) (result : List Byte) (s : State) : State :=
  match s.ctl.olc.loadCmd with
  | none => s
  | some c => onOlc (fun o => { o with loadCmd := none }) (finishRef c st 0 result [] s)

/-- Back to IDLE with nothing staged. -/
def olcIdle (s : State) : State :=
  onOlc (fun o => { o with mode := .idle, image := none, map := [], digest := 0, w := 0, restage := false, swapped := false }) s

/-! ### The request block's online-change field (R254, R255, R263, R264) -/

/-- A lane's own digest of the transfer map, of its active and its staged image (R257); none without both. -/
def laneDigest (s : State) (l : Lane) : Option W64 :=
  match (lane s l).core.active, (lane s l).core.shadow with
  | some old, some new => some (mapDigest (transferMap old new))
  | _, _ => none

/-- A lane that the request block reaches: of a seat or being resynchronised (R21). -/
def requestLane (s : State) (l : Lane) : Bool :=
  domRun s (laneDom l) && (match (voter s).laneVote.get l with | .seated | .resync | .verify => true | _ => false)

/-- Every such lane accepts IMAGE_CRC and MAP_DIGEST as those of its own staged image (R263). -/
def lanesAccept (s : State) (crc digest : Nat) : Bool :=
  (Lane.list.filter (requestLane s)).all (fun l =>
    decide ((lane s l).core.shadow.map (fun i => i.hdrCrc.toNat) = some crc) && decide ((laneDigest s l).map (fun d => d.toNat % 2 ^ 32) = some digest))

/-- A new OSEQ is acted on in scan n, after the force slots (R255): SWAP is accepted by every checker or refused with BAD_ARG; CANCEL no later
than scan W - 1 returns to STAGED, later it is STALE. -/
def oseqAct (s : State) : State :=
  let m := s.ctl.adm.snapshot
  let oseq := BitVec.ofNat 16 (admRead 16 0x029E00 m)
  let prev := s.ctl.force.oseqPrev
  let s := onForce (fun f => { f with oseqPrev := oseq }) s
  if oseq = 0 ∨ oseq = prev then s
  else
    let n := scn s
    let w := BitVec.ofNat 32 (admRead 32 0x029E20 m)
    let crc := admRead 32 0x029E40 m
    let digest := admRead 32 0x029E60 m
    let o := s.ctl.olc
    let seen := fun (st : Status) => onForce (fun f => { f with oseqSeen := oseq, oseqResult := st.code })
    match admRead 2 0x029E10 m with
    | 1 =>
      if o.mode = .staged ∧ !o.restage ∧ 16 ≤ scnAhead n w ∧ scnAhead n w ≤ 1024 ∧
          crc = (stagedCrc s).toNat ∧ digest = o.digest.toNat % 2 ^ 32 ∧ lanesAccept s crc digest then
        seen .ok (olcRecord 3 0 w.toNat (stagedCrc s) (onOlc (fun o => { o with mode := .swapping, w := w, swapped := false }) s))
      else seen .badArg (finishSwap .badArg [] s)
    | 2 =>
      if o.mode = .swapping ∧ !o.swapped ∧ scnBefore n o.w then
        let s := olcRecord 6 0 o.w.toNat (stagedCrc s) (onOlc (fun o => { o with mode := .staged }) s)
        seen .ok (finishCancel .ok (le4 o.w.toNat) (finishSwap .aborted [] s))
      else seen .stale (finishCancel .stale [] s)
    | _ => seen .badArg s

/-! ### The boundary (R261, R265, R266) -/

/-- Elements that an online change deletes (R261). -/
def deletedElements (old new : Image) : List ElementDecl :=
  old.elements.filter (fun e => match new.elements.find? (fun f => f.element = e.element) with
    | some f => decide (f.ekind ≠ e.ekind)
    | none => true)

/-- A deleted element is blocked in the scan just voted: every output bit delivered by a half as 0 after output forces, and every
declared INPUT variable of it under an active restrictive force (R261). -/
def elementBlocked (s : State) (h : Half) (old : Image) (e : ElementDecl) : Bool :=
  let word := (delivered (voter s).now h (e.element / 4)).getD (~~~0#64)
  decide (field word.toNat (16 * (e.element % 4)) 16 = 0) &&
  (old.vars.filter (fun d => decide (d.kind = 1) && decide (16 * e.element ≤ d.addr) && decide (d.addr < 16 * e.element + 16))).all
    (fun d => match smFind (s.ctl.force.out.get h) d.id with | some f => !f.any | none => false)

/-- The ready word of a lane, as a half has it, carries an image CRC (R182, R265). -/
def readyCarries (s : State) (h : Half) (l : Lane) (crc : W32) : Bool :=
  match ((voter s).ready.get h).get l with | some r => decide (r.shadowCrc = crc) | none => false

/-- A debugger is attached. -/
def debugAttached (s : State) : Bool := s.ctl.dbg.attached.isSome

/-- Shutdown BIST is requested or runs. -/
def shutdownRequested (s : State) : Bool := s.mgt.bist.running || s.mgt.start.shutdownPending

/-- Why a half refuses the swap at W (R265). -/
def swapRefusal (s : State) (h : Half) (old new : Image) : Option Status :=
  let lanes := (seatsOf s.variant).filterMap (fun k => (((voter s).seats.get k).lease.get h).map (·.holder))
  judge [
    (!switchOn s 3, .deniedSeal),
    ((seatsOf s.variant).any (fun k => ((voter s).seats.get k).mode ≠ .held), .notReady),
    (lanes.any (fun l => !readyCarries s h l new.hdrCrc), .checkFail),
    ((deletedElements old new).any (fun e => !elementBlocked s h old e), .aborted),
    (schedAnnounced s, .notReady),
    (shutdownRequested s || debugAttached s, .notReady)]

/-- What `f` does as part of scan `w`, the scan about to be released. -/
def atScan (w : Scn) (f : State → State) (s : State) : State :=
  let n := scn s
  onVoter (fun v => { v with scn := n }) (f (onVoter (fun v => { v with scn := w }) s))

/-- A lane swaps its banks: one of a seat or the belay lane, where its shadow bank holds the staged image (R196, R266). -/
def swaps (s : State) (new : Image) (l : Lane) : Bool :=
  (match (voter s).laneVote.get l with | .seated | .belay => true | _ => false) && decide ((lane s l).core.shadow = some new)

/-- The swap itself: removals recorded, forces carried, the map applied and the banks exchanged in every seat lane and the belay lane, and the
cairn lost (R194, R257, R260, R266). -/
def swapNow (old new : Image) (s : State) : State :=
  let s := (s.ctl.olc.map.filter (fun e => e.etype = 9)).foldl (fun s e => match entityOf old e.id with
    | some x => olcRecord 8 x.cls e.id new.hdrCrc s
    | none => s) s
  let s := carryForces old new s
  let s := (Lane.list.filter (swaps s new)).foldl (fun s l => onLane l (swapLane old new) s) s
  let s := onVoter (fun v => { v with cairn := none, capture := none }) s
  onForce (fun f => { f with oseqResult := Status.ok.code }) (onOlc (fun o => { o with swapped := true }) s)

/-- The decision at the release of scan W, which each half takes for itself; a difference is an X/Y disagreement (R156, R265). -/
def swapBoundary (s : State) : State :=
  let o := s.ctl.olc
  let n := BitVec.ofNat 32 s.ctl.followers.x.cycle
  if o.mode = .swapping ∧ !o.swapped ∧ !scnBefore n o.w ∧ n ≠ scn s ∧ ctlRuns s then
    match runImage s, o.image with
    | some old, some new =>
      atScan n (fun s =>
        if swapRefusal s .x old new ≠ swapRefusal s .y old new then tripXY s
        else match swapRefusal s .x old new with
        | some st =>
          let s := olcRecord 4 st.code o.w.toNat new.hdrCrc (onOlc (fun o => { o with mode := .staged }) s)
          finishSwap st [] (onForce (fun f => { f with oseqResult := st.code }) s)
        | none => swapNow old new s) s
    | _, _ => s
  else s

/-- OLC_SWAP_BOUNDARY (R265, R266): the decision as the release of scan W comes due. -/
def execOlcSwapBoundary (s : State) : Host.Outcome State Fault Refusal :=
  .next (swapBoundary s)

/-! ### Staging (R256, R257, R262, R268) -/

/-- The lanes that hold a staged image: those of the seats, being resynchronised, and the belay lane (R256). -/
def stagingLanes (s : State) : List Lane :=
  Lane.list.filter (fun l => domRun s (laneDom l) &&
    (match (voter s).laneVote.get l with | .seated | .resync | .verify | .belay => true | _ => false))

/-- Every lane of the staging path holds the image. -/
def allStaged (s : State) (i : Image) : Bool := (stagingLanes s).all (fun l => (lane s l).core.shadow == some i)

/-- A load under way on the staging path, or a staging to be made again after a start: the staging is still to be decided. -/
def stagingOpen (s : State) : Bool := (s.ctl.olc.mode == .idle && s.ctl.olc.loadCmd.isSome) || s.ctl.olc.restage

/-- An image is on its way into the shadow banks: until the staging is decided, and after that into a lane that has come to lack it (R196,
R524). -/
def stagingDue (s : State) : Bool :=
  s.ctl.olc.image.isSome && (stagingOpen s || (s.ctl.olc.mode != .idle && !s.ctl.olc.swapped))

/-- The result of the checks of R140 by several checkers, each with its bit of a DISSENT record and the lane firmware whose format range it
goes by: the status of the earliest failing row that any of them finds, and which of them differ from the others (R140). The rows differ between
them in row 2 alone. -/
def checkBy (checkers : List (Nat × W32)) (v : Variant) (keys : SMap (List Byte)) (live : Option Nat) (b : List Byte) :
    Except Status Image × Nat :=
  let res := checkers.map (fun f => (f.1, checkImage f.2 v keys live b))
  let bad := res.filter (fun r => match r.2 with | .error .version => true | _ => false)
  match bad, res with
  | r :: _, _ => (r.2, if bad.length = res.length then 0 else bad.foldl (fun n q => n + 2 ^ q.1) 0)
  | [], r :: _ => (r.2, 0)
  | [], [] => (.error .checkFail, 0)

/-- The checks of R140 by MGT and by every lane supervisor. -/
def checkAll (s : State) (live : Option Nat) (b : List Byte) : Except Status Image × Nat :=
  checkBy ((0, s.mgt.upd.active.lane) :: (Lane.list.filter (fun l => domRun s (laneDom l) && (lane s l).core.active.isSome)).map
    (fun l => (l.idx + 1, (lane s l).core.fwVer))) s.variant s.mgt.store.keys live b

/-- DISSENT of a kind: the dissenting checkers, the status and the image (R140, R257, R476). -/
def dissentRecord (kind mask : Nat) (st : Status) (crc : Nat) (s : State) : State :=
  if mask = 0 then s else report .vital 0x0208 0 (byte kind ++ byte mask ++ byte st.code ++ le4 crc) [] s

/-- What a refused image's certificate fails in (R138). No record of R476 has a place for it, so State alone names it (DESIGN CHOICE, log entry
111). -/
def noteCertificate (b : List Byte) (r : Except Status Image) (s : State) : State :=
  let i := parseImage b
  let code := words32 (sectionBytes b 1)
  let item := match r with
    | .error .checkFail => if row1 b && row6 b i && row7 i code && certFieldsOk b i then certFailure b i code else none
    | _ => none
  onOlc (fun o => { o with certItem := item }) s

/-- The conditions of R256 on an image for online change: the checks of R140, and in SERVICE the station of the active image. The status of
the first that fails; the records of dissent are written. -/
def changeCheck (s : State) (b : List Byte) : State × Except Status Image :=
  let r := checkAll s (some s.tscan) b
  let s := noteCertificate b r.1 (dissentRecord 1 r.2 .version (leAt b 0xFC 4) s)
  match r.1 with
  | .error st => (s, .error st)
  | .ok i =>
    if inService s ∧ some i.stationId ≠ (runImage s).map (·.stationId) then (s, .error .badArg) else (s, .ok i)

/-- The checkers whose transfer-map digest differs: lanes from MGT's, or MGT where the lanes agree among themselves (R257). -/
def digestDissent (s : State) (d : W64) : Nat :=
  let ls := (stagingLanes s).map (fun l => (l, laneDigest s l))
  let odd := ls.filter (fun p => decide (p.2 ≠ some d))
  match ls.head? with
  | some p => if odd.length = ls.length && ls.all (fun q => decide (q.2 = p.2)) then 1 else odd.foldl (fun n q => n + 2 ^ (q.1.idx + 1)) 0
  | none => 0

/-- A staging fails: the image is not staged (R257, R262, R268). -/
def stagingFails (st : Status) (s : State) : State :=
  let s := olcRecord (if s.ctl.olc.restage then 7 else 2) st.code 0 (stagedCrc s) s
  olcIdle (finishLoad st [] s)

/-- The verdict once every checker has the image: after a start the checks again, then the map, the checkers' digests and the budget of scan W
(R256, R257, R262, R268, R269). -/
def stagingVerdict (s : State) : State :=
  match runImage s, s.ctl.olc.image with
  | some old, some new =>
    let c := if s.ctl.olc.restage then changeCheck s s.mgt.store.staged else (s, .ok new)
    let s := c.1
    match c.2 with
    | .error st => stagingFails st s
    | .ok _ =>
      let m := transferMap old new
      let d := mapDigest m
      let odd := digestDissent s d
      if odd ≠ 0 then stagingFails .checkFail (dissentRecord 2 odd .checkFail new.hdrCrc.toNat s)
      else if Config.budget new.tscan < new.certCycles + swapCost m then stagingFails .checkFail s
      else
        let s := onOlc (fun o => { o with mode := .staged, map := m, digest := d, restage := false }) s
        let s := if s.ctl.olc.loadCmd.isSome then olcRecord 1 0 0 new.hdrCrc s else s
        finishLoad .ok (le4 m.length ++ le4 (d.toNat % 2 ^ 32) ++ le4 (new.certCycles + swapCost m)) s
  | _, _ => s

/-- The idle part of the scan in progress has begun for every voting lane (R23, R56). -/
def idlePart (s : State) : Bool :=
  ((Seat.list.filter (fun k => SeatVotes ((voter s).seats.get k))).filterMap (holder s)).all (fun l => decide ((lane s l).core.phase = .idle))

/-- A lane has its share of the staging: the image stands in its shadow bank, and with the last lane the staging is decided. -/
def stageLane (l : Lane) (i : Image) (s : State) : State :=
  let free := match (lane s l).core.phase with | .stopped | .idle => true | _ => false
  if stagingDue s && ctlRuns s && (stagingLanes s).contains l && free && !((lane s l).core.shadow == some i) then
    let s := onCore l (fun c => { c with shadow := some i }) s
    if stagingOpen s && allStaged s i then stagingVerdict s else s
  else s

/-! ### The OLC commands (R433) -/

/-- Bytes of a load that it does not hold yet are taken from a new piece; a later piece replaces what it overlaps. -/
def putPiece (off : Nat) (data : List Byte) (ps : List (Nat × List Byte)) : List (Nat × List Byte) :=
  let cut := fun (p : Nat × List Byte) =>
    let left := (p.1, p.2.take (off - p.1))
    let right := (max p.1 (off + data.length), p.2.drop (off + data.length - p.1))
    (if left.2.isEmpty then [] else [left]) ++ (if right.2.isEmpty then [] else [right])
  smIns off data ((ps.map cut).flatten)

/-- Bytes held. -/
def heldBytes (ps : List (Nat × List Byte)) : Nat := (ps.map (fun p => p.2.length)).sum

/-- An earlier load or a staged image gives way to a new load (R433). -/
def dropLoad (s : State) : State :=
  let s := if s.ctl.olc.mode = .staged then olcIdle (olcRecord 9 0 0 (stagedCrc s) s)
           else onOlc (fun o => { o with image := none }) (finishLoad .aborted [] s)
  onOlc (fun o => { o with load := none }) s

/-- OLC_LOAD_BEGIN (R433). -/
def execOlcLoadBegin (c : CmdHdr) (target : Byte) (len : W32) (crc : W32) (s : State) : Host.Outcome State Fault Refusal :=
  .next (cmdRun c 0x0600 (formOk c false false true) false
    [(s.ctl.olc.mode == .swapping || (target == 0 && notRunning s), .notReady),
     (decide (1 < target.toNat) || decide (16777216 + 65536 < len.toNat), .badArg),
     (target == 1 && inService s, .deniedMode),
     (target == 0 && !switchOn s 3, .deniedSeal)]
    (fun s => finish c 0x0600 .ok [] []
      (onOlc (fun o => { o with load := some ⟨target.toNat, len.toNat, crc, []⟩ }) (dropLoad s))) s)

/-- OLC_LOAD_DATA (R433). -/
def execOlcLoadData (c : CmdHdr) (off : W32) (data : List Byte) (s : State) : Host.Outcome State Fault Refusal :=
  let end_ := off.toNat + data.length
  let len := match s.ctl.olc.load with | some l => l.len | none => 0
  .next (cmdRun c 0x0601 (formOk c true false (decide (c.dataLen = data.length))) false
    [(s.ctl.olc.load.isNone, .notReady),
     (decide (off.toNat % 8 ≠ 0) || decide (len < end_) || (decide (data.length % 8 ≠ 0) && decide (end_ ≠ len)), .badArg)]
    (fun s => match s.ctl.olc.load with
      | none => s
      | some l =>
        let ps := if data.isEmpty then l.pieces else putPiece off.toNat data l.pieces
        finish c 0x0601 .ok (le4 (heldBytes ps)) [] (onOlc (fun o => { o with load := some { l with pieces := ps } }) s)) s)

/-- ELEMENT_NOT_CARRIED for every element that no frame carries (R276). -/
def notCarried (i : Image) (s : State) : State :=
  i.elements.foldl (fun s e =>
    let k := e.element / 64
    let n := max (if (portCfg s .a k).use then (portCfg s .a k).n else 0) (if (portCfg s .b k).use then (portCfg s .b k).n else 0)
    if n ≤ e.element % 64 then report .general 0x050C 0 (le2 e.element) [] s else s) s

/-- OLC_LOAD_END (R433): the checks of R140 and R256; an accepted image for the shadow banks goes onto the staging path. -/
def execOlcLoadEnd (c : CmdHdr) (s : State) : Host.Outcome State Fault Refusal :=
  .next (cmdRun c 0x0602 (formOk c false false true) false [(s.ctl.olc.load.isNone, .notReady), (nandBusy s 0x0602, .busySelftest)]
    (fun s => match s.ctl.olc.load with
      | none => s
      | some l =>
        let b := (l.pieces.map (·.2)).flatten
        if heldBytes l.pieces ≠ l.len ∨ b.length < 256 ∨ leAt b 0xFC 4 ≠ l.crc.toNat then finish c 0x0602 .checkFail [] [] s
        else if l.target = 1 then
          let s := onOlc (fun o => { o with load := none }) s
          let r := checkImage s.mgt.upd.active.lane s.variant s.mgt.store.keys none b
          let s := noteCertificate b r s
          match r with
          | .error st => finish c 0x0602 st [] [] s
          | .ok _ => finish c 0x0602 .ok (leBytes 12 0) [] (onStore (fun x => { x with image := b }) s)
        else
          let r := changeCheck (onOlc (fun o => { o with load := none }) s) b
          let s := r.1
          match r.2 with
          | .error st => finish c 0x0602 st [] [] (olcRecord 2 st.code 0 l.crc s)
          | .ok i =>
            if notRunning s then finish c 0x0602 .notReady [] [] (olcRecord 2 Status.notReady.code 0 l.crc s)
            else notCarried i (onOlc (fun o => { o with image := some i, loadCmd := some (refOf c 0x0602) })
              (onStore (fun x => { x with staged := b }) s))) s)

/-- The next OSEQ: a counter that is never 0 (R254). -/
def nextOseq (n : BitVec 16) : BitVec 16 := if n = 0xFFFF#16 then 1 else n + 1

/-- MGT writes the online-change field of the request block (R254). -/
def writeOseq (oop : Nat) (w : Scn) (s : State) : State :=
  let q := nextOseq s.ctl.olc.oseq
  let s := onOlc (fun o => { o with oseq := q }) s
  admWrite 32 0x029E60 (s.ctl.olc.digest.toNat % 2 ^ 32) (admWrite 32 0x029E40 (stagedCrc s).toNat
    (admWrite 32 0x029E20 w.toNat (admWrite 2 0x029E10 oop (admWrite 16 0x029E00 q.toNat s))))

/-- The scan whose snapshot can first carry a write made now (R19). -/
def nextCarried (s : State) : Scn := if s.ctl.adm.taken then scn s + 2 else scn s + 1

/-- OLC_SWAP (R263, R433): judged by R263 and the matrix of R556, then written into the request block. -/
def execOlcSwap (c : CmdHdr) (w : W32) (s : State) : Host.Outcome State Fault Refusal :=
  .next (cmdRun c 0x0603 (formOk c false false true) false
    [(notRunning s || s.ctl.olc.mode != .staged || s.ctl.olc.restage || s.ctl.olc.swapCmd.isSome, .notReady),
     (!switchOn s 3, .deniedSeal),
     (schedAnnounced s || debugAttached s, .notReady)]
    (fun s =>
      let w := if w = 0 then nextCarried s + 32 else w
      onOlc (fun o => { o with swapCmd := some (refOf c 0x0603) }) (writeOseq 1 w s)) s)

/-- OLC_CANCEL (R264): carried by a snapshot before W, or STALE. -/
def execOlcCancel (c : CmdHdr) (s : State) : Host.Outcome State Fault Refusal :=
  .next (cmdRun c 0x0604 (formOk c false false true) false
    [(s.ctl.olc.mode != .swapping || s.ctl.olc.cancelCmd.isSome, .notReady),
     (!scnBefore (nextCarried s) s.ctl.olc.w || s.ctl.olc.swapped, .stale)]
    (fun s => onOlc (fun o => { o with cancelCmd := some (refOf c 0x0604) }) (writeOseq 2 s.ctl.olc.w s)) s)

/-- OLC_DISCARD (R269, R433). -/
def execOlcDiscard (c : CmdHdr) (s : State) : Host.Outcome State Fault Refusal :=
  .next (cmdRun c 0x0605 (formOk c false false true) false [(s.ctl.olc.mode != .staged, .notReady)]
    (fun s => finish c 0x0605 .ok [] [] (olcIdle (olcRecord 9 0 0 (stagedCrc s) s))) s)

/-- The code of the online-change state: 0 IDLE, 1 STAGED, 2 SWAPPING. -/
def olcCode : OlcMode → Nat
  | .idle => 0
  | .staged => 1
  | .swapping => 2

/-- OLC_STATUS (R433). -/
def execOlcStatus (c : CmdHdr) (s : State) : Host.Outcome State Fault Refusal :=
  .next (cmdRun c 0x0606 (formOk c false false true) false []
    (fun s =>
      let o := s.ctl.olc
      let w := if o.mode = .swapping then o.w.toNat else 0
      let crc := if o.mode = .idle then 0 else (stagedCrc s).toNat
      finish c 0x0606 .ok (leBytes 4 (olcCode o.mode) ++ le4 w ++ le4 crc) [] s) s)

end Sys2Proof.Machine
end

