-- ==== Sys2Proof/Machine/Sched.lean ====
section
/-! DEFINITION. Schedules: the schedule in force, the announcement of a change, its decision and its boundary (R320, R325 to
R328). -/

namespace Sys2Proof.Machine

open Sys2Proof

/-- A schedule's entry for a port entry (R322): 128 entries a schedule. -/
def schedPort (s : State) (t : Nat) (c : Chan) (p : Nat) : SchedPort :=
  smGet SchedPort.zero s.data.cfg.sched (128 * t + portKey c p)

/-- The nodes whose acknowledgement schedule t requires (R328). -/
def requiredNodes (s : State) (t : Nat) : List Nat :=
  (List.range 64).filter (fun k => Chan.list.any (fun c => (portCfg s c k).use && (schedPort s t c k).req))

/-- The lane whose link state decides: the lowest that holds a seat. -/
def decidingLane (s : State) : Option Lane := (Seat.list.filter (fun k => SeatVotes ((voter s).seats.get k))).head?.bind (holder s)

/-- The node has acknowledged schedule t in an upframe that the lane accepted (R328). -/
def acknowledgedBy (s : State) (l : Lane) (t k : Nat) : Bool :=
  Chan.list.any (fun c => (smGet NodeLink.zero (s.ctl.lanes.get l).nodes (portKey c k)).ack == some t)

/-- The nodes whose acknowledgement a lane misses (R328). -/
def missingAt (s : State) (l : Lane) (t : Nat) : List Nat := (requiredNodes s t).filter (fun k => !acknowledgedBy s l t k)

/-- A lane's decision on the change that it holds: as decided, or as it would decide now (R328). -/
def laneConfirms (s : State) (l : Lane) : Bool :=
  match (s.ctl.lanes.get l).change with
  | some c => c.decided.getD (missingAt s l c.t).isEmpty
  | none => false

/-- The nodes whose acknowledgement is missing, as the lowest lane that holds a seat has it. -/
def missingNodes (s : State) (t : Nat) : List Nat :=
  match decidingLane s with
  | some l => missingAt s l t
  | none => requiredNodes s t

/-- A change is confirmed: as decided, or as two lanes that hold seats would decide now, in SINGLE the one (R328, R317). -/
def confirmedOf (s : State) (c : SchedChange) : Bool :=
  c.confirmed.getD (
    let ls := (Seat.list.filter (fun k => SeatVotes ((voter s).seats.get k))).filterMap (holder s)
    decide (min 2 ls.length ≤ (ls.filter (laneConfirms s)).length) && !ls.isEmpty)

/-- The boundary of a change: cycle a + 17 (R327). -/
def boundaryOf (a : Scn) : Scn := a + 17

/-- The schedule of a cycle where the change is confirmed or not (R327). -/
def schedIf (s : State) (ok : SchedChange → Bool) (m : Scn) : Nat :=
  match s.data.sched.change with
  | some c => match c.a with
    | some a => if ok c && !scnBefore m (boundaryOf a) then c.t else s.data.sched.inForce
    | none => s.data.sched.inForce
  | none => s.data.sched.inForce

/-- The schedule in force in a cycle (R327). -/
def schedAt (s : State) (m : Scn) : Nat := schedIf s (confirmedOf s) m

/-- The schedule in force in a cycle as a lane has it (R327, R328). -/
def schedOf (s : State) (l : Lane) (m : Scn) : Nat := schedIf s (fun _ => laneConfirms s l) m

/-- ANN_SCHED and ANN_CNT of a lane's record for a cycle (R327): a + 17 - m up to a + 15, then 1 where the lane has confirmed the change. -/
def annAt (s : State) (l : Lane) (m : Scn) : Nat × Nat :=
  match (s.ctl.lanes.get l).change with
  | some c =>
    let n := scnAhead m (boundaryOf c.a)
    if n = 1 then (if laneConfirms s l then (c.t, 1) else (0, 0))
    else if 2 ≤ n ∧ n ≤ 16 then (c.t, n)
    else (0, 0)
  | none => (0, 0)

/-- SCHEDULE: a change is confirmed or aborted (R447). -/
def schedEvent (t : Nat) (st : Status) (m : Scn) (s : State) : State :=
  raise 0x000A (byte t ++ byte st.code ++ le2 0 ++ le4 m.toNat) s

/-- A change is aborted: its command completes, and the missing nodes are recorded (R328, R476). -/
def schedAbort (c : SchedChange) (a : Scn) (s : State) : State :=
  let mask := (missingNodes s c.t).foldl (fun n k => n + 2 ^ k) 0
  let s := report .general 0x0509 0 (byte c.t) (leBytes 8 mask ++ le4 (boundaryOf a).toNat) s
  let s := schedEvent c.t .aborted (boundaryOf a) (finishRef c.cmd .aborted 0 [] [] s)
  changeEnds s

/-- A lane decides on the change that it holds (R328). -/
def laneDecides (s : State) (l : Lane) : State :=
  let d := laneConfirms s l
  onLane l (fun x => { x with change := x.change.map (fun c => { c with decided := some d }) }) s

/-- SCHED_CHANGE_DECISION (R328): in scan a + 15 every lane decides on the upframes that it latched in scans a + 2 to a + 15. -/
def execSchedChangeDecision (s : State) : Host.Outcome State Fault Refusal :=
  .next (match s.data.sched.change with
    | some c => match c.a with
      | some a =>
        if ctlRuns s && c.confirmed.isNone && decide (scn s = a + 15) then
          (if confirmedOf s c then
            schedEvent c.t .ok (boundaryOf a)
              (onSched (fun x => { x with change := some { c with confirmed := some true } }) (Lane.list.foldl laneDecides s))
           else schedAbort c a s)
        else s
      | none => s
    | none => s)

/-- SCHED_CHANGE_BOUNDARY (R327): at CI(a + 17) a confirmed schedule is in force. Its command completes once MGT reads the
snapshot of scan a + 17 (R328). -/
def execSchedChangeBoundary (s : State) : Host.Outcome State Fault Refusal :=
  .next (match s.data.sched.change with
    | some c => match c.a with
      | some a =>
        if c.confirmed = some true ∧ !scnBefore (BitVec.ofNat 32 s.clk.tb2) (boundaryOf a) then
          onSched (fun x => { x with inForce := c.t }) s
        else s
      | none => s
    | none => s)

end Sys2Proof.Machine
end

