-- ==== Sys2Proof/Machine/Latch.lean ====
section
/-! DEFINITION. The latch of a scan in one lane (R53 to R55, R79, R87, R119 to R123, R246, R276, R296, R561) and the lane's
values at a control-plane start (R130). -/

namespace Sys2Proof.Machine

open Sys2Proof

/-! ### Restrictive values -/

/-- The words of variables of a kind at a value chosen per declaration. -/
def kindWords (i : Image) (sel : VarDecl → Bool) (val : VarDecl → Nat) (m : SMap W64) : SMap W64 :=
  (i.vars.filter sel).foldl (fun m d => setVarBits d.width d.addr (val d) m) m

/-- The whole input image restrictive (R55, R130). -/
def restrInput (i : Image) : SMap W64 := kindWords i (fun d => d.kind = 1) (fun d => d.restr.toNat) []

/-- A map without the words of a range. -/
def dropWords (lo hi : Nat) (m : SMap W64) : SMap W64 := m.filter (fun p => decide (p.1 < lo) || decide (hi ≤ p.1))

/-- The words of `b` put over those of `a`. -/
def overlay (a b : SMap W64) : SMap W64 := b.foldl (fun m p => smSet 0#64 m p.1 p.2) a

/-! ### The input image (R55, R276, R284) -/

/-- The status bits of element `i` in a payload: bits [15:8] in byte 2i, [7:0] in byte 2i + 1 (R284, R286). -/
def elementBits (pl : List Byte) (i : Nat) : Nat :=
  256 * (pl.getD (2 * i) 0).toNat + (pl.getD (2 * i + 1) 0).toNat

/-- How many elements a node's port carries, and whether it is configured on a channel (R274). -/
def portN (s : State) (c : Chan) (k : Nat) : Nat := if (portCfg s c k).use then (portCfg s c k).n else 0

/-- The elements of a node whose bits differ between two payloads. -/
def differing (n : Nat) (a b : List Byte) : Nat :=
  ((List.range n).filter (fun i => elementBits a i ≠ elementBits b i)).length

/-- A node's elements merged into an input image that stands restrictive (R55). -/
def mergeNode (k n : Nat) (a b : Option (List Byte)) (m : SMap W64) : SMap W64 :=
  (List.range n).foldl (fun m i =>
    let at_ := 1024 * k + 16 * i
    let v := match a, b with
      | some pa, some pb =>
        let x := elementBits pa i
        let d := x ^^^ elementBits pb i
        some ((x &&& (0xFFFF ^^^ d)) ||| (varBits 16 at_ m &&& d))
      | some p, none => some (elementBits p i)
      | none, some p => some (elementBits p i)
      | none, none => none
    match v with
    | some x => setVarBits 16 at_ x m
    | none => m) m

/-- The payload of the upframe that a lane found valid in the cycle before; one of an older cycle is not used (R54, R55, R296). -/
def latched (s : State) (x : LaneState) (c : Chan) (k : Nat) : Option (List Byte) :=
  let n := smGet NodeLink.zero x.nodes (portKey c k)
  match n.got with
  | some _ => if n.gotAt + 1 = cycleNow s then some n.payload else none
  | none => none

/-- The nodes of which a lane has anything on a channel. -/
def nodesOf (s : State) (x : LaneState) : List Nat := (List.range 64).filter (fun k =>
  (latched s x .a k).isSome || (latched s x .b k).isSome)

/-- The input image of a scan (R55). -/
def inputImage (s : State) (i : Image) (x : LaneState) : SMap W64 :=
  (nodesOf s x).foldl (fun m k => mergeNode k (max (portN s .a k) (portN s .b k)) (latched s x .a k) (latched s x .b k) m) (restrInput i)

/-- INPUT_MERGE for every node whose two valid payloads differ (R55). -/
def mergeRecords (l : Lane) (s : State) : State :=
  let x := lane s l
  (nodesOf s x).foldl (fun s k => match latched s x .a k, latched s x .b k with
    | some a, some b =>
      let d := differing (max (portN s .a k) (portN s .b k)) a b
      if d = 0 then s else report .vital 0x0305 0 (byte k) (scnLe s ++ le2 d) s
    | _, _ => s) s

/-- Node channel status: validity of each channel in the cycle before (R119). -/
def nodeStatus (s : State) (x : LaneState) (m : SMap W64) : SMap W64 :=
  (List.range 64).foldl (fun m k =>
    let m := if (latched s x .a k).isSome then setVarBit (0x020200 + 2 * k) true m else m
    if (latched s x .b k).isSome then setVarBit (0x020200 + 2 * k + 1) true m else m) m

/-- The link state of a node on a channel after a latch: cycles missed, LAST lost after 2, the ECHO (R284, R296). -/
def linkLatched (cycle : Nat) (n : NodeLink) : NodeLink :=
  match n.got.filter (fun _ => decide (n.gotAt + 1 = cycle)) with
  | some u => { n with misses := 0, echo := u, valid := true, got := none }
  | none => { n with got := none, misses := n.misses + 1, last := if 2 ≤ n.misses + 1 then none else n.last, valid := false }

/-! ### Boundary images (R122, R123) -/

/-- The telegram that a lane accepted in the cycle before (R54, R123). -/
def boundaryGot (cycle : Nat) (b : LaneBoundary) : Option (List Byte) := b.got.filter (fun _ => decide (b.gotAt + 1 = cycle))

/-- A port's boundary state after a latch. AGE reaching 8 drops the sequence reference. -/
def boundaryLatched (cycle : Nat) (b : LaneBoundary) : LaneBoundary :=
  match boundaryGot cycle b with
  | some _ => { b with age := 0, got := none }
  | none =>
    let b := { b with got := none }
    let age := min 8 (b.age + 1)
    if age = 8 ∧ b.age ≠ 8 then { b with age := 8, last := none, candidate := none } else { b with age := age }

/-- Bytes as 64-bit words, byte 0 lowest (R122). -/
def byteWords (b : List Byte) : List W64 := (List.range ((b.length + 7) / 8)).map (fun j => BitVec.ofNat 64 (leAt b (8 * j) 8))

/-- The incoming image of a port at word address `base`, with VALID and AGE (R122, R123). At AGE 1 to 7 it is what the store held in the scan
before, bits that an input force had set there among them also after that force is cleared: the spec does not say whether `unchanged`
means the forced or the unforced image (DESIGN CHOICE, log entry 101). -/
def boundaryWords (cycle : Nat) (i : Image) (base : Nat) (b : LaneBoundary) (m : SMap W64) : SMap W64 :=
  let b' := boundaryLatched cycle b
  let img := match boundaryGot cycle b with
    | some p => overlay (dropWords base (base + 6) m) (((List.range 6).zip (byteWords (p.take 48))).map (fun w => (base + w.1, w.2)))
    | none =>
      if b'.age < 8 then m
      else kindWords i (fun d => d.kind = 6 ∧ 64 * base ≤ d.addr ∧ d.addr < 64 * (base + 6)) (fun d => d.restr.toNat)
        (dropWords base (base + 6) m)
  smSet 0#64 img (base + 6) (BitVec.ofNat 64 (b2n (decide (b'.age < 8)) + 2 * b'.age))

/-! ### System variables (R120, R121) -/

/-- Both stars' domains run. -/
def bothStars (s : State) : Bool := domRun s 3 && domRun s 4

/-- Whole hours left of the diversity allowance, 0xFFFF while the flag is 0 (R120, R175). -/
def diversityHours (s : State) : Nat :=
  if (voter s).diversity.lost then diversityLeft s / 65536 else 0xFFFF

/-- OLC_FIRST (R120). -/
def olcFirst (s : State) : Bool := s.ctl.olc.swapped && decide (s.ctl.olc.w = scn s)

/-- The words of the system variables from 0x02_0100 on (R120). -/
def sysWords (s : State) : SMap W64 :=
  let w0 := b2n (voter s).firstScan + 2 * b2n (silentRun s) + 4 * b2n (olcFirst s) + 8 * b2n s.mgt.start.service +
    16 * b2n s.ctl.force.active + 32 * b2n (voter s).diversity.lost + 64 * b2n (belayReady s) + 128 * b2n (!bothStars s) +
    2 ^ 8 * ((voter s).votingSeats % 4) + 2 ^ 16 * s.mgt.start.restartCause + 2 ^ 32 * (scn s).toNat
  let w1 := schedAt s (scn s) + 2 ^ 16 * diversityHours s
  smSet 0#64 (smSet 0#64 [] 2052 (BitVec.ofNat 64 w0)) 2053 (BitVec.ofNat 64 w1)

/-! ### State words for the debugger (R150, R561) -/

/-- The first state word of a debug space (R446). -/
def spaceBase : Nat → Nat
  | 0 => 0
  | 2 => 0x24400
  | _ => 0x10000

/-- A word of the supervisor's memory: its data region, then the lane-local region (R152, R446; log entry 12). -/
def supervisorWord (x : LaneState) (i : Nat) : W64 := if i < regionSize then smGet 0#64 (regionWords x) i else smGet 0#64 x.core.supMem i

/-- A word of the supervisor's memory replaced. -/
def putSupervisorWord (i : Nat) (v : W64) (x : LaneState) : LaneState :=
  if i < regionSize then withRegion (smSet 0#64 (regionWords x) i v) x
  else { x with core := { x.core with supMem := smSet 0#64 x.core.supMem i v } }

/-- One byte of a lane's state as a debugger addresses it: a space and a byte address (R446, log entry 12). -/
def debugByte (x : LaneState) (space a : Nat) : Byte :=
  match space with
  | 1 => match x.core.active with
    | some i => BitVec.ofNat 8 (field (smGet 0#32 i.code (a / 4)).toNat (8 * (a % 4)) 8)
    | none => 0
  | 4 => BitVec.ofNat 8 (field (supervisorWord x (a / 8)).toNat (8 * (a % 8)) 8)
  | _ => BitVec.ofNat 8 (field (stateWord x.core (spaceBase space + a / 8)).toNat (8 * (a % 8)) 8)

/-- A byte put into a 64-bit word. -/
def putByte64 (w : W64) (k : Nat) (b : Byte) : W64 :=
  (w &&& ~~~(BitVec.ofNat 64 (0xFF * 2 ^ (8 * k)))) ||| BitVec.ofNat 64 (b.toNat * 2 ^ (8 * k))

/-- One byte of a lane's state written by a debugger. -/
def debugPut (space a : Nat) (b : Byte) (x : LaneState) : LaneState :=
  match space with
  | 1 => match x.core.active with
    | some i =>
      let w := smGet 0#32 i.code (a / 4)
      let m := BitVec.ofNat 32 (0xFF * 2 ^ (8 * (a % 4)))
      let code := smSet 0#32 i.code (a / 4) ((w &&& ~~~m) ||| BitVec.ofNat 32 (b.toNat * 2 ^ (8 * (a % 4))))
      { x with core := { x.core with active := some { i with code := code } } }
    | none => x
  | 4 => putSupervisorWord (a / 8) (putByte64 (supervisorWord x (a / 8)) (a % 8) b) x
  | _ =>
    let i := spaceBase space + a / 8
    { x with core := setStateWord i (putByte64 (stateWord x.core i) (a % 8) b) x.core }

/-- Bytes written from an address on. -/
def debugPutAll (space : Nat) : Nat → List Byte → LaneState → LaneState
  | _, [], x => x
  | a, b :: r, x => debugPutAll space (a + 1) r (debugPut space a b x)

/-- The debug-write piece that this release carries to a lane, if any: to the lane it was meant for alone, or to every lane that latches
(R561). -/
def applyPiece (s : State) (l : Lane) (x : LaneState) : LaneState :=
  match s.ctl.dbg.pieces with
  | p :: _ => if p.only = none ∨ p.only = some l then debugPutAll p.space p.addr p.bytes x else x
  | [] => x

/-! ### The latch and the start of the engines -/

/-- An engine at the barrier release (R79): its first segment, after `cost` cycles. -/
def engineStart (i : Image) (e cost : Nat) : Engine :=
  match (segList i e).head? with
  | some (start, _) => ⟨.running, false, 0, 0, start, 0, none, cost⟩
  | none => { Engine.zero with cycles := cost }

/-- All 32 engines at the barrier release. -/
def startEngines (i : Image) (cost : Nat) (c : LaneCore) : LaneCore :=
  { c with engines := (engineIds.map (fun e => (e, engineStart i e cost))).filter (fun p => decide (p.2 ≠ Engine.zero)), writes := [],
           phase := .evaluating }

/-- The variable store after the latch, before input forces (R53, R87). -/
def latchVars (s : State) (i : Image) (take : Bool) (x : LaneState) : SMap W64 :=
  let m := dropWords 2048 2050 (dropWords 2052 2058 (dropWords 0 1024 x.core.vars))
  let m := overlay m (inputImage s i x)
  let m := smSet 0#64 (smSet 0#64 m 2048 s.ctl.vio.capture.1) 2049 s.ctl.vio.capture.2
  let m := nodeStatus s x (overlay m (sysWords s))
  let m := boundaryWords (cycleNow s) i 2144 x.bnd1 (boundaryWords (cycleNow s) i 2112 x.bnd0 m)
  if take then overlay (dropWords 2176 2688 m) s.ctl.adm.snapshot else m

/-- A lane of the vote owes a withdrawal that has not reached both halves: it stays stopped until it has sent it (R146). -/
def owesWithdrawal (s : State) (l : Lane) (x : LaneState) : Bool :=
  x.commit.withdraw.isSome && !(x.commit.withdrawnTo.x && x.commit.withdrawnTo.y) &&
  (match (voter s).laneVote.get l with | .seated | .resync | .verify | .starting => true | _ => false)

/-- The latch of scan n in a lane, and its engines started `cost` cycles into the scan. -/
def latchLane (s : State) (cost : Nat) (l : Lane) (x : LaneState) : LaneState :=
  match x.core.active with
  | none => x
  | some i =>
    if owesWithdrawal s l x then x else
    let take := !s.ctl.adm.discard && s.ctl.adm.laneOk.get l
    let vars := inputForces i x.forces (latchVars s i take x)
    let nodes := (List.range 128).foldl (fun m k =>
      if (smGet PortCfg.zero s.data.cfg.ports k).use then
        smSet NodeLink.zero m k (linkLatched (cycleNow s) (smGet NodeLink.zero m k)) else m) x.nodes
    let x := applyPiece s l { x with
      core := { x.core with vars := vars },
      nodes := nodes, bnd0 := boundaryLatched (cycleNow s) x.bnd0, bnd1 := boundaryLatched (cycleNow s) x.bnd1,
      commit := { x.commit with pos := ⟨0, 0⟩, withdraw := none, withdrawnTo := ⟨false, false⟩, renewBad := false } }
    { x with core := startEngines (x.core.active.getD i) cost x.core }

/-! ### A lane at a control-plane start (R98, R101, R102, R130) -/

/-- A variable of an incoming boundary image, not of its VALID or AGE (R122). -/
def incomingDecl (d : VarDecl) : Bool :=
  d.kind = 6 && ((decide (64 * 2112 ≤ d.addr) && decide (d.addr < 64 * 2118)) || (decide (64 * 2144 ≤ d.addr) && decide (d.addr < 64 * 2150)))

/-- Variable space before the first latch: of the incoming boundary images AGE is 8 and VALID 0 (R130). -/
def startVars (i : Image) : SMap W64 :=
  let m := kindWords i (fun d => d.kind = 7 ∨ d.kind = 9) (fun d => d.init.toNat)
    (kindWords i (fun d => d.kind = 1 || incomingDecl d) (fun d => d.restr.toNat) [])
  smSet 0#64 (smSet 0#64 m 2118 16#64) 2150 16#64

/-- A lane loaded with an image for a control-plane start; its health report counts from here (R428). -/
def loadLane (i : Image) (fw : W32) : LaneState :=
  let edges := i.edges.foldl (fun m d => if d.prev0 then setVarBit d.index true m else m) []
  let counters := i.counters.foldl (fun m d => smSet CounterState.zero m d.index ⟨BitVec.ofNat 32 d.rv, false, false⟩) []
  { LaneState.zero with
    core := { LaneCore.zero with vars := startVars i, edges := edges, counters := counters, active := some i,
                                 phase := .idle, fwVer := fw } }

end Sys2Proof.Machine
end

