-- ==== Sys2Proof/Machine/Release.lean ====
section
/-! DEFINITION. The barrier release (R56): the first release of a start (R228, R230), the silent scans and their comparator
test (R177 to R180), leases renewed, revoked and granted (R181 to R188), planned transfers (R200 to R210), the requests that
the scan's snapshot carries, and the latch of every lane that runs. -/

namespace Sys2Proof.Machine

open Sys2Proof

/-! ### The first release of a start (R180, R228, R230) -/

/-- Every half holds a debounced state for every pole it reads, and the loop has been measured (R227 to R229). -/
def bankRead (s : State) : Bool :=
  [1, 2, 3, 4, 5, 6, 7, 8].all (fun i => (poleOn s .x i).isSome && (poleOn s .y i).isSome) && decide (s.ctl.vio.loop ≠ 3)

/-- SEAL record of a kind (R228, R230, R476). -/
def sealRecord (kind : Nat) (s : State) : State := report .vital 0x0304 0 (byte kind ++ le4 (sealWord s).toNat) [] s

/-- The switch bank judged afresh: SEAL_FAULT, and S1 and S8 for the run (R228). -/
def judgeBank (s : State) : State :=
  let differ := [1, 2, 3, 4, 5, 6, 7, 8].any (fun i => decide (poleOn s .x i ≠ poleOn s .y i))
  let was := s.ctl.seals.fault
  let s := onSeal (fun q => { q with fault := differ, diffSince := [], judged := true }) s
  let s := if differ && !was then sealRecord 1 s else s
  let s := onSeal (fun q => { q with s1AtStart := switchOn s 1, s8AtStart := switchOn s 8 }) s
  onStart (fun x => { x with service := !switchOn s 1 }) s

/-- Why the start is refused by its switches, loop or variant (R5, R228, R230, R500). -/
def bankRefusal (s : State) : Option Status :=
  judge [(s.variant == .e && s.mgt.start.service, .deniedMode),
         (s.mgt.start.service && (s.ctl.seals.s8AtStart || decide (s.ctl.vio.loop ≠ 0)), .deniedSeal)]

/-- A lane that can stand for a seat: in RUN, loaded, not excluded, with 32 engines, and inside its limits (R40, R61, R180). -/
def eligibleLane (s : State) (l : Lane) : Bool :=
  (fitted s.variant).contains l && domRun s (laneDom l) && (lane s l).core.active.isSome && !s.ctl.rot.excluded.get l &&
  decide (enginesUsed s l ≤ 2) && !islandOut s (.lane l)

/-- The candidates: home lanes, and on F lane D in place of a home lane that is none (R180). Where two are none the spec does not say which
seat D stands for: the lowest (DESIGN CHOICE, log entry 100). -/
def candidates (s : State) : Tri (Option Lane) :=
  let home := fun (k : Seat) => if (seatsOf s.variant).contains k && eligibleLane s (homeLane k) then some (homeLane k) else none
  let missing := (seatsOf s.variant).find? (fun k => (home k).isNone)
  let spare := if s.variant = .f ∧ eligibleLane s .d then missing else none
  let pick := fun k => match home k with
    | some l => some l
    | none => if spare = some k then some .d else none
  ⟨pick .s1, pick .s2, pick .s3⟩

/-- Vote states at a control-plane start (R171). -/
def startVotes (s : State) (c : Tri (Option Lane)) : Quad LaneVote :=
  let f := fun l =>
    if !domRun s (laneDom l) then LaneVote.absent
    else if c.s1 = some l ∨ c.s2 = some l ∨ c.s3 = some l then .starting
    else if s.ctl.rot.excluded.get l then .failed else .belay
  ⟨f .a, f .b, f .c, f .d⟩

/-- The bank is judged, the stored forces that survive act (R252), and the silent scans begin with their candidates; a refusal ends
the attempt. -/
def firstRelease (s : State) : State :=
  let s := judgeBank s
  match bankRefusal s with
  | some st => startFail st s
  | none =>
    let s := match runImage s with
      | some i => storedSurvive i s.mgt.start.service s
      | none => s
    let c := candidates s
    onVoter (fun v => { v with released := true, firstScan := true, laneVote := startVotes s c,
                               test := { StartTest.zero with cands := c } }) s

/-! ### The comparator test (R177, R178) -/

/-- The candidates in lane order, each with its seat. -/
def candList (c : Tri (Option Lane)) : List (Seat × Lane) :=
  Lane.list.filterMap (fun l => (Seat.list.find? (fun k => c.get k = some l)).map (fun k => (k, l)))

/-- The first candidate of a polarity, else candidate 1. -/
def candOf (cs : List (Seat × Lane)) (compl : Bool) : Option Seat :=
  match cs.find? (fun p => p.2.complemented == compl) with
  | some p => some p.1
  | none => cs.head?.map (·.1)

/-- The injection of silent scan `k` (R177). The bit position moves by one with every scan and every start attempt, so that successive starts
cover all 64; the record held back follows the same counter (DESIGN CHOICE, log entry 13). -/
def injectionOf (s : State) (k : Nat) (c : Tri (Option Lane)) : Option Injection :=
  let cs := candList c
  let n := s.mgt.start.attempts
  let of := fun (h : Half) (kind : InjectKind) (q : Option Seat) =>
    q.map (fun k' => (⟨h, k', kind, (n + k) % 64, n % 1024, none, none⟩ : Injection))
  let nth := fun (j : Nat) => (cs.drop j).head?.map (·.1)
  match k with
  | 2 => of .x .outputs (nth 0)
  | 3 => of .x .outputs (nth 1)
  | 4 => of .x .outputs (nth 2)
  | 5 => of .y .outputs (nth 0)
  | 6 => of .y .outputs (nth 1)
  | 7 => of .y .outputs (nth 2)
  | 8 => of .x .held (candOf cs true)
  | 9 => of .y .held (candOf cs false)
  | 10 => of .x .digest (candOf cs false)
  | 11 => of .y .digest (candOf cs true)
  | _ => none

/-- The words that an injection has reached; none before it is whole. -/
def injectedWords (i : Injection) : List Nat :=
  match i.kind, i.one, i.zero with
  | .held, _, _ => [i.word]
  | .outputs, some a, some b => [a.1, b.1]
  | .digest, none, none => []
  | .digest, _, _ => [1025]
  | _, _, _ => []

/-- The injecting half judged its target odd, or late, for exactly the injected words, and the other half judged no difference there (R177). -/
def injectionSeen (s : State) : Bool :=
  let t := (voter s).test
  match t.injection with
  | none => true
  | some i =>
    let ws := injectedWords i
    !ws.isEmpty && ws.all (fun w => (t.detected.get i.half).contains (i.target.num, w)) &&
    (t.detected.get i.half).all (fun p => decide (p.1 = i.target.num) && ws.contains p.2) &&
    ws.all (fun w => decide ((wordOf s i.half.other w).judged.get i.target = .agreeing))

/-- COMPARATOR_TEST for a missed detection (R178, R476). -/
def comparatorRecord (s : State) : State :=
  match (voter s).test.injection with
  | none => s
  | some i => report .vital 0x0207 (voterSource i.half i.target.num)
      (byte (match i.half with | .x => 0 | .y => 1) ++ byte (laneByte ((voter s).test.cands.get i.target)) ++
        byte (voter s).test.silent ++ byte i.pos) [] s

/-- Every trip-class channel reads VALUE = 1 and DISCREPANT = 0 among the values captured at the last cycle instant (R217, R232). -/
def tripClassClear (s : State) : Bool :=
  s.ctl.vio.vinCfg.all (fun p =>
    let w := if p.1 < 16 then s.ctl.vio.capture.1 else s.ctl.vio.capture.2
    !p.2.trip || p.2.use < 2 || (w.getLsbD (4 * (p.1 % 16)) && !w.getLsbD (4 * (p.1 % 16) + 3)))

/-- The supply and the islands of R232 do not hold the silent scans. -/
def holdsClear (s : State) : Bool :=
  !s.ctl.trip.supplyLow && !islandOut s .x && !islandOut s .y && !islandOut s .vio

/-- The sixteen silent scans are complete and nothing holds them (R178, R232). -/
def silentDone (s : State) : Bool :=
  decide (16 ≤ (voter s).test.silent) && decide (16 ≤ (voter s).test.tripClassRun) && holdsClear s

/-- The candidates that are eligible for their seats (R178). -/
def eligible (t : StartTest) : List (Seat × Lane) := (candList t.cands).filter (fun p => !t.ineligible.get p.1)

/-! ### Grants (R181, R185, R188) -/

/-- The next lease ID (R181). -/
def nextLeaseId (n : BitVec 16) : BitVec 16 := if n = 0xFFFF#16 then 1 else n + 1

/-- A lease on a seat is granted to a lane at the release of scan n: half X takes its ID from its counter, and half Y, which checks the
allocation, from its own (R181, R182). A change of the seat's lane firmware version invalidates the cairn (R194). -/
def grantSeat (k : Seat) (l : Lane) (s : State) : State :=
  let id := (voter s).nextLease
  let n := scn s
  let old := holder s k
  let out := if old = some l then none else old
  let fw := (lane s l).core.fwVer
  let same := ((voter s).seats.get k).fw.getD fw = fw
  let s := seatChange k 1 out (some l) (match out with | some _ => leaseIdOf s k | none => 0) id.x s
  let g := fun (i : BitVec 16) => some (⟨l, i, n, n + 4, false, false⟩ : Lease)
  let s := onVoter (fun v => { v with nextLease := ⟨nextLeaseId id.x, nextLeaseId id.y⟩, cairn := if same then v.cairn else none }) (setVote l .seated s)
  let s := onLane l (fun x => { x with commit := { x.commit with leaseSeat := some k, leaseId := id.x, leaseExpiry := n + 4 } }) s
  onSeat k (fun x => { x with mode := .held, lease := ⟨g id.x, g id.y⟩, openFor := none, openScans := 0, verifying := false, fw := some fw }) s

/-- The lease records of a seat differ between the halves (R156, R181). -/
def leasesDiffer (s : State) : Bool := Seat.list.any (fun k => decide (((voter s).seats.get k).lease.x ≠ ((voter s).seats.get k).lease.y))

/-- The last holder's lease on a seat has run out, or was the same lane's (R185). -/
def leaseOver (s : State) (k : Seat) (l : Lane) : Bool :=
  match ((voter s).seats.get k).lease.x with
  | none => true
  | some g => decide (g.holder = l) || g.ended || !scnBefore (scn s) g.expiry

/-- One polarity is missing among lanes (R174). -/
def lacksPolarity (ls : List Lane) : Bool := !(ls.any (fun l => l.complemented) && ls.any (fun l => !l.complemented))

/-- The silent scans end: seats granted, or the start fails (R176, R178, R180). -/
def endSilent (s : State) : State :=
  let el := eligible (voter s).test
  if el.length < 2 then startFail .notReady s
  else if lacksPolarity (el.map (·.2)) && decide ((voter s).diversity.remain = 0) then startFail .notReady s
  else
    let s := (candList (voter s).test.cands).foldl (fun s p => if el.contains p then s else setVote p.2 .vacated s) s
    let s := el.foldl (fun s p => grantSeat p.1 p.2 s) s
    let s := onVoter (fun v => { v with votedRun := true, test := { v.test with injection := none } }) s
    onStart (fun x => { x with firstVoted := scn s, runSince := some s.clk.tick }) s

/-- A release while silent scans run: the scan before is judged, then the next begins or the seats are granted. -/
def silentRelease (s : State) : State :=
  let t := (voter s).test
  if !injectionSeen s then startFail .notReady (comparatorRecord s)
  else
    let run := if t.silent = 0 then 0 else if t.clear then t.tripClassRun + 1 else 0
    let s := onVoter (fun v => { v with test := { v.test with tripClassRun := run } }) s
    if silentDone s then endSilent s
    else
      let s := if 16 ≤ t.silent then onStart (fun x => { x with held := x.held + Config.tscanTicks s.tscan }) s else s
      let k := t.silent + 1
      onVoter (fun v => { v with test := { v.test with silent := k, injection := injectionOf s k v.test.cands,
                                                       detected := ⟨[], []⟩, clear := tripClassClear s } }) s

/-! ### Comparison of a shadow with the voted words (R168, R200, R204) -/

/-- Every record of a lane without a seat, in the scan before, equalled the voted value in both halves. -/
def shadowEqual (s : State) (l : Lane) : Bool :=
  [Half.x, Half.y].all (fun h =>
    let q := halfOf s h
    !q.shadowOdd.get l && decide (lastWord (voter s).now.scn < q.due.get l) &&
    q.shadow.all (fun p =>
      decide (p.1 / 2048 ≠ l.idx) || (decide (p.1 % 2048 = 1026) && mixedFirmware s) ||
      decide ((smGet WordVote.zero q.words (p.1 % 2048)).voted = some p.2)))

/-- A lane's ready word as a half has it, in good order: the lane's lease ID and RENEW = 1 (R182). -/
def readyGood (s : State) (l : Lane) (id : BitVec 16) : Bool :=
  [Half.x, Half.y].all (fun h => match ((voter s).ready.get h).get l with
    | some r => decide (r.leaseId = id) && r.renew
    | none => false)

/-- A lane without a seat has sent a ready word with RENEW = 1 to both halves (R169, R182). -/
def readyShadow (s : State) (l : Lane) : Bool :=
  [Half.x, Half.y].all (fun h => match ((voter s).ready.get h).get l with | some r => r.renew | none => false)

/-! ### What a release does to the seats -/

/-- A star's report of a lane: odd by value at the next barrier release (R294, R317). -/
def starReports (s : State) : State :=
  let judgeOne := fun (s : State) (p : Lane × Nat) => match seatOf s p.1 with
    | none => s
    | some k =>
      let before := laneCfg s
      let s := onLane p.1 (fun x => { x with health := { x.health with oddValue := x.health.oddValue + 1 } }) s
      let s := leaveOdd k p.1 s
      laneJudged p.1 k.num (if p.2 < 0x580 then 6 else 7) 0 p.2 before (laneCfg s) 0 0 s
  let s := (s.data.aux.a.odd ++ s.data.aux.b.odd).foldl judgeOne s
  onAux .a (fun a => { a with odd := [] }) (onAux .b (fun a => { a with odd := [] }) s)

/-- Resynchronisation of the lane that a seat is held open for, one idle part further: the failures of R169 at a release, the start of the
verification scan, and its result (R168). -/
def openSeat (s : State) (k : Seat) : State :=
  let x := (voter s).seats.get k
  match x.mode, x.openFor with
  | .opened, some l =>
    if s.ctl.dbg.halted = some l then s
    else
      let fail := fun (code : Nat) s => seatVacated k (resyncFail k l code (if code = 5 then scn s else scn s - 1) s)
      if (lane s l).commit.withdraw.isSome then fail 3 s
      else if x.verifying && !shadowEqual s l then fail 2 s
      else if islandOut s (.lane l) || !readyShadow s l then fail 5 s
      else if x.verifying then
        let s := onLane l (fun y => { y with health := { y.health with resyncDone := y.health.resyncDone + 1 } }) s
        let s := if s.ctl.dbg.lockstep then onDbg (fun d => { d with lockstep := false }) s else s
        let s := if s.ctl.rot.active = some l then rotationEnds l .ok s else s
        grantSeat k l s
      else if (voter s).laneVote.get l = .verify then onSeat k (fun y => { y with verifying := true }) s
      else if 3 ≤ x.openScans then fail 1 s
      else onSeat k (fun y => { y with openScans := y.openScans + 1 }) s
  | _, _ => s

/-- Every record of the seat in the scan before was accepted and agreed with the voted value, in both halves; between lanes of different
firmware versions the supervisor digest is not voted (R182, R208). -/
def recordsAgreed (s : State) (k : Seat) : Bool :=
  [Half.x, Half.y].all (fun h => (List.range (lastWord (voter s).now.scn + 1)).all (fun w =>
    (decide (w = 1026) && mixedFirmware s) || decide ((wordOf s h w).judged.get k = .agreeing)))

/-- The holder of a seat stands well at this release (R182). -/
def goodStanding (s : State) (k : Seat) (l : Lane) : Bool :=
  recordsAgreed s k && readyGood s l (leaseIdOf s k) && !islandOut s (.lane l) && decide ((voter s).laneVote.get l ≠ .failed) &&
  domRun s (laneDom l)

/-- The seat's lease is granted at this release. -/
def grantedNow (s : State) (k : Seat) : Bool :=
  match ((voter s).seats.get k).lease.x with
  | some g => decide (g.grant = scn s)
  | none => false

/-- A holder without good standing loses its lease at this release, and the seat falls vacant (R183, R186). -/
def standing (s : State) (k : Seat) : State :=
  if SeatVotes ((voter s).seats.get k) && !grantedNow s k then
    match holder s k with
    | none => s
    | some l => if goodStanding s k l then s else seatVacated k (setVote l .vacated (revokeSeat k .vacant none s))
  else s

/-- The halt that the debugger asked for (R562, R563): in DUAL a planned revocation of the attached lane; in SINGLE the only
seat lane stops and the module trips without CTRL_RESET. -/
def debugHalt (s : State) : State :=
  match s.ctl.dbg.haltCmd, s.ctl.dbg.attached with
  | some c, some l =>
    let s := onDbg (fun d => { d with haltCmd := none }) s
    if votingCount s ≤ 1 then
      let s := finishRef c .ok 0 (scnLe s) [] s
      trip 0x0F false (onDbg (fun d => { d with trippedByHalt := true, halted := (Seat.list.find? (fun k => SeatVotes ((voter s).seats.get k))).bind (holder s) }) s)
    else
      match seatOf s l with
      | none => finishRef c .notReady 0 [] [] s
      | some k =>
        let s := seatChange k 10 (some l) none (leaseIdOf s k) 0 s
        let s := onLane l (fun x => { x with core := { x.core with phase := .stopped }, commit := { x.commit with leaseSeat := none } }) s
        let s := onSeat k (fun x => { revoked x with mode := .opened, openFor := some l, openScans := 0, verifying := false }) s
        let s := setVote l .vacated s
        finishRef c .ok 0 (scnLe s) [] (onDbg (fun d => { d with halted := some l, lockstep := true }) s)
  | _, _ => s

/-- The first cairn boundary at or after a scan (R190, R204). -/
def cairnFrom (n : Scn) : Scn := n + BitVec.ofNat 32 ((64 - n.toNat % 64) % 64)

/-- Every seat of the variant is HELD, but for one. -/
def othersHeld (s : State) (k : Seat) : Bool :=
  (seatsOf s.variant).all (fun j => decide (j = k) || ((voter s).seats.get j).mode == .held)

/-- The condition row that defers a planned transfer; none where it may proceed (R209). -/
def deferral (s : State) : Option Nat :=
  if (seatsOf s.variant).any (fun k => !(SeatVotes ((voter s).seats.get k))) then some 1
  else if !belayReady s then some 2
  else if s.ctl.olc.mode != .idle then some 3
  else if schedAnnounced s then some 4
  else if (voter s).diversity.lost then some 5
  else if debugAttached s then some 6
  else if shutdownRequested s then some 7
  else none

/-- A planned transfer is complete: the former holder's lease runs out unrenewed, the incoming lane takes the seat, and the former holder
goes on without one (R186, R188, R204, R206). -/
def completeHandover (k : Seat) (j : Join) (s : State) : State :=
  let out := holder s k
  let idOut := leaseIdOf s k
  let s := grantSeat k j.lane (seatChange k 3 out none idOut 0 s)
  let s := seatChange k 5 out (some j.lane) idOut (leaseIdOf s k) s
  let s := onVoter (fun v => { v with join := none }) s
  match out with
  | none => s
  | some o =>
    let s := captureSourceLost o s
    let s := onCore o (fun c => { c with phase := .stopped }) (onLane o (fun x => { x with commit := { x.commit with leaseSeat := none } }) s)
    match j.why with
    | .rotation => onRot (fun r => { r with active := some o, testing := true }) (setVote o .vacated s)
    | _ => setVote o .belay (if s.ctl.rot.active = some j.lane then rotationEnds j.lane .ok s else s)

/-- A lease of a seat that does not vote runs out at the release of its expiry (R181, R188). -/
def leaseExpired (s : State) (k : Seat) : Bool :=
  let x := (voter s).seats.get k
  match x.lease.x with
  | some g => (g.revoked || !(SeatVotes x)) && !g.ended && !scnBefore (scn s) g.expiry
  | none => false

/-- The record of an expiry without renewal (R188). -/
def leaseEnds (k : Seat) (s : State) : State :=
  if leaseExpired s k then
    let gone := fun (g : Lease) => { g with revoked := true, ended := true }
    onSeat k (fun x => { x with lease := ⟨x.lease.x.map gone, x.lease.y.map gone⟩ }) (seatChange k 3 (holder s k) none (leaseIdOf s k) 0 s)
  else s

/-- The lane joins the barrier: one whose supervisor blocks the rope does not carry has the force table from half X first (R200, R249). -/
def joinBarrier (j : Join) (s : State) : State :=
  let s := match copySource s j.lane with
    | some src => if (lane s src).core.fwVer = (lane s j.lane).core.fwVer then s else giveForces j.lane s
    | none => s
  onVoter (fun v => { v with join := some { j with step := .catchUp } }) s

/-- The step of a takeover, handback or rotation at a release (R200 to R206). A shadow scan of a planned transfer that differs before HANDOVER,
for which the spec names no outcome, is followed by another catch-up (DESIGN CHOICE, log entry 107). -/
def joinStep (s : State) : State :=
  match (voter s).join with
  | none => s
  | some j =>
    let go := fun (st : JoinStep) (s : State) => onVoter (fun v => { v with join := some { j with step := st } }) s
    match j.step with
    | .loading => if (voter s).cairn.isSome then s else joinBarrier j (onLane j.lane clearedLane s)
    | .waitRelease => joinBarrier j s
    | .catchUp => s
    | .copied => go .compare s
    | .compare =>
      if !shadowEqual s j.lane then
        (match j.why with
         | .takeover => abandonJoin 0 s
         | _ => go .catchUp (onRot (fun r => { r with fwFails := r.fwFails + 1 }) s))
      else match j.why with
        | .takeover =>
          if leaseOver s j.seat j.lane then
            let s := onVoter (fun v => { v with join := none }) (grantSeat j.seat j.lane (leaseEnds j.seat s))
            seatChange j.seat 8 none (some j.lane) 0 (leaseIdOf s j.seat) s
          else s
        | _ =>
          if (deferral s).isSome then s
          else
            let c := cairnFrom (scn s + 4)
            let s := seatChange j.seat 4 (holder s j.seat) (some j.lane) (leaseIdOf s j.seat) 0 s
            go (.handover c) (onSeat j.seat (fun x => { x with mode := .handover }) s)
    | .handover c =>
      if !scnBefore (scn s) c then
        (if shadowEqual s j.lane then completeHandover j.seat j s
         else
           let s := seatChange j.seat 3 (holder s j.seat) none (leaseIdOf s j.seat) 0 s
           let s := match holder s j.seat with | some o => setVote o .vacated (captureSourceLost o s) | none => s
           let s := onVoter (fun v => { v with join := none }) (onSeat j.seat (fun x => { revoked x with mode := .vacant }) s)
           seatVacated j.seat s)
      else if !othersHeld s j.seat || (s.ctl.olc.mode == .swapping && !scnBefore c s.ctl.olc.w) || !shadowEqual s j.lane then
        abandonJoin 0 s
      else s

/-- The rows of R209 but for the belay lane, which T does not have (R210). -/
def deferralT (s : State) : Bool :=
  (seatsOf s.variant).any (fun k => !(SeatVotes ((voter s).seats.get k))) || s.ctl.olc.mode != .idle ||
  schedAnnounced s || (voter s).diversity.lost || debugAttached s || shutdownRequested s

/-- On T a lane firmware activation releases one home lane at a time, and two seats vote 2oo2 (R210). -/
def releaseHome (s : State) : State :=
  if s.ctl.rot.active.isSome || deferralT s then s
  else match s.ctl.rot.queue with
    | l :: rest => match (seatsOf s.variant).find? (fun k => holder s k = some l) with
      | some k =>
        let s := setVote l .vacated (revokeSeat k .vacant none s)
        let s := onCore l (fun c => { c with phase := .stopped }) s
        onRot (fun q => { q with queue := rest, active := some l, testing := true }) s
      | none => onRot (fun q => { q with queue := rest }) s
    | [] => s

/-- Rotations wait on F until the belay lane runs the firmware of the activation (R208). -/
def belayReloaded (s : State) (l : Lane) : Bool := !s.ctl.rot.forFirmware || decide ((lane s l).core.fwVer = (curSet s).lane)

/-- An activation or a rollback that rotates no lanes itself holds every other rotation off (R556). -/
def updateHolds (s : State) : Bool :=
  (match s.mgt.upd.mode with | .activating | .rollback => true | _ => false) && !s.ctl.rot.forFirmware

/-- A planned transfer starts where one is due and nothing defers it: a handback first, then the rotation at the head of the
queue (R204, R206, R209). A due rotation of a lane that does not hold its own seat, of which the spec says nothing, is passed over without a
record (DESIGN CHOICE, log entry 108). -/
def startPlanned (s : State) : State :=
  if s.variant = .t ∧ s.ctl.rot.forFirmware then releaseHome s
  else if (voter s).join.isSome || s.ctl.rot.testing then s
  else if (deferral s).isSome then
    onRot (fun q => if q.queue.isEmpty then q else { q with deferred := some (q.deferred.getD (tb3Tick s)) }) s
  else match (voter s).belay with
    | none => s
    | some (r, _) =>
      let begin_ := fun (k : Seat) (why : JoinFor) (s : State) =>
        onVoter (fun v => { v with join := some ⟨r.lane, k, why, .loading, v.scn, 0⟩ }) s
      match (seatsOf s.variant).find? (fun k => homeLane k = r.lane ∧ holder s k ≠ some r.lane) with
        | some k => begin_ k .handback s
        | none => match s.ctl.rot.queue with
          | l :: rest => match (seatsOf s.variant).find? (fun k => homeLane k = l ∧ holder s k = some l) with
            | some k => if belayReloaded s r.lane && !updateHolds s then
                begin_ k .rotation (onRot (fun q => { q with queue := rest, active := some l, deferred := none }) s) else s
            | none => onRot (fun q => { q with queue := rest, deferred := none }) s
          | [] => s

/-- Vacant seats are taken over while the belay lane is available (R200, R202). -/
def retryTakeover (s : State) : State :=
  (seatsOf s.variant).foldl (fun s k => if ((voter s).seats.get k).mode = .vacant then startTakeover k s else s) s

/-- Renewal at the release of scan n: E := n + 4 for every holder in good standing, but in the last scans before a handover
boundary; each lane has the notice (R182, R184). -/
def renew (s : State) (k : Seat) : State :=
  let x := (voter s).seats.get k
  let n := scn s
  let late := match (voter s).join with
    | some j => (match j.step with | .handover c => decide (j.seat = k) && !(scnBefore (n + 4) c || decide (n + 4 = c)) | _ => false)
    | none => false
  if SeatVotes x && !late then
    let s := match holder s k with
      | some l => onLane l (fun y => { y with commit := { y.commit with leaseExpiry := n + 4 } }) s
      | none => s
    onSeat k (fun x => { x with lease := ⟨x.lease.x.map (fun g => { g with expiry := n + 4 }), x.lease.y.map (fun g => { g with expiry := n + 4 })⟩ }) s
  else s

/-- A lane stops marking records at the release of its own E without a renewal (R184). -/
def ownFence (n : Scn) (x : LaneState) : LaneState :=
  match x.commit.leaseSeat with
  | some _ => if scnBefore n x.commit.leaseExpiry then x else { x with commit := { x.commit with leaseSeat := none } }
  | none => x

/-- Polarity diversity of the voting seats at a release: the scans that have lacked a polarity, and the flag cleared in the
first scan in which both vote (R174 to R176). -/
def diversityStep (s : State) : State :=
  let ls := (Seat.list.filter (fun k => SeatVotes ((voter s).seats.get k))).filterMap (holder s)
  let d := (voter s).diversity
  if lacksPolarity ls then onVoter (fun v => { v with diversity := { d with lackRun := d.lackRun + 1, both := none } }) s
  else
    let s := if d.lost then bookDiversity (report .vital 0x0206 (voterSource .x 0) (byte 2) (le2 (diversityHours s) ++ scnLe s) s) else s
    onVoter (fun v => { v with diversity := { v.diversity with lackRun := 0, lost := false, both := some (d.both.getD (tb3Tick s)) } }) s

/-- A release while the control plane votes: the revocations come first, and fewer voting seats than the run needs after them trip the module
(R183, R187); then seats are taken back and granted. -/
def votedRelease (s : State) : State :=
  let s := if cairnScan (scn s) && (voter s).capture.isSome then cairnAbandon 4 s else s
  let s := debugHalt (Seat.list.foldl standing (starReports s))
  if s.ctl.trip.inForce then s
  else if tooFewSeats s then tripSeats s
  else
    let s := retryTakeover (joinStep (Seat.list.foldl openSeat s))
    if s.ctl.trip.inForce then s else diversityStep (startPlanned (Seat.list.foldl renew s))

/-! ### Requests of the scan -/

/-- The release carries an accepted schedule change to a lane that takes the release (R326, R327). -/
def changeReaches (s : State) (l : Lane) : State :=
  match s.data.sched.change with
  | some c => if c.a = some (scn s) && runs s l then onLane l (fun x => { x with change := some ⟨c.t, scn s, none⟩ }) s else s
  | none => s

/-- The force slots and the online-change field of the snapshot are acted on, and an accepted schedule change goes out with
the first release it can reach (R253, R255, R326). -/
def requests (s : State) : State :=
  let s := oseqAct (forceLatch s)
  Lane.list.foldl changeReaches
    (onSched (fun x => { x with change := x.change.map (fun c => { c with a := some (c.a.getD (scn s)) }) }) s)

/-! ### The launch of the scan -/

/-- Half states at the start of a scan: nothing received yet. -/
def freshHalf : HalfVote := HalfVote.zero

/-- INPUT_MERGE is reported as the first lane that runs finds it (R55). -/
def mergeNoted (runners : List Lane) (s : State) : State :=
  match runners with
  | l :: _ => mergeRecords l s
  | [] => s

/-- The seats whose records took part in the vote of the scan that ends (R120). -/
def tookPart (s : State) : Nat :=
  (Seat.list.filter (fun k => (halfOf s .x).words.any (fun p => (p.2.vals.get k).present))).length

/-- The lanes latch and start their engines. -/
def latchAll (cost : Nat) (runners : List Lane) (s : State) : State :=
  runners.foldl (fun s l => onLane l (latchLane s cost l) s) s

/-- The debug piece of this release reaches a halted lane, which does not latch (R16, R562). -/
def haltedPiece (s : State) : State :=
  match s.ctl.dbg.halted with
  | some l => if runs s l then s else onLane l (applyPiece s l) s
  | none => s

/-- The debug write whose last piece this release takes completes (R561). -/
def pieceDone (s : State) : State :=
  match s.ctl.dbg.pieces.head?.bind (·.last) with
  | some c => finishRef c .ok 0 (scnLe s) [] s
  | none => s

/-- The attached lane as it stands before the release (R561). -/
def noteBefore (s : State) : State :=
  onDbg (fun d => { d with before := match d.attached with | some l => lane s l | none => LaneState.zero }) s

/-- Every lane that runs latches and starts its engines; the votes of the scan before become the last scan's. -/
def launch (s : State) : State :=
  let s := noteBefore s
  let runners := Lane.list.filter (runs s)
  let cost := if olcFirst s then swapCost s.ctl.olc.map else 0
  let slots := tookPart s
  let s := pieceDone (haltedPiece (onLanes (ownFence (scn s)) (latchAll cost runners (mergeNoted runners s))))
  let s := onDbg (fun d => { d with pieces := d.pieces.tail, lastScn := scn s }) s
  let s := onAdm (fun a => { a with taken := false, discard := false, laneOk := Quad.all true, cut := none }) s
  onVoter (fun v => { v with halves := ⟨freshHalf, freshHalf⟩, ready := Halves.all (Quad.all none), firstScan := false,
                             votingSeats := slots, slots := ⟨slotLane s .s1, slotLane s .s2, slotLane s .s3⟩, copyEnd := Quad.all none, last := v.now, now := ⟨v.scn, [], ⟨[], []⟩, [], silentRun s⟩ }) s

/-- A release is due: the voter runs, no trip is in force, voter half X has passed a cycle instant since the last, and VIO has captured
its inputs at that instant (R51, R52); the first of a start waits for the switch bank, the loop and the hold-up store (R227, R229, R573). -/
def releaseDue (s : State) : Bool :=
  (voter s).running && !s.ctl.trip.inForce && decide (BitVec.ofNat 32 (cycleNow s) ≠ scn s) && decide (s.ctl.followers.vio.cycle = cycleNow s) &&
  ((voter s).released || (bankRead s && s.mgt.start.storeCharged))

/-- The release of the next scan. -/
def releaseScan (s : State) : State :=
  let n := BitVec.ofNat 32 s.ctl.followers.x.cycle
  let s := swapBoundary (if (voter s).released then s else firstRelease s)
  if !(voter s).running then s
  else
    let s := onVoter (fun v => { v with scn := n }) s
    let s := if s.ctl.force.out.x ≠ s.ctl.force.out.y ∨ leasesDiffer s = true then tripXY s else s
    if s.ctl.trip.inForce then s
    else
      let s := if silentRun s then silentRelease s else votedRelease s
      if (voter s).running && !s.ctl.trip.inForce then launch (requests s) else s

/-- BARRIER_RELEASE (R56): at CI(n) the voter releases the barrier. -/
def execBarrierRelease (s : State) : Host.Outcome State Fault Refusal :=
  .next (if releaseDue s then releaseScan s else s)

end Sys2Proof.Machine
end

