-- ==== Sys2Proof/Machine/Belay.lean ====
section
/-! DEFINITION. Resynchronisation, cairns, the belay lane and its takeovers, ready words and lease expiry, in-service BIST
intervals and the diversity allowance (R165 to R176, R182 to R210). -/

namespace Sys2Proof.Machine

open Sys2Proof

/-! ### Leases and ready words -/

/-- LEASE_EXPIRY (R182). -/
def execLeaseExpiry (k : Seat) (s : State) : Host.Outcome State Fault Refusal :=
  .next (if ctlRuns s then leaseEnds k s else s)

/-- The ready word that a lane sends: its lease ID, RENEW unless a check has failed since its last record, and the HDR_CRC of the checked image in
its shadow code bank, 0 with none (R182). -/
def ownReady (x : LaneState) : ReadyWord :=
  ⟨ownLease x, !x.commit.renewBad, match x.core.shadow with | some i => i.hdrCrc | none => 0⟩

/-- The lane's commit and its idle-part transfers are done (R182). -/
def readyDue (s : State) (l : Lane) : Bool :=
  decide ((lane s l).core.phase = .idle) && (match (voter s).copyEnd.get l with | some t => decide (t ≤ s.clk.tick) | none => true)

/-- A half has a lane's ready word. A lane taking over that sends RENEW = 0 abandons the takeover (R202). -/
def takeReady (h : Half) (l : Lane) (r : ReadyWord) (s : State) : State :=
  let s := onVoter (fun v => { v with ready := v.ready.set h ((v.ready.get h).set l (some r)) }) s
  match (voter s).join with
  | some j => if j.lane = l ∧ j.why = .takeover ∧ !r.renew then abandonJoin 0 s else s
  | none => s

/-- READY_WORD (R182): a ready word counts for a half that has it by 50 ticks before the next cycle instant. -/
def execReadyWord (h : Half) (l : Lane) (r : ReadySrc) (s : State) : Host.Outcome State Fault Refusal :=
  .next (if voting s && domRun s (laneDom l) && decide (s.clk.tick + 50 ≤ nextCi s h) then
    match r with
    | .asSent => if readyDue s l then takeReady h l (ownReady (lane s l)) s else s
    | .given id renew crc => takeReady h l ⟨id, renew, crc⟩ s
  else s)

/-! ### Resynchronisation and catch-up (R165 to R168, R200) -/

/-- The rope carries 4 GB/s on each path: 160 bytes a tick (R167, R195). -/
def ropeTicks (bytes : Nat) : Nat := ceilDiv bytes 160

/-- Blocks that fit on a path before 2 us short of the next cycle instant, once 4,256 bytes of digests have passed (R167). -/
def blocksThatFit (s : State) : Nat := (nextCi s .x - 50 - s.clk.tick - ropeTicks 4256) * 160 / 4096

/-- The lane's idle parts copy state into it: it is being resynchronised, or catches up to join (R167, R200). -/
def copying (s : State) (l : Lane) : Bool :=
  (voter s).laneVote.get l == .resync ||
  (match (voter s).join with | some j => decide (j.lane = l) && decide (j.step = .catchUp) | none => false)

/-- The idle part has begun for a lane: it has completed its commit (R56, R167 step 1). -/
def committed (s : State) (l : Lane) : Bool := decide ((lane s l).core.phase = .idle)

/-- A lane of another firmware version that starts to be resynchronised has the force table from half X (R208, R249). -/
def firstShadow (src l : Lane) (s : State) : State :=
  if (lane s src).core.fwVer = (lane s l).core.fwVer then s else giveForces l s

/-- One idle part of a copy: the differing blocks, by their digests, that fit into it, in block order; whether all of them did (R167, R168). -/
def idleCopy (src l : Lane) (s : State) : State × Bool :=
  let bs := differingBlocks (lane s src) (lane s l)
  let now := bs.take (blocksThatFit s)
  let end_ := s.clk.tick + ropeTicks (4256 + 4096 * now.length)
  (onVoter (fun v => { v with copyEnd := v.copyEnd.set l (some end_) }) (onLane l (copyBlocks now (lane s src)) s), decide (now.length = bs.length))

/-- RESYNC_IDLE_PART (R167): one idle part of a copy, once a scan; it is complete where every differing block found has been sent in it (R168). -/
def execResyncIdlePart (l : Lane) (s : State) : Host.Outcome State Fault Refusal :=
  .next (match copySource s l with
    | none => s
    | some src =>
      if voting s && copying s l && committed s src && committed s l && ((voter s).copyEnd.get l).isNone &&
          decide (s.clk.tick + ropeTicks 4256 + 50 ≤ nextCi s .x) then
        let r := idleCopy src l (firstShadow src l s)
        let s := r.1
        if !r.2 then s
        else if (voter s).laneVote.get l = .resync then setVote l .verify s
        else onVoter (fun v => { v with join := v.join.map (fun j => { j with step := .copied }) }) s
      else s)

/-! ### Cairns (R190 to R194) -/

/-- The blocks as they entered the store, words of them altered on the way (block, word of the block, value). -/
def enteredBlocks (c : Capture) (altered : List (Nat × Nat × W64)) : LaneState :=
  (altered.filter (fun p => c.blocks.contains p.1)).foldl (fun x p => putBlockWord p.1 p.2.1 p.2.2 x) c.snapshot

/-- Half Y's check of every block that entered: it has the digest announced for it (R191, R193). -/
def enteredOk (c : Capture) (x : LaneState) : Bool :=
  let d := blockDigests x
  c.blocks.all (fun b => decide (smGet 0#64 d b = smGet 0#64 c.digests b))

/-- The cairn of a capture: the blocks sent over those of the latest valid cairn (R192). -/
def newCairn (c : Capture) (x : LaneState) (old : Option Cairn) : Cairn :=
  let base := match old with | some k => k.image | none => clearedLane x
  ⟨c.scn, copyBlocks c.blocks x { base with core := { base.core with fwVer := x.core.fwVer } }, c.digests⟩

/-- CAIRN_CAPTURE_DONE (R193): the rope has carried the last block. Every check passes and the capture becomes the latest valid cairn, or it is
abandoned. -/
def execCairnCaptureDone (altered : List (Nat × Nat × W64)) (s : State) : Host.Outcome State Fault Refusal :=
  .next (match (voter s).capture with
    | none => s
    | some c =>
      if c.sent < 4096 * c.blocks.length then s
      else if c.failed ≠ 0 then cairnAbandon c.failed s
      else
        let x := enteredBlocks c altered
        if enteredOk c x then onVoter (fun v => { v with cairn := some (newCairn c x v.cairn), capture := none }) s
        else cairnAbandon 3 s)

/-- The bytes of a cairn that a lane loads: its 532 blocks, or those of state words between different firmware versions (R190, R208). -/
def loadBytes (c : Cairn) (x : LaneState) : Nat := 4096 * sharedBlocks c.image.core x.core

/-- CAIRN_LOAD_DONE (R200): the joining lane holds the latest valid cairn and joins at the next release. -/
def execCairnLoadDone (s : State) : Host.Outcome State Fault Refusal :=
  .next (match (voter s).join, (voter s).cairn with
    | some j, some c =>
      if ctlRuns s && decide (j.step = .loading) && decide (loadBytes c (lane s j.lane) ≤ j.sent) then
        onVoter (fun v => { v with join := some { j with step := .waitRelease } }) (onLane j.lane (copyLane c.image) s)
      else s
    | _, _ => s)

/-- TAKEOVER_DEADLINE (R202): the copy is not complete by the idle part of scan v + 13, which has passed. -/
def execTakeoverDeadline (s : State) : Host.Outcome State Fault Refusal :=
  .next (match (voter s).join with
    | some j =>
      let short := match j.step with | .loading | .waitRelease | .catchUp => true | _ => false
      let past := decide (13 < scnAhead j.start (scn s)) ||
        (decide (scnAhead j.start (scn s) = 13) && decide (nextCi s .x ≤ s.clk.tick + 50))
      if ctlRuns s && decide (j.why = .takeover) && short && past then abandonJoin 0 s else s
    | none => s)

/-! ### The belay lane (R196 to R199) -/

/-- The belay health report (R198). -/
def belayBytes (r : BelayReport) : List Byte :=
  withCrc (le4 r.seq.toNat ++ byte r.lane.idx ++ byte r.state ++ le2 r.causes.toNat ++ le4 r.lbistRuns.toNat ++ le4 r.mbistRuns.toNat ++
    leBytes 8 r.misr.toNat ++ le2 r.rowsUsed.toNat ++ byte r.colsUsed.toNat ++ byte r.enginesUsed.toNat ++ le4 r.corrected.toNat ++
    le4 r.imageVer.toNat ++ le4 r.imageHdrCrc.toNat ++ le4 r.fwVer.toNat ++ le2 r.dieTemp.toNat ++ le2 r.clkDev.toNat ++
    leBytes 6 r.upt.toNat ++ List.replicate 6 0)

/-- A report from its bytes: none where its length, lane or CRC is not right (R198, R199). -/
def parseBelay (b : List Byte) : Option BelayReport :=
  if b.length ≠ 64 ∨ crc32c (b.take 60) ≠ leAt b 0x3C 4 then none
  else match Lane.ofIdx (leAt b 4 1) with
    | none => none
    | some l =>
      let w := fun (n o k : Nat) => BitVec.ofNat n (leAt b o k)
      some ⟨w 32 0 4, l, leAt b 5 1, w 16 6 2, w 32 8 4, w 32 0x0C 4, w 64 0x10 8, w 16 0x18 2, w 8 0x1A 1, w 8 0x1B 1, w 32 0x1C 4,
            w 32 0x20 4, w 32 0x24 4, w 32 0x28 4, w 16 0x2C 2, w 16 0x2E 2, w 48 0x30 6⟩

/-- The lane's firmware is that of no seat, and not the one that the activation in progress gives every lane (R198, R208; DEDUCED, log entry
109). -/
def firmwareDiffers (s : State) (l : Lane) : Bool :=
  let fw := (lane s l).core.fwVer
  !(Seat.list.filterMap (holder s)).any (fun m => decide ((lane s m).core.fwVer = fw)) &&
  !(s.ctl.rot.forFirmware && decide (fw = (curSet s).lane))

/-- The cause bits of a report (R198). -/
def belayCauses (s : State) (l : Lane) : BitVec 16 :=
  let b := (lane s l).selfTest
  BitVec.ofNat 16 (b2n b.lbistFail + 2 * b2n b.mbistFail + 4 * b2n (decide ((lane s l).core.active ≠ runImage s)) +
    8 * b2n (firmwareDiffers s l) + 16 * b2n (islandOut s (.lane l)) + 32 * b2n (decide ((voter s).laneVote.get l = .failed)))

/-- STATE of a report: TAKEOVER while the lane takes over a seat, AVAILABLE only while every cause bit is 0 (R199, R200). -/
def belayStateNow (s : State) (l : Lane) (causes : BitVec 16) : Nat :=
  match (voter s).join with
  | some j => if j.lane = l ∧ j.why = .takeover then 2 else b2n (decide (causes ≠ 0))
  | none => b2n (decide (causes ≠ 0))

/-- The report that a lane composes (R198): what it holds, with the readings of its die temperature and of its clock. The first report since
its domain left reset is number 1 (DESIGN CHOICE, log entry 109). -/
def composeReport (s : State) (l : Lane) (temp clk : BitVec 16) : BelayReport :=
  let x := lane s l
  let t := x.selfTest
  let rs := repairsOf s l.idx
  let causes := belayCauses s l
  let id := match x.core.active with | some i => (i.imageVer, i.hdrCrc) | none => (0, 0)
  ⟨t.seq + 1, l, belayStateNow s l causes, causes, t.lbistRuns, t.mbistRuns, t.misr, BitVec.ofNat 16 (rs.filter isRow).length,
   BitVec.ofNat 8 (rs.filter isCol).length, BitVec.ofNat 8 (rs.filter isEngine).length, t.corrected, id.1, id.2, x.core.fwVer, temp, clk, BitVec.ofNat 48 (upt s)⟩

/-- A lane reports once every second of TB1 while it holds no seat (R196, R198). -/
def reportDue (s : State) (l : Lane) : Bool :=
  decide (s.variant = .f) && (seatOf s l).isNone && domRun s (laneDom l) &&
  (match (lane s l).selfTest.sentAt with | some t => decide (t + 25000000 ≤ s.clk.tick) | none => true)

/-- A report reaches the voter halves and MGT; a limit in it abandons the lane's takeover (R202). -/
def takeReport (r : BelayReport) (s : State) : State :=
  let s := onVoter (fun v => { v with belay := some (r, s.clk.tick) }) s
  let s := onBist (fun b => { b with belayReport := if domRun s 1 then some r else b.belayReport }) s
  let s := onLane r.lane (fun x => { x with health := { x.health with corrected := r.corrected.toNat } }) s
  match (voter s).join with
  | some j => if j.lane = r.lane ∧ j.why = .takeover ∧ r.causes.getLsbD 4 then abandonJoin 0 s else s
  | none => s

/-- BELAY_HEALTH_REPORT (R198): the lane's own report, or its bytes as received; one with a bad CRC counts as not received (R199). -/
def execBelayHealthReport (l : Lane) (temp clk : BitVec 16) (given : Option (List Byte)) (s : State) : Host.Outcome State Fault Refusal :=
  .next (if reportDue s l then
    let r := composeReport s l temp clk
    let got := match given with | none => some r | some b => parseBelay b
    let s := onLane l (fun x => { x with selfTest := { x.selfTest with seq := x.selfTest.seq + 1, sentAt := some s.clk.tick } }) s
    match got with
    | some r => if r.lane = l then takeReport r s else s
    | none => s
  else s)

/-- BELAY_REPORT_STALE (R199): 2.5 s have passed without a report; no belay lane is available. -/
def execBelayReportStale (s : State) : Host.Outcome State Fault Refusal :=
  .next (match (voter s).belay with
    | some (_, at_) => if at_ + 62500000 < s.clk.tick then onVoter (fun v => { v with belay := none }) s else s
    | none => s)

/-- A rotation has been deferred for more than one BIST interval (R209). -/
def longDeferred (s : State) : Bool :=
  let r := s.ctl.rot
  match r.deferred with
  | some t => !r.queue.isEmpty && decide (t + r.intervalHours * Config.hourTicks < tb3Tick s)
  | none => false

/-- BIST_INTERVAL_EXPIRY (R207, R209, R556): one rotation for each of lanes A, B and C, after an activation's own rotations; a rotation deferred for more than an interval is reported. -/
def execBistIntervalExpiry (s : State) : Host.Outcome State Fault Refusal :=
  .next (
    let r := s.ctl.rot
    if s.variant = .f ∧ mgtUp s ∧ r.intervalHours ≠ 0 ∧ r.lastAt + r.intervalHours * Config.hourTicks ≤ tb3Tick s then
      let s := match longDeferred s, deferral s with
        | true, some row => report .general 0x020D 0 (byte row) [] s
        | _, _ => s
      let add := fun (x : List Lane) => x ++ [Lane.a, .b, .c].filter (fun l => !x.contains l)
      onRot (fun q => if q.forFirmware then { q with lastAt := tb3Tick s, waiting := add q.waiting }
                      else { q with lastAt := tb3Tick s, queue := add q.queue }) s
    else s)

/-! ### The diversity allowance (R174 to R176) -/

/-- DIVERSITY of a kind: 1 set, 2 cleared, 3 expired (R476). -/
def diversityRecord (kind : Nat) (s : State) : State :=
  report .vital 0x0206 (voterSource .x 0) (byte kind) (le2 (diversityHours s) ++ scnLe s) s

/-- The allowance has reached zero while DIVERSITY_LOST is set: the module trips without CTRL_RESET (R176). -/
def diversityExpiry (s : State) : State :=
  if ctlRuns s && (voter s).diversity.lost && decide (diversityLeft s = 0) then
    trip 0x0F false (bookDiversity (diversityRecord 3 s))
  else s

/-- DIVERSITY_LOST_SET (R174): 64 consecutive scans have lacked a polarity. -/
def execDiversityLostSet (s : State) : Host.Outcome State Fault Refusal :=
  .next (
    let d := (voter s).diversity
    if ctlRuns s && !d.lost && decide (64 ≤ d.lackRun) then
      let s := onVoter (fun v => { v with diversity := { v.diversity with lost := true, since := tb3Tick s } }) s
      diversityExpiry (diversityRecord 1 s)
    else s)

/-- DIVERSITY_ALLOWANCE_EXPIRY (R176). -/
def execDiversityAllowanceExpiry (s : State) : Host.Outcome State Fault Refusal :=
  .next (diversityExpiry s)

/-- DIVERSITY_ALLOWANCE_RESTORE (R175): both polarities have voted for 24 consecutive operating hours. -/
def execDiversityAllowanceRestore (s : State) : Host.Outcome State Fault Refusal :=
  .next (
    let d := (voter s).diversity
    match d.both with
    | some t =>
      if ctlRuns s && !d.lost && decide (t + 24 * Config.hourTicks ≤ tb3Tick s) then
        onVoter (fun v => { v with diversity := { v.diversity with remain := 65536 * d.hours } }) s
      else s
    | none => s)

end Sys2Proof.Machine
end

