-- ==== Sys2Proof/Machine/Wire.lean ====
section
/-! DEFINITION. Frames on the wire: the IEEE 802.3 frame with its addresses and FCS (R280, R281), and the fields that a receiver reads from one
(R284, R286, R287). -/

namespace Sys2Proof.Machine

open Sys2Proof

/-! ### The MAC frame (R280) -/

/-- The FCS of the bytes before it, in the bit order of IEEE 802.3: its least significant byte first (PRESUMED, log entry 114). -/
def fcsBytes (b : List Byte) : List Byte := leBytes 4 (fcs32 b)

/-- DA, SA, the length of the client data, the client data, the pad up to 64 bytes, and FCS. -/
def macFrame (da sa data : List Byte) : List Byte :=
  let b := da ++ sa ++ beBytes 2 data.length ++ data ++ List.replicate (46 - data.length) 0
  b ++ fcsBytes b

/-- The same frame ended with an FCS that cannot match (R234, R352). -/
def spoiled (b : List Byte) : List Byte := b.take (b.length - 4) ++ (b.drop (b.length - 4)).map (fun x => ~~~x)

/-- The FCS of a frame as received is correct. -/
def fcsCorrect (b : List Byte) : Bool := decide (18 ≤ b.length) && decide (b.drop (b.length - 4) = fcsBytes (b.take (b.length - 4)))

def frameDa (b : List Byte) : List Byte := slice b 0 6
def frameSa (b : List Byte) : List Byte := slice b 6 6

/-- LEN of a frame as received. -/
def frameLen (b : List Byte) : Nat := ofBe (slice b 12 2)

/-- A byte of the Kelronyx header, which starts at frame offset 14. -/
def hdrByte (b : List Byte) (i : Nat) : Nat := (b.getD (14 + i) 0).toNat

/-- A big-endian field of the Kelronyx header. -/
def hdrField (b : List Byte) (i n : Nat) : Nat := ofBe (slice b (14 + i) n)

/-- The payload of a Kelronyx frame: LEN less header and VCODE. -/
def framePayload (b : List Byte) : List Byte := slice b 30 (frameLen b - 20)

/-- VCODE as received. -/
def frameCode (b : List Byte) : Nat := ofBe (slice b (10 + frameLen b) 4)

/-- The bytes from DA to VCODE (R295). -/
def passedBytes (b : List Byte) : List Byte := b.take (14 + frameLen b)

/-- Wire time of a frame in ns, preamble and SFD included (R279, R323). -/
def wireNs (len : Nat) : Nat := 800 * (8 + len)

/-- The snoop points of a star: frames received and frames sent (R453). -/
def rxPoint (ch : Chan) : Nat := 14 + 2 * ch.idx
def txPoint (ch : Chan) : Nat := 15 + 2 * ch.idx

/-! ### Addresses (R281) -/

/-- An address: first octet, CC, PP and RR. -/
def kAddr (first : Nat) (ch : Chan) (pp rr : Nat) : List Byte :=
  byte first ++ byte 0x4B ++ byte 0x58 ++ byte (0x0A + ch.idx) ++ byte pp ++ byte rr

/-- The module side of a star's port. -/
def starAddr (ch : Chan) (k : Nat) : List Byte := kAddr 2 ch k 0

/-- Node k on a channel. -/
def nodeAddr (ch : Chan) (k : Nat) : List Byte := kAddr 2 ch k 1

/-- A lane's sync engine. -/
def laneAddr (ch : Chan) (l : Lane) : List Byte := kAddr 2 ch 0xFF (0x10 + l.idx)

/-- The cold-start group of a channel. -/
def coldGroup (ch : Chan) : List Byte := kAddr 3 ch 0xFF 0xFF

/-! ### Downframes (R284) -/

/-- Header bytes 0x00 to 0x09 of a downframe (R284). -/
def downHeader (ver : Nat) (restr force : Bool) (sched : Nat) (c : Chan) (node : Nat) (echo : Byte) (m : Scn) (linkId : BitVec 16) :
    List Byte :=
  byte (16 * ver + 1) ++ byte (128 * b2n restr + 64 * b2n force + sched % 8) ++ byte (128 * c.idx + node) ++ [echo] ++ beBytes 4 m.toNat ++
  beBytes 2 linkId.toNat

/-- RESTR of a downframe. -/
def DownFrame.restr (f : DownFrame) : Bool := decide (128 ≤ (f.hdr.getD 1 0).toNat)

/-- The client data of a downframe: header, payload and VCODE. -/
def downData (f : DownFrame) : List Byte :=
  f.hdr ++ beBytes 2 f.dly.toNat ++ beBytes 2 f.txc.toNat ++ byte (32 * f.annSched + f.annCnt) ++ byte (32 * f.cpIdx + 16 * b2n f.reint) ++
  f.payload ++ beBytes 4 f.vcode.toNat

/-- A downframe on the wire of a port. -/
def downBytes (ch : Chan) (p : Nat) (f : DownFrame) : List Byte :=
  let b := macFrame (nodeAddr ch p) (starAddr ch p) (downData f)
  if f.aborted then spoiled b else b

/-- A downframe is still on the wire: it started, and its last byte has not left (R279). -/
def inTransmission (now : Nat) (f : DownFrame) : Bool :=
  !f.aborted && decide (40 * now < 40 * f.start + wireNs (max 64 (18 + (downData f).length)))

/-- The downframes in transmission are ended with an FCS that cannot match (R234, R352). -/
def abortDown (now : Nat) (m : SMap DownFrame) : SMap DownFrame :=
  m.map (fun p => (p.1, if inTransmission now p.2 then { p.2 with aborted := true } else p.2))

/-! ### Upframes and cold-start frames (R286, R287) -/

/-- An upframe of a node: its 16 header bytes, its payload and the VCODE of its channel over both (R286, R289). -/
def upFrame (ch : Chan) (k : Nat) (hdr payload : List Byte) : List Byte :=
  macFrame (starAddr ch k) (nodeAddr ch k) (hdr ++ payload ++ beBytes 4 (vitalCode ch (hdr ++ payload)))

/-- The header of an upframe (R286). -/
def upHeader (ver : Nat) (first : Bool) (ack : Option Nat) (nrestr nfault : Bool) (ch : Chan) (k : Nat) (useq : Byte) (cycle : W32)
    (linkId : BitVec 16) (echo : Byte) (turn : Nat) : List Byte :=
  byte (16 * ver + 2) ++ byte (128 * b2n first + 64 * b2n ack.isSome + 32 * b2n nrestr + 16 * b2n nfault + ack.getD 0 % 8) ++
  byte (128 * ch.idx + k) ++ [useq] ++ beBytes 4 cycle.toNat ++ beBytes 2 linkId.toNat ++ [echo] ++ byte 0 ++ beBytes 4 turn

/-- A lane's cold-start frame: 64 bytes (R287, R311). -/
def coldFrame (ch : Chan) (l : Lane) (cseq : Byte) (cycle : W32) (linkId : BitVec 16) (tscan sched : Nat) : List Byte :=
  let hdr := byte 0x23 ++ byte l.idx ++ byte (128 * ch.idx) ++ [cseq] ++ beBytes 4 cycle.toNat ++ beBytes 2 linkId.toNat ++ byte tscan ++
    byte (sched % 8) ++ List.replicate 4 0
  macFrame (coldGroup ch) (laneAddr ch l) (hdr ++ beBytes 4 (vitalCode ch hdr))

end Sys2Proof.Machine
end

