-- ==== Sys2Proof/Machine/Blocks.lean ====
section
/-! DEFINITION. The stored configuration blocks: their fields and the checks of their owning chapters (R211, R212, R274, R275,
R322 to R324, R376, R548). Reserved fields are ignored (R9). -/

namespace Sys2Proof.Machine

open Sys2Proof

/-- T_scan in nanoseconds by its code. -/
def codeNs (t : Nat) : Nat := 1000 * Config.tscanUs t

/-- The blocks that carry a format, as Config numbers them: VIO, network, link configuration, schedule. -/
def vioBlk : Nat := 1
def netBlk : Nat := 2
def linkBlk : Nat := 3
def schedBlk : Nat := 4

/-- A block of the station-data store. -/
def storedBlock (s : State) (blk : Nat) : List Byte :=
  let st := s.mgt.store
  if blk = vioBlk then st.vioBlock else if blk = netBlk then st.netBlock else if blk = linkBlk then st.linkBlock else st.schedBlock

/-- The migration chain, step by step (R548); none where a step fails. -/
def migrateFrom (fw : W32) (blk : Nat) : Nat → List Byte → Option (List Byte)
  | 0, b => some b
  | n + 1, b => (Config.migrateStep fw blk (leAt b 0 2) b).bind (migrateFrom fw blk n)

/-- A block in the current format of a firmware version, where it is older (R548); none where a step of the migration fails. -/
def migrated (fw : W32) (blk : Nat) (b : List Byte) : Option (List Byte) :=
  if !b.isEmpty && decide (leAt b 0 2 < Config.fmtCur fw blk) then migrateFrom fw blk (Config.fmtCur fw blk - leAt b 0 2) b else some b

/-- MGT runs from a set that the host has loaded (R494). -/
def hostBoot (s : State) : Bool := match s.power.bootCfg with | some k => decide (4 ≤ k) && decide (k < 8) | none => false

/-- A block as MGT hands it to its consumers: on HOST migrated in its working memory, the stored block unchanged (R550). -/
def blockInUse (s : State) (blk : Nat) : List Byte :=
  let b := storedBlock s blk
  if hostBoot s && decide (Config.fmtMin s.mgt.upd.active.mgt blk ≤ leAt b 0 2) then (migrated s.mgt.upd.active.mgt blk b).getD [] else b

/-- The FMT_VER of a block lies in the range that the MGT firmware accepts (R548). -/
def fmtOk (s : State) (blk : Nat) (b : List Byte) : Bool :=
  let v := leAt b 0 2
  decide (Config.fmtMin s.mgt.upd.active.mgt blk ≤ v) && decide (v ≤ Config.fmtCur s.mgt.upd.active.mgt blk)

/-- LEN and CRC of a block of `n` bytes: LEN gives its length, the CRC its last word. -/
def blockSound (n : Nat) (b : List Byte) : Bool :=
  decide (b.length = n) && decide (leAt b 2 2 = n) && decide (leAt b (n - 4) 4 = crc32c (b.take (n - 4)))

/-! ### VIO (R211, R212) -/

def vinEntry (b : List Byte) (c : Nat) : VinCfg :=
  let x := leAt b (8 + 4 * c) 1
  ⟨field x 6 2, bitN x 5, field x 0 3, leAt b (8 + 4 * c + 2) 2⟩
def voutEntry (b : List Byte) (k : Nat) : VoutCfg :=
  let x := leAt b (0x88 + 2 * k) 2
  ⟨bitN x 15, field x 0 10⟩

def vinEntryOk (v : VinCfg) : Bool :=
  (!v.trip || decide (2 ≤ v.use)) &&
  (if 2 ≤ v.use then decide (1 ≤ v.discMs) && decide (v.discMs ≤ 1000) else decide (v.discMs = 0))

/-- The field checks of a VIO block. -/
def vioBlockOk (b : List Byte) : Bool :=
  blockSound 172 b && (List.range 32).all (fun c => vinEntryOk (vinEntry b c)) &&
  (List.range 16).all (fun k => decide ((voutEntry b k).loadNom ≤ 500))

/-! ### The evaluation of a VIN channel (R215, R216) -/

/-- A contact's filtered state as evaluations take it: one in FAULT is in its restrictive state (R215). -/
def contactRead (use : Nat) (isB : Bool) (x : Contact) : Bool := if x.fault then isB && decide (use = 3) else x.closed

/-- A contact is in its permissive state (R216). -/
def permissive (use : Nat) (isB : Bool) (closed : Bool) : Bool := if isB && decide (use = 3) then !closed else closed

/-- The discrepancy time in REFCLK ticks (R216). -/
def discTicks (c : VinCfg) : Nat := msTicks c.discMs

/-- The evaluation of a channel at a tick (R216). -/
def evalVin (c : VinCfg) (now : Nat) (v : VinState) : VinState :=
  let a := contactRead c.use false v.a
  let b := contactRead c.use true v.b
  let pa := permissive c.use false a
  let pb := permissive c.use true b
  if c.use = 0 then { v with value := false, contactA := false, contactB := false, discrepant := false, differSince := none }
  else if c.use = 1 then { v with value := pa, contactA := a, contactB := b, discrepant := false, differSince := none }
  else if pa = pb then
    let past := match v.differSince with | some t => decide (t + discTicks c < now) | none => false
    let d := pa && (v.discrepant || past)
    { v with value := pa && pb && !d, contactA := a, contactB := b, discrepant := d, differSince := none }
  else
    let since := v.differSince.getD now
    { v with value := false, contactA := a, contactB := b, discrepant := v.discrepant || decide (since + discTicks c ≤ now),
             differSince := some since }

/-- VIO's configuration from its block, and every channel evaluated under it from this tick on (R211, R216). -/
def loadVioBlock (now : Nat) (b : List Byte) (v : VioState) : VioState :=
  { v with cfgValid := true,
           vinCfg := (List.range 32).foldl (fun m c => smSet VinCfg.zero m c (vinEntry b c)) [],
           vin := (List.range 32).foldl (fun m c => smSet VinState.zero m c (evalVin (vinEntry b c) now (smGet VinState.zero m c))) v.vin,
           voutCfg := (List.range 16).foldl (fun m k => smSet VoutCfg.zero m k (voutEntry b k)) [] }

/-! ### Link configuration (R274, R275) -/

def portEntry (b : List Byte) (p : Nat) : PortCfg :=
  let x := leAt b (0x10 + 4 * p) 4
  ⟨bitN x 31, field x 29 2, bitN x 28, field x 16 8, field x 0 11⟩

def portEntryOk (t : Nat) (x : PortCfg) : Bool :=
  decide (x.mode ≠ 3) &&
  (!x.use || (decide (1 ≤ x.n) && decide (x.n ≤ 64) && (decide (t ≠ 0) || decide (x.n ≤ 37)) && decide (1 ≤ x.cableM) &&
    decide (x.cableM ≤ 1000) && (!x.level || decide (x.cableM ≤ 200))))

/-- The field checks of a link configuration block at a T_scan. -/
def linkBlockOk (t : Nat) (b : List Byte) : Bool :=
  blockSound 532 b && decide (leAt b 4 2 ≠ 0) && decide (leAt b 4 2 ≠ 0xFFFF) &&
  (List.range 128).all (fun p => portEntryOk t (portEntry b p)) &&
  (List.range 64).all (fun p =>
    let x := portEntry b p
    let y := portEntry b (64 + p)
    !(x.use && y.use) || (decide (x.mode = y.mode) && decide (x.n = y.n)))

/-! ### Schedules (R322 to R324) -/

def schedEntry (b : List Byte) (s p : Nat) : SchedPort :=
  let o := 0x20 + 0x800 * s + 16 * p
  let f := leAt b (o + 5) 1
  ⟨leAt b o 4, leAt b (o + 4) 1, bitN f 7, (List.range (field f 0 3)).map (fun i => leAt b (o + 8 + 2 * i) 2)⟩

/-- The checks of R324 on one port in use; `compat`: its link mode. -/
def schedPortOk (t n : Nat) (compat : Bool) (b : List Byte) (s p : Nat) : Bool :=
  let e := schedEntry b s p
  let o := 0x20 + 0x800 * s + 16 * p
  let ncp := field (leAt b (o + 5) 1) 0 3
  let len := max 64 (38 + 2 * n)
  let cpoRest := (List.range 4).all (fun i => decide (i < ncp) || decide (leAt b (o + 8 + 2 * i) 2 = 0))
  decide (14000 ≤ e.apNs) && decide (e.apNs + 4000 + wireNs e.lMax + 10000 ≤ codeNs t) &&
  decide (len ≤ e.lMax) && decide (e.lMax ≤ (if t = 0 then 112 else 166)) &&
  decide (2000 + wireNs len + 15000 ≤ codeNs t) && cpoRest &&
  (if compat then
    decide (1 ≤ ncp) && decide (ncp ≤ 4) && e.cpo.all (fun c => decide (32 * c < codeNs t)) &&
    decide (32 * e.cpo.headD 0 + 8000 ≤ e.apNs) && !e.req &&
    decide (e.apNs = (schedEntry b 0 p).apNs) && decide (e.lMax = (schedEntry b 0 p).lMax)
  else decide (ncp = 0))

/-- The entry is all zeros. -/
def zeroEntry (b : List Byte) (s p : Nat) : Bool := (slice b (0x20 + 0x800 * s + 16 * p) 16).all (fun x => decide (x = 0))

/-- The field checks of a schedule block against the port entries of a link block (R324). -/
def schedBlockOk (t : Nat) (cfg : Nat → PortCfg) (compat : Nat → Bool) (b : List Byte) : Bool :=
  let count := leAt b 4 1
  decide (1 ≤ count) && decide (count ≤ 8) && blockSound (0x24 + 0x800 * count) b && decide (leAt b 5 1 < count) &&
  (List.range count).all (fun s =>
    (List.range 128).all (fun p =>
      if (cfg p).use then schedPortOk t (cfg p).n (compat p) b s p else zeroEntry b s p) &&
    (List.range 64).all (fun p =>
      let x := schedEntry b s p
      let y := schedEntry b s (64 + p)
      !((cfg p).use && (cfg (64 + p)).use) ||
        (decide (x.apNs = y.apNs) && decide (x.lMax = y.lMax) && decide (x.cpo.length = y.cpo.length)))) &&
  (List.range 128).all (fun p =>
    !(bitN (leAt b (if p < 64 then 8 else 16) 8) (p % 64)) || ((cfg p).use && compat p))

/-- The link mode of a port entry (R333). -/
def compatEntry (linkMode : Nat) (x : PortCfg) : Bool :=
  match x.mode with
  | 1 => false
  | 2 => true
  | _ => decide (linkMode = 2)

/-- The link configuration and schedule that both blocks give. -/
def parseLink (b c : List Byte) : LinkCfg :=
  let count := leAt c 4 1
  { linkId := BitVec.ofNat 16 (leAt b 4 2),
    ports := (List.range 128).foldl (fun m p => smSet PortCfg.zero m p (portEntry b p)) [],
    count := count, start := leAt c 5 1, cscapA := BitVec.ofNat 64 (leAt c 8 8), cscapB := BitVec.ofNat 64 (leAt c 16 8),
    sched := (List.range count).foldl (fun m s =>
      (List.range 128).foldl (fun m p => smSet SchedPort.zero m (128 * s + p) (schedEntry c s p)) m) [], bnd := [] }

/-! ### Network (R376) -/

def netPortEntry (b : List Byte) (p : Nat) : NetPortCfg :=
  let o := 0x18 + 32 * p
  let f := leAt b (o + 9) 1
  ⟨BitVec.ofNat 32 (leAt b o 4), BitVec.ofNat 32 (leAt b (o + 4) 4), leAt b (o + 8) 1, bitN f 7, bitN f 6, bitN f 5, bitN f 4, bitN f 3, bitN f 2, signedN 32 (leAt b (o + 12) 4),
   leAt b (o + 16) 2, leAt b (o + 18) 2⟩
def bndEntry (b : List Byte) (p : Nat) : BndCfg :=
  let o := 0x98 + 32 * p
  let f := leAt b (o + 4) 1
  ⟨BitVec.ofNat 16 (leAt b o 2), BitVec.ofNat 16 (leAt b (o + 2) 2), bitN f 7, bitN f 6, bitN f 5, bitN f 4, bitN f 3,
   signedN 32 (leAt b (o + 8) 4)⟩

def within (i : Int) (n : Int) : Bool := decide (-n ≤ i) && decide (i ≤ n)

def netPortOk (b : List Byte) (p : Nat) : Bool :=
  let x := netPortEntry b p
  let pre := leAt b (0x18 + 32 * p + 8) 1
  decide (8 ≤ pre) && decide (pre ≤ 30) && within x.asym 10000 && decide (1024 ≤ x.mbxUdp) && decide (1024 ≤ x.expUdp) &&
  decide (x.mbxUdp ≠ x.expUdp)

def bndOk (b : List Byte) (p : Nat) : Bool :=
  let x := bndEntry b p
  let id := fun (n : BitVec 16) => decide (n ≠ 0) && decide (n ≠ 0xFFFF#16)
  id x.localId && id x.partnerId && decide (x.partnerId ≠ x.localId) && within x.asym 10000

/-- The field checks of a network block at a T_scan. -/
def netBlockOk (t : Nat) (b : List Byte) : Bool :=
  let b0 := bndEntry b 0
  let b1 := bndEntry b 1
  blockSound 476 b && decide (leAt b 8 1 ≤ 127) && decide (leAt b 9 1 ≤ 127) && decide (leAt b 8 1 ≠ leAt b 9 1) &&
  decide (leAt b 12 4 ≤ 86400) && decide (leAt b 16 4 < codeNs t) &&
  [0, 1, 2, 3].all (netPortOk b) && [0, 1].all (bndOk b) &&
  [0, 1, 2, 3].all (fun p => [0, 1, 2, 3].all (fun q =>
    decide (p = q) || decide ((netPortEntry b p).ip = 0) || decide ((netPortEntry b p).ip ≠ (netPortEntry b q).ip))) &&
  !(b0.en && b1.en && decide (b0.localId = b1.localId) && decide (b0.partnerId = b1.partnerId))

/-- The network configuration that a block gives. -/
def parseNet (b : List Byte) : NetCfg :=
  { domP := leAt b 8 1, domS := leAt b 9 1, revert := bitN (leAt b 10 1) 1, secEn := bitN (leAt b 10 1) 0,
    holdoverS := leAt b 12 4, ciPhase := leAt b 16 4,
    net := [0, 1, 2, 3].foldl (fun m p => smSet NetPortCfg.zero m p (netPortEntry b p)) [],
    bnd := [0, 1].foldl (fun m p => smSet BndCfg.zero m p (bndEntry b p)) [],
    fieldAsym := (List.range 128).foldl (fun m q => smSet (0 : Int) m q (signedN 16 (leAt b (0xD8 + 2 * q) 2))) [] }

/-! ### At a control-plane start -/

/-- An item without a block of its own stands in a format above the current one (R548). -/
def itemsAhead (s : State) : Bool := s.mgt.store.itemFmt.any (fun p => decide (Config.fmtCur s.mgt.upd.active.mgt p.1 < p.2))

/-- The status that the stored blocks give a control-plane start (R211, R274, R322, R376, R548). A block that is not stored fails
as one whose check fails. -/
def startBlocks (s : State) (t : Nat) : Option Status :=
  let lm := s.power.linkMode
  let bad := fun (blk : Nat) => !(storedBlock s blk).isEmpty && !fmtOk s blk (storedBlock s blk)
  let link := blockInUse s linkBlk
  judge [([vioBlk, netBlk, linkBlk, schedBlk].any bad || itemsAhead s, .version),
         (!vioBlockOk (blockInUse s vioBlk), .checkFail),
         (!linkBlockOk t link, .badArg),
         (!schedBlockOk t (portEntry link) (fun p => compatEntry lm (portEntry link p)) (blockInUse s schedBlk), .badArg),
         (!netBlockOk t (blockInUse s netBlk), .checkFail)]

end Sys2Proof.Machine
end

