-- ==== Sys2Proof/Machine/Dbg.lean ====
section
/-! DEFINITION. Debug (R446, R560 to R564): attachment, halt and resume, and the reads and writes of a lane's state. -/

namespace Sys2Proof.Machine

open Sys2Proof

/-! ### Detachment and resumption (R446, R564) -/

/-- A halted lane goes on (R564): after R562 it is resynchronised as a shadow, which does not count under R170; after R563 MGT
asserts CTRL_RESET. -/
def debugResume (s : State) : State :=
  match s.ctl.dbg.halted with
  | none => s
  | some l =>
    if s.ctl.dbg.trippedByHalt then assertSrc .ctrlReset 0x05 s
    else
      let s := onDbg (fun d => { d with halted := none }) s
      let s := onLane l (fun x => { x with health := { x.health with resyncStarted := x.health.resyncStarted + 1 } }) s
      setVote l .resync s

/-- The debugger is detached: what it asked for and has not acted is aborted, and a halted lane goes on (R446, R560, R564).
LOCKSTEP_BROKEN ends only as the lane takes its seat back. -/
def debugDetach (s : State) : State :=
  if s.ctl.dbg.attached.isNone then s
  else
    let s := s.ctl.dbg.pieces.foldl (fun s p => abortRef p.last s) (abortRef s.ctl.dbg.haltCmd s)
    let s := onDbg (fun d => { d with pieces := [], haltCmd := none }) s
    onDbg (fun d => { d with attached := none, before := LaneState.zero }) (debugResume s)

/-- As soon as S1 or S2 reads effectively off, an attached debugger is detached (R446, R560). -/
def debugSwitches (s : State) : State := if engSwitchOn s 2 then s else debugDetach s

/-! ### The DBG commands (R446) -/

/-- TRIPLE or FULL (R554). -/
def threeVote (s : State) : Bool := decide (3 ≤ laneCfg s)

/-- DBG_ATTACH (R446, R560): accepted while the control plane runs, in ENGINEERING, with S1 and S2 on. -/
def execDbgAttach (c : CmdHdr) (l : Byte) (s : State) : Host.Outcome State Fault Refusal :=
  let ln := (Lane.ofIdx l.toNat).filter (fun x => (fitted s.variant).contains x)
  .next (cmdRun c 0x0F00 (formOk c false false true) false
    [(notRunning s || debugAttached s, .notReady),
     (ln.isNone || (threeVote s && decide (holder s .s1 ≠ ln)), .badArg),
     (inService s, .deniedMode),
     (!engSwitchOn s 2, .deniedSeal)]
    (fun s => finish c 0x0F00 .ok [] []
      (onDbg (fun d => { d with attached := ln, before := match ln with | some x => lane s x | none => LaneState.zero }) s)) s)

/-- DBG_DETACH (R446, R560). -/
def execDbgDetach (c : CmdHdr) (s : State) : Host.Outcome State Fault Refusal :=
  .next (cmdRun c 0x0F01 (formOk c false false true) false [(!debugAttached s, .notReady)]
    (fun s => debugDetach (finish c 0x0F01 .ok [] [] s)) s)

/-- DBG_HALT (R446, R562, R563): it takes effect at the next barrier release, and completes with it. -/
def execDbgHalt (c : CmdHdr) (s : State) : Host.Outcome State Fault Refusal :=
  .next (cmdRun c 0x0F02 (formOk c false false true) false
    [(!debugAttached s || notRunning s || s.ctl.dbg.haltCmd.isSome, .notReady),
     (threeVote s, .deniedMode)]
    (fun s => onDbg (fun d => { d with haltCmd := some (refOf c 0x0F02) }) s) s)

/-- DBG_RESUME (R446, R564). -/
def execDbgResume (c : CmdHdr) (s : State) : Host.Outcome State Fault Refusal :=
  .next (cmdRun c 0x0F03 (formOk c false false true) false [(s.ctl.dbg.halted.isNone, .notReady)]
    (fun s => debugResume (finish c 0x0F03 .ok [] [] s)) s)

/-- Bytes of a space (R446): the variable space, a code bank, the engines' state words, those of timers, edges and counters, and the
supervisor's memory (log entry 12). -/
def spaceBytes : Nat → Nat
  | 0 => 0x80000
  | 1 => 0x1000000
  | 2 => 512
  | 3 => 0xA2000
  | 4 => 0x100000
  | _ => 0

/-- A range that a space does not hold. -/
def debugRangeBad (space a len : Nat) : Bool := decide (len = 0) || decide (spaceBytes space < a + len)

/-- The attached lane and the scan whose commit it shows: as it stands where it does not evaluate, else as it stood before the scan in
progress (R561). -/
def debugView (s : State) : LaneState × Scn :=
  match s.ctl.dbg.attached with
  | none => (LaneState.zero, 0)
  | some l =>
    match (lane s l).core.phase with
    | .evaluating | .committing => (s.ctl.dbg.before, s.ctl.dbg.lastScn - 1)
    | _ => (lane s l, s.ctl.dbg.lastScn)

/-- DBG_READ (R446, R561). -/
def execDbgRead (c : CmdHdr) (space : Byte) (a : W32) (len : W32) (s : State) : Host.Outcome State Fault Refusal :=
  .next (cmdRun c 0x0F04 (formOk c false true (decide (len.toNat ≤ c.dataLen))) false
    [(!debugAttached s, .notReady), (debugRangeBad space.toNat a.toNat len.toNat, .badArg)]
    (fun s =>
      let v := debugView s
      finish c 0x0F04 .ok (le4 v.2.toNat) ((List.range len.toNat).map (fun k => debugByte v.1 space.toNat (a.toNat + k))) s) s)

/-- The pieces of a write: at most 64 bytes each, the last with its command (R561). -/
def debugPieces (only : Option Lane) (space : Nat) (r : CmdRef) : Nat → Nat → List Byte → List DebugPiece
  | 0, _, _ => []
  | n + 1, a, b =>
    if b.length ≤ 64 then [⟨only, space, a, b, some r⟩]
    else ⟨only, space, a, b.take 64, none⟩ :: debugPieces only space r n (a + 64) (b.drop 64)

/-- DBG_WRITE (R446, R561): passed to voter half X in pieces, which goes with a barrier release each to every lane at one commit position
(R16), or to the halted lane alone (R562, R564; DESIGN CHOICE, log entry 12). A lane whose halt has tripped the module stands at its last
commit position and takes the write at once (log entry 12). -/
def execDbgWrite (c : CmdHdr) (space : Byte) (a : W32) (data : List Byte) (s : State) : Host.Outcome State Fault Refusal :=
  .next (cmdRun c 0x0F05 (formOk c true false (decide (c.dataLen = data.length))) false
    [(!debugAttached s, .notReady),
     (debugRangeBad space.toNat a.toNat data.length, .badArg),
     (threeVote s && (space == 1 || space == 4), .deniedMode)]
    (fun s => match s.ctl.dbg.trippedByHalt, s.ctl.dbg.halted with
      | true, some l => finish c 0x0F05 .ok (scnLe s) [] (onLane l (debugPutAll space.toNat a.toNat data) s)
      | _, h => onDbg (fun d => { d with pieces := d.pieces ++ debugPieces h space.toNat (refOf c 0x0F05) data.length a.toNat data }) s) s)

end Sys2Proof.Machine
end

