-- ==== Sys2Proof/Machine/Recorder.lean ====
section
/-! DEFINITION. The event recorder: intake and coalescing, commit, losses, freeze and the recorder window (R461 to R475). -/

namespace Sys2Proof.Machine

open Sys2Proof

/-! ### Records -/

/-- Bytes padded with zeros, or cut, to a length. -/
def padTo (n : Nat) (b : List Byte) : List Byte := (b ++ List.replicate n 0).take n

/-- The 64 bytes of a record (R461); `held`: not yet committed, `frozen`: in the freeze buffer. -/
def recBytes (r : Rec) (held frozen : Bool) : List Byte :=
  let cls := r.ev.kind + (match r.ev.ring with | .vital => 128 | .general => 0)
  let b := le4 r.seq.toNat ++ leBytes 3 r.pcc ++ byte cls ++ le4 r.ophH ++ le2 r.ophF ++ leBytes 6 r.ev.upt ++ le2 r.ev.code ++
    le2 r.ev.source ++ le2 r.rept ++ le2 (8 * b2n r.isOpen + 4 * b2n held + 2 * b2n frozen + b2n r.sat) ++ le4 r.lastOfs ++
    padTo 16 r.ev.key ++ padTo 12 r.ev.detail
  b ++ le4 (crc32c b)

/-- The codes that coalesce (R476). -/
def coalesces (code : Nat) : Bool :=
  [0x0104, 0x020A, 0x020B, 0x020D, 0x020E, 0x0301, 0x0303, 0x0305, 0x0501, 0x0502, 0x050A, 0x050B, 0x0603, 0x0604, 0x0606,
   0x0607].contains code

/-- A ring of the recorder, and a change of it. -/
def recRing (m : RecorderState) : RecRing → RecRingS
  | .vital => m.vital
  | .general => m.general
def setRecRing (r : RecRing) (x : RecRingS) (m : RecorderState) : RecorderState :=
  match r with
  | .vital => { m with vital := x }
  | .general => { m with general := x }

/-- The intake of a ring, and a change of it. -/
def intake (m : RecorderState) : RecRing → List Rec
  | .vital => m.vitalIn
  | .general => m.generalIn
def setIntake (r : RecRing) (x : List Rec) (m : RecorderState) : RecorderState :=
  match r with
  | .vital => { m with vitalIn := x }
  | .general => { m with generalIn := x }

/-- Slots of a ring (R465). -/
def ringSlots : Nat := 524288

/-- The oldest SEQ that a ring keeps, and its WRAPS (R465, R473). -/
def oldestSeq (x : RecRingS) : W32 := x.next - BitVec.ofNat 32 x.count
def wraps (x : RecRingS) : Nat := x.overwritten / ringSlots

/-- Entries of the general intake in use, with vital records that took one (R467, R470). -/
def generalUsed (m : RecorderState) : Nat := m.generalIn.length + (m.vitalIn.length - 256)

/-! ### Opening, merging and closing -/

/-- A ring's open tail closes. -/
def closeIn (now : Nat) (ring : RecRing) (rs : List Rec) : List Rec :=
  rs.map (fun x => if x.isOpen ∧ x.ev.ring = ring then { x with isOpen := false, closedAt := now } else x)
def closeTail (now : Nat) (ring : RecRing) (m : RecorderState) : RecorderState :=
  { setIntake ring (closeIn now ring (intake m ring)) m with freeze := closeIn now ring m.freeze }

/-- A new record of a ring: stamped, with the next SEQ; the ring's oldest is overwritten where it is full (R461, R465). -/
def opened (s : State) (e : Report) (m : RecorderState) : Rec × RecorderState :=
  let x := recRing m e.ring
  let r : Rec := ⟨x.next, s.ret.pcc.toNat % 2 ^ 24, ophHours s, ophFrac s, e, 1, 0, true, false, 0⟩
  let full := decide (ringSlots ≤ x.count)
  (r, setRecRing e.ring { x with next := x.next + 1, count := if full then x.count else x.count + 1,
                                 overwritten := x.overwritten + b2n full } m)

/-- The record enters the freeze buffer while a freeze is in effect, else its ring's intake. -/
def place (s : State) (e : Report) (m : RecorderState) : RecorderState :=
  let m := closeTail s.clk.tick e.ring m
  let (r, m) := opened s e m
  let m := if m.frozen then { m with freeze := m.freeze ++ [r] } else setIntake e.ring (intake m e.ring ++ [r]) m
  if s.mgt.store.coalMs = 0 then closeTail s.clk.tick e.ring m else m

/-- A general event is lost (R469). -/
def loseGeneral (cause upt_ : Nat) (m : RecorderState) : RecorderState :=
  { m with lost := m.lost + 1, lostFirst := if m.lost = 0 then upt_ else m.lostFirst, lostLast := upt_,
           lostCause := if m.lost = 0 then cause else m.lostCause }

/-- The newest closed general record makes way for a vital one (R470). -/
def displace (m : RecorderState) : Option RecorderState :=
  match m.generalIn.reverse.find? (fun r => !r.isOpen) with
  | none => none
  | some r => some (loseGeneral 0 r.ev.upt { m with generalIn := m.generalIn.filter (fun x => decide (x.seq ≠ r.seq)) })

/-- A freeze ends: its tails close, and its records are committed before any newer one (R472). -/
def endFreeze (now : Nat) (m : RecorderState) : RecorderState :=
  closeTail now .vital (closeTail now .general { m with frozen := false })

/-- An event that opens a new record (R469, R470, R472). -/
def openNew (s : State) (e : Report) (m : RecorderState) : RecorderState :=
  match e.ring with
  | .general =>
    if m.frozen then (if m.freeze.length + 256 < 4096 then place s e m else loseGeneral 1 e.upt m)
    else if generalUsed m < 1024 then place s e m else loseGeneral 0 e.upt m
  | .vital =>
    let m := if m.frozen && decide (4096 ≤ m.freeze.length) then endFreeze s.clk.tick m else m
    if m.frozen then place s e m
    else if m.vitalIn.length < 256 ∨ generalUsed m < 1024 then place s e m
    else match displace m with
      | some m => place s e m
      | none => { m with vitalLost := true, vitalLossCount := m.vitalLossCount + 1 }

/-- The open tail of a ring: in the freeze buffer while frozen, else in the intake (R467, R472). -/
def openTail (m : RecorderState) (ring : RecRing) : Option Rec :=
  (if m.frozen then m.freeze else intake m ring).find? (fun r => r.isOpen && decide (r.ev.ring = ring))

/-- The coalescing window in microseconds (R467). -/
def windowUs (s : State) : Nat := 1000 * s.mgt.store.coalMs

/-- An event identical to the open tail, inside its window (R467). -/
def identical (s : State) (e : Report) (r : Rec) : Bool :=
  coalesces e.code && decide (e.kind = 0) && decide (e.code = r.ev.code) && decide (e.source = r.ev.source) &&
  decide (padTo 16 e.key = padTo 16 r.ev.key) && decide (e.upt < r.ev.upt + windowUs s)

/-- The event merged into the tail (R467). -/
def merged (now : Nat) (e : Report) (r : Rec) : Rec :=
  let n := r.rept + 1
  let r := { r with rept := n, lastOfs := min 0xFFFFFFFF (e.upt - r.ev.upt), ev := { r.ev with detail := e.detail } }
  if n = 65535 then { r with sat := true, isOpen := false, closedAt := now } else r

/-- An event taken in: merged into the open tail, or opening a record of its own. -/
def takeIn (s : State) (e : Report) (m : RecorderState) : RecorderState :=
  match openTail m e.ring with
  | some r =>
    if identical s e r then
      let f := fun (rs : List Rec) => rs.map (fun x => if x.isOpen ∧ x.seq = r.seq ∧ x.ev.ring = e.ring then merged s.clk.tick e x else x)
      if m.frozen then { m with freeze := f m.freeze } else setIntake e.ring (f (intake m e.ring)) m
    else openNew s e m
  | none => openNew s e m

/-! ### What MGT writes of losses (R469, R470) -/

/-- A record of a kind beyond events: 28 bytes of data over KEY and DETAIL (R462). -/
def kindReport (s : State) (ring : RecRing) (kind code : Nat) (b : List Byte) : Report :=
  ⟨ring, kind, code, 0, upt s, b.take 16, b.drop 16⟩

/-- SCREE data (R462). -/
def screeData (lost first last cause : Nat) : List Byte :=
  le4 lost ++ leBytes 6 first ++ le2 0 ++ leBytes 6 last ++ byte cause ++ List.replicate 9 0

/-- Once entries are free: VITAL_LOSS first, then the scree of a general loss (R469, R470). -/
def settleLosses (s : State) (m : RecorderState) : RecorderState :=
  let free := if m.frozen then decide (m.freeze.length < 4096) else decide (m.vitalIn.length < 256) || decide (generalUsed m < 1024)
  let m := if m.vitalLossCount ≠ 0 ∧ free then
      place s ⟨.vital, 0, 0x0802, 0, upt s, le4 m.vitalLossCount, []⟩ { m with vitalLossCount := 0 }
    else m
  let room := if m.frozen then decide (m.freeze.length + 256 < 4096) else decide (generalUsed m < 1024)
  if m.lost ≠ 0 ∧ room then
    place s (kindReport s .general 2 0x0803 (screeData m.lost m.lostFirst m.lostLast m.lostCause))
      { m with lost := 0, lostFirst := 0, lostLast := 0, lostCause := 0 }
  else m

/-- RECORD_INTAKE (R467): MGT takes the oldest reported event into its holding memory. -/
def execRecordIntake (s : State) : Host.Outcome State Fault Refusal :=
  .next (match s.mgt.recorder.reports with
    | [] => s
    | e :: rest =>
      if mgtUp s then onRec (fun m => takeIn s e (settleLosses s { m with reports := rest })) s else s)

/-- The open tail's window has elapsed (R467). -/
def windowOver (s : State) (r : Rec) : Bool := decide (r.ev.upt + windowUs s ≤ upt s)

/-- COALESCE_WINDOW_EXPIRY (R467). -/
def execCoalesceWindowExpiry (r : RecRing) (s : State) : Host.Outcome State Fault Refusal :=
  .next (match openTail s.mgt.recorder r with
    | some t => if mgtUp s && windowOver s t then onRec (closeTail s.clk.tick r) s else s
    | none => s)

/-! ### Commit (R466, R468) -/

/-- A record is written to NAND in its slot (R465). -/
def commitRec (x : RecRingS) (r : Rec) : RecRingS :=
  { x with committed := smPut x.committed (r.seq.toNat % ringSlots) r }

/-- VITAL_RECORD is raised for a committed vital record (R466). -/
def raiseVital (s : State) (r : Rec) : State :=
  match r.ev.ring with
  | .vital => raise 0x000D (le4 r.seq.toNat ++ le2 r.ev.code) s
  | .general => s

/-- The records of a ring that may be committed next: those a freeze held back, then its intake, as far as they are closed. -/
def committable (m : RecorderState) (r : RecRing) : List Rec :=
  ((m.freeze.filter (fun x => decide (x.ev.ring = r))) ++ intake m r).takeWhile (fun x => !x.isOpen)

/-- Records leave the holding memory for NAND. -/
def commitAll (rs : List Rec) (r : RecRing) (s : State) : State :=
  let gone := fun (x : Rec) => decide (x.ev.ring = r) && rs.any (fun y => decide (y.seq = x.seq))
  let s := onRec (fun m =>
    let m := setRecRing r (rs.foldl commitRec (recRing m r)) m
    let m := setIntake r ((intake m r).filter (fun x => !gone x)) m
    { m with freeze := m.freeze.filter (fun x => !gone x) }) s
  rs.foldl (fun s x => raiseVital (snoop 25 0 true true (recBytes x false false) s) x) s

/-- A page of a ring is due: 64 closed records, or 100 ms since the first of them closed; none during a freeze (R468, R472). -/
def pageDue (s : State) (r : RecRing) : Bool :=
  let rs := committable s.mgt.recorder r
  !s.mgt.recorder.frozen && mgtUp s &&
  (match rs with
   | [] => false
   | x :: _ => decide (64 ≤ rs.length) || decide (x.closedAt + msTicks 100 ≤ s.clk.tick))

/-- A page of a ring is written and read back (R468). -/
def commitPage (r : RecRing) (s : State) : State :=
  let s := commitAll ((committable s.mgt.recorder r).take 64) r s
  onRec (settleLosses s) s

/-- The recorder flush of a supply-collapse warning: tails close, a freeze ends, and vital records, the scree and general
records are committed (R471). -/
def recorderFlush (s : State) : State :=
  if !mgtUp s then s
  else
    let s := onRec (fun m => endFreeze s.clk.tick m) s
    let s := commitAll (committable s.mgt.recorder .vital) .vital s
    let s := onRec (fun m => closeTail s.clk.tick .general (settleLosses s m)) s
    commitAll (committable s.mgt.recorder .general) .general s

/-! ### Freeze (R472) -/

/-- A freeze takes effect: tails close, and the held records pass into the freeze buffer. -/
def startFreeze (s : State) : State :=
  if s.mgt.recorder.frozen then s
  else onRec (fun m =>
    let m := closeTail s.clk.tick .vital (closeTail s.clk.tick .general m)
    { m with frozen := true, frozenUntil := s.clk.tick + 25000000 * s.mgt.store.freezeS,
             freeze := m.freeze ++ m.vitalIn ++ m.generalIn, vitalIn := [], generalIn := [] }) s

/-- FREEZE_EXPIRY (R472). -/
def execFreezeExpiry (s : State) : Host.Outcome State Fault Refusal :=
  .next (if mgtUp s && s.mgt.recorder.frozen && decide (s.mgt.recorder.frozenUntil ≤ s.clk.tick) then
    onRec (endFreeze s.clk.tick) s else s)

/-- LOG_FREEZE_BIT (R472): a write of FREEZE to LOG_CTRL. -/
def execLogFreezeBit (s : State) : Host.Outcome State Fault Refusal :=
  .next (if barUp s && mgtUp s then startFreeze s else s)

/-- LOG_UNFREEZE_BIT (R472): a write of UNFREEZE to LOG_CTRL. -/
def execLogUnfreezeBit (s : State) : Host.Outcome State Fault Refusal :=
  .next (if barUp s && mgtUp s && s.mgt.recorder.frozen then onRec (endFreeze s.clk.tick) s else s)

/-! ### The window (R473) -/

/-- The record with a number, wherever it stands, as it reads now. -/
def findRec (m : RecorderState) (r : RecRing) (seq : W32) : Option (Rec × Bool × Bool) :=
  let here := fun (x : Rec) => decide (x.ev.ring = r) && decide (x.seq = seq)
  match m.freeze.find? here with
  | some x => some (x, true, m.frozen)
  | none => match (intake m r).find? here with
    | some x => some (x, true, false)
    | none => match smFind (recRing m r).committed (seq.toNat % ringSlots) with
      | some x => if x.seq = seq then some (x, false, false) else none
      | none => none

/-- CUR_VALID (R473). -/
def curValid (m : RecorderState) : Bool :=
  let x := recRing m m.winRing
  decide ((m.cursor - oldestSeq x).toNat < x.count)

/-- A write of LOG_CTRL (R472, R473): its bits RING, AUTO_INC, VITAL_LOST, FREEZE and UNFREEZE. -/
def logControl (v : W32) (s : State) : State :=
  let ring := if v.getLsbD 28 then RecRing.general else RecRing.vital
  let s := onRec (fun m => { m with winRing := ring, winReady := false, window := none, autoInc := v.getLsbD 27,
                                    vitalLost := m.vitalLost && !v.getLsbD 24 }) s
  if v.getLsbD 31 == v.getLsbD 30 || !mgtUp s then s
  else if v.getLsbD 31 then startFreeze s
  else if s.mgt.recorder.frozen then onRec (endFreeze s.clk.tick) s else s

/-- LOG_CURSOR_WRITE (R473): a write of LOG_CTRL (its bits RING, AUTO_INC, VITAL_LOST, FREEZE and UNFREEZE) or of
LOG_CURSOR. -/
def execLogCursorWrite (ctrl : Bool) (v : W32) (s : State) : Host.Outcome State Fault Refusal :=
  .next (if !barUp s then s
  else if ctrl then logControl v s
  else onRec (fun m => { m with cursor := v, winReady := false, window := none }) s)

/-- LOG_WIN_LOAD_DONE (R473): MGT has copied the record at the cursor into LOG_WIN. -/
def execLogWinLoadDone (s : State) : Host.Outcome State Fault Refusal :=
  .next (if mgtUp s && !s.mgt.recorder.winReady then
    onRec (fun m => { m with winReady := true,
                             window := if curValid m then (findRec m m.winRing m.cursor).map (fun p => recBytes p.1 p.2.1 p.2.2) else none }) s
  else s)

/-- LOG_WIN_AUTO_READ (R473): with AUTO_INC, a read of 0x184C advances the cursor and starts the next load. -/
def execLogWinAutoRead (s : State) : Host.Outcome State Fault Refusal :=
  .next (if barUp s && s.mgt.recorder.autoInc && s.mgt.recorder.winReady then
    onRec (fun m => { m with cursor := m.cursor + 1, winReady := false, window := none }) s
  else s)

end Sys2Proof.Machine
end

