-- ==== Sys2Proof/Machine/Vio.lean ====
section
/-! DEFINITION. Vital I/O: contacts, their tests and channels (R213 to R217), outputs, read-back, tests and calibration
(R219 to R226), the switch bank and the loop (R227 to R230), the supplies (R232, R580), stars confirming a trip (R233). -/

namespace Sys2Proof.Machine

open Sys2Proof

/-! ### Vital inputs -/

def vinOf (s : State) (c : Nat) : VinState := smGet VinState.zero s.ctl.vio.vin c
def vinCfgOf (s : State) (c : Nat) : VinCfg := smGet VinCfg.zero s.ctl.vio.vinCfg c
def voutOf (s : State) (k : Nat) : VoutState := smGet VoutState.zero s.ctl.vio.vout k
def onVout (k : Nat) (f : VoutState → VoutState) (s : State) : State :=
  onVio (fun v => { v with vout := smSet VoutState.zero v.vout k (f (smGet VoutState.zero v.vout k)) }) s

/-- The key of MODULE_ALIVE among the outputs (R226, R476). -/
def aliveKey : Nat := 16

/-- A channel changed and evaluated; a trip-class channel whose VALUE falls or whose DISCREPANT is set trips the module from
the first voted scan on (R232). -/
def vinChange (c : Nat) (f : VinState → VinState) (s : State) : State :=
  let old := vinOf s c
  let cfg := vinCfgOf s c
  let new := evalVin cfg s.clk.tick (f old)
  let s := onVio (fun v => { v with vin := smSet VinState.zero v.vin c new }) s
  if cfg.trip && ((old.value && !new.value) || (!old.discrepant && new.discrepant)) && !silentRun s then trip 0x0A true s else s

/-- A contact of a channel changed. -/
def onContact (b : Bool) (f : Contact → Contact) (v : VinState) : VinState :=
  if b then { v with b := f v.b } else { v with a := f v.a }
def contactOf (b : Bool) (v : VinState) : Contact := if b then v.b else v.a

/-- The contact is wired and evaluated: the channel is used, and contact b only by dual channels (R212, R214). -/
def contactUsed (s : State) (c : Nat) (b : Bool) : Bool :=
  domRun s 11 && s.ctl.vio.cfgValid && decide ((if b then 2 else 1) ≤ (vinCfgOf s c).use)

/-- The present tick is one of VIO's evaluation ticks: every 5 us from its last cycle instant (R213). -/
def vioTick (s : State) : Bool := decide (s.clk.tick % 125 = s.ctl.followers.vio.lastCi % 125)

/-- The number of the sample at tick `t` in its TB1 slot: 0 for the slot tick, the first VIO tick at or after the boundary (R214). -/
def slotSample (t : Nat) : Nat := t % 12500 / 125

/-- The present TB1 slot belongs to the contact at tick `t` (R214). -/
def inOwnSlot (t c : Nat) (b : Bool) : Bool := decide (t / 12500 % 64 = c + 32 * b2n b)

/-- VIO switches the contact's test-pulse source off: from the slot tick for 100 us (R214). -/
def sourceOff (s : State) (c : Nat) (b : Bool) : Bool :=
  contactUsed s c b && inOwnSlot s.clk.tick c b && decide (slotSample s.clk.tick < 20)

/-- The sample of a contact at tick `t` is masked by its test pulse: from the slot tick up to and including +145 us (R214). -/
def masked (t c : Nat) (b : Bool) : Bool := inOwnSlot t c b && decide (slotSample t ≤ 29)

/-- The filter's length N in samples of 5 us (R212, R213). -/
def filterSamples (f : Nat) : Nat := [100, 200, 400, 600, 1000, 2000, 4000, 10000].getD f 0

/-- How many of the `n` samples up to tick `now` count: those that no test pulse masks (R213). -/
def countedSamples (now c : Nat) (b : Bool) : Nat → Nat
  | 0 => 0
  | n + 1 => countedSamples now c b n + b2n (!masked (now - 125 * n) c b)

/-- VIO ticks between two REFCLK ticks, to the nearest. -/
def vioTicks (t now : Nat) : Nat := (now - t + 62) / 125

/-- The filter run of a contact after `n` samples of `level` up to tick `now`: it goes on from the run it holds where those samples are all that
it has not seen yet and are of the same level, and else it starts with them (R213). -/
def feedContact (now c : Nat) (b : Bool) (level : Bool) (n : Nat) (x : Contact) : Contact :=
  let due := vioTicks x.upTo now
  let m := min n due
  let base := if x.raw = level ∧ m = due then x.run else 0
  { x with raw := level, run := base + countedSamples now c b m, upTo := now }

/-- What a sample of an input at `v` (0.1 V) reads: closed at 11.0 V or more, open at 7.0 V or less, and between as the previous sample (R575). -/
def readsClosed (prev : Bool) (v : BitVec 16) : Bool := decide (110 ≤ v.toNat) || (prev && decide (70 < v.toNat))

/-- What consecutive samples read, the first of `vs` the earliest. -/
def samplesOf : Bool → List (BitVec 16) → List Bool
  | _, [] => []
  | prev, v :: vs => readsClosed prev v :: samplesOf (readsClosed prev v) vs

/-- CONTACT_FILTER_CHANGE (R213): the contact's raw samples up to this tick. The filtered state takes their level at the tick of the N-th
consecutive unmasked one. -/
def execContactFilterChange (c : BitVec 5) (b : Bool) (v : BitVec 16) (n : Nat) (s : State) : Host.Outcome State Fault Refusal :=
  .next (if contactUsed s c.toNat b && vioTick s then
    let k := c.toNat
    let level := readsClosed (contactOf b (vinOf s k)).raw v
    let x := feedContact s.clk.tick k b level n (contactOf b (vinOf s k))
    let through := decide (filterSamples (vinCfgOf s k).filter ≤ x.run) && !masked s.clk.tick k b
    vinChange k (onContact b (fun _ => { x with closed := if through then level else x.closed })) s
  else s)

/-- DISCREPANCY_EXPIRY (R216): the contacts have differed for DISC_MS. -/
def execDiscrepancyExpiry (c : BitVec 5) (s : State) : Host.Outcome State Fault Refusal :=
  .next (
    let v := vinOf s c.toNat
    match v.differSince with
    | some t =>
      if contactUsed s c.toNat true && !v.discrepant && decide (t + discTicks (vinCfgOf s c.toNat) ≤ s.clk.tick) then
        vinChange c.toNat id s
      else s
    | none => s)

/-- VIN_FAULT (R215, R476). -/
def vinFaultRecord (c : Nat) (b entered : Bool) (s : State) : State :=
  report .vital 0x0301 (0x6000 + c) (byte c ++ byte (b2n b) ++ byte (b2n entered)) [] s

/-- VIN_TEST_SLOT (R214, R215): the contact's test in its own slot, once, from the sample at +95 us on; no test where its last unmasked sample
read open. -/
def execVinTestSlot (c : BitVec 5) (b : Bool) (last : BitVec 16) (vs : List (BitVec 16)) (s : State) :
    Host.Outcome State Fault Refusal :=
  .next (
    let k := c.toNat
    let now := s.clk.tick
    let x := contactOf b (vinOf s k)
    let closed := readsClosed x.raw last
    if contactUsed s k b && inOwnSlot now k b && decide (vs.length = 20) && decide (19 ≤ slotSample now) && decide (x.slot ≠ now / 12500 + 1) then
      let keep := fun (g : Contact → Contact) => onContact b (fun y => { g y with slot := now / 12500 + 1 })
      if !closed then onVio (fun v => { v with vin := smSet VinState.zero v.vin k (keep id (vinOf s k)) }) s
      else if ((samplesOf closed vs).drop 17).all (! ·) then
        let n := x.passes + 1
        if x.fault ∧ 8 ≤ n then
          vinChange k (keep (fun x => { x with fault := false, passes := 0 })) (vinFaultRecord k b false s)
        else onVio (fun v => { v with vin := smSet VinState.zero v.vin k (keep (fun x => { x with passes := min 8 n }) (vinOf s k)) }) s
      else
        let s := if x.fault then s else vinFaultRecord k b true s
        vinChange k (keep (fun x => { x with fault := true, passes := 0 })) s
    else s)

/-- The four bits of a channel: VALUE, CONTACT_A, CONTACT_B and DISCREPANT (R118). -/
def vinBits (v : VinState) : Nat := b2n v.value + 2 * b2n v.contactA + 4 * b2n v.contactB + 8 * b2n v.discrepant

/-- VIO captures every channel (R217): the two words of direct VIO inputs (R118). -/
def capturedWords (s : State) : W64 × W64 :=
  let word := fun (lo : Nat) => BitVec.ofNat 64 ((List.range 16).foldl (fun n c => n + vinBits (vinOf s (lo + c)) * 2 ^ (4 * c)) 0)
  (word 0, word 16)

/-! ### Outputs -/

/-- SOURCE of an output (R463). -/
def voutSource (k : Nat) : Nat := 0x6100 + k

/-- VOUT_FAILED (R225, R476). -/
def voutFailedRecord (k cause : Nat) (s : State) : State := report .vital 0x0302 (voutSource k) (byte k ++ byte cause) [] s

/-- An output is FAILED: held de-energised, every means stopped (R225). -/
def failVout (k cause : Nat) (s : State) : State :=
  onVout k (fun v => { deadVout s.clk.tick v with failed := some cause, retest := false }) (voutFailedRecord k cause s)

/-- VF_LOW keeps the stages of VOUT0 to VOUT15 without energy (R580). -/
def stageDead (s : State) (k : Nat) : Bool := s.mgt.elec.vfLow && decide (k < aliveKey)

/-- The scans in which an output is tested (R222). -/
def testScan (s : State) (k : Nat) : Bool :=
  decide ((scn s).toNat % 256 = (if k = aliveKey then 8 else 16 * k))

/-- The output's command has changed within the 200 us before the test window of the cycle opens (R223). -/
def changedLate (s : State) (v : VoutState) : Bool :=
  decide (s.ctl.followers.vio.lastCi + 500 < v.changedAt + 5000) && decide (v.changedAt ≠ 0)

/-- The output is tested in this cycle's window, CI + 20 us to CI + 80 us (R222, R223, R225). -/
def testedNow (s : State) (k : Nat) : Bool :=
  let v := voutOf s k
  if v.retest then silentRun s else v.failed.isNone && (testScan s k || v.testing) && !changedLate s v

/-- When the judgement that follows a change of command is made: 200 us after it, or 5 us after the close of a test window that it falls in
(R221, R223). -/
def firstJudgement (s : State) (k : Nat) : Nat :=
  let t := (voutOf s k).changedAt + 5000
  let ci := s.ctl.followers.vio.lastCi
  if testedNow s k ∧ ci + 500 ≤ t ∧ t ≤ ci + 2000 then ci + 2125 else t

/-- A read-back judgement is due at this tick: the first one after a change of command, and thereafter 20 us before each cycle instant (R221). -/
def judgementDue (s : State) (k : Nat) : Bool :=
  decide (s.clk.tick = firstJudgement s k) ||
  (decide (firstJudgement s k ≤ s.clk.tick) && decide (s.clk.tick + 500 = s.ctl.followers.vio.lastCi + Config.tscanTicks s.tscan))

/-- A converter reading corrected by the last calibration (R224). -/
def corrected (s : State) (mv : Int) : Int := (mv - s.ctl.vio.calZero) * 24000 / (s.ctl.vio.calFull - s.ctl.vio.calZero)

/-- The current in mA above which an output is judged overloaded (R221, R579). -/
def overloadMa (k : Nat) : Nat := if k = aliveKey then 130 else 650

/-- The cause that a read-back judgement finds, as R476 codes it: none is in order (R221, R576, R580). -/
def judgement (s : State) (k : Nat) (r : Readback) : Option Nat :=
  let mv := corrected s r.mv
  if (voutOf s k).commanded then
    if overloadMa k < r.ma then some 1
    else if mv < 20000 then (if stageDead s k then none else some 2)
    else if r.carrier then none else some 9
  else if 2000 < mv then some 7
  else if r.carrier then some 9 else none

/-- VOUT_READBACK (R221, R225): an output that is FAILED and not under its start's test is still judged for foreign energy. -/
def execVoutReadback (k : BitVec 5) (r : Readback) (s : State) : Host.Outcome State Fault Refusal :=
  .next (
    let v := voutOf s k.toNat
    if k.toNat ≤ aliveKey ∧ domRun s 11 ∧ judgementDue s k.toNat then
      match judgement s k.toNat r with
      | none => s
      | some 7 => if v.failed = some 7 ∧ !v.retest then s else onElec (fun e => { e with foreignEnergy := true }) (failVout k.toNat 7 s)
      | some c => if v.failed.isSome && !v.retest then s else failVout k.toNat c s
    else s)

/-- VOUT_OVERCURRENT (R221, R579): current above 0.65 A, or 0.13 A of MODULE_ALIVE, closes the gate; the output is FAILED. -/
def execVoutOvercurrent (k : BitVec 5) (ma : Nat) (s : State) : Host.Outcome State Fault Refusal :=
  .next (
    let v := voutOf s k.toNat
    if k.toNat ≤ aliveKey ∧ domRun s 11 ∧ v.failed.isNone ∧ v.commanded ∧ overloadMa k.toNat < ma then failVout k.toNat 1 s else s)

/-- The cause that a test finds from the secondary carrier after each step: the dark test's first failing step, or the bright test's (R222). -/
def testCause (energised : Bool) (c1 c2 c3 : Bool) : Option Nat :=
  if energised then (if c1 then some 3 else if c2 then some 4 else if c3 then some 5 else none)
  else if c1 || c2 then some 6 else if !c3 then some 2 else none

/-- VOUT_TEST_WINDOW (R222, R223, R225): the cycle's test window, CI + 20 us to CI + 80 us. A command changed within 200 us before the window
moves the test to a later scan; outputs listed as FAILED at a start are tested again in a silent scan. VF_LOW leaves out bright step 3 (R580). -/
def execVoutTestWindow (k : BitVec 5) (c1 c2 c3 : Bool) (s : State) : Host.Outcome State Fault Refusal :=
  .next (
    let n := k.toNat
    let v := voutOf s n
    let ci := s.ctl.followers.vio.lastCi
    if n ≤ aliveKey ∧ domRun s 11 ∧ (voter s).running ∧ (voter s).released ∧ !s.ctl.trip.inForce ∧ ci + 500 ≤ s.clk.tick ∧ s.clk.tick ≤ ci + 2000 then
      let c3 := c3 || (stageDead s n && !v.commanded)
      if v.retest then
        (if silentRun s then
          match testCause false c1 c2 c3 with
          | none => onVout n (fun v => { v with failed := none, retest := false }) s
          | some c => failVout n c s
        else s)
      else if v.failed.isSome || !(testScan s n || v.testing) then s
      else if changedLate s v then onVout n (fun v => { v with testing := true }) s
      else
        let s := onVout n (fun v => { v with testing := false }) s
        match testCause v.commanded c1 c2 c3 with
        | none => s
        | some c => failVout n c s
    else s)

/-- The nominal current of an output: configured, or learned from 64 energised scans (R212, R224). -/
def nominalMa (s : State) (k : Nat) : Nat :=
  match (smGet VoutCfg.zero s.ctl.vio.voutCfg k).loadNom with
  | 0 => (voutOf s k).learned
  | n => n

/-- One scan's mean load current of an energised output (R224). -/
def loadReading (s : State) (p : Nat × Nat) : State :=
  let k := p.1
  let v := voutOf s k
  if aliveKey < k ∨ !v.commanded ∨ v.failed.isSome then s
  else
    let nom := nominalMa s k
    let off := decide (nom ≠ 0) && decide (nom < 2 * (max p.2 nom - min p.2 nom))
    let run := if off then v.offRun + 1 else 0
    let s := if run = 64 then report .general 0x0303 (voutSource k) (byte k ++ le2 nom ++ le2 p.2) [] s else s
    onVout k (fun v =>
      let n := v.learnCount + 1
      if v.learnCount < 64 then
        { v with offRun := run, learnCount := n, learnSum := v.learnSum + p.2,
                 learned := if n = 64 then (v.learnSum + p.2) / 64 else v.learned }
      else { v with offRun := run }) s

/-- The correction that the two references ask for is beyond its bounds: the gain is the factor that brings their distance to 24.0 V, the offset
what the 0 V reference reads (R224). -/
def beyondBounds (zero full : Int) : Bool :=
  decide (500 < zero) || decide (zero < -500) || decide (105 * (full - zero) < 2400000) || decide (2400000 < 95 * (full - zero))

/-- VOUT_CALIBRATION (R224), once per scan: a correction beyond the bounds fails every output; the scan's mean currents are judged. -/
def execVoutCalibration (zero full : Int) (currents : List (Nat × Nat)) (s : State) : Host.Outcome State Fault Refusal :=
  .next (if !domRun s 11 || (match s.ctl.vio.calAt with | some t => decide (s.ctl.followers.vio.lastCi ≤ t) | none => false) then s
  else
    let s := onVio (fun v => { v with calAt := some s.clk.tick }) s
    if beyondBounds zero full then
      (List.range 17).foldl (fun s k => if (voutOf s k).failed.isSome && !(voutOf s k).retest then s else failVout k 8 s) s
    else currents.foldl loadReading (onVio (fun v => { v with calZero := zero, calFull := full }) s))

/-! ### The direct-VIO word at the cycle instant (R220, R226) -/

/-- The means of one output that a block applies at its mark. -/
inductive Means where | gate | xTrain | yTrain
  deriving DecidableEq, Repr

/-- One output set by its command bit: unused and FAILED outputs stay without drive (R212, R225). -/
def applyOutput (now : Nat) (m : Means) (low : Bool) (cmd : Bool) (v : VoutState) : VoutState :=
  let on := cmd && v.failed.isNone
  match m with
  | .gate => { v with commanded := on, gate := on && !low, changedAt := if v.commanded = on then v.changedAt else now }
  | .xTrain => { v with xTrain := on }
  | .yTrain => { v with yTrain := on }

/-- The direct-VIO word of a scan applied by one block, MODULE_ALIVE with it (R220, R226, R246). -/
def applyWord (m : Means) (word : W64) (s : State) : State :=
  (List.range 17).foldl (fun s k =>
    let cmd := if k = aliveKey then true else word.getLsbD k && (smGet VoutCfg.zero s.ctl.vio.voutCfg k).use
    onVout k (applyOutput s.clk.tick m (stageDead s k) cmd) s) s

/-- The voted words of the scan due at a cycle instant: the scan before cycle n, once a scan has been released. -/
def dueScan (s : State) (n : Scn) : Option VotedScan :=
  if (voter s).released then
    [(voter s).now, (voter s).last].find? (fun q => decide (q.scn + 1 = n) && (decide (q.scn = (voter s).now.scn) || !q.words.isEmpty))
  else none

/-- At CI(n+1) the word of scan n is applied; one not received equal from both halves is an X/Y disagreement, in a silent scan
too (R220, R154, R235). -/
def voutApply (m : Means) (n : Scn) (s : State) : State :=
  if !((voter s).running && (voter s).released) || s.ctl.trip.inForce then s
  else match dueScan s n with
    | none => s
    | some q => match delivered q (match m with | .yTrain => Half.y | _ => Half.x) 1024 with
      | none => tripXY s
      | some v => if q.silent then s else applyWord m v s

/-! ### The switch bank and the loop (R227 to R230) -/

/-- A pole sampled: 20 consecutive samples make a debounced state (R227). -/
def samplePole (level : Bool) (p : Pole) : Pole :=
  let run := if level = p.level then min 20 (p.run + 1) else 1
  ⟨if 20 ≤ run then some level else p.debounced, level, run⟩

/-- How long each switch's debounced poles have differed, after the bank was judged (R228). -/
def trackDiff (s : State) : State :=
  if !s.ctl.seals.judged then s
  else onSeal (fun q => { q with diffSince := [1, 2, 3, 4, 5, 6, 7, 8].foldl (fun m i =>
    if poleOn s .x i = poleOn s .y i then smDrop m i
    else if (smFind m i).isSome then m else smPut m i s.clk.tick) q.diffSince }) s

/-- SEAL_FAULT is set at the first sample at which a switch's poles have differed for more than 200 ms (R228). -/
def judgeDiff (s : State) : State :=
  if !s.ctl.seals.fault && s.ctl.seals.diffSince.any (fun p => decide (p.2 + msTicks 200 < s.clk.tick)) then
    sealRecord 1 (debugSwitches (onSeal (fun q => { q with fault := true }) s))
  else s

/-- The half's 1 ms sample is due (R227). -/
def sampleDue (s : State) (h : Half) : Bool :=
  domRun s (match h with | .x => 5 | .y => 6) &&
  (match s.ctl.seals.sampled.get h with | some t => decide (t + 25000 ≤ s.clk.tick) | none => true)

/-- Both halves have taken the sample of this millisecond (R227, R228). -/
def bothSampled (s : State) : Bool :=
  [Half.x, Half.y].all (fun h => match s.ctl.seals.sampled.get h with | some t => decide (s.clk.tick < t + 25000) | none => false)

/-- SWITCH_POLE_SAMPLE (R227): one half samples its pole of every switch, every 1 ms. S7 on, and S8 coming on in SERVICE, are recorded; once both
halves have sampled, poles that have differed for too long set SEAL_FAULT. -/
def execSwitchPoleSample (h : Half) (levels : Byte) (s : State) : Host.Outcome State Fault Refusal :=
  .next (if sampleDue s h then
    let was7 := switchOn s 7
    let was8 := switchOn s 8
    let s := onSeal (fun q => { q with sampled := q.sampled.set h (some s.clk.tick), poles := q.poles.set h ([1, 2, 3, 4, 5, 6, 7, 8].foldl (fun m i =>
      smPut m i (samplePole (levels.getLsbD (i - 1)) (smGet Pole.zero m i))) (q.poles.get h)) }) s
    let s := debugSwitches (trackDiff s)
    let s := if bothSampled s then judgeDiff s else s
    let s := if switchOn s 7 && !was7 then sealRecord 2 s else s
    if switchOn s 8 && !was8 && ctlRuns s && s.mgt.start.service then sealRecord 3 s else s
  else s)

/-- SEAL_FAULT_EXPIRY (R228): at a 1 ms sample a switch's poles have differed for more than 200 ms. -/
def execSealFaultExpiry (s : State) : Host.Outcome State Fault Refusal :=
  .next (if bothSampled s && decide (s.ctl.seals.sampled.x = some s.clk.tick ∨ s.ctl.seals.sampled.y = some s.clk.tick) then judgeDiff s else s)

/-- A loop reading: 0 closed, 1 open, 2 shorted (R229). -/
def loopClass (ohms : Nat) : Nat := if ohms < 20 then 2 else if ohms ≤ 500 then 0 else 1

/-- LOOP_MEASUREMENT (R229, R230), at the release of PD11 and every 100 us from then on: open or shorted after two consecutive readings; opening trips in SERVICE. -/
def execLoopMeasurement (ohms : Nat) (s : State) : Host.Outcome State Fault Refusal :=
  .next (if domRun s 11 && (match s.ctl.vio.loopAt with | some t => decide (t + 2500 ≤ s.clk.tick) | none => true) then
    let c := loopClass ohms
    let was := s.ctl.vio.loop
    let new := if c = 0 ∨ s.ctl.vio.reading = c then c else was
    let s := onVio (fun v => { v with reading := c, loop := new, loopAt := some s.clk.tick }) s
    if was = 0 ∧ new ≠ 0 then
      let s := sealRecord (3 + new) s
      if s.mgt.start.service && ((voter s).released || s.ctl.trip.inForce) then trip 0x0B true s else s
    else s
  else s)

/-! ### The supplies (R232, R580) -/

/-- VF_LOW recorded (R476). -/
def vfRecord (entered : Bool) (v : BitVec 16) (s : State) : State :=
  report .vital 0x0306 0x6000 (byte (b2n entered) ++ le2 v.toNat) [] s

/-- VF_LOW_SET (R580): VF has stayed below 17.0 V for 1 ms; no VOUT can energise. -/
def execVfLowSet (v : BitVec 16) (ticks : Nat) (s : State) : Host.Outcome State Fault Refusal :=
  .next (if domRun s 11 && !s.mgt.elec.vfLow && decide (v.toNat < 170) && decide (25000 ≤ ticks) then
    let s := onElec (fun e => { e with vfLow := true }) (vfRecord true v s)
    (List.range 16).foldl (fun s k => onVout k (fun x => { x with gate := false }) s) s
  else s)

/-- VF_LOW_CLEAR (R580): VF has stayed at 18.0 V or more for 100 ms. -/
def execVfLowClear (v : BitVec 16) (ticks : Nat) (s : State) : Host.Outcome State Fault Refusal :=
  .next (if domRun s 11 && s.mgt.elec.vfLow && decide (180 ≤ v.toNat) && decide (msTicks 100 ≤ ticks) then
    onElec (fun e => { e with vfLow := false }) (vfRecord false v s)
  else s)

/-- SUPPLY_COLLAPSE_WARNING (R232, R471, R478): the 24 V input below 16.0 V for 50 us; the module trips, and MGT flushes the recorder and the
cycle counters. The store has given up charge, and the next start waits until it is charged again (R573, R585). -/
def execSupplyCollapseWarning (v : BitVec 16) (ticks : Nat) (s : State) : Host.Outcome State Fault Refusal :=
  .next (if v.toNat < 160 ∧ 1250 ≤ ticks then
    let s := onStart (fun x => { x with storeCharged := false }) (onTrip (fun t => { t with supplyLow := true, supplyOkSince := none }) s)
    let s := trip 0x0C true s
    let s := recorderFlush s
    if mgtUp s then
      onMgt (fun m => { m with cycles := { m.cycles with persisted := m.cycles.counts, persistedOph := ophHours s } }) s
    else s
  else s)

/-- SUPPLY_RECOVERY (R232): the supply has been at or above 18 V for 100 ms. -/
def execSupplyRecovery (v : BitVec 16) (ticks : Nat) (s : State) : Host.Outcome State Fault Refusal :=
  .next (if 180 ≤ v.toNat ∧ msTicks 100 ≤ ticks then onTrip (fun t => { t with supplyLow := false, supplyOkSince := some s.clk.tick }) s else s)

/-! ### The stars' answers to a trip (R233) -/

/-- STAR_CONFIRMATION (R233, R234): the star's substitution is in force, and a downframe in transmission is ended with an FCS that cannot match. -/
def execStarConfirmation (ch : Chan) (s : State) : Host.Outcome State Fault Refusal :=
  .next (
    let t := s.ctl.trip
    if t.inForce && decide (t.confirm.get ch = .pending) && decide (s.clk.tick ≤ t.t0 + 500) then
      let s := onStar ch (fun x => { x with substitution := true, sent := abortDown s.clk.tick x.sent }) s
      tripSettle (onTrip (fun t => { t with confirm := t.confirm.set ch (.confirmed (s.clk.tick - t.t0)) }) s)
    else s)

/-- STAR_CONFIRM_TIMEOUT (R233): 20 us after t0 a star in RUN has not confirmed. -/
def execStarConfirmTimeout (s : State) : Host.Outcome State Fault Refusal :=
  .next (
    let t := s.ctl.trip
    let miss := fun (c : StarConfirm) => if c = .pending then StarConfirm.missed else c
    if t.inForce && decide (t.t0 + 500 ≤ s.clk.tick) && (t.confirm.a == .pending || t.confirm.b == .pending) then
      tripSettle (onTrip (fun t => { t with confirm := ⟨miss t.confirm.a, miss t.confirm.b⟩ }) s)
    else s)

end Sys2Proof.Machine
end

