-- ==== Sys2Proof/Machine/Marks.lean ====
section
/-! DEFINITION. What the cycle-instant marks bring: the followers and the cycle count (R30 to R33, R48, R49), the admission
snapshot (R19 to R21, R437 to R439) and the publication of the export snapshot (R24, R25, R409). -/

namespace Sys2Proof.Machine

open Sys2Proof

/-! ### Followers -/

def followerOf (s : State) : Follower → FollowerState
  | .x => s.ctl.followers.x
  | .y => s.ctl.followers.y
  | .star .a => s.ctl.followers.a
  | .star .b => s.ctl.followers.b
  | .vio => s.ctl.followers.vio

def onFollower (f : Follower) (g : FollowerState → FollowerState) (s : State) : State :=
  onCtl (fun c =>
    let q := c.followers
    { c with followers := match f with
      | .x => { q with x := g q.x }
      | .y => { q with y := g q.y }
      | .star .a => { q with a := g q.a }
      | .star .b => { q with b := g q.b }
      | .vio => { q with vio := g q.vio } }) s

/-- The domain of a follower (R30). -/
def followerDom : Follower → Nat
  | .x => 5
  | .y => 6
  | .star c => starDom c
  | .vio => 11

/-- The instant at which a follower predicts its next cycle instant, in ns of REFCLK time (R30); none before its first. -/
def predicted (s : State) (f : Follower) : Option Nat :=
  let q := followerOf s f
  if q.seen then some (q.ciNs + tscanNs s) else none

/-- A mark given at `at_` ns belongs to the cycle after the follower's last instant. -/
def markNew (s : State) (f : Follower) (at_ : Nat) : Bool :=
  let q := followerOf s f
  !q.seen || decide (q.ciNs + tscanNs s / 2 ≤ at_)

/-- Where NET's mark of this cycle reaches a follower, `d` ns after NET gave it (R30, R32). -/
def netArrival (s : State) (f : Follower) (d : Option Int) : Option Int :=
  match d, s.data.time.ciMark with
  | some d, some m => if domRun s 2 && markNew s f (m / 65536) then some ((m / 65536 : Nat) + d) else none
  | _, _ => none

/-- Where voter half X's mark of this cycle reaches another follower, `d` ns after X's instant (R31). -/
def xArrival (s : State) (f : Follower) (d : Option Int) : Option Int :=
  let x := s.ctl.followers.x
  match d with
  | some d => if domRun s 5 && f != .x && x.seen && markNew s f x.ciNs then some ((x.ciNs : Int) + d) else none
  | none => none

/-- A mark is accepted within 500 ns of the prediction; a follower that cannot predict yet accepts any (R30; log entry 98). -/
def markOk (pred : Option Nat) (m : Option Int) : Bool :=
  match m, pred with
  | some a, some p => decide ((p : Int) - 500 ≤ a) && decide (a ≤ (p : Int) + 500)
  | some _, none => true
  | none, _ => false

/-- The next source down the ranking; voter half X has only NET and its own predictor (R31). -/
def sourceBelow (f : Follower) : MarkSource → MarkSource
  | .net => match f with | .x => .own | _ => .x
  | .x => .own
  | .own => .own

/-- The ranking after one cycle: 8 misses in a row move down, 16 accepted marks of a higher source move up (R31). -/
def rankStep (f : Follower) (net xm : Bool) (q : FollowerState) : FollowerState :=
  let accepted := match q.source with | .net => net | .x => xm | .own => true
  let missed := if accepted then 0 else q.missed + 1
  let runNet := if q.source ≠ .net && net then q.runNet + 1 else 0
  let runX := if q.source = .own && xm then q.runX + 1 else 0
  if 16 ≤ runNet then { q with source := .net, missed := 0, runNet := 0, runX := 0 }
  else if 16 ≤ runX then { q with source := .x, missed := 0, runNet := 0, runX := 0 }
  else if 8 ≤ missed then { q with source := sourceBelow f q.source, missed := 0, runNet := 0, runX := 0 }
  else { q with missed := missed, runNet := runNet, runX := runX }

/-- The follower's cycle instant in ns: the mark of its source where it accepts it, else its own prediction (R30, R31). A first instant
is that of the highest source that supplies one; voter half Y re-aligns to X in every cycle (R33). -/
def instantOf (s : State) (f : Follower) (net xm : Option Int) : Nat :=
  let p := predicted s f
  let q := followerOf s f
  let own := p.getD (40 * s.clk.tick)
  let pick := fun (m : Option Int) => (m.map Int.toNat).getD own
  match f, p with
  | .y, some _ => if markOk p xm then pick xm
    else if q.source = .net && markOk p net then pick net else own
  | _, none => if net.isSome then pick net else pick xm
  | _, some _ => match q.source with
    | .net => if markOk p net then pick net else own
    | .x => if markOk p xm then pick xm else own
    | .own => own

/-- A cycle instant can be due at a follower: the instant it predicts has come, less the 500 ns of R30, and voter half Y waits up to 1 us
for the instant of X that it compares (R33); before its first, a mark is there, or no source is left to wait for. -/
def markDue (s : State) (f : Follower) (net xm : Option Int) : Bool :=
  domRun s (followerDom f) &&
  (match predicted s f with
   | some p => decide (p ≤ 40 * s.clk.tick + 520) && (f != .y || !domRun s 5 || xm.isSome || decide (p + 1000 < 40 * s.clk.tick))
   | none => net.isSome || xm.isSome || (!domRun s 2 && (f == .x || !domRun s 5)))

/-- The instant that this mark belongs to has been counted by another follower. -/
def countedNow (s : State) : Bool :=
  [Follower.x, .y, .star .a, .star .b, .vio].any (fun f =>
    decide (s.clk.tick < (followerOf s f).lastCi + Config.tscanTicks s.tscan / 2) && decide ((followerOf s f).cycle = s.clk.tb2) &&
    decide (0 < (followerOf s f).cycle))

/-- The follower's cycle instant and the cycle count that accompanies the mark (R49, R308). -/
def passInstant (f : Follower) (net xm : Option Int) (s : State) : State :=
  let p := predicted s f
  let at_ := instantOf s f net xm
  let s := if countedNow s then s else onClk (fun c => { c with tb2 := c.tb2 + 1 }) s
  onFollower f (fun q => { rankStep f (markOk p net) (markOk p xm) q with ciNs := at_, cycle := s.clk.tb2, seen := true }) s

/-! ### What each follower does at the instant -/

/-- The lanes that contend for a channel: those that hold a seat; during silent scans the candidates; before the first
release the lanes loaded (R309). -/
def linkLanes (s : State) : List Lane :=
  if ctlRuns s then (Seat.list.filter (fun k => SeatVotes ((voter s).seats.get k))).filterMap (holder s)
  else if silentRun s && (voter s).released then
    (Seat.list.filter (fun k => !(voter s).test.ineligible.get k)).filterMap (fun k => (voter s).test.cands.get k)
  else if (voter s).running && !s.ctl.trip.inForce then Seat.list.filterMap (fun k => (candidates s).get k)
  else []

/-- The first instant at which a lane's listen timer can expire: 1,000 x (2 T_scan + L) cycles of its own clock of 1 GHz, which may run 2 % fast
(R37, R310). -/
def listenUntil (s : State) (l : Lane) : Nat := s.clk.tick + (2 * Config.tscanUs s.tscan + l.idx) * 49 / 2

/-- COLDSTART_NOTICE (R310): a channel in COLDSTART or NODE_LED notifies every lane; link lanes without a timer start one, with
CSEQ one higher where they have sent before. -/
def coldNotice (ch : Chan) (s : State) : State :=
  match (star s ch).mode with
  | .coldStart | .nodeLed =>
    if (star s ch).winner.isSome then s
    else (linkLanes s).foldl (fun s l => onLane l (fun x =>
      if x.listen.get ch = 0 then { x with listen := x.listen.set ch (listenUntil s l), notice := x.notice.set ch (BitVec.ofNat 32 (followerOf s (.star ch)).cycle) }
      else { x with notice := x.notice.set ch (BitVec.ofNat 32 (followerOf s (.star ch)).cycle) }) s) s
  | _ => s

/-- FIRST_BEACON (R313, R307, R314): the first cycle instant at least 10 us after the winning frame completed, or on a channel in NODE_LED, which has
its beacons, the next. The winner's lane leads a RUNNING channel; a node's win gives NODE_LED under the START schedule. -/
def firstBeacon (ch : Chan) (s : State) : State :=
  match (star s ch).winner with
  | some w =>
    if (star s ch).mode = .nodeLed ∨ (star s ch).firstAfter + 250 ≤ s.clk.tick then
      match w.port, Lane.ofIdx w.rank with
      | none, some l =>
        let once := fun (x : StarState) => x.mode == .nodeLed && decide (w.sched ≠ x.applied)
        onStar ch (fun x => { x with mode := .running, leader := some l, winner := none, contention := [], named := false,
                                     reintAt := if once x then some s.clk.tb2 else none, applied := w.sched, annSched := 0, annCnt := 0 }) s
      | _, _ => onStar ch (fun x => { x with mode := .nodeLed, leader := none, winner := none, contention := [],
                                             applied := s.data.cfg.start }) s
    else s
  | none => s

/-- Voter half X's instant lies more than 1 us from Y's prediction (R33). -/
def halvesApart (s : State) (xm : Option Int) : Bool :=
  match predicted s .y, xm with
  | some p, some a => decide ((p : Int) + 1000 < a) || decide (a < (p : Int) - 1000)
  | _, _ => false

/-- CI_MARK (R30 to R33): `net` and `xm` are how many ns after its issue the mark of NET and of voter half X of this cycle reached
the follower; none where none came. -/
def execCiMark (f : Follower) (net : Option Int) (xm : Option Int) (s : State) : Host.Outcome State Fault Refusal :=
  .next (
    let net := netArrival s f net
    let xm := xArrival s f xm
    if markDue s f net xm then
      let apart := f == .y && halvesApart s xm
      let s := passInstant f net xm s
      let n := BitVec.ofNat 32 (followerOf s f).cycle
      match f with
      | .x => voutApply .xTrain n (cvuAtCi s)
      | .y => voutApply .yTrain n (if apart then tripXY s else s)
      | .vio => voutApply .gate n (onVio (fun v => { v with capture := capturedWords s }) s)
      | .star ch => coldNotice ch (firstBeacon ch s)
    else s)

/-! ### The admission snapshot -/

/-- RESULT of a REQ command (R435, R438). -/
def reqResult (n : Scn) (exact : Bool) : List Byte := le4 n.toNat ++ byte (b2n exact)

/-- Pulses count a snapshot that the lanes take; one that has been carried HOLD times is written 0 (R439). -/
def pulseStep (s : State) : State :=
  let ps := s.mgt.mbx.pulses.map (fun p => { p with left := p.left - 1 })
  let ended := ps.filter (fun p => p.left = 0)
  let s := onMbx (fun m => { m with pulses := ps.filter (fun p => p.left ≠ 0) }) s
  onAdm (fun a => { a with staging := ended.foldl (fun m p => setVarBits p.count p.addr 0 m) a.staging }) s

/-- Commands with SNAP = 1 complete after the snapshot that first carries their writes (R438). -/
def snapDone (n : Scn) (s : State) : State :=
  let s' := s.mgt.mbx.snapWait.foldl (fun s p => finishRef p.1 .ok 0 (reqResult n true) [] s) s
  onMbx (fun m => { m with snapWait := [] }) s'

/-- The 4,096 bytes of an admission snapshot (R453). -/
def admissionBytes (m : SMap W64) : List Byte := (List.range 4096).map (fun j => BitVec.ofNat 8 (varBits 8 (0x022000 + 8 * j) m))

/-- ADMISSION_SNAPSHOT (R19 to R21): at CI(n) - 5 us voter half X takes MGT's staging copy, as it stood at that instant, for the latch at CI(n). `yCheck` is Y's
check value where it differs from X's; `laneFail` are the lanes whose own check fails. -/
def execAdmissionSnapshot (yCheck : Option W64) (laneFail : List Lane) (s : State) : Host.Outcome State Fault Refusal :=
  .next (if domRun s 1 && pastCutoff s then
    let held := s.ctl.adm.cut.getD s.ctl.adm.staging
    let x := Config.admissionCheck held
    let y := yCheck.getD x
    let n := scn s + 1
    let s := snoop 10 0 true true (admissionBytes held) s
    if x ≠ y then
      report .general 0x020B (voterSource .x 0) []
        (le4 n.toNat ++ le4 (x.toNat % 2 ^ 32) ++ le4 (y.toNat % 2 ^ 32))
        (onAdm (fun a => { a with taken := true, discard := true, xCheck := x, yCheck := y, cut := none }) s)
    else
      let s := onAdm (fun a => { a with taken := true, discard := false, xCheck := x, yCheck := y, snapshot := held, cut := none,
                                        laneOk := laneFail.foldl (fun q l => q.set l false) (Quad.all true) }) s
      let s := (laneFail.filter (runs s)).foldl (fun s l => onLane l (laneWithdraw 0x82) s) s
      snapDone n (pulseStep s)
  else s)

/-! ### The export buffer (R410) -/

/-- Byte `k` of a little-endian number. -/
def byteOf (n k : Nat) : Byte := BitVec.ofNat 8 (n / 256 ^ k)

/-- NODE_DIAG of an entry index 2k + c. -/
def diagBytes (q : Snapshot) (i : Nat) : List Byte :=
  let n := smGet NodeLink.zero q.diag (64 * (i % 2) + i / 2)
  byte (b2n n.nfault + 2 * b2n n.nrestr + 4 * b2n n.valid) ++ byte 0 ++
    [1, 2, 3, 4, 5, 6, 7].flatMap (fun r => le2 (min 0xFFFF (smGet 0 n.fails r)))

/-- A FORCE entry. -/
def forceBytes (q : Snapshot) (i : Nat) : List Byte :=
  match q.forces[i]? with
  | some (id, f) => le4 id ++ le2 f.value.toNat ++ byte (1 + b2n f.any) ++ byte 0
  | none => List.replicate 8 0

/-- The first 256 bytes of a buffer. -/
def snapHead (q : Snapshot) : List Byte :=
  le4 q.scn.toNat ++ le2 1 ++ le2 q.forces.length ++ le4 q.imageCrc.toNat ++ le4 q.tripCnt.toNat ++
  [0, 1, 2, 3].flatMap (fun j => le2 (smGet 0#16 q.fseqDone j).toNat ++ byte (smGet 0 q.fresult j) ++ byte 0) ++
  le2 q.oseqDone.toNat ++ byte q.oresult

/-- A byte of the export buffer that holds a snapshot (R410). -/
def snapByte (q : Snapshot) (o : Nat) : Byte :=
  if o < 0x100 then (snapHead q).getD o 0
  else if o < 0x900 then (diagBytes q ((o - 0x100) / 16)).getD ((o - 0x100) % 16) 0
  else if o < 0x1000 then 0
  else if o < 0x3000 then (forceBytes q ((o - 0x1000) / 8)).getD ((o - 0x1000) % 8) 0
  else if o < 0x7F000 then byteOf (smGet 0#64 q.vars ((o - 0x3000) / 8)).toNat ((o - 0x3000) % 8)
  else if o < 0x7FFFC then 0
  else byteOf q.scn.toNat (o - 0x7FFFC)

/-- Bytes of a snapshot. -/
def snapBytes (q : Snapshot) (o n : Nat) : List Byte := (List.range n).map (fun k => snapByte q (o + k))

/-! ### Export publication -/

/-- The seats whose state digest of the scan agreed in voter half X (R24). -/
def digestSeats (s : State) : List Seat :=
  Seat.list.filter (fun k => SeatVotes ((voter s).seats.get k) && decide ((wordOf s .x 1025).judged.get k = .agreeing))

/-- A snapshot of the scan may be published: voted without a trip, with at least two seats' digests agreed, and so never in SINGLE (R24; log
entry 14). -/
def publishable (s : State) : Bool := ctlRuns s && commitComplete s .x && decide (2 ≤ (digestSeats s).length)

/-- The snapshot of the scan as the supplying lane holds it (R248, R410). -/
def snapshotOf (s : State) (l : Lane) : Snapshot :=
  let f := s.ctl.force
  ⟨scn s, (match runImage s with | some i => i.hdrCrc | none => 0), s.mgt.exp.tripCnt, f.slotSeen, f.slotResult, f.oseqSeen,
   f.oseqResult, (lane s l).nodes, forceTable s, (lane s l).core.vars⟩

/-- The outgoing images of both boundary ports in a lane's store (R122). -/
def outgoingWords (m : SMap W64) : SMap W64 :=
  m.filter (fun p => (decide (2128 ≤ p.1) && decide (p.1 < 2134)) || (decide (2160 ≤ p.1) && decide (p.1 < 2166)))

/-- A selected publication of scan n begins a subscription's parts anew; those of the snapshot before that were not sent are
abandoned and counted (R415, R443). -/
def streamAt (n : Scn) (x : ExpSub) : ExpSub :=
  if decide (0 < x.divide) && decide (n.toNat % x.divide = 0) then
    { x with current := some (n, 0), abandoned := x.abandoned + (match x.current with | some (_, k) => x.parts - k | none => 0) }
  else x

/-- EXPORT_PUBLICATION (R24, R25, R409): at CI(n+1) - 10 us the snapshot of scan n replaces the buffer that is not current; one
not yet assembled is not published. -/
def execExportPublication (assembled : Bool) (s : State) : Host.Outcome State Fault Refusal :=
  .next (
    let shown := s.mgt.exp.valid && decide (s.mgt.exp.scn = scn s)
    match (digestSeats s).head?.bind (holder s) with
    | none => s
    | some l =>
      if publishable s && !shown && decide (nextCi s .x ≤ s.clk.tick + 250) then
        if !assembled then
          report .general 0x0606 (voterSource .x 0) [] (scnLe s) s
        else
          let s := onNet (fun n => { n with outgoing := some (scn s, outgoingWords (lane s l).core.vars) }) s
          if domRun s 1 then
            let shot := snapshotOf s l
            let q := some shot
            let s := snoop 11 0 true true (snapBytes shot 0 0x80000) s
            onExp (fun e =>
              let subs := e.subs.map (fun (p : Nat × ExpSub) => (p.1, streamAt (scn s) p.2))
              if e.valid && !e.cur then { e with buf1 := q, cur := true, valid := true, scn := scn s, subs := subs }
              else { e with buf0 := q, cur := false, valid := true, scn := scn s, subs := subs }) s
          else s
      else s)

end Sys2Proof.Machine
end

