-- ==== Sys2Proof/Machine/Time.lean ====
section
/-! DEFINITION. Station time (R357 to R374): the servos, the time states, slews, the time map and the time anchors. -/

namespace Sys2Proof.Machine

open Sys2Proof

/-! ### Clocks -/

/-- NET runs with a configuration (R376). -/
def netUp (s : State) : Bool := domRun s 2 && s.data.net.cfg.isSome

/-- The virtual clock of a servo in ns (R364). -/
def vclock (s : State) (v : Servo) : Int := (tb1 s : Int) + v.vOff

/-- The domain that a time state selects: `true` is the secondary (R368). -/
def selectedDomain (m : TimeMode) : Option Bool :=
  match m with
  | .lockedPrimary => some false
  | .lockedSecondary => some true
  | _ => none

def servoOf (t : TimeState) (sec : Bool) : Servo := if sec then t.s else t.p
def onServo (sec : Bool) (f : Servo → Servo) (s : State) : State :=
  onTime (fun t => if sec then { t with s := f t.s } else { t with p := f t.p }) s

/-- STATE (R369). -/
def timeCode : TimeMode → Nat
  | .free => 0
  | .holdover => 1
  | .lockedSecondary => 2
  | .lockedPrimary => 3

/-- DIFF saturated to 16 bits (R369). -/
def diffField (d : Int) : Nat := ofSigned 16 (clampI d (-32767) 32767)

/-- TIME_STATUS (R369). -/
def timeStatus (s : State) : W32 :=
  let t := s.data.time
  BitVec.ofNat 32 (timeCode t.mode * 2 ^ 30 + b2n t.valid * 2 ^ 29 + b2n t.slew.isSome * 2 ^ 28 + b2n t.p.locked * 2 ^ 27 +
    b2n t.s.locked * 2 ^ 26 + b2n t.diff.isSome * 2 ^ 25 + b2n t.fault * 2 ^ 24 + b2n t.settled * 2 ^ 23 +
    diffField (t.diff.getD 0))

/-- The difference between the selected virtual clock and TB0, in units of 2^-16 ns (R365). -/
def stepTo (s : State) (sec : Bool) : Int := vclock s (servoOf s.data.time sec) * 65536 - s.data.time.tb0

/-- A phase adjustment: forward at once, backward by holding the clock (R359). -/
def adjust (d : Int) (t : TimeState) : TimeState :=
  if 0 ≤ d then { t with tb0 := t.tb0 + d.toNat } else { t with hold := t.hold + (-d).toNat }

/-- 50 ns and 1 ms in units of 2^-16 ns (R365, R366). -/
def fiftyNs : Int := 50 * 65536
def oneMs : Int := 1000000 * 65536

/-- TB0 follows a newly selected domain: at once below 50 ns, else by a slew (R365, R366). -/
def switchTo (sec : Bool) (s : State) : State :=
  let d := stepTo s sec
  let s := onTime (fun t => { t with freq := (servoOf t sec).freq }) s
  if absI d < fiftyNs then onTime (fun t => { adjust d t with slew := none, fault := false }) s
  else
    let s := onTime (fun t => { t with slew := some d, fault := decide (oneMs < absI d) }) s
    if oneMs < absI d then report .vital 0x0602 0x1000 (leBytes 8 (ofSigned 64 (d / 65536))) [] s else s

/-- The acquisition (R367). -/
def acquire (sec : Bool) (s : State) : State :=
  onTime (fun t => { t with tb0 := (vclock s (servoOf t sec)).toNat * 65536, resid := 0, hold := 0, valid := true,
                            freq := (servoOf t sec).freq, slew := none }) s

/-! ### Anchors and the time map (R372, R464) -/

def tb0Sec (n : Nat) : Nat := n / 65536000000000
def tb0Ns (n : Nat) : Nat := n / 65536 % 1000000000
def tb0Frac (n : Nat) : Nat := n % 65536

/-- The data of a time anchor (R464). -/
def anchorData (s : State) : List Byte :=
  let t := s.data.time
  let dom := match selectedDomain t.mode, s.data.net.cfg with
    | some sec, some c => if sec then c.domS else c.domP
    | _, _ => 0xFF
  leBytes 6 (tb0Sec t.tb0) ++ le2 0 ++ le4 (tb0Ns t.tb0) ++ le2 (tb0Frac t.tb0) ++ byte (timeCode t.mode) ++ byte dom ++
    leBytes 8 s.clk.tb2 ++ le2 (tb1 s % 1000) ++ le2 0

/-- A time anchor into both rings (R464). -/
def anchor (s : State) : State :=
  let b := anchorData s
  onRec (fun m => { m with reports := m.reports ++ [kindReport s .vital 1 0x0804 b, kindReport s .general 1 0x0804 b] }) s

/-- The time map: TB2 and the TB0 value of its cycle instant, which the clock passed at its present rate (R358, R372). -/
def mapNow (s : State) : State :=
  let since : Int := 65536 * ((40 * s.clk.tick : Nat) - s.ctl.followers.x.ciNs : Int)
  let t0 := ((s.data.time.tb0 : Int) - since - since * s.data.time.freq / 1099511627776).toNat
  onTime (fun t => { t with map := some ⟨s.clk.tb2, tb0Sec t0, tb0Ns t0, tb0Frac t0, timeCode t.mode⟩ }) s

/-- TIME_MAP_RECORD (R372): every 2^16 cycles while TB0 is valid. -/
def execTimeMapRecord (s : State) : Host.Outcome State Fault Refusal :=
  .next (
    let due := match s.data.time.map with
      | some m => decide (m.tb2 + 65536 ≤ s.clk.tb2) || decide (s.clk.tb2 < m.tb2)
      | none => true
    if mgtUp s && domRun s 2 && s.data.time.valid && due then mapNow s else s)

/-! ### Time states (R368) -/

/-- FREQ of a servo averaged over its last 64 computations (R368); the mean is rounded down (DESIGN CHOICE, log entry 118). -/
def meanFreq (v : Servo) : Int := if v.freqs.isEmpty then v.freq else v.freqs.sum / v.freqs.length

/-- A change of time state: the record, the event, and what the new state selects (R366 to R368, R372, R464). -/
def enterTime (m : TimeMode) (s : State) : State :=
  let old := s.data.time.mode
  if m = old then s
  else
    let s := report .general 0x0601 0x1000 (byte (timeCode old) ++ byte (timeCode m)) (le2 (diffField (s.data.time.diff.getD 0))) s
    let s := onTime (fun t => { t with mode := m, holdSince := s.clk.tick }) s
    let s := match m, selectedDomain m with
      | _, some sec =>
        let s := if s.data.time.valid then switchTo sec s else acquire sec s
        mapNow (anchor s)
      | .holdover, none =>
        onTime (fun t => { t with slew := none,
                                  freq := match selectedDomain old with | some sec => meanFreq (servoOf t sec) | none => t.freq }) s
      | _, none => onTime (fun t => { t with slew := none, freq := 0 }) s
    raise 0x0008 (le4 (timeStatus s).toNat) (alert 3 s)

/-- The rows of R368 that a servo's lock decides. -/
def judgeTime (s : State) : State :=
  let t := s.data.time
  match t.mode, t.p.locked, t.s.locked with
  | .free, true, _ => enterTime .lockedPrimary s
  | .free, false, true => enterTime .lockedSecondary s
  | .holdover, true, _ => enterTime .lockedPrimary s
  | .holdover, false, true => enterTime .lockedSecondary s
  | .lockedPrimary, false, true => enterTime .lockedSecondary s
  | .lockedPrimary, false, false => enterTime .holdover s
  | .lockedSecondary, true, false => enterTime .lockedPrimary s
  | .lockedSecondary, false, false => enterTime .holdover s
  | _, _, _ => s

/-- A servo unlocks (R364). -/
def unlock (sec : Bool) (s : State) : State :=
  judgeTime (onTime (fun t => { t with diff := none }) (onServo sec (fun v => { v with locked := false, good := 0, bad := 0 }) s))

/-! ### Servos (R362 to R365) -/

/-- FREQ is limited to 200 ppm (R358). -/
def freqLimit (f : Int) : Int := clampI f (-219902325) 219902325

/-- A servo after an offset computation in ns (R364). -/
def servoStep (now : Nat) (off : Int) (v : Servo) : Servo :=
  let good := if absI off ≤ 1000 then min 8 (v.good + 1) else 0
  let bad := if 10000 < absI off then v.bad + 1 else 0
  let locked := if v.locked then decide (bad < 4) else decide (8 ≤ good)
  let freq := freqLimit (Config.servoFreq off v.freq)
  { v with offset := off, vOff := v.vOff - Config.servoPhase off, freq := freq, freqs := (v.freqs ++ [freq]).drop (v.freqs.length + 1 - 64),
           good := if v.locked && !locked then 0 else good, bad := if locked then bad else 0, locked := locked,
           lockedAt := if locked && !v.locked then now else v.lockedAt }

/-- DIFF at a primary offset computation while both servos are locked (R364). -/
def updateDiff (sec : Bool) (s : State) : State :=
  onTime (fun t =>
    if t.p.locked && t.s.locked then (if sec then t else { t with diff := some (vclock s t.s - vclock s t.p) })
    else { t with diff := none }) s

/-- The servo of the selected domain steers TB0 between switches (R365). -/
def steer (sec : Bool) (s : State) : State :=
  if selectedDomain s.data.time.mode = some sec then
    let d := stepTo s sec
    let s := onTime (fun t => { t with freq := (servoOf t sec).freq }) s
    if s.data.time.slew.isNone && decide (absI d < fiftyNs) then onTime (adjust d) s else s
  else s

/-- An offset computation of a domain (R364, R365, R368). -/
def computeOffset (sec : Bool) (off : Int) (s : State) : State :=
  steer sec (judgeTime (updateDiff sec (onServo sec (servoStep s.clk.tick off) s)))

/-- The configured asymmetry of a port in ns, and the domain and profile that it carries (R363, R373, R376). -/
def portAsym (c : NetCfg) (p : Nat) : Int := if p < 4 then (smGet NetPortCfg.zero c.net p).asym else (smGet BndCfg.zero c.bnd (p - 4)).asym
def portP (c : NetCfg) (p : Nat) : Bool := if p < 4 then (smGet NetPortCfg.zero c.net p).ptpP else (smGet BndCfg.zero c.bnd (p - 4)).ptpP
def portS (c : NetCfg) (p : Nat) : Bool := if p < 4 then (smGet NetPortCfg.zero c.net p).ptpS else (smGet BndCfg.zero c.bnd (p - 4)).ptpS
def portP2p (c : NetCfg) (p : Nat) : Bool := if p < 4 then (smGet NetPortCfg.zero c.net p).p2p else (smGet BndCfg.zero c.bnd (p - 4)).p2p
def portTwoStep (c : NetCfg) (p : Nat) : Bool :=
  if p < 4 then (smGet NetPortCfg.zero c.net p).twoStep else (smGet BndCfg.zero c.bnd (p - 4)).twoStep

/-- What a port's receive path adds before its time stamp, in ns: measured by PHY loopback, fixed on the boundary ports (R373). -/
def ingress (s : State) (p : Nat) : Int := if p < 4 then ((smGet (0, 0) s.data.net.latency p).1 : Int) else 312
/-- What a port's send path adds after its time stamp, in ns (R373). -/
def egress (s : State) (p : Nat) : Int := if p < 4 then ((smGet (0, 0) s.data.net.latency p).2 : Int) else 208
/-- A time stamp has a resolution of 8 ns (R373). -/
def stamp (t : Int) : Int := t / 8 * 8
/-- The MDI time of a message received now, in ns of TB1 (R373). -/
def receivedAt (s : State) (m : PtpMsg) : Int := stamp ((tb1 s : Int) + m.sub) - ingress s m.port

/-- The domain of a message that the port carries; a message of another domain is discarded (R363). -/
def domainOf (s : State) (m : PtpMsg) : Option Bool :=
  match s.data.net.cfg with
  | some c =>
    if 6 ≤ m.port then none
    else if m.domain = c.domP ∧ portP c m.port then some false
    else if m.domain = c.domS ∧ portS c m.port ∧ c.secEn then some true
    else none
  | none => none

/-- A message that NET takes in its domain; any other is discarded and counted (R363). -/
def ptpTake (m : PtpMsg) (act : Bool → State → State) (s : State) : State :=
  if !netUp s then s
  else match domainOf s m with
    | some sec => act sec s
    | none => onNet (fun n => { n with discarded := n.discarded + 1 }) s

/-- The master that the best master clock algorithm selected. -/
def fromMaster (s : State) (sec : Bool) (m : PtpMsg) : Bool := decide ((servoOf s.data.time sec).master = some m.master)

/-- Offset of a Sync received at `rx` (TB1 in ns) with corrected origin time `t1` (R364, R373). -/
def syncOffset (s : State) (sec : Bool) (p : Nat) (rx t1 : Int) : State :=
  let v := servoOf s.data.time sec
  let asym := match s.data.net.cfg with | some c => portAsym c p | none => 0
  let d := smGet 0 v.delays p
  computeOffset sec (rx + v.vOff - t1 - d - asym) (onServo sec (fun v => { v with meanDelay := d, syncAt := smPut v.syncAt p (t1, rx) }) s)

/-- PTP_SYNC (R362, R364): a one-step Sync gives an offset; a two-step one waits for its Follow_Up. -/
def execPtpSync (m : PtpMsg) (s : State) : Host.Outcome State Fault Refusal :=
  .next (ptpTake m (fun sec s =>
    if fromMaster s sec m && decide (-7 ≤ m.interval) && decide (m.interval ≤ 1) then
      let rx := receivedAt s m - m.corr
      let s := onServo sec (fun v => { v with lastSync := s.clk.tick, interval := m.interval }) s
      if m.twoStep then onServo sec (fun v => { v with pending := some (m.seq, rx.toNat) }) s
      else syncOffset s sec m.port rx m.time
    else s) s)

/-- PTP_FOLLOW_UP (R362): matched by sequenceId. -/
def execPtpFollowUp (m : PtpMsg) (s : State) : Host.Outcome State Fault Refusal :=
  .next (ptpTake m (fun sec s =>
    match (servoOf s.data.time sec).pending with
    | some (q, rx) =>
      if fromMaster s sec m && decide (q = m.seq) then
        syncOffset (onServo sec (fun v => { v with pending := none, lastSync := s.clk.tick }) s) sec m.port rx (m.time + m.corr)
      else s
    | none => s) s)

/-- Ticks of a log message interval (R362). -/
def intervalTicks (i : Int) : Nat := if 0 ≤ i then 25000000 * 2 ^ i.toNat else 25000000 / 2 ^ (-i).toNat

/-- A master's place in the default best master clock algorithm, first field first (R362; PRESUMED from IEEE 1588-2019, log entry 119). -/
def masterRank (f : Foreign) : List Nat :=
  [f.data.prio1, f.data.cls, f.data.accuracy, f.data.variance, f.data.prio2, f.data.gm.toNat, f.data.steps, f.master.1.toNat, f.master.2, f.port]

/-- The first of two lists in the order of their first differing element. -/
def ranksBelow : List Nat → List Nat → Bool
  | a :: as, b :: bs => decide (a < b) || (decide (a = b) && ranksBelow as bs)
  | _, _ => false

/-- A master qualifies by two Announces within four announce intervals; its Announces have not timed out, by three (PRESUMED, log entry 119). -/
def qualified (now : Nat) (f : Foreign) : Bool :=
  decide (now < f.last + 3 * intervalTicks f.interval) &&
  (match f.prev with | some p => decide (f.last < p + 4 * intervalTicks f.interval) | none => false)

/-- The master that the best master clock algorithm selects for a domain (R362). -/
def bestMaster (now : Nat) (v : Servo) : Option Foreign :=
  (v.foreign.filter (qualified now)).foldl (fun b f => match b with
    | none => some f
    | some g => if ranksBelow (masterRank f) (masterRank g) then some f else some g) none

/-- The algorithm selects anew: with another master the servo must qualify again (R364). -/
def selectMaster (sec : Bool) (s : State) : State :=
  let v := servoOf s.data.time sec
  let best := (bestMaster s.clk.tick v).map (·.master)
  if best = v.master then s
  else
    let s := onServo sec (fun v => { v with master := best, pending := none, reqAt := [], good := 0, bad := 0 }) s
    if v.master.isSome then unlock sec s else s

/-- An Announce enters the list of a domain's masters. -/
def noteAnnounce (now : Nat) (m : PtpMsg) (fs : List Foreign) : List Foreign :=
  match fs.find? (fun f => decide (f.master = m.master ∧ f.port = m.port)) with
  | some g => fs.map (fun f => if f = g then { g with data := m.data, interval := m.interval, last := now, prev := some g.last } else f)
  | none => fs ++ [⟨m.master, m.port, m.data, m.interval, now, none⟩]

/-- PTP_ANNOUNCE (R362, R364): the best master clock algorithm of the domain takes it in; a change of the selected master unlocks the servo. -/
def execPtpAnnounce (m : PtpMsg) (s : State) : Host.Outcome State Fault Refusal :=
  .next (ptpTake m (fun sec s =>
    if decide (-3 ≤ m.interval) && decide (m.interval ≤ 3) then
      selectMaster sec (onServo sec (fun v => { v with foreign := noteAnnounce s.clk.tick m v.foreign }) s)
    else s) s)

/-- A path delay measured on a port. -/
def delayTaken (sec : Bool) (p : Nat) (d : Int) (s : State) : State :=
  onServo sec (fun v => { v with reqAt := smDrop v.reqAt p, delays := smPut v.delays p d, meanDelay := d }) s

/-- PTP_DELAY_RESP (R362, R364): the mean path delay of the request-response profile, from the port's last Sync and this request. -/
def execPtpDelayResp (m : PtpMsg) (s : State) : Host.Outcome State Fault Refusal :=
  .next (ptpTake m (fun sec s =>
    let v := servoOf s.data.time sec
    match smFind v.reqAt m.port, smFind v.syncAt m.port, s.data.net.cfg with
    | some (q, t3), some (t1, t2), some c =>
      if fromMaster s sec m && decide (q = m.seq) && !portP2p c m.port then
        delayTaken sec m.port (((t2 - t1) + (m.time - m.corr - t3)) / 2)
          (onServo sec (fun v => { v with reqEvery := smPut v.reqEvery m.port m.interval }) s)
      else s
    | _, _, _ => s) s)

/-- PTP_PDELAY_RESP (R362, R364): the peer delay, from the peer's receipt and answer times. -/
def execPtpPdelayResp (m : PtpMsg) (s : State) : Host.Outcome State Fault Refusal :=
  .next (ptpTake m (fun sec s =>
    match smFind (servoOf s.data.time sec).reqAt m.port, s.data.net.cfg with
    | some (q, t1), some c =>
      if decide (q = m.seq) && portP2p c m.port then
        delayTaken sec m.port ((receivedAt s m - t1 - (m.time2 - m.time) - m.corr) / 2)
          (onServo sec (fun v => { v with reqEvery := smPut v.reqEvery m.port m.interval }) s)
      else s
    | _, _ => s) s)

/-- PTP_PDELAY_REQ (R362): answered one-step, or in two steps with a Follow_Up, as the port's entry says. -/
def execPtpPdelayReq (m : PtpMsg) (s : State) : Host.Outcome State Fault Refusal :=
  .next (ptpTake m (fun _ s =>
    match s.data.net.cfg with
    | some c => if portP2p c m.port then onNet (fun n => { n with sentPdelay := n.sentPdelay + (if portTwoStep c m.port then 2 else 1) }) s else s
    | none => s) s)

/-- DELAY_REQ_SEND (R362): a Delay_Req, or a Pdelay_Req under the peer-to-peer profile, at the interval that the master sets; until it has set
one, a second (PRESUMED, log entry 119). -/
def execDelayReqSend (port : Nat) (sec : Bool) (p2p : Bool) (s : State) : Host.Outcome State Fault Refusal :=
  .next (match s.data.net.cfg with
    | some c =>
      let v := servoOf s.data.time sec
      let due := match smFind v.reqLast port with | some t => decide (t + intervalTicks (smGet 0 v.reqEvery port) ≤ s.clk.tick) | none => true
      if domRun s 2 && decide (port < 6) && (if sec then portS c port && c.secEn else portP c port) && (portP2p c port == p2p) && due then
        let t := (stamp (tb1 s : Int) + egress s port).toNat
        let q := s.data.net.sentDelayReq % 65536
        onNet (fun n => { n with sentDelayReq := n.sentDelayReq + 1 })
          (onServo sec (fun v => { v with reqAt := smPut v.reqAt port (q, t), reqLast := smPut v.reqLast port s.clk.tick }) s)
      else s
    | none => s)

/-- SYNC_TIMEOUT (R364): three sync intervals without a Sync or Follow_Up from the selected master. -/
def execSyncTimeout (sec : Bool) (s : State) : Host.Outcome State Fault Refusal :=
  .next (
    let v := servoOf s.data.time sec
    if netUp s && v.locked && decide (v.lastSync + 3 * intervalTicks v.interval ≤ s.clk.tick) then unlock sec s else s)

/-- ANNOUNCE_TIMEOUT (R364): the Announces of a domain's master have timed out; the algorithm selects anew, and where they have on every member port
no master is selected any more. -/
def execAnnounceTimeout (sec : Bool) (s : State) : Host.Outcome State Fault Refusal :=
  .next (if netUp s then
    selectMaster sec (onServo sec (fun v => { v with foreign := v.foreign.filter (fun f =>
      decide (s.clk.tick < f.last + 3 * intervalTicks f.interval)) }) s)
  else s)

/-- PRIMARY_REVERT (R368): the primary has been locked for 60 s without interruption, REVERT = 1. -/
def execPrimaryRevert (s : State) : Host.Outcome State Fault Refusal :=
  .next (match s.data.net.cfg with
    | some c =>
      let t := s.data.time
      if domRun s 2 && c.revert && decide (t.mode = .lockedSecondary) && t.p.locked && decide (t.p.lockedAt + msTicks 60000 ≤ s.clk.tick) then
        enterTime .lockedPrimary s
      else s
    | none => s)

/-- HOLDOVER_EXPIRY (R368). -/
def execHoldoverExpiry (s : State) : Host.Outcome State Fault Refusal :=
  .next (match s.data.net.cfg with
    | some c =>
      let t := s.data.time
      if domRun s 2 && decide (t.mode = .holdover) && decide (t.holdSince + 25000000 * c.holdoverS ≤ s.clk.tick) then enterTime .free s else s
    | none => s)

/-- SLEW_COMPLETE (R365, R366): the difference is below 50 ns, and the remainder is applied. -/
def execSlewComplete (s : State) : Host.Outcome State Fault Refusal :=
  .next (match s.data.time.slew, selectedDomain s.data.time.mode with
    | some _, some sec =>
      let d := stepTo s sec
      if domRun s 2 && decide (absI d < fiftyNs) then onTime (fun t => { adjust d t with slew := none, fault := false }) s else s
    | _, _ => s)

end Sys2Proof.Machine
end

