-- ==== Sys2Proof/Machine/Mailbox.lean ====
section
/-! DEFINITION. The mailbox transport (R386 to R408): rings, the fetch of descriptors, completions, events, interrupts, the PCIe
reset paths and DTLS sessions; the two ring commands (R424, R425). -/

namespace Sys2Proof.Machine

open Sys2Proof

/-! ### Rings (R396 to R398) -/

/-- Where the command queue of a ring number stands: general rings under their number, the PCIe admin queue at 0, a session's at
512 + 2n. -/
def cmdKey (session : Option Nat) (r : Nat) : Nat :=
  if r ≠ 0 then r else match session with
    | none => 0
    | some n => 512 + 2 * n

/-- Where its completion queue stands: the PCIe admin queue's at 256, a session's at 513 + 2n. -/
def cplKey (s : State) (session : Option Nat) (r : Nat) : Nat :=
  if r ≠ 0 then (ringOf s r).cplRing else match session with
    | none => 256
    | some n => 513 + 2 * n

/-- The ring exists. -/
def ringThere (r : RingS) : Bool := decide (r.rtype ≠ 0)

/-- Entries of a ring. -/
def ringSize (r : RingS) : Nat := 2 ^ r.log2

/-- Entries produced and not consumed (R397). -/
def ringUsed (r : RingS) : Nat := (r.prod + ringSize r - r.cons) % ringSize r

/-- The ring is full: one entry stays unused (R397). -/
def ringFull (r : RingS) : Bool := decide ((r.prod + 1) % ringSize r = r.cons)

/-- The PCIe admin completion queue has no register that takes its consumer index: it is never full (log entry 15). -/
def ringHasRoom (key : Nat) (r : RingS) : Bool := decide (key = 256) || !ringFull r

/-- A fresh ring (R397, R425). -/
def newRing (rtype : Nat) (session : Option Nat) (log2 : Nat) : RingS :=
  { RingS.zero with rtype := rtype, state := 1, session := session, log2 := log2, coalEntries := 1 }

/-- The message of a ring's vector, and the count towards the next (R405). -/
def ringMessage (key : Nat) (s : State) : State :=
  let v := (ringOf s key).vector
  let s := onRing key (fun r => { r with unsent := 0, firstAt := none }) s
  if s.power.pcieDown then s else sendVector v s

/-! ### Datagrams of the module (R399, R406) -/

/-- A completion or event entry (R399). -/
def cplBytes (e : Completion) : List Byte :=
  le2 e.tag ++ le2 e.opcode ++ byte e.status.code ++ byte e.ring ++ le2 (e.cmdIndex % 4096) ++ le4 e.dataDone ++ le2 e.estMs ++ le2 (b2n e.dup) ++
  padTo 12 e.result ++ le4 (2 ^ 31 * b2n e.phase)

/-- An entry of a host ring as a datagram carries it: a completion with its data, padded to a multiple of 8 (R406). -/
def carried (rtype : Nat) (e : Completion) : List Byte :=
  if rtype = 4 then e.data else if rtype = 2 then cplBytes e ++ padTo (8 * ceilDiv e.data.length 8) e.data else cplBytes e

def onSession (n : Nat) (f : Session → Session) (s : State) : State :=
  onMbx (fun m => { m with sessions := m.sessions.map (fun x => if x.id = n then f x else x) }) s

/-- A datagram to the host: its header, big-endian, and what it carries (R406). -/
def dsend (n type ring count index : Nat) (body : List Byte) (s : State) : State :=
  onSession n (fun x => { x with
    dseq := x.dseq + 1,
    datagram := byte 1 ++ byte type ++ byte ring ++ byte count ++ beBytes 2 index ++ beBytes 2 0 ++ beBytes 4 x.dseq.toNat ++ beBytes 4 0 ++ body }) s

/-- The ring number that a datagram gives a queue: 0 for a session's admin pair (R406). -/
def wireRing (key : Nat) : Nat := if key < 256 then key else 0

/-- TYPE of the datagrams that carry a host ring's entries (R406). -/
def wireType (rtype : Nat) : Nat := match rtype with | 2 => 3 | 3 => 5 | _ => 6

/-- The entry of a ring at an index goes to the session that owns the ring (R406). -/
def sendEntry (key n i : Nat) (s : State) : State :=
  let r := ringOf s key
  match smFind r.slots i with
  | some e => dsend n (wireType r.rtype) (wireRing key) 1 i (carried r.rtype e) s
  | none => s

/-- An entry is written to a ring of the host; PHASE inverts on each wrap (R399), a PCIe ring counts it (R405), and a session's is sent (R406). -/
def writeEntry (key : Nat) (e : Completion) (s : State) : State :=
  let s := onRing key (fun r =>
    let n := r.prod + 1
    { r with slots := smPut r.slots r.prod { e with phase := r.phase }, prod := n % ringSize r,
             phase := if n = ringSize r then !r.phase else r.phase, unsent := r.unsent + 1,
             firstAt := match r.firstAt with | some t => some t | none => some s.clk.tick }) s
  let r := ringOf s key
  match r.session with
  | some n => sendEntry key n ((r.prod + ringSize r - 1) % ringSize r) s
  | none => if r.coalEntries ≤ r.unsent then ringMessage key s else s

/-! ### What ends rings (R393, R408) -/

/-- Rings that a transport or session owns are destroyed; what is in flight from them runs on without a completion. -/
def destroyRings (owner : Option Nat) (s : State) : State :=
  onMbx (fun m => { m with rings := m.rings.filter (fun p => decide (p.2.session ≠ owner)),
                           inflight := m.inflight.filter (fun f => decide (f.session ≠ owner)) }) s

/-- A mailbox reset of the PCIe transport (R393). -/
def pcieReset (s : State) : State :=
  onRegs (fun r => { r with mbxEn := false }) (destroyRings none s)

/-- A session closes (R408): its rings go, and MGT writes a general record. -/
def closeSession (n cause : Nat) (s : State) : State :=
  if s.mgt.mbx.sessions.any (fun x => x.id = n) then
    let s := destroyRings (some n) s
    let s := onMbx (fun m => { m with sessions := m.sessions.filter (fun x => decide (x.id ≠ n)) }) s
    report .general 0x0605 0 (byte n ++ byte (Config.unstatedCode (3 + cause))) [] s
  else s

/-- Both transports are reset, as an MGT bank swap does (R393, R402): every ring and every session goes. -/
def bothReset (s : State) : State :=
  onMbx (fun m => { m with rings := [], inflight := [], sessions := [], snapWait := [], finished := [] }) (pcieReset s)

/-- MBX_RESET (R393): a write of 1 begins a mailbox reset. -/
def execMbxReset (s : State) : Host.Outcome State Fault Refusal :=
  .next (if barUp s then onRegs (fun r => { r with mbxReset := true }) s else s)

/-- MBX_RESET_DONE (R393). -/
def execMbxResetDone (s : State) : Host.Outcome State Fault Refusal :=
  .next (if s.mgt.mbx.regs.mbxReset then onRegs (fun r => { r with mbxReset := false }) (pcieReset s) else s)

/-- PERST_N (R567): the PCIe link and transaction layers are reset; the PCIe rings follow R393, and the MSI-X table with the link
(R416). -/
def execPerstN (s : State) : Host.Outcome State Fault Refusal :=
  .next (if domRun s 1 then onRegs (fun r => { r with mbxReset := false, msixTable := [], msixPending := 0 }) (pcieReset s) else s)

/-! ### MBX_EN and doorbells (R391, R394) -/

/-- An admin entry count: a power of two from 16 to 4,096; its exponent. -/
def adminLog2 (n : Nat) : Option Nat := [4, 5, 6, 7, 8, 9, 10, 11, 12].find? (fun k => 2 ^ k = n)

/-- The transition of MBX_EN from 0 to 1: MGT takes the admin ring registers (R391, R396). -/
def mbxEnableWrite (s : State) : State :=
  let r := s.mgt.mbx.regs
  if r.mbxEn || r.mbxReset || !mgtUp s then s
  else match adminLog2 (r.admEntries.toNat % 65536), adminLog2 (r.admEntries.toNat / 65536) with
    | some a, some b =>
      if r.admCmd.toNat % 64 = 0 ∧ r.admCpl.toNat % 32 = 0 then
        onRegs (fun x => { x with mbxEn := true })
          (onRing 0 (fun _ => { newRing 1 none a with base := r.admCmd, cplRing := 256 })
            (onRing 256 (fun _ => { newRing 2 none b with base := r.admCpl }) s))
      else alert 5 s
    | _, _ => alert 5 s

/-- MBX_ENABLE (R396). -/
def execMbxEnable (s : State) : Host.Outcome State Fault Refusal :=
  .next (if barUp s then mbxEnableWrite s else s)

/-- The OVERFLOW entry of an event ring that has lost events (R403, R447). -/
def eventEntry (code : Nat) (result : List Byte) : Completion := ⟨0xFF, none, 0, code, .ok, 0, 0, false, result, [], false, 0⟩

/-- An event ring with room writes its overflow first (R403). -/
def pumpOverflow (key : Nat) (s : State) : State :=
  let r := ringOf s key
  if r.rtype = 3 ∧ r.lost ≠ 0 ∧ !ringFull r then
    writeEntry key (eventEntry 0x00FF (le4 r.lost)) (onRing key (fun r => { r with lost := 0 }) s)
  else s

/-- The record that a stream writes next: the next committed one, from the oldest kept where that has been overwritten (R428). -/
def streamNext (s : State) (ring : Nat) (seq : W32) : Option Rec :=
  let x := recRing s.mgt.recorder (if ring = 0 then .vital else .general)
  let seq := if scnBefore seq (oldestSeq x) then oldestSeq x else seq
  (smFind x.committed (seq.toNat % ringSlots)).filter (fun r => decide (r.seq = seq))

/-- One record of a stream: written, or the stream pauses because its ring is full (R403, R428). -/
def streamOne (key : Nat) (s : State) : State :=
  let r := ringOf s key
  match r.stream with
  | none => s
  | some (ring, seq) =>
    match streamNext s ring (BitVec.ofNat 32 seq) with
    | none => s
    | some x =>
      if r.state ≠ 1 then s
      else if ringFull r then onRing key (fun r => { r with state := 2 }) s
      else writeEntry key ⟨key, none, 0, 0, .ok, 64, 0, false, [], recBytes x false false, false, 0⟩
        (onRing key (fun r => { r with stream := some (ring, (x.seq + 1).toNat) }) s)

/-- A stream goes on as far as committed records and room reach (R428). -/
def streamPump : Nat → Nat → State → State
  | 0, _, s => s
  | n + 1, key, s => streamPump n key (streamOne key s)

/-- Every stream takes what has been committed, n entries at most. -/
def streamsTake (n : Nat) (s : State) : State :=
  (s.mgt.mbx.rings.filter (fun p => p.2.stream.isSome)).foldl (fun s p => streamPump n p.1 s) s

/-- The most entries that one ring can take: its size is at most 2^12 (R425). -/
def streamBatch : Nat := 4096

/-- The streams take what has been committed. -/
def streamsPump (s : State) : State := streamsTake streamBatch s

/-- A new consumer index of a ring of the host: it frees entries, and a paused stream runs again (R394, R403). -/
def consume (key i : Nat) (s : State) : State :=
  streamsPump (pumpOverflow key (onRing key (fun r =>
    if (i + ringSize r - r.cons) % ringSize r ≤ ringUsed r then { r with cons := i, state := if r.state = 2 then 1 else r.state } else r) s))

/-- A doorbell (R394): a command ring's producer index, any other ring's consumer index. -/
def doorbellWrite (r i : Nat) (s : State) : State :=
  let x := ringOf s r
  if s.mgt.mbx.regs.mbxReset || !ringThere x || x.session.isSome then s
  else if ringSize x ≤ i then alert 5 (onRing r (fun y => { y with state := 3 }) s)
  else if x.state = 3 then s
  else if x.rtype = 1 then onRing r (fun y => { y with prod := i }) s
  else consume r i s

/-- DOORBELL (R394). -/
def execDoorbell (r : Byte) (i : BitVec 12) (s : State) : Host.Outcome State Fault Refusal :=
  .next (if barUp s then doorbellWrite r.toNat i.toNat s else s)

/-! ### Fetch (R400 to R402) -/

/-- The opcodes that a class defines (R424 to R446). -/
def opcodeKnown (op : Nat) : Bool :=
  let n := [10, 5, 3, 8, 5, 4, 7, 9, 4, 4, 4, 8, 0, 0, 0, 6].getD (op / 256) 0
  decide (op % 256 < n)

/-- The ring's number in a fetch turn: admin rings first, then the general rings in ascending number (R401). -/
def turnRank (key : Nat) : Nat := if key = 0 then 0 else if 512 ≤ key then key - 511 else 1000 + key

/-- A command with FENCE, fetched, still waits for an earlier command of its ring (R399, R401). -/
def fenced (s : State) (session : Option Nat) (r : Nat) : Bool :=
  let fs := s.mgt.mbx.inflight.filter (fun f => decide (f.ring = r) && decide (f.session = session))
  (fs.drop 1).any (fun f => f.fence)

/-- The host's number and owner of a command queue. -/
def ringNumber (key : Nat) : Nat := if key < 256 then key else 0

/-- A descriptor can be fetched from a queue (R391, R401, R402). -/
def fetchable (s : State) (key : Nat) : Bool :=
  let x := ringOf s key
  decide (x.rtype = 1) && decide (x.state = 1) && decide (x.prod ≠ x.cons) && !fenced s x.session (ringNumber key) &&
  (x.session.isSome || (s.mgt.mbx.regs.mbxEn && !s.mgt.mbx.regs.mbxReset && !s.power.pcieDown))

/-- The queue whose turn it is: the next in rank after the last one fetched from, else the first (R401). -/
def nextFetch (s : State) : Option Nat :=
  let ks := (s.mgt.mbx.rings.map (·.1)).filter (fetchable s)
  let low := fun (ks : List Nat) => ks.foldl (fun (b : Option Nat) k => match b with
    | none => some k
    | some j => if turnRank k < turnRank j then some k else some j) none
  match low (ks.filter (fun k => decide (s.mgt.mbx.turn < turnRank k))) with
  | some k => some k
  | none => low ks

/-- Rows 1 and 2 of R419, and the admin-only rows of R424: the status that ends a descriptor at its fetch, and DUP_TAG. -/
def fetchStatus (s : State) (session : Option Nat) (r : Nat) (d : Descriptor) : Option (Status × Bool) :=
  if !opcodeKnown d.opcode then some (.unknownOpcode, false)
  else if d.layout ≠ 1 then some (.version, false)
  else if s.mgt.mbx.inflight.any (fun f => decide (f.ring = r) && decide (f.session = session) && decide (f.tag = d.tag.toNat)) then
    some (.badArg, true)
  else if r ≠ 0 ∧ (d.opcode = 2 ∨ d.opcode = 3) then some (.badArg, false)
  else none

/-- COMMAND_FETCH (R400 to R402): MGT fetches the descriptor of the queue whose turn it is, below 256 in flight: by DMA from host memory, or from
the session's queue, where MGT holds what the datagrams brought (R396). -/
def execCommandFetch (r : Byte) (session : Option Nat) (given : Descriptor) (s : State) : Host.Outcome State Fault Refusal :=
  .next (
    let key := cmdKey session r.toNat
    let x := ringOf s key
    let d := match session with | some _ => (smFind x.descs x.cons).getD given | none => given
    if mgtUp s && s.mgt.mbx.ready && decide (s.mgt.mbx.inflight.length < 256) && decide (x.session = session) &&
        decide (nextFetch s = some key) then
      let st := fetchStatus s session r.toNat d
      let s := onRing key (fun y => { y with cons := (y.cons + 1) % ringSize y }) s
      let s := onMbx (fun m => { m with turn := turnRank key, inflight := m.inflight ++ [⟨r.toNat, session, d.tag.toNat, d.opcode, d.fence⟩] }) s
      match st with
      | some (c, dup) => onMbx (fun m => { m with finished := m.finished ++
          [⟨r.toNat, session, d.tag.toNat, d.opcode, c, 0, 0, dup, [], [], false, 0⟩] }) s
      | none => s
    else s)

/-! ### Completions, events and interrupts (R399, R402, R403, R405) -/

/-- The entry in flight that a completion ends: the latest of its tag for a duplicate's refusal, else the first. -/
def endFlight (e : Completion) (fs : List InFlight) : List InFlight :=
  let same := fun (f : InFlight) => decide (f.ring = e.ring) && decide (f.session = e.session) && decide (f.tag = e.tag) && decide (f.opcode = e.opcode)
  if e.dup then (fs.reverse.eraseP same).reverse else fs.eraseP same

/-- The command of a completion is in flight: its ring has not been destroyed. -/
def awaited (s : State) (e : Completion) : Bool :=
  s.mgt.mbx.inflight.any (fun f => decide (f.ring = e.ring) && decide (f.session = e.session) && decide (f.tag = e.tag) && decide (f.opcode = e.opcode))

/-- A completion whose queue has room, or whose ring is gone (R402). -/
def postable (s : State) (e : Completion) : Bool :=
  let key := cplKey s e.session e.ring
  !awaited s e || !ringThere (ringOf s key) || ringHasRoom key (ringOf s key)

/-- The data and then the entry of a completion pass the snoop point of their command ring; a session's admin ring has none (R453). -/
def snoopEntry (session : Option Nat) (r : Nat) (e : Completion) (s : State) : State :=
  if r = 0 ∧ session.isSome then s
  else
    let s := if e.data.isEmpty then s else snoop 13 r true true e.data s
    snoop 13 r true true (cplBytes e) s

/-- COMPLETION_POST (R399, R402): the first completion that can be written is; one whose ring is gone is discarded. -/
def execCompletionPost (s : State) : Host.Outcome State Fault Refusal :=
  .next (match s.mgt.mbx.finished.find? (postable s) with
    | none => s
    | some e =>
      if mgtUp s then
        let s := onMbx (fun m => { m with finished := m.finished.eraseP (postable s) }) s
        if awaited s e then
          let key := cplKey s e.session e.ring
          let idx := (ringOf s (cmdKey e.session e.ring)).cons
          let s := onMbx (fun m => { m with inflight := endFlight e m.inflight }) s
          if ringThere (ringOf s key) then
            let e := { e with cmdIndex := idx }
            writeEntry key e (snoopEntry e.session e.ring { e with phase := (ringOf s key).phase } s)
          else s
        else s
      else s)

/-- The event ring takes the event (R425). -/
def selects (r : RingS) (code : Nat) : Bool :=
  decide (r.rtype = 3) && decide (1 ≤ code) && decide (code ≤ 32) && r.eventMask.getLsbD (code - 1)

/-- An event at one ring: written, or counted as lost; an overflow entry comes first (R403). -/
def postEvent (e : EventMsg) (s : State) (key : Nat) : State :=
  if selects (ringOf s key) e.code then
    let s := pumpOverflow key s
    if ringFull (ringOf s key) then onRing key (fun r => { r with lost := r.lost + 1 }) s
    else writeEntry key (eventEntry e.code e.result) s
  else s

/-- EVENT_POST (R403, R447): the oldest event goes to every event ring that selects it. -/
def execEventPost (s : State) : Host.Outcome State Fault Refusal :=
  .next (match s.mgt.mbx.events with
    | [] => s
    | e :: rest =>
      if mgtUp s then (s.mgt.mbx.rings.map (·.1)).foldl (postEvent e) (onMbx (fun m => { m with events := rest }) s) else s)

/-- INTERRUPT_COALESCE_EXPIRY (R405). -/
def execInterruptCoalesceExpiry (r : Byte) (s : State) : Host.Outcome State Fault Refusal :=
  .next (
    let x := ringOf s r.toNat
    match x.firstAt with
    | some t => if mgtUp s && x.session.isNone && decide (x.rtype ≠ 1) && decide (t + 25 * x.coalUs ≤ s.clk.tick) then ringMessage r.toNat s else s
    | none => s)

/-! ### DTLS sessions (R388, R406 to R408) -/

/-- A session in being. -/
def sessionOf (s : State) (n : Nat) : Option Session := s.mgt.mbx.sessions.find? (fun x => x.id = n)

/-- An authenticated datagram of the host (R388). -/
def heard (n : Nat) (s : State) : State := onSession n (fun x => { x with lastRx := s.clk.tick }) s

/-- NET carries mailbox datagrams on a port (R375, R376). -/
def dtlsPort (s : State) (p : Nat) : Bool :=
  mgtUp s && domRun s 2 && (match s.data.net.cfg with | some c => (smGet NetPortCfg.zero c.net p).mbx | none => false)

/-- The session is carried. -/
def dtlsUp (s : State) (n : Nat) : Bool := mgtUp s && domRun s 2 && (sessionOf s n).isSome

/-- DTLS_HANDSHAKE (R388, R398): a peer whose chain of up to three certificates verifies opens a session with its admin pair of 64 entries; a failed certificate is
recorded; the 33rd session is not answered. -/
def execDtlsHandshake (port : BitVec 2) (peer : W32) (chain : List (List Byte)) (s : State) : Host.Outcome State Fault Refusal :=
  .next (
    let ids := s.mgt.mbx.sessions.map (·.id)
    match (List.range 32).find? (fun n => !ids.contains n) with
    | none => s
    | some n =>
      if !dtlsPort s port.toNat then s
      else if s.mgt.mbx.trustAnchor.isEmpty || decide (3 < chain.length) || !Config.peerOk s.mgt.mbx.trustAnchor chain then
        report .general 0x0604 0 (byte port.toNat ++ le4 peer.toNat) [] s
      else
        let s := onMbx (fun m => { m with sessions := m.sessions ++ [⟨n, port.toNat, peer, s.clk.tick, [], 0, []⟩] }) s
        onRing (512 + 2 * n) (fun _ => { newRing 1 (some n) 6 with cplRing := 513 + 2 * n })
          (onRing (513 + 2 * n) (fun _ => newRing 2 (some n) 6) s))

/-- Descriptors of a datagram that are new: those from the expected index on; none where it lies beyond (R407). -/
def newDescriptors (x : RingS) (index count : Nat) : Nat :=
  let d := (x.prod + ringSize x - index) % ringSize x
  if index < ringSize x ∧ d < ringSize x / 2 then count - d else 0

/-- DTLS_CMD_DATAGRAM (R407): new descriptors enter the ring unless they would fill it; a CMD_ACK answers. -/
def execDtlsCmdDatagram (sn : Nat) (r : Byte) (index : Nat) (ds : List Descriptor) (s : State) : Host.Outcome State Fault Refusal :=
  .next (
    let key := cmdKey (some sn) r.toNat
    let x := ringOf s key
    if dtlsUp s sn then
      let s := heard sn s
      let n := newDescriptors x index ds.length
      let s := if x.rtype = 1 ∧ x.session = some sn ∧ ringUsed x + n < ringSize x then
          onRing key (fun y => (ds.drop (ds.length - n)).foldl (fun y d =>
            { y with descs := smPut y.descs y.prod d, prod := (y.prod + 1) % ringSize y }) y) s
        else s
      dsend sn 2 r.toNat 0 (ringOf s key).prod [] s
    else s)

/-- A ring of the host that a session owns: ring 0 is its admin completion queue. -/
def hostRing (s : State) (sn r : Nat) : Option Nat :=
  let key := if r = 0 then 513 + 2 * sn else r
  let x := ringOf s key
  if x.session = some sn ∧ 2 ≤ x.rtype then some key else none

/-- DTLS_CPL_ACK (R408): a new consumer index. -/
def execDtlsCplAck (sn : Nat) (r : Byte) (index : Nat) (s : State) : Host.Outcome State Fault Refusal :=
  .next (if dtlsUp s sn then
    let s := heard sn s
    match hostRing s sn r.toNat with
    | some key =>
      if index < ringSize (ringOf s key) then
        let s := onSession sn (fun x => { x with tries := smDrop x.tries r.toNat }) (consume key index s)
        onRing key (fun x => { x with firstAt := if x.prod = x.cons then none else some s.clk.tick }) s
      else s
    | none => s
  else s)

/-- DTLS_KEEPALIVE (R408). -/
def execDtlsKeepalive (sn : Nat) (s : State) : Host.Outcome State Fault Refusal :=
  .next (if dtlsUp s sn then heard sn s else s)

/-- DTLS_RETRANSMIT (R408): entries unacknowledged for 100 ms are sent again, ten times; then the session closes. -/
def execDtlsRetransmit (sn : Nat) (r : Byte) (s : State) : Host.Outcome State Fault Refusal :=
  .next (match sessionOf s sn, hostRing s sn r.toNat with
    | some x, some key =>
      match (ringOf s key).firstAt with
      | some t =>
        if mgtUp s && decide (0 < ringUsed (ringOf s key)) && decide (t + msTicks 100 ≤ s.clk.tick) then
          let n := smGet 0 x.tries r.toNat
          if 10 ≤ n then closeSession sn 0 s
          else
            let s := onSession sn (fun x => { x with tries := smPut x.tries r.toNat (n + 1) })
              (onRing key (fun y => { y with firstAt := some s.clk.tick }) s)
            let y := ringOf s key
            (List.range (ringUsed y)).foldl (fun s i => sendEntry key sn ((y.cons + i) % ringSize y) s) s
        else s
      | none => s
    | _, _ => s)

/-- DTLS_IDLE_TIMEOUT (R388): 60 s of TB1 without an authenticated datagram. -/
def execDtlsIdleTimeout (sn : Nat) (s : State) : Host.Outcome State Fault Refusal :=
  .next (match sessionOf s sn with
    | some x => if mgtUp s && decide (x.lastRx + msTicks 60000 ≤ s.clk.tick) then closeSession sn 1 s else s
    | none => s)

/-- DTLS_ALERT (R408). -/
def execDtlsAlert (sn : Nat) (s : State) : Host.Outcome State Fault Refusal :=
  .next (if dtlsUp s sn then closeSession sn 2 s else s)

/-! ### SYS_RING_CREATE and SYS_RING_DESTROY (R424, R425) -/

/-- The lowest free general ring (R398). -/
def freeRing (s : State) : Option Nat := ((List.range 256).drop 1).find? (fun n => !ringThere (ringOf s n))

/-- Bytes of an entry, the alignment of BASE (R396, R425). -/
def entryBytes (q : RingParam) : Nat :=
  match q.rtype.toNat with
  | 1 => 64
  | 4 => [64, 256, 1024, 4096].getD q.entrySize.toNat 64
  | _ => 32

/-- The argument checks of R425. -/
def ringParamBad (s : State) (owner : Option Nat) (q : RingParam) : Bool :=
  let t := q.rtype.toNat
  let cmd := decide (t = 1)
  let pcie := owner.isNone
  let c := ringOf s q.cplRing.toNat
  decide (t < 1) || decide (4 < t) || decide (q.log2.toNat < 4) || decide (12 < q.log2.toNat) ||
  (if t = 4 then decide (3 < q.entrySize.toNat) else decide (q.entrySize.toNat ≠ 0)) ||
  decide (q.ring.toNat ≠ 0 ∧ ringThere (ringOf s q.ring.toNat)) ||
  (if cmd then decide (q.cplRing.toNat = 0) || decide (c.rtype ≠ 2) || decide (c.session ≠ owner) else decide (q.cplRing.toNat ≠ 0)) ||
  (if pcie && !cmd then decide (q.vector.toNat < 1) || decide (63 < q.vector.toNat) || decide (q.coalEntries.toNat < 1) ||
      decide (256 < q.coalEntries.toNat)
    else decide (q.vector.toNat ≠ 0) || decide (q.coalEntries.toNat ≠ 0)) ||
  decide (1000 < q.coalUs.toNat) || (decide (t ≠ 3) && decide (q.eventMask ≠ 0)) ||
  (if pcie then decide (q.base.toNat % entryBytes q ≠ 0) else decide (q.base ≠ 0))

/-- SYS_RING_CREATE (R398, R425). -/
def execSysRingCreate (c : CmdHdr) (q : RingParam) (s : State) : Host.Outcome State Fault Refusal :=
  .next (
    let n := if q.ring.toNat = 0 then freeRing s else some q.ring.toNat
    cmdRun c 0x0002 (formOk c false false true && decide (c.ring.toNat = 0)) false
      [(ringParamBad s c.session q, .badArg), (n.isNone, .noResource)]
      (fun s =>
        let k := n.getD 0
        let s := onRing k (fun _ => { newRing q.rtype.toNat c.session q.log2.toNat with
          cplRing := q.cplRing.toNat, vector := q.vector.toNat, coalEntries := q.coalEntries.toNat, coalUs := q.coalUs.toNat,
          eventMask := q.eventMask, entrySize := entryBytes q, base := q.base }) s
        finish c 0x0002 .ok (byte k) [] s) s)

/-- SYS_RING_DESTROY (R424): what is in flight from the ring runs on; its completions are discarded (R416). -/
def execSysRingDestroy (c : CmdHdr) (r : Byte) (s : State) : Host.Outcome State Fault Refusal :=
  .next (
    let k := r.toNat
    let x := ringOf s k
    let named := s.mgt.mbx.rings.any (fun p => decide (p.2.rtype = 1) && decide (p.2.cplRing = k) && decide (k ≠ 0))
    cmdRun c 0x0003 (formOk c false false true && decide (c.ring.toNat = 0)) false
      [(decide (k = 0) || !ringThere x || decide (x.session ≠ c.session) || (decide (x.rtype = 2) && named), .badArg)]
      (fun s =>
        let s := onMbx (fun m => { m with rings := smDrop m.rings k,
                                          inflight := m.inflight.filter (fun f => !(decide (f.ring = k) && decide (f.session = c.session))) }) s
        finish c 0x0003 .ok [] [] s) s)

end Sys2Proof.Machine
end

