-- ==== Sys2Proof/Machine/Package.lean ====
section
/-! DEFINITION. The firmware package (R525 to R530): manifest, components, the checks of R534, component versions by code (R526). -/

namespace Sys2Proof.Machine

open Sys2Proof

/-- A set's version of a component code (R526). -/
def verOf (v : Versions) (c : Nat) : W32 :=
  match c with
  | 0 => v.boot
  | 1 => v.mgt
  | 2 => v.lane
  | 3 => v.voter
  | 4 => v.star
  | _ => v.vio

/-- A set with one component's version replaced. -/
def setVer (v : Versions) (c : Nat) (x : W32) : Versions :=
  match c with
  | 0 => { v with boot := x }
  | 1 => { v with mgt := x }
  | 2 => { v with lane := x }
  | 3 => { v with voter := x }
  | 4 => { v with star := x }
  | _ => { v with vio := x }

/-- A component entry of a manifest (R527). -/
structure CompEntry where
  code : Nat
  version : W32
  first : Nat
  count : Nat
  ptLen : Nat
  prevMin : W32
  fmtMin : Nat
  fmtMax : Nat
  signature : List Byte
  deriving DecidableEq, Repr

/-- Entry `e` of a manifest (R527). -/
def compEntry (b : List Byte) (e : Nat) : CompEntry :=
  let o := 0x80 + 0x80 * e
  ⟨leAt b o 1, BitVec.ofNat 32 (leAt b (o + 4) 4), leAt b (o + 8) 4, leAt b (o + 0xC) 4, leAt b (o + 0x10) 4,
   BitVec.ofNat 32 (leAt b (o + 0x14) 4), leAt b (o + 0x18) 2, leAt b (o + 0x1A) 2, slice b (o + 0x20) 96⟩

/-- The entries of a manifest. -/
def compEntries (b : List Byte) : List CompEntry := (List.range (leAt b 6 1)).map (compEntry b)

/-- A held block; empty where it is not held. -/
def heldBlock (held : SMap (List Byte)) (i : Nat) : List Byte := (smFind held i).getD []

/-- Row 1 of R534: every block held. -/
def allHeld (held : SMap (List Byte)) (n : Nat) : Bool := (List.range n).all (fun i => (smFind held i).isSome)

/-- Two entries do not share a block. -/
def entriesApart (a b : CompEntry) : Bool :=
  decide (a.first + a.count ≤ b.first) || decide (b.first + b.count ≤ a.first)

/-- Every pair of entries is apart, and no code stands twice (R526, R534). -/
def entriesSound : List CompEntry → Bool
  | [] => true
  | e :: r => r.all (fun f => entriesApart e f && decide (f.code ≠ e.code)) && entriesSound r

/-- Row 2 of R534. -/
def manifestSound (b : List Byte) (pkg : W64) (n : Nat) : Bool :=
  let es := compEntries b
  decide (leAt b 0 4 = 0x50415548) && decide (leAt b 8 8 = pkg.toNat) && decide (leAt b 0x10 4 = n) &&
  decide (1 ≤ leAt b 6 1) && decide (leAt b 6 1 ≤ 6) && entriesSound es &&
  es.all (fun e => decide (e.code ≤ 5) && decide (1 ≤ e.first) && decide (e.first + e.count ≤ n) && decide (e.count = ceilDiv e.ptLen 4096))

/-- Row 4 of R534: the manifest signature (R528). -/
def manifestSigned (b : List Byte) : Bool :=
  Config.ecdsaOk Config.firmwareKey (Config.sha384 (b.take 0xFA0)) (slice b 0xFA0 96)

/-- Row 5 of R534; `rolling` where PREV_MIN counts (R550, R551). -/
def versionsFit (s : State) (rolling : Bool) (b : List Byte) : Bool :=
  let es := compEntries b
  let u := s.mgt.upd
  let img := s.mgt.store.image
  decide (u.fuseSecVer ≤ leAt b 0x14 4) && bitN (leAt b 0x50 1) (variantBit s.variant) &&
  (!rolling || es.all (fun e => decide (e.prevMin.toNat ≤ (verOf u.active e.code).toNat))) &&
  es.all (fun e => decide (e.code ≠ 2) || img.isEmpty || (decide (e.fmtMin ≤ leAt img 4 2) && decide (leAt img 4 2 ≤ e.fmtMax)))

/-- A component's plaintext (R525, R529). -/
def plaintext (held : SMap (List Byte)) (key nonce : List Byte) (e : CompEntry) : List Byte :=
  ((List.range e.count).map (fun j => Config.aesCtr key nonce (e.first + j) (heldBlock held (e.first + j)))).flatten.take e.ptLen

/-- Row 8 of R534. -/
def componentsSigned (held : SMap (List Byte)) (b key : List Byte) : Bool :=
  (compEntries b).all (fun e => Config.ecdsaOk Config.firmwareKey (Config.sha384 (plaintext held key (slice b 0x18 12) e)) e.signature)

/-- COMPONENTS (R534): a bit per code whose version differs from the active one. -/
def componentMask (v : Versions) (es : List CompEntry) : Nat :=
  [0, 1, 2, 3, 4, 5].foldl (fun n c => n + b2n (es.any (fun e => decide (e.code = c) && decide (e.version ≠ verOf v c))) * 2 ^ c) 0

/-- The manifest as MGT keeps it. -/
def manifestOf (v : Versions) (b : List Byte) : Manifest :=
  let es := compEntries b
  let lane := es.find? (fun e => decide (e.code = 2))
  ⟨leAt b 0x14 4, leAt b 0x50 1, es.foldl (fun m e => smPut m e.code (e.version, e.prevMin)) [], componentMask v es,
   (match lane with | some e => e.fmtMin | none => 0), (match lane with | some e => e.fmtMax | none => 0)⟩

/-- The checks of R534 in order: the first that fails, or the manifest. What a slot of the store holds reads back (row 7). -/
def verifyPackage (s : State) (pkg : W64) (n : Nat) (rolling : Bool) : Except Status Manifest :=
  let held := s.mgt.upd.held
  let b := heldBlock held 0
  if !allHeld held n then .error .checkFail
  else if !manifestSound b pkg n then .error .checkFail
  else if !Config.manifestFmtOk s.mgt.upd.active.boot (leAt b 4 2) then .error .version
  else if !manifestSigned b then .error .signatureFail
  else if !versionsFit s rolling b then .error .version
  else match Config.unwrapKey (slice b 0x28 40) with
    | none => .error .checkFail
    | some key => if componentsSigned held b key then .ok (manifestOf s.mgt.upd.active b) else .error .signatureFail

/-- A set with a package's components in place of its own (R537 step 1). -/
def withPackage (v : Versions) (m : Manifest) : Versions := m.codes.foldl (fun v p => setVer v p.1 p.2.1) v

end Sys2Proof.Machine
end

