-- ==== Sys2Proof/Machine/Frames.lean ====
section
/-! DEFINITION. The frame exchange: code records and sync records of the lanes (R291, R316), the beacon decision of a star (R317
to R319) and its downframes (R284, R285, R293, R294, R318, R332, R351). -/

namespace Sys2Proof.Machine

open Sys2Proof

/-! ### What lanes and stars put into a downframe -/

/-- The port is in COMPAT link mode: as its PORT_CFG says, or as BOOT_CFG names (R274, R333). -/
def compatPort (s : State) (c : Chan) (p : Nat) : Bool :=
  compatEntry s.power.linkMode (portCfg s c p)

/-- VER of a port's frames (R282). -/
def portVer (s : State) (c : Chan) (p : Nat) : Nat := if compatPort s c p then 1 else 2

/-- The cycle of a star, by the count that accompanies its marks (R308). -/
def starCycle (s : State) (c : Chan) : Scn := BitVec.ofNat 32 (followerOf s (.star c)).cycle

/-- The output payload of node k with N elements from its words: bits [15:8] of element i in byte 2i, [7:0] in byte 2i + 1
(R284, R293). -/
def downPayload (n k : Nat) (word : Nat → W64) : List Byte :=
  ((List.range n).map (fun i => beBytes 2 (field (word (16 * k + i / 4)).toNat (16 * (i % 4)) 16))).flatten

/-- An output word of a lane with its output forces applied (R243, R291). -/
def laneOut (x : LaneState) (w : Nat) : W64 :=
  let v := smGet 0#64 x.core.vars (1024 + w)
  match x.core.active with
  | some i => forcedBy i x.forces w v
  | none => v

/-- The code record of a lane for a port, for cycle scn + 1 (R291). -/
def ownCode (s : State) (c : Chan) (l : Lane) (p : Nat) : CodeRec :=
  let x := lane s l
  let m := scn s + 1
  let hdr := downHeader (portVer s c p) false (!x.forces.isEmpty) (schedOf s l m) c p (smGet NodeLink.zero x.nodes (portKey c p)).echo m
    s.data.cfg.linkId
  ⟨scn s, ownLease x, l, p, hdr, BitVec.ofNat 32 (vitalCode c (hdr ++ downPayload (portN s c p) p (laneOut x)))⟩

/-- The sync record of a lane for cycle scn + 1 (R316). -/
def ownSync (s : State) (l : Lane) : SyncRec :=
  let m := scn s + 1
  ⟨m, ownLease (lane s l), l, schedOf s l m, (annAt s l m).1, (annAt s l m).2⟩

/-- A sync record's 16 bytes (R316). -/
def syncBytes (r : SyncRec) : List Byte :=
  withCrc (le4 r.cycle.toNat ++ le2 r.leaseId.toNat ++ le2 (16384 * r.lane.idx + r.sched % 8) ++ byte (32 * (r.annSched % 8) + r.annCnt % 32) ++
    List.replicate 3 0)

/-- A sync record from its bytes: none where its CRC is not correct (R316). -/
def parseSync (b : List Byte) : Option SyncRec :=
  if b.length ≠ 16 ∨ crc32c (b.take 12) ≠ leAt b 12 4 then none
  else (Lane.ofIdx (leAt b 6 2 / 16384)).map (fun l =>
    ⟨BitVec.ofNat 32 (leAt b 0 4), BitVec.ofNat 16 (leAt b 4 2), l, leAt b 6 2 % 8, leAt b 8 1 / 32, leAt b 8 1 % 32⟩)

/-- The lane has completed its commit, and a record still reaches the stars by CI - 8 us (R291, R316). -/
def recordsDue (s : State) (l : Lane) : Bool :=
  voting s && domRun s (laneDom l) && decide ((lane s l).core.phase = .idle) && decide (s.clk.tick + 200 ≤ nextCi s .x)

/-- A star holds the code records of this cycle and the last, one per lane and port. -/
def putCode (c : Scn) (r : CodeRec) (rs : List CodeRec) : List CodeRec :=
  rs.filter (fun q => (q.scn == c || q.scn + 1 == c) && !(q.lane == r.lane && q.node == r.node && q.scn == r.scn)) ++ [r]

/-- A star holds the sync records of this cycle and the next, one per lane. -/
def putSync (c : Scn) (r : SyncRec) (rs : List SyncRec) : List SyncRec :=
  rs.filter (fun q => (q.cycle == c || q.cycle == c + 1) && !(q.lane == r.lane && q.cycle == r.cycle)) ++ [r]

/-- CODE_RECORD (R291): a seat lane's code record reaches a star; `given` is one as received. -/
def execCodeRecord (ch : Chan) (l : Lane) (p : BitVec 6) (given : Option CodeRec) (s : State) : Host.Outcome State Fault Refusal :=
  .next (if domRun s (starDom ch) && (portCfg s ch p.toNat).use && (seatOf s l).isSome && recordsDue s l then
    onStar ch (fun x => { x with codes := putCode (starCycle s ch) (given.getD (ownCode s ch l p.toNat)) x.codes }) s
  else s)

/-- SYNC_RECORD (R316): a link lane's sync record reaches a star in COLDSTART or RUNNING; `given` are its bytes as received. -/
def execSyncRecord (ch : Chan) (l : Lane) (given : Option (List Byte)) (s : State) : Host.Outcome State Fault Refusal :=
  .next (if domRun s (starDom ch) && ((star s ch).mode == .coldStart || (star s ch).mode == .running) &&
      (linkLanes s).contains l && recordsDue s l then
    match parseSync (given.getD (syncBytes (ownSync s l))) with
    | some r => onStar ch (fun x => { x with syncs := putSync (starCycle s ch) r x.syncs }) s
    | none => s
  else s)

/-! ### The beacon decision (R316, R317) -/

/-- A sync record that has its CRC counts for cycle m where the voter halves named its lane with the lease ID it carries (R316). -/
def syncCounts (named : List (Lane × BitVec 16)) (m : Scn) (r : SyncRec) : Bool :=
  decide (r.cycle = m) && named.contains (r.lane, r.leaseId)

/-- Two sync records agree (R316). -/
def syncAgree (a b : SyncRec) : Bool :=
  decide (a.cycle = b.cycle) && decide (a.sched = b.sched) && decide (a.annSched = b.annSched) && decide (a.annCnt = b.annCnt)

/-- A record that another of the list agrees with (R317). -/
def agreedSync (rs : List SyncRec) : Option SyncRec := rs.find? (fun a => rs.any (fun b => decide (b.lane ≠ a.lane) && syncAgree a b))

/-- A lane is reported to the voter halves by a star, with the word code of its LANE_JUDGED record (R163, R294, R317). -/
def reportLane (ch : Chan) (code : Nat) (l : Lane) (s : State) : State :=
  onAux ch (fun a => { a with odd := if a.odd.contains (l, code) then a.odd else a.odd ++ [(l, code)] }) s

/-- The seats after a seat in the order S1, S2, S3, S1 (R317). -/
def seatsAfter : Option Seat → List Seat
  | some .s1 => [.s2, .s3, .s1]
  | some .s2 => [.s3, .s1, .s2]
  | _ => [.s1, .s2, .s3]

/-- The link lane that leadership passes to (R317). -/
def nextLeader (s : State) (old : Option Lane) (agreeing : List Lane) : Option Lane :=
  let seat := Seat.list.find? (fun k => old.isSome && (slotLane s k == old || holder s k == old))
  (seatsAfter seat).findSome? (fun k => match slotLane s k with
    | some l => if agreeing.contains l then some l else none
    | none => none)

/-- The records of two agreeing lanes are applied, and leadership passes; the old leader is reported while it holds its seat
(R317 rows 3 and 4). -/
def leaderPasses (ch : Chan) (r : SyncRec) (rs : List SyncRec) (s : State) : State :=
  let old := (star s ch).leader
  let ls := (rs.filter (syncAgree r)).map (·.lane)
  let s := match old with
    | some l => if (seatOf s l).isSome then reportLane ch (0x580 + ch.idx) l s else s
    | none => s
  onStar ch (fun x => { x with applied := r.sched, annSched := r.annSched, annCnt := r.annCnt, leader := nextLeader s old ls }) s

/-- A sync disagreement: the schedule goes on without an announcement, every downframe is restrictive, and the module trips
(R317). -/
def syncDisagree (ch : Chan) (s : State) : State :=
  trip2oo2 (onAux ch (fun a => { a with restrAll := true }) (onStar ch (fun x => { x with annSched := 0, annCnt := 0 }) s))

/-- Rows 2 to 5 of R317. -/
def decideSync (ch : Chan) (rs : List SyncRec) (s : State) : State :=
  let leader := (star s ch).leader
  let single := decide (votingCount s = 1)
  let others := rs.filter (fun r => some r.lane ≠ leader)
  match rs.find? (fun r => some r.lane = leader) with
  | some r =>
    if single || others.any (syncAgree r) then
      let s := (others.filter (fun o => !syncAgree r o)).foldl (fun s o => reportLane ch (0x580 + ch.idx) o.lane s) s
      onStar ch (fun x => { x with applied := r.sched, annSched := r.annSched, annCnt := r.annCnt }) s
    else match agreedSync others with
      | some a => leaderPasses ch a others s
      | none => syncDisagree ch s
  | none => match (if single then others.head? else agreedSync others) with
    | some a => leaderPasses ch a others s
    | none => syncDisagree ch s

/-- BEACON_DECISION (R317, R319): once a cycle, before the star's first downframe of it. -/
def beaconDecide (ch : Chan) (s : State) : State :=
  let m := starCycle s ch
  if (star s ch).beaconOf = some m.toNat then s
  else
    let q := dueScan s m
    let named := match q with | some q => q.codeLanes | none => []
    let voted := match q with | some q => !q.silent && !s.ctl.trip.inForce | none => false
    let s := onStar ch (fun x => { x with beaconOf := some m.toNat, named := x.named || !named.isEmpty,
                                          substitution := x.substitution && !voted }) s
    let s := onAux ch (fun a => { a with autonomous := false, restrAll := false }) s
    match (star s ch).mode with
    | .nodeLed => onStar ch (fun x => { x with applied := s.data.cfg.start, annSched := 0, annCnt := 0 }) s
    | .running =>
      let rs := (star s ch).syncs.filter (syncCounts named m)
      if s.ctl.trip.inForce || !(star s ch).named || (rs.isEmpty && (linkLanes s).isEmpty) then
        onAux ch (fun a => { a with autonomous := true }) (onStar ch (fun x => { x with annSched := 0, annCnt := 0 }) s)
      else decideSync ch rs s
    | _ => s

/-! ### The downframe decision per port (R293, R294, R318, R351) -/

/-- The code record that two code lanes agree on in HDR and VCODE; in SINGLE, the one code lane's (R293). -/
def agreedCode (single : Bool) (rs : List CodeRec) : Option CodeRec :=
  if single then rs.head?
  else rs.find? (fun a => rs.any (fun b => decide (b.lane ≠ a.lane) && decide (b.hdr = a.hdr) && decide (b.vcode = a.vcode)))

/-- HDR names the channel, the port, the cycle and LINK_ID (R293). -/
def hdrNames (s : State) (ch : Chan) (p : Nat) (m : Scn) (hdr : List Byte) : Bool :=
  let b := (hdr.getD 2 0).toNat
  decide (b / 128 = ch.idx) && decide (b % 64 = p) && decide (ofBe (slice hdr 4 4) = m.toNat) &&
  decide (ofBe (slice hdr 8 2) = s.data.cfg.linkId.toNat)

/-- SOURCE of a star: a port, or 0xFFF for the whole star (R463). -/
def starSource (ch : Chan) (i : Nat) : Nat := (2 + ch.idx) * 4096 + i

/-- CODE_RECORD of a row of R293 (R476). -/
def codeRecordReport (ch : Chan) (p row : Nat) (n : Scn) (s : State) : State :=
  report .vital 0x0501 (starSource ch p) (byte ch.idx ++ byte p ++ byte row) (le4 n.toNat) s

/-- What a port's downframe of cycle m is: normal with its agreed record and payload, or restrictive (R293). The causes that
bear on the whole channel decide first and report nothing (R351). -/
def decideDown (ch : Chan) (p : Nat) (m : Scn) (s : State) : State × Option (CodeRec × List Byte) :=
  let st := star s ch
  let aux := s.data.aux.get ch
  if st.substitution || aux.autonomous || aux.restrAll || aux.badFor == some m.toNat || st.mode != .running then (s, none)
  else match dueScan s m with
    | none => (s, none)
    | some q =>
      if q.silent then (s, none)
      else if (List.range 16).any (fun j => (delivered q .x (16 * p + j)).isNone ||
          decide (delivered q .x (16 * p + j) ≠ delivered q .y (16 * p + j))) then (tripXY s, none)
      else
        let rs := st.codes.filter (fun r => r.node == p && r.scn == q.scn && q.codeLanes.contains (r.lane, r.leaseId))
        match agreedCode (decide (votingCount s = 1)) rs with
        | none => (codeRecordReport ch p 3 q.scn s, none)
        | some a =>
          let s := if rs.length = 3 then
              (rs.filter (fun r => !(r.hdr == a.hdr && r.vcode == a.vcode))).foldl
                (fun s r => reportLane ch (0x500 + 64 * ch.idx + p) r.lane s) s
            else s
          if !hdrNames s ch p m a.hdr then (codeRecordReport ch p 4 q.scn s, none)
          else if (a.hdr.getD 1 0).toNat % 8 ≠ st.applied then
            (report .vital 0x0502 (starSource ch p) (byte ch.idx ++ byte p) (le4 q.scn.toNat) s, none)
          else (s, some (a, downPayload (portN s ch p) p (fun w => (delivered q .x w).getD 0#64)))

/-- The port sends downframes (R336). -/
def portSends (x : PortState) : Bool :=
  match x.mode with
  | .integrating | .active | .isolated => true
  | .locked => x.linkUp
  | _ => false

/-- One step of a slew of DLY: 20 ns a downframe (R349, R350). -/
def slewDly (x : PortState) : PortState :=
  match x.slew with
  | none => x
  | some t =>
    if max t x.dly - min t x.dly ≤ 320 then { x with dly := t, slew := none }
    else { x with dly := if x.dly < t then x.dly + 320 else x.dly - 320 }

/-- DLY as it is sent: the tracked delay and half of FIELD_ASYM, rounded to the nanosecond (R347, R374). -/
def sentDly (asym : Int) (x : PortState) : Int := ((x.dly : Int) + 8 * asym + 8) / 16

/-- FIELD_ASYM of a port as its star holds it (R374, R376). -/
def asymOf (s : State) (ch : Chan) (p : Nat) : Int := smGet 0 ((s.data.aux.get ch).asym.getD []) p

/-- The beacon timing fields put into a downframe (R284, R332, R342, R345). -/
def timingFields (s : State) (ch : Chan) (p : Nat) (m : Scn) (f : DownFrame) : DownFrame :=
  let x := port s ch p
  let st := star s ch
  let cpo := (schedPort s st.applied ch p).cpo
  let j := m.toNat % cpo.length
  let compat := compatPort s ch p
  { f with dly := BitVec.ofNat 16 (ofSigned 16 (sentDly (asymOf s ch p) x)),
           txc := if compat then BitVec.ofNat 16 (cpo.getD j 0) else BitVec.ofNat 16 (ofSigned 16 x.txc),
           cpIdx := if compat then j else 0, annSched := st.annSched, annCnt := st.annCnt,
           reint := (x.mode == .isolated) || (x.mode == .locked) || (st.reintAt == some m.toNat) }

/-- A restrictive downframe (R285): its header, no payload and VCODE 0. -/
def restrictiveFrame (s : State) (ch : Chan) (p : Nat) (m : Scn) : DownFrame :=
  let x := port s ch p
  timingFields s ch p m ⟨m, s.clk.tick, false,
    downHeader (portVer s ch p) true x.lastForce (x.lastSched.getD (star s ch).applied) ch p 0 m s.data.cfg.linkId, 0, 0, 0, 0, 0, false, [], 0⟩

/-- A normal downframe: the agreed HDR and VCODE with the payload of the voted words (R293). -/
def normalFrame (s : State) (ch : Chan) (p : Nat) (m : Scn) (a : CodeRec) (payload : List Byte) : DownFrame :=
  timingFields s ch p m ⟨m, s.clk.tick, false, a.hdr, 0, 0, 0, 0, 0, false, payload, a.vcode⟩

/-- The transmit gate admits the start of this port's downframe now, and it has not been sent in this cycle (R278, R352). -/
def downDue (s : State) (ch : Chan) (p : Nat) : Bool :=
  let ci := (followerOf s (.star ch)).lastCi
  let st := star s ch
  domRun s (starDom ch) && (st.mode == .running || st.mode == .nodeLed) && !st.isolatedAll && (portCfg s ch p).use &&
  portSends (port s ch p) && decide (ci + 50 ≤ s.clk.tick) && decide (s.clk.tick ≤ ci + 51) &&
  (match smFind st.sent p with | some f => decide (f.cycle ≠ starCycle s ch) | none => true)

/-- A star's downframe leaves its port (R279, R453). -/
def sendDown (ch : Chan) (k : Nat) (f : DownFrame) (s : State) : State :=
  snoop (txPoint ch) k true true (downBytes ch k f) (onStar ch (fun x => { x with sent := smPut x.sent k f }) s)

/-- DOWNFRAME_START (R293): at CI(m) + 2 us the star decides a port's downframe and starts sending it. -/
def execDownframeStart (ch : Chan) (p : BitVec 6) (s : State) : Host.Outcome State Fault Refusal :=
  .next (if downDue s ch p.toNat then
    let k := p.toNat
    let m := starCycle s ch
    let s := onPort ch k slewDly (beaconDecide ch s)
    let (s, d) := decideDown ch k m s
    let held := (port s ch k).mode == .isolated || (port s ch k).mode == .locked
    match d with
    | some (a, pl) =>
      if held then sendDown ch k (restrictiveFrame s ch k m) s
      else
        sendDown ch k (normalFrame s ch k m a pl)
          (onPort ch k (fun x => { x with lastSched := some ((a.hdr.getD 1 0).toNat % 8), lastForce := bitN (a.hdr.getD 1 0).toNat 6 }) s)
    | none => sendDown ch k (restrictiveFrame s ch k m) s
  else s)

end Sys2Proof.Machine
end

