-- ==== Sys2Proof/Machine/Stars.lean ====
section
/-! DEFINITION. The stars as guardians and as cold-start judges, and the lanes' checks of upframes: port states, windows,
violations and isolation (R336 to R346), delay calibration (R347 to R350), the transmit gate (R352), port tests (R520), listen
timers and contention (R309 to R313), upframe records (R296), long-lost ports (R559). -/

namespace Sys2Proof.Machine

open Sys2Proof

/-! ### Port states (R336, R337) -/

/-- STATE of PORT_STATUS (R337). -/
def portCode : PortMode → Nat
  | .disabled => 0
  | .off => 1
  | .linkDown => 2
  | .integrating => 3
  | .active => 4
  | .isolated => 5
  | .locked => 6

/-- The states whose persistence for 1 s degrades the module (R559). -/
def portLost : PortMode → Bool
  | .off | .linkDown | .isolated | .locked => true
  | _ => false

/-- Isolations within the preceding operating hour of TB3 (R344). -/
def isoHour (now : Nat) (x : PortState) : Nat := (x.isoAt.filter (fun t => decide (now < t + Config.hourTicks))).length

/-- The seed of DLY: 5 ns a metre and 380 ns, at 1/16 ns (R348). -/
def dlySeed (cfg : PortCfg) : Nat := 16 * (5 * cfg.cableM + 380)

/-- What a port's entry into a state does to its counters and corrections (R337, R343, R348, R350, R355). -/
def enterState (cfg : PortCfg) (now : Nat) (m : PortMode) (x : PortState) : PortState :=
  let since := if portLost m then some (x.downSince.getD now) else none
  let x := { x with mode := m, downSince := since }
  match m with
  | .integrating =>
    let x := { x with edgeCnt := 0, samples := [] }
    if x.seeded then x else { x with dly := dlySeed cfg, slew := none, outliers := [] }
  | .linkDown | .off =>
    { x with txc := 0, dly := 0, seeded := false, slew := none, samples := [], outliers := [],
             vcount := if m = .off then 0 else x.vcount }
  | _ => x

/-- A port changes state; MGT raises PORT (R336, R447). -/
def setPortMode (ch : Chan) (p : Nat) (m : PortMode) (s : State) : State :=
  if (port s ch p).mode = m then s
  else
    let s := onPort ch p (enterState (portCfg s ch p) s.clk.tick m) s
    let s := if m = .active then onElec (fun e => { e with portDown := e.portDown.filter (fun k => decide (k ≠ portKey ch p)) }) s else s
    raise 0x0009 (byte ch.idx ++ byte p ++ byte (portCode m)) s

/-- The port is on the lock list of the station-data store (R346). -/
def onLockList (s : State) (ch : Chan) (p : Nat) : Bool := s.mgt.store.lockList.contains (portKey ch p)

/-- PORT_LINK_UP (R336, R271): the PHY link comes up, on the configured level only; `low` is the 1.0 Vpp level. -/
def execPortLinkUp (ch : Chan) (p : BitVec 6) (low : Bool) (s : State) : Host.Outcome State Fault Refusal :=
  .next (
    let k := p.toNat
    if domRun s (starDom ch) && decide ((portCfg s ch k).level = low) then
      match (port s ch k).mode with
      | .linkDown => setPortMode ch k (if onLockList s ch k then .locked else .integrating) (onPort ch k (fun x => { x with linkUp := true }) s)
      | .locked => onPort ch k (fun x => { x with linkUp := true }) s
      | _ => s
    else s)

/-- PORT_LINK_DOWN (R336, R346): a locked port stays locked. -/
def execPortLinkDown (ch : Chan) (p : BitVec 6) (s : State) : Host.Outcome State Fault Refusal :=
  .next (
    let k := p.toNat
    if domRun s (starDom ch) then
      match (port s ch k).mode with
      | .integrating | .active | .isolated => setPortMode ch k .linkDown (onPort ch k (fun x => { x with linkUp := false }) s)
      | .locked => onPort ch k (fun x => { x with linkUp := false }) s
      | _ => s
    else s)

/-- PORT_DOWN_DEGRADED (R559): a port in use has been OFF, LINKDOWN, ISOLATED or LOCKED for 1 s. -/
def execPortDownDegraded (ch : Chan) (p : BitVec 6) (s : State) : Host.Outcome State Fault Refusal :=
  .next (
    let x := port s ch p.toNat
    let k := portKey ch p.toNat
    match x.downSince with
    | some t =>
      if mgtUp s && (portCfg s ch p.toNat).use && portLost x.mode && decide (t + 25000000 ≤ s.clk.tick) && !s.mgt.elec.portDown.contains k then
        onElec (fun e => { e with portDown := k :: e.portDown }) s
      else s
    | none => s)

/-! ### Violations, isolation and the end of a hold (R344 to R346) -/

/-- PORT_ISOLATION (R476): start or end, by violations or by calibration. -/
def isolationRecord (ch : Chan) (p : Nat) (start cal : Bool) (s : State) : State :=
  report .general 0x0504 (starSource ch p) (byte ch.idx ++ byte p ++ byte (b2n start) ++ byte (b2n cal)) [] s

/-- PORT_LOCK (R476). -/
def lockRecord (ch : Chan) (p : Nat) (lock : Bool) (s : State) : State :=
  report .vital 0x0503 (starSource ch p) (byte ch.idx ++ byte p ++ byte (b2n lock)) [] s

/-- The port is isolated by a frame of cycle `c`. -/
def isolatePort (ch : Chan) (p c : Nat) (cal : Bool) (s : State) : State :=
  isolationRecord ch p true cal (setPortMode ch p .isolated (onPort ch p (fun x => { x with vcount := 0, quiet := c, isoCal := cal }) s))

/-- The eighth consecutive violation: isolation, or the lock at the fourth within the hour (R344, R346). -/
def eighthViolation (ch : Chan) (p c : Nat) (s : State) : State :=
  let now := tb3Tick s
  let s := onPort ch p (fun x => { x with vcount := 0, isoCycle := some c,
                                          isoAt := x.isoAt.filter (fun t => decide (now < t + Config.hourTicks)) ++ [now] }) s
  if 4 ≤ isoHour now (port s ch p) then
    let s := itemStored locksItem (onStore (fun x => { x with lockList := if x.lockList.contains (portKey ch p) then x.lockList else x.lockList ++ [portKey ch p] }) s)
    lockRecord ch p true (setPortMode ch p .locked s)
  else isolatePort ch p c false s

/-- PORT_VIOLATION (R344). -/
def violation (ch : Chan) (p c : Nat) (s : State) : State :=
  let n := (port s ch p).vcount + 1
  if 8 ≤ n then eighthViolation ch p c s else onPort ch p (fun x => { x with vcount := n }) s

/-- ISOLATION_HOLD_END (R345): 16 consecutive cycles without a frame start. -/
def execIsolationHoldEnd (ch : Chan) (p : BitVec 6) (s : State) : Host.Outcome State Fault Refusal :=
  .next (
    let k := p.toNat
    let x := port s ch k
    if domRun s (starDom ch) && decide (x.mode = .isolated) && decide (x.quiet + 17 ≤ (followerOf s (.star ch)).cycle) then
      isolationRecord ch k false x.isoCal (setPortMode ch k .integrating s)
    else s)

/-! ### Delay calibration (R347 to R350) -/

/-- The mean of samples at 1/16 ns. -/
def meanOf (xs : List Nat) : Nat := xs.sum / xs.length

/-- CAL_FAULT record of a kind (R349, R350). -/
def calRecord (ch : Chan) (p kind : Nat) (s : State) : State :=
  report .general 0x050B (starSource ch p) (byte ch.idx ++ byte p ++ byte (Config.unstatedCode (6 + kind))) [] s

/-- The distance of a sample from DLY. -/
def dlyApart (x : PortState) (d : Nat) : Nat := max d x.dly - min d x.dly

/-- An in-range sample on a seeded port: tracked within 250 ns, an outlier beyond; 16 consecutive outliers slew or isolate
(R349). -/
def trackSample (ch : Chan) (p c d : Nat) (s : State) : State :=
  let x := port s ch p
  if x.slew.isSome then s
  else if dlyApart x d ≤ 4000 then
    onPort ch p (fun x => { x with outliers := [], dly := if x.dly ≤ d then x.dly + (d - x.dly) / 16 else x.dly - (x.dly - d) / 16 }) s
  else
    let out := x.outliers ++ [d]
    if out.length < 16 then onPort ch p (fun x => { x with outliers := out }) s
    else
      let v := meanOf (out.drop 8)
      if dlyApart x v ≤ 14400 then onPort ch p (fun x => { x with outliers := [], slew := some v }) s
      else isolatePort ch p c true (calRecord ch p 0 (onPort ch p (fun x => { x with outliers := [], seeded := false }) s))

/-- DELAY_SAMPLE (R347 to R350): `d` in 1/16 ns, taken from the accepted upframe of cycle `c`. -/
def delaySample (ch : Chan) (p c : Nat) (d : Int) (s : State) : State :=
  let x := port s ch p
  if 0 < d ∧ d ≤ 16 * (5 * (portCfg s ch p).cableM + 1000 : Int) then
    let d := d.toNat
    let run := x.inRun + 1
    let kept := (x.samples ++ [d]).drop ((x.samples.length + 1) - 8)
    let s := onPort ch p (fun x => { x with outRange := 0, inRun := min 8 run, samples := kept }) s
    if x.calFault then
      (if 8 ≤ run then onPort ch p (fun x => { x with calFault := false, seeded := true, slew := some (meanOf kept) }) s else s)
    else if !x.seeded then onPort ch p (fun x => { x with seeded := true, dly := meanOf kept }) s
    else trackSample ch p c d s
  else
    let n := x.outRange + 1
    let s := if n = 64 then calRecord ch p 1 s else s
    onPort ch p (fun x => { x with outRange := min 64 n, inRun := 0, samples := [], outliers := [], calFault := x.calFault || decide (64 ≤ n),
                                   slew := if n = 64 then none else x.slew }) s

/-! ### Judgement of a frame on a port (R338, R339, R341, R342) -/

/-- The offset of a start from the action point of the schedule that the star applies, in ns (R338). -/
def offsetOf (s : State) (ch : Chan) (p start : Nat) : Int :=
  (start : Int) - ((followerOf s (.star ch)).ciNs + (schedPort s (star s ch).applied ch p).apNs)

/-- Row 2 or 3 of R339 fails for a frame of these bytes that started at offset `e`: the star truncates it. -/
def frameCut (lMax : Nat) (e : Int) (b : List Byte) : Bool :=
  let n := frameLen b
  !(decide (20 ≤ n) && decide (n ≤ 148) && decide (max 64 (18 + n) ≤ lMax)) || decide (4000 + (wireNs lMax : Int) < e + wireNs b.length)

/-- Rows 1 to 4 of R339 fail for a frame of these bytes that started at offset `e`: a violation. The slot ends with the longest frame at the
window's late limit (R338). -/
def frameViolates (lMax : Nat) (e : Int) (b : List Byte) : Bool :=
  decide (e < -4000) || decide (4000 < e) || frameCut lMax e b || decide (b.length ≠ max 64 (18 + frameLen b))

/-- An edge start: outside the clean band (R338, R339). -/
def edgeStart (e : Int) : Bool := decide (e < -3000) || decide (3000 < e)

/-- The star's downframe of its present cycle on the port has started. -/
def downSent (s : State) (ch : Chan) (p : Nat) : Bool :=
  match smFind (star s ch).sent p with
  | some f => decide (f.cycle = starCycle s ch)
  | none => false

/-- The start in ns of the star's latest downframe on the port. -/
def downStart (s : State) (ch : Chan) (p : Nat) : Nat :=
  match smFind (star s ch).sent p with
  | some f => 40 * f.start
  | none => 0

/-- A frame is accepted, and its record is there for every lane in RUN (R295, R339, R342, R344, R347). -/
def acceptFrame (ch : Chan) (p start : Nat) (b : List Byte) (s : State) : State :=
  let c := (followerOf s (.star ch)).cycle
  let e := offsetOf s ch p start
  let turn := hdrField b 0x0C 4
  let s := onAux ch (fun a => { a with passed := smPut a.passed p ⟨start, passedBytes b⟩ }) s
  let s := onPort ch p (fun x => { x with vcount := 0, tookAt := some c }) s
  let s := if edgeStart e then
      onPort ch p (fun x => { x with edgeCnt := satAdd 0xFFFF x.edgeCnt 1,
                                     txc := if compatPort s ch p then x.txc else clampI (x.txc - e) (-8000) 8000 }) s
    else s
  let s := if (port s ch p).mode = .integrating then setPortMode ch p .active s else s
  if turn ≠ 0 ∧ downSent s ch p then delaySample ch p c (8 * ((start : Int) - downStart s ch p - turn)) s else s

/-- The star judges frames on a port (R339, R341). -/
def judgesFrames (s : State) (ch : Chan) (p : Nat) : Bool :=
  let st := star s ch
  (st.mode == .running || st.mode == .nodeLed) && !st.isolatedAll && ((port s ch p).mode == .integrating || (port s ch p).mode == .active)

/-- A frame does not run to its end: the star judges it, it starts inside the window, and row 2 or 3 of R339 fails. -/
def frameTruncated (s : State) (ch : Chan) (p start : Nat) (b : List Byte) : Bool :=
  let e := offsetOf s ch p start
  judgesFrames s ch p && decide (-4000 ≤ e) && decide (e ≤ 4000) && frameCut (schedPort s (star s ch).applied ch p).lMax e b

/-- STAR_UPFRAME (R339): a frame on a star port that started at `start`, in ns on the star's timestamp, judged against window, length, slot end
and FCS; `given` none is the upframe that the node sent, bytes that are none a carrier without a start-of-frame delimiter (R341). -/
def execStarUpframe (ch : Chan) (p : BitVec 6) (start : Nat) (given : Option (List Byte)) (s : State) : Host.Outcome State Fault Refusal :=
  .next (
    let k := p.toNat
    let st := star s ch
    let c := (followerOf s (.star ch)).cycle
    let b := match given with
      | some x => x
      | none => match ((node s k).ch.get ch).tx with | some t => t.2 | none => []
    if !domRun s (starDom ch) then s
    else if b.isEmpty then onPort ch k (fun x => { x with falseCarrier := x.falseCarrier + 1 }) s
    else
    let s := if frameTruncated s ch k start b then s else snoop (rxPoint ch) k true true b s
    if (st.mode == .running || st.mode == .nodeLed) && !st.isolatedAll then
      match (port s ch k).mode with
      | .integrating | .active =>
        if frameViolates (schedPort s st.applied ch k).lMax (offsetOf s ch k start) b then violation ch k c s
        else if !fcsCorrect b then onPort ch k (fun x => { x with fcsErrors := x.fcsErrors + 1 }) s
        else acceptFrame ch k start b s
      | .isolated => onPort ch k (fun x => { x with quiet := c }) s
      | _ => s
    else s)

/-- The instant at which a star's transmit gate ends what is still in transmission has come: 15 us before the next cycle instant (R352). -/
def gateCloses (s : State) (ch : Chan) : Bool :=
  decide ((followerOf s (.star ch)).lastCi + Config.tscanTicks s.tscan ≤ s.clk.tick + 375)

/-- A port's downframe is ended with an FCS that cannot match (R352). -/
def spoilDown (p : Nat) (m : SMap DownFrame) : SMap DownFrame := m.map (fun q => (q.1, if q.1 = p then { q.2 with aborted := true } else q.2))

/-- STAR_TX_GATE_FAULT (R352): the gate ends a downframe that is still in transmission, with an FCS that cannot match; faults in 3 consecutive cycles
isolate the star, and MGT resets it. -/
def execStarTxGateFault (ch : Chan) (p : BitVec 6) (s : State) : Host.Outcome State Fault Refusal :=
  .next (
    let st := star s ch
    let c := (followerOf s (.star ch)).cycle
    if domRun s (starDom ch) && !st.isolatedAll && downSent s ch p.toNat && gateCloses s ch then
      let s := onStar ch (fun x => { x with sent := spoilDown p.toNat x.sent }) s
      if st.txFaultCycle = some c then s
      else
        let n := if st.txFaultCycle.map (· + 1) = some c then st.txFaults + 1 else 1
        let s := onStar ch (fun x => { x with txFaults := n, txFaultCycle := some c }) s
        if 3 ≤ n then
          let s := report .vital 0x0505 (starSource ch 0xFFF) (byte ch.idx) [] (onStar ch (fun x => { x with isolatedAll := true }) s)
          if mgtUp s then rawAssert (.starReset ch) s else s
        else s
    else s)

/-! ### Port self-test (R520) -/

/-- BIST_RESULT (R476, R521). -/
def bistResult (r : RecRing) (block test : Nat) (st : Status) (used : Nat) (s : State) : State :=
  let s := report r 0x0901 0 (byte block ++ byte test ++ byte st.code ++ le2 used) [] s
  onBist (fun b => { b with lastResult := smPut b.lastResult block (test, st.code, ophHours s % 65536) }) s

/-- STAR_PORT_SELFTEST (R520): a test of a port in LINKDOWN or OFF by PHY loopback and window logic, once in an hour of TB3 (R514); a failure of
either is a general record and no violation. -/
def execStarPortSelftest (ch : Chan) (p : BitVec 6) (loopback window : Bool) (s : State) : Host.Outcome State Fault Refusal :=
  .next (
    let m := (port s ch p.toNat).mode
    let hour := ophHours s
    if domRun s (starDom ch) && (m == .linkDown || m == .off) && decide (smFind (s.data.aux.get ch).testedIn p.toNat ≠ some hour) then
      let pass := loopback && window
      let s := onAux ch (fun a => { a with selfTest := smPut a.selfTest p.toNat pass, testedIn := smPut a.testedIn p.toNat hour }) s
      if pass then s else bistResult .general (6 + ch.idx) 4 .checkFail 0 s
    else s)

/-- PORT_ENERGY_DETECTED (R520): energy on the pair abandons the test; the port's state stands, and no result is kept. -/
def execPortEnergyDetected (ch : Chan) (p : BitVec 6) (s : State) : Host.Outcome State Fault Refusal :=
  .next (if domRun s (starDom ch) then onAux ch (fun a => { a with selfTest := smDrop a.selfTest p.toNat }) s else s)

/-! ### Cold-start contention (R309 to R313) -/

/-- Contention is open: COLDSTART, or NODE_LED to lane frames, and no winner is waiting for its first beacon. -/
def contentionOpen (s : State) (ch : Chan) : Bool :=
  let st := star s ch
  domRun s (starDom ch) && (st.mode == .coldStart || st.mode == .nodeLed) && st.winner.isNone

/-- The cycle count that a lane puts into its cold-start frame: of its last barrier release, or of the notice before its first (R311). -/
def coldCycle (s : State) (ch : Chan) (l : Lane) : W32 :=
  if (voter s).released then BitVec.ofNat 32 s.ctl.followers.x.cycle else (lane s l).notice.get ch

/-- LISTEN_TIMER_EXPIRY (R310, R311): the lane sends its cold-start frame into the star backbone. -/
def execListenTimerExpiry (ch : Chan) (l : Lane) (s : State) : Host.Outcome State Fault Refusal :=
  .next (
    let x := lane s l
    if contentionOpen s ch && (linkLanes s).contains l && decide (x.listen.get ch ≠ 0) && decide (x.listen.get ch ≤ s.clk.tick) then
      let f := coldFrame ch l (x.cseq.get ch) (coldCycle s ch l) s.data.cfg.linkId s.tscan s.data.sched.inForce
      onLane l (fun x => { x with listen := x.listen.set ch 0, cseq := x.cseq.set ch (x.cseq.get ch + 1), coldTx := x.coldTx.set ch (some f) }) s
    else s)

/-- The node of a port may contend: COMPAT with its CSCAP bit, 8 x T_scan after COLDSTART began (R309, R312). -/
def nodeMayContend (s : State) (ch : Chan) (p : Nat) : Bool :=
  let st := star s ch
  let cap := match ch with | .a => s.data.cfg.cscapA | .b => s.data.cfg.cscapB
  (portCfg s ch p).use && compatPort s ch p && cap.getLsbD p && st.mode == .coldStart &&
  decide (st.coldSince + 8 * Config.tscanTicks s.tscan ≤ s.clk.tick)

/-- The checks of R312 on a cold-start frame. -/
def coldOk (s : State) (ch : Chan) (src : ColdFrom) (b : List Byte) : Bool :=
  fcsCorrect b && decide (hdrByte b 0 % 16 = 3) && decide (frameDa b = coldGroup ch) && decide (hdrByte b 2 / 128 = ch.idx) &&
  decide (hdrField b 8 2 = s.data.cfg.linkId.toNat) && decide (hdrByte b 0x0A = s.tscan) &&
  (match src with
   | .lane l => decide (hdrByte b 0 / 16 = 2) && decide (frameSa b = laneAddr ch l) && (linkLanes s).contains l &&
       decide (hdrField b 4 4 = (starCycle s ch).toNat)
   | .port p => decide (hdrByte b 0 / 16 = 1) && decide (frameSa b = nodeAddr ch p.toNat) && decide (hdrByte b 1 % 64 = p.toNat) &&
       nodeMayContend s ch p.toNat)

/-- The rank of a contender (R312). -/
def coldRank (src : ColdFrom) : Nat :=
  match src with
  | .lane l => l.idx
  | .port p => 4 + p.toNat

/-- A frame still qualifies at the decision: its lane is a link lane, its node may contend (R312). -/
def coldStays (s : State) (ch : Chan) (f : ColdFrame) : Bool :=
  match f.port with
  | some p => nodeMayContend s ch p
  | none => match Lane.ofIdx f.rank with | some l => (linkLanes s).contains l | none => false

/-- The winner among the frames in contention: the lowest rank of the tie set within 50 ns of the earliest start (R312). -/
def coldWinner (fs all : List ColdFrame) : Option ColdFrame :=
  match all.map (·.startNs) with
  | [] => none
  | t :: ts =>
    let s0 := ts.foldl min t
    (fs.filter (fun f => decide (f.startNs ≤ s0 + 50))).foldl (fun b f => match b with
      | none => some f
      | some g => if f.rank < g.rank then some f else some g) none

/-- COLDSTART_REFUSED (R312, R476). -/
def coldRefused (ch : Chan) (src : Nat) (s : State) : State :=
  report .general 0x050A (starSource ch 0xFFF) (byte ch.idx ++ byte (Config.unstatedCode (64 + src))) [] s

/-- The ports that the winning frame is forwarded to on the wire: the COMPAT ports in use but its source (R313). -/
def forwardPorts (s : State) (ch : Chan) (w : ColdFrame) : List Nat :=
  (List.range 64).filter (fun p => (portCfg s ch p).use && compatPort s ch p && decide (w.port ≠ some p))

/-- The star decides the contention: the winner is forwarded, and every lane that receives it cancels its timer (R312, R313). -/
def coldDecide (ch : Chan) (s : State) : State :=
  let fs := (star s ch).contention
  match coldWinner (fs.filter (coldStays s ch)) fs with
  | some w =>
    let s := onLanes (fun x => { x with listen := x.listen.set ch 0 }) s
    let s := (forwardPorts s ch w).foldl (fun s p =>
      snoop (txPoint ch) p true true w.bytes (onAux ch (fun a => { a with coldSent := smPut a.coldSent p w.bytes }) s)) s
    onStar ch (fun x => { x with winner := some w, firstAfter := s.clk.tick, contention := [] }) s
  | none => if fs.isEmpty then s else coldRefused ch 447 (onStar ch (fun x => { x with contention := [] }) s)

/-- No frame of the tie set is still in progress: those in progress started more than 50 ns after the earliest complete one (R312). -/
def tieComplete (fs : List ColdFrame) (inProgress : List Nat) : Bool :=
  match fs.map (·.startNs) with
  | [] => inProgress.isEmpty
  | t :: ts => inProgress.all (fun x => decide (ts.foldl min t + 50 < x))

/-- COLDSTART_FRAME (R312): a cold-start frame that started at `start` has completed at a star, while those of `inProgress` still run; once none of
the tie set does, the star decides. `given` none is the frame that the lane sent. A RUNNING channel judges a node's frame by R339 (R341). -/
def execColdstartFrame (ch : Chan) (src : ColdFrom) (start : Nat) (given : Option (List Byte)) (inProgress : List Nat) (s : State) :
    Host.Outcome State Fault Refusal :=
  .next (
    let b := match given, src with
      | some x, _ => x
      | none, .lane l => ((lane s l).coldTx.get ch).getD []
      | none, _ => []
    let port := match src with | .port p => some p.toNat | .lane _ => none
    if !domRun s (starDom ch) then s
    else if port.isSome && (star s ch).mode != .coldStart then s
    else
    let s := match port with | some p => snoop (rxPoint ch) p true true b s | none => s
    if contentionOpen s ch then
      let s := if coldOk s ch src b then
          onStar ch (fun x => { x with contention := x.contention ++ [⟨coldRank src, start, hdrByte b 0x0B % 8, port, b⟩] }) s
        else coldRefused ch (coldRank src) s
      if tieComplete (star s ch).contention inProgress then coldDecide ch s else s
    else if (star s ch).winner.isSome then s
    else coldRefused ch (coldRank src) s)

/-! ### Upframe records at the lanes (R295 to R298) -/

/-- USEQ of an upframe advances over LAST (R296 row 7). -/
def useqAdvances (last : Option Byte) (useq : Byte) : Bool :=
  match last with
  | some u => decide (1 ≤ (useq - u).toNat) && decide ((useq - u).toNat ≤ 16)
  | none => false

/-- The first row of R296 that an upframe record fails; none where it is valid. -/
def upframeRow (s : State) (ch : Chan) (p : Nat) (n : NodeLink) (b : List Byte) : Option Nat :=
  if hdrByte b 0 ≠ 16 * portVer s ch p + 2 then some 1
  else if frameLen b ≠ 20 + 2 * portN s ch p then some 2
  else if frameCode b ≠ vitalCode ch (slice b 14 16 ++ framePayload b) then some 3
  else if frameDa b ≠ starAddr ch p ∨ frameSa b ≠ nodeAddr ch p ∨ hdrByte b 2 / 128 ≠ ch.idx ∨ hdrByte b 2 % 64 ≠ p ∨
      hdrField b 8 2 ≠ s.data.cfg.linkId.toNat then some 4
  else if bitN (hdrByte b 1) 3 || bitN (hdrByte b 2) 6 || decide (hdrByte b 0x0B ≠ 0) then some 5
  else if hdrField b 4 4 ≠ s.ctl.followers.x.cycle % 2 ^ 32 then some 6
  else if !bitN (hdrByte b 1) 7 && !useqAdvances n.last (BitVec.ofNat 8 (hdrByte b 3)) then some 7
  else none

/-- The acknowledgement that a valid upframe carries for the announced change: of cycles a + 1 to a + 14 (R328). -/
def ackOf (s : State) (b : List Byte) : Option Nat :=
  match s.data.sched.change with
  | some c => match c.a with
    | some a =>
      let d := scnAhead a (BitVec.ofNat 32 (hdrField b 4 4))
      if bitN (hdrByte b 1) 6 ∧ hdrByte b 1 % 8 = c.t ∧ 1 ≤ d ∧ d ≤ 14 then some c.t else none
    | none => none
  | none => none

/-- What a lane keeps of a record: a failure counted by its row, or the valid frame with its fields (R296 to R298). -/
def recordTaken (s : State) (ch : Chan) (p : Nat) (b : List Byte) (n : NodeLink) : NodeLink :=
  let n := { n with seenAt := some (followerOf s (.star ch)).cycle }
  match upframeRow s ch p n b with
  | some row => { n with fails := smSet 0 n.fails row (smGet 0 n.fails row + 1) }
  | none =>
    let u := BitVec.ofNat 8 (hdrByte b 3)
    { n with last := some u, got := some u, gotAt := cycleNow s, payload := framePayload b, nfault := bitN (hdrByte b 1) 4,
             nrestr := bitN (hdrByte b 1) 5, ack := match ackOf s b with | some t => some t | none => n.ack }

/-- UPFRAME_RECORD (R295, R296): the star's upframe record of this cycle reaches a lane in RUN, which checks it. -/
def execUpframeRecord (l : Lane) (ch : Chan) (p : BitVec 6) (s : State) : Host.Outcome State Fault Refusal :=
  .next (
    let k := p.toNat
    let key := portKey ch k
    let c := (followerOf s (.star ch)).cycle
    let n := smGet NodeLink.zero (lane s l).nodes key
    match smFind (s.data.aux.get ch).passed k with
    | some r =>
      if domRun s (laneDom l) && (lane s l).core.active.isSome && decide ((port s ch k).tookAt = some c) && decide (n.seenAt ≠ some c) then
        onLane l (fun x => { x with nodes := smSet NodeLink.zero x.nodes key (recordTaken s ch k r.bytes n) }) s
      else s
    | none => s)

end Sys2Proof.Machine
end

