-- ==== Sys2Proof/Machine/Power.lean ====
section
/-! DEFINITION. Power and reset (R34 to R41, R479 to R495, R504, R573, R582, R584, R587): the reset sources, the release order,
RESET_N, the straps, island limits, bridge faults and the hold-up store. -/

namespace Sys2Proof.Machine

open Sys2Proof

/-! ### Sources (R479) -/

/-- A source is asserted. -/
def asserted (s : State) (r : ResetSrc) : Bool := s.power.sources.contains r

/-- REFCLK ticks for which a source has been asserted. -/
def assertedFor (s : State) (r : ResetSrc) : Nat :=
  match s.power.assertedAt.find? (fun p => decide (p.1 = r)) with
  | some p => s.clk.tick - p.2
  | none => 0

/-- The hold time of a source is over (R479): 1 ms for those that a timer ends; CTRL_RESET and the resets of the stars stay through
a backoff wait and in RECOVERY (R494, R503), SYS_RESET through a shutdown hold (R504), RESET_N while the pin is low and not judged
stuck (R489, R490). RET_POR goes once PD0's supply has stood at 2.4 V with main power present for 1 ms, MAIN_POR once the input has stood at 17.0 V with
every rail in limit for 20 ms: `mV` is the lowest reading of the last `ticks` ticks, `rest` the presence of main power or the rails. -/
def mayRelease (s : State) (r : ResetSrc) (mV ticks : Nat) (rest : Bool) : Bool :=
  asserted s r && !s.power.refclkHeld &&
  (match r with
   | .retPor => decide (2400 ≤ mV) && decide (25000 ≤ ticks) && rest
   | .mainPor => !asserted s .retPor && decide (17000 ≤ mV) && decide (500000 ≤ ticks) && rest
   | .resetN => s.ret.resetnLevel || s.ret.stuckReset
   | .sysReset => decide (25000 ≤ assertedFor s r) && !s.power.shutdownHold
   | .ctrlReset => decide (25000 ≤ assertedFor s r) && s.mgt.start.backoffUntil.isNone && !s.power.recovery
   | .starReset _ => decide (25000 ≤ assertedFor s r) && !s.power.recovery
   | _ => decide (25000 ≤ assertedFor s r))

/-- A source is asserted no longer. -/
def dropSource (r : ResetSrc) (s : State) : State :=
  onPower (fun p => { p with sources := p.sources.filter (fun q => decide (q ≠ r)),
                             assertedAt := p.assertedAt.filter (fun q => decide (q.1 ≠ r)) }) s

/-- A star that is OFF takes its place in the release order at the release of a source that reaches PD1 (R484). -/
def offStars (s : State) : State :=
  let s := if dom s 3 = .off then setDom 3 .held s else s
  if dom s 4 = .off then setDom 4 .held s else s

/-- The shutdown hold ends (R504): SYS_RESET is no longer kept. -/
def wake (s : State) : State :=
  if s.power.shutdownHold then dropSource .sysReset (onPower (fun p => { p with shutdownHold := false }) s) else s

/-- A source is released; RESET_N ends a shutdown hold with it (R504). -/
def releaseSrc (r : ResetSrc) (s : State) : State :=
  let s := dropSource r s
  let s := if r = .resetN then wake s else s
  if (reach r).contains 1 then offStars s else s

/-- RESET_SOURCE_RELEASE (R479). -/
def execResetSourceRelease (r : ResetSrc) (mV ticks : Nat) (rest : Bool) (s : State) : Host.Outcome State Fault Refusal :=
  .next (if mayRelease s r mV ticks rest then releaseSrc r s else s)

/-- What a shutdown BIST leaves that is ended by a wake, a start, a watchdog reset or a loss of power: the mark in the station-data
store stays, and MGT stores the record with ABANDONED = 1 (R516, R517). -/
def bistStopped (s : State) : State := onBist (fun b => { b with running := false }) s

/-- MAIN_POR (R479, R471): what the flush has not committed of the general ring is counted in retention SRAM; vital records are all
committed; a freeze has ended; the store loses its charge; PCC and TB1 are to change at the next release of PD1 (R488). -/
def mainPowerLost (s : State) : State :=
  let s := onRec (fun m => m.reports.foldl (fun m e => takeIn s e (settleLosses s { m with reports := [] })) m) s
  let s := onRec (endFreeze s.clk.tick) s
  let s := commitAll (committable s.mgt.recorder .vital) .vital s
  let left := s.mgt.recorder.generalIn.length + (s.mgt.recorder.freeze.filter (fun r => decide (r.ev.ring = .general))).length
  let s := onRet (fun r => { r with sram := { r.sram with uncommitted := r.sram.uncommitted + left } }) s
  let s := onRec (fun m => { m with vitalIn := [], generalIn := [], freeze := [], lost := 0 }) s
  let s := bistStopped (wake s)
  let s := onStart (fun x => { x with storeCharged := false, shutdownPending := false }) s
  let s := assertSrc .mainPor (sourceCause .mainPor) s
  onPower (fun p => { p with tb1Restart := true, pccBump := true, sysResetAt := none }) s

/-- MAIN_POR (R479): the input has stood at `mV` or below for `ticks` ticks, or a fitted domain's rail is outside its limit. -/
def execMainPor (mV ticks : Nat) (railOut : Bool) (s : State) : Host.Outcome State Fault Refusal :=
  .next (if asserted s .mainPor || !(railOut || (decide (mV < 15000) && decide (250 ≤ ticks))) then s else mainPowerLost s)

/-- RET_POR (R479, R485): main power is absent too; the retention registers and SRAM take their reset values. -/
def retentionLost (s : State) : State :=
  let s := if asserted s .mainPor then s else mainPowerLost s
  let s := assertSrc .retPor (sourceCause .retPor) s
  let s := onClk (fun c => { c with tb3Ticks := 0, hoursPending := 0 }) s
  { s with ret := RetState.zero }

/-- RET_POR (R479): PD0's supply stands below 2.0 V. -/
def execRetPor (mV : Nat) (s : State) : Host.Outcome State Fault Refusal :=
  .next (if asserted s .retPor || decide (2000 ≤ mV) then s else retentionLost s)

/-- The MGT watchdog resets PD1 (R479, R506): a shutdown BIST is abandoned, and the shutdown proceeds after MGT's boot. -/
def watchdogReset (s : State) : State :=
  if domRun s 1 then assertSrc .watchdog 0 (onStart (fun x => { x with wdBoot := true }) (bistStopped s)) else s

/-- MGT_WATCHDOG_EXPIRY (R479). -/
def execMgtWatchdogExpiry (s : State) : Host.Outcome State Fault Refusal :=
  .next (watchdogReset s)

/-- RESET_SOURCE_ASSERT (R479): any source is asserted; RESET_N's pin reads low with it. -/
def execResetSourceAssert (r : ResetSrc) (s : State) : Host.Outcome State Fault Refusal :=
  .next (if asserted s r then s
    else match r with
      | .retPor => retentionLost s
      | .mainPor => mainPowerLost s
      | .watchdog => watchdogReset s
      | .resetN => if s.ret.stuckReset then s
                   else assertSrc .resetN (sourceCause .resetN)
                     (bistStopped (onRet (fun x => { x with resetnLevel := false, levelSince := s.clk.tick }) s))
      | r => if (reach r).all (domAbsent s.variant) then s else assertSrc r (sourceCause r) s)

/-! ### RESET_N (R489, R490, R504) -/

/-- RESET_N_DEBOUNCE (R489): 10 ms of equal samples change the debounced level; low asserts the source, high releases it; a shorter pulse has no
effect. While STUCK_RESET is set the input is ignored (R490). -/
def execResetNDebounce (level : Bool) (ticks : Nat) (s : State) : Host.Outcome State Fault Refusal :=
  .next (if asserted s .mainPor || asserted s .retPor || s.ret.resetnLevel == level || decide (ticks < 250000) then s
    else
      let s := onRet (fun r => { r with resetnLevel := level, levelSince := s.clk.tick }) s
      if s.ret.stuckReset then s
      else if level then (if asserted s .resetN && !s.power.refclkHeld then releaseSrc .resetN s else s)
      else assertSrc .resetN (sourceCause .resetN) (bistStopped s))

/-- RESET_N_STUCK (R490): low for more than 60 s; the input is treated as released, which also ends a shutdown hold (R506). -/
def execResetNStuck (s : State) : Host.Outcome State Fault Refusal :=
  .next (if !s.ret.stuckReset && !s.ret.resetnLevel && decide (s.ret.levelSince + 1500000000 < s.clk.tick) then
    let s := onRet (fun r => { r with stuckReset := true }) s
    if asserted s .resetN then releaseSrc .resetN s else s
  else s)

/-- RESET_N_STUCK_CLEAR (R490): the pin has read high for 1 s, which began 10 ms before its debounced level rose. -/
def execResetNStuckClear (s : State) : Host.Outcome State Fault Refusal :=
  .next (if s.ret.stuckReset && s.ret.resetnLevel && decide (s.ret.levelSince + 24750000 ≤ s.clk.tick) then
    onRet (fun r => { r with stuckReset := false }) s
  else s)

/-! ### BOOT_CFG (R491 to R494) -/

/-- Counts that a code accepts: 4k + 1 and 4k + 2, and 61 to 63 for code 15 (R492). -/
def countOf (k : Nat) (n : Nat) : Bool := if k = 15 then decide (61 ≤ n) && decide (n ≤ 63) else decide (n = 4 * k + 1) || decide (n = 4 * k + 2)

/-- The code of a strap: all 8 counts in one code's range (R491); none where it is invalid (R493). -/
def strapCode (counts : List Nat) : Option Nat :=
  if counts.length = 8 then (List.range 16).find? (fun k => counts.all (countOf k)) else none

/-- The boot source of a code (R492). -/
def bootSource (k : Nat) : BootSource :=
  if k < 4 then .recovery else if k < 8 then .host else if k < 12 then .nvB else .nvA

/-- The PCIe link is down from the release of PD1 (R492). -/
def pcieOff (k : Nat) : Bool := k == 0 || k == 1 || k == 8 || k == 9 || k == 12 || k == 13

/-- BOOT_CFG_SAMPLE (R491 to R493): an invalid strap boots as code 15. -/
def sampleStrap (counts : List Nat) (s : State) : State :=
  let k := (strapCode counts).getD 15
  onPower (fun p => { p with bootCfg := some k, strapInvalid := (strapCode counts).isNone, pcieDown := pcieOff k,
                             linkMode := if k % 2 = 0 then 2 else 1, recovery := false }) s

/-- The bank that BOOT_CFG names, if it names one (R492). -/
def namedBank (s : State) : Option Nat :=
  match s.power.bootCfg.map bootSource with
  | some .nvA => some 0
  | some .nvB => some 1
  | _ => none

/-- The mask ROM acts as RECOVERY: CTRL_RESET and both STAR_RESETs are held (R494). -/
def enterRecovery (s : State) : State :=
  let s := onPower (fun p => { p with recovery := true }) s
  rawAssert (.starReset .b) (rawAssert (.starReset .a) (rawAssert .ctrlReset s))

/-! ### Release order (R482 to R484) -/

/-- gap(d) in REFCLK ticks (R482). -/
def gapOf (d : Nat) : Nat := if d = 11 then 65536 else 4096

/-- The domain that the rule of R482 releases at this tick, if any. -/
def nextDomain (s : State) : Option Nat :=
  if s.power.refclkHeld then none
  else match [1, 2, 3, 4, 5, 6, 7, 8, 9, 10, 11].find? (fun d => decide (dom s d = .held)) with
    | some d => if reached s d || decide (s.clk.tick - s.power.lastRelease < gapOf d) then none else some d
    | none => none

/-- A record of the electrical boundary whose code R476 does not state. -/
def electricRecord (ring : RecRing) (which : Nat) (key : List Byte) (s : State) : State :=
  report ring (Config.unstatedCode which) 0 key [] s

/-- HOLDUP_STORE_MEASURE (R573): below 2.7 J the store is weak. -/
def measureStore (energyMj : Nat) (s : State) : State :=
  let weak := decide (energyMj < 2700)
  let s := onElec (fun e => { e with storeWeak := weak }) s
  if weak then electricRecord .vital 0 (le4 energyMj) s else s

/-- PCC and TB1 at the release of PD1 that ends RET_POR, MAIN_POR or a shutdown hold (R488, R360), BANK (R502), and which bank is P. -/
def countPowerCycle (s : State) : State :=
  let bump := s.power.pccBump
  let s := if bump then onRet (fun r => { r with pcc := r.pcc + 1 }) s else s
  let s := match namedBank s with
    | some b => if bump || decide (s.ret.failedStarts = 0) then onRet (fun r => { r with sram := { r.sram with bank := b } }) s else s
    | none => s
  let s := if s.power.tb1Restart then
      onRet (fun r => { r with levelSince := 0 })
        (onPower (fun p => { p with lastRelease := 0, assertedAt := p.assertedAt.map (fun q => (q.1, 0)) })
          (onClk (fun c => { c with tick := 0 }) s))
    else s
  let s := match namedBank s with
    | some b => if s.mgt.upd.preferred = b then s
                else onUpd (fun u => { u with preferred := b, bankP := u.bankQ, bankQ := u.bankP }) s
    | none => s
  onPower (fun p => { p with pccBump := false, tb1Restart := false }) s

/-- A start attempt begins (R499). -/
def beginAttempt (viaMgt : Bool) (s : State) : State :=
  onStart (fun x => { x with attempts := x.attempts + 1, inAttempt := true, kind := .full, began := s.clk.tick, bound := msTicks 30000, held := 0, runSince := none,
                             loaded := false, bistDone := false, service := false, bivouac := false, firstVoted := 0, viaMgt := viaMgt,
                             shutdownPending := false }) s

/-- The shutdown-BIST record admits a QUICK start (R497, R516). -/
def quickRecord (s : State) : Bool :=
  match s.mgt.bist.record with
  | some r => r.complete && r.passed && !r.abandoned && decide (r.pcc + 1 = s.ret.pcc) && decide (s.ret.sram.recUsedPcc ≠ s.ret.pcc) &&
      decide (tb3Tick s ≤ r.ophH * Config.hourTicks + r.ophF * Config.hourTicks / 65536 + 720 * Config.hourTicks)
  | none => false

/-- The kind of the start, its bound, and the record that a QUICK start consumes (R497). -/
def decideKind (s : State) : State :=
  if quickRecord s then
    onStart (fun x => { x with kind := .quick, bound := msTicks 2500 })
      (onRet (fun r => { r with sram := { r.sram with recUsedPcc := r.pcc, evidPcc := r.pcc } }) s)
  else if s.ret.sram.evidPcc = s.ret.pcc then
    onStart (fun x => { x with kind := .warm, bound := msTicks (if x.viaMgt then 2500 else 2400) }) s
  else onStart (fun x => { x with kind := .full, bound := msTicks 30000 })
    (onBist (fun b => { b with done := 0, lFail := 0, mFail := 0, repairs := 0, startedAt := s.clk.tick }) s)

/-- The mask ROM takes a package afresh: one held in the staging area is discarded (R550, R551). -/
def stagingDropped (s : State) : State :=
  onUpd (fun u => { u with held := [], romComplete := false,
                           mode := match u.mode with | .receiving | .staged => .idle | m => m,
                           manifest := match u.mode with | .receiving | .staged => none | _ => u.manifest }) s

/-- PD1 leaves reset (R488, R491 to R494, R499, R573). -/
def releaseMgt (strap : List Nat) (energyMj : Nat) (s : State) : State :=
  let s := measureStore energyMj (countPowerCycle (sampleStrap strap s))
  let full := s.power.fullReset
  let s := onPower (fun p => { p with fullReset := false, lastRelease := s.clk.tick }) s
  match s.power.bootCfg.map bootSource with
  | some .recovery => enterRecovery (stagingDropped s)
  | some .host => (if full then beginAttempt true else id) (stagingDropped s)
  | _ => if full then beginAttempt true s else s

/-- The stored network block passes its checks (R376, R548). -/
def netStored (s : State) : Bool := fmtOk s netBlk (storedBlock s netBlk) && netBlockOk s.tscan (blockInUse s netBlk)

/-- MGT hands NET its block where it has none yet (R17, R376). -/
def handNet (s : State) : State :=
  if mgtUp s && domRun s 2 && s.data.net.cfg.isNone && netStored s then
    onNet (fun n => { n with cfg := some (parseNet (blockInUse s netBlk)) }) s
  else s

/-- A star's FIELD_ASYM entries. -/
def asymEntries (ch : Chan) (c : NetCfg) : SMap Int :=
  (c.fieldAsym.filter (fun p => decide (p.1 / 64 = ch.idx))).map (fun p => (p.1 % 64, p.2))

/-- A port of a star at its release or at a control-plane start: DISABLED where unused, LINKDOWN, or LOCKED where MGT's lock list
names it (R336, R346, R354). -/
def portStart (s : State) (ch : Chan) (p : Nat) : PortState :=
  let x := port s ch p
  if !(portCfg s ch p).use then portKept x
  else
    let m : PortMode := if onLockList s ch p then .locked else .linkDown
    { portKept x with mode := m, downSince := some s.clk.tick }

/-- MGT loads a star where it has not (R17, R346, R376): its firmware version, its FIELD_ASYM entries and the lock list. -/
def handStar (ch : Chan) (s : State) : State :=
  if mgtUp s && domRun s (starDom ch) && (s.data.aux.get ch).asym.isNone then
    let asym := if netStored s then asymEntries ch (parseNet (blockInUse s netBlk)) else []
    let s := onAux ch (fun a => { a with asym := some asym, fwVer := (curSet s).star }) s
    let s := onUpd (fun u => { u with active := { u.active with star := (curSet s).star } }) s
    (List.range 64).foldl (fun s p => onPort ch p (fun _ => portStart s ch p) s) s
  else s

/-- PD3 or PD4 leaves reset: the channel is in COLDSTART (R307, R354). -/
def releaseStar (ch : Chan) (s : State) : State :=
  singleChannel ch false (handStar ch (onStar ch (fun x => { x with mode := .coldStart, coldSince := s.clk.tick }) s))

/-- The lowest of the causes noted since the last start (R121, R480). -/
def lowestCause (cs : List Nat) : Nat :=
  match cs with
  | [] => 0x0F
  | c :: r => r.foldl min c

/-- PD5 leaves reset: a trip is over, RESTART_CAUSE is known, and an attempt begins where none did at PD1 (R121, R480, R499). -/
def releaseVoter (s : State) : State :=
  let s := onTrip (fun t => { TripState.zero with supplyLow := t.supplyLow, supplyOkSince := t.supplyOkSince }) s
  let s := onStart (fun x => { x with restartCause := lowestCause x.causes, causes := [] }) s
  if s.mgt.bist.running || s.mgt.start.inAttempt then s else decideKind (beginAttempt false s)

/-- The lane firmware that MGT loads: that of the seats, and in the lane step of an activation the step's (R17, R196, R208). -/
def laneFirmware (s : State) : W32 := if s.ctl.rot.forFirmware then (curSet s).lane else s.mgt.upd.active.lane

/-- A lane leaves its own reset while the control plane runs: MGT loads it, and it holds no seat (R17, R171). -/
def releaseLane (l : Lane) (s : State) : State :=
  if (voter s).running && mgtUp s then
    match runImage s with
    | some i => setVote l .vacated (onLane l (fun x => { loadLane i (laneFirmware s) with health := x.health }) s)
    | none => s
  else s

/-- DOMAIN_RELEASE (R482): the next domain in the order leaves reset, once its sources are released and its gap has passed. `strap`
and `energyMj` are what the release of PD1 samples and measures. -/
def execDomainRelease (strap : List Nat) (energyMj : Nat) (s : State) : Host.Outcome State Fault Refusal :=
  .next (match nextDomain s with
    | none => s
    | some d =>
      let s := onPower (fun p => { p with lastRelease := s.clk.tick }) (setDom d .run s)
      match d with
      | 1 => releaseMgt strap energyMj s
      | 2 => handNet s
      | 3 => releaseStar .a s
      | 4 => releaseStar .b s
      | 5 => releaseVoter s
      | 7 => releaseLane .a s
      | 8 => releaseLane .b s
      | 9 => releaseLane .c s
      | 10 => releaseLane .d s
      | _ => s)

/-! ### Hold-up store, cell, air (R573, R582, R584) -/

/-- HOLDUP_STORE_CHARGED (R573). -/
def execHoldupStoreCharged (s : State) : Host.Outcome State Fault Refusal :=
  .next (if asserted s .mainPor || asserted s .retPor then s else onStart (fun x => { x with storeCharged := true }) s)

/-- MGT is to measure the cell: at a start of PD1, and every 24 operating hours (R582). -/
def cellDue (s : State) : Bool :=
  match s.mgt.elec.cellAt with
  | none => true
  | some t => decide (t + 24 * 3600 * 25000000 ≤ s.clk.tick)

/-- BACKUP_CELL_MEASURE (R582): below 2.7 V MGT writes a general record and the FAULT LED blinks. -/
def execBackupCellMeasure (mV : Nat) (s : State) : Host.Outcome State Fault Refusal :=
  .next (if mgtUp s && cellDue s then
    let s := onElec (fun e => { e with cellLow := decide (mV < 2700), cellAt := some s.clk.tick }) s
    if mV < 2700 then electricRecord .general 1 (le2 mV) s else s
  else s)

/-- INLET_AIR_OVERTEMP (R584): above 75 C for 60 s. -/
def execInletAirOvertemp (t : BitVec 16) (ticks : Nat) (s : State) : Host.Outcome State Fault Refusal :=
  .next (if mgtUp s && decide (75 < t.toInt) && decide (60 * 25000000 ≤ ticks) then electricRecord .general 2 [] s else s)

/-! ### Island limits (R37 to R41, R587) -/

/-- The island belongs to the control plane (R13, R41). -/
def controlIsland : Island → Bool
  | .lane _ | .x | .y | .vio => true
  | _ => false

/-- ISLAND_LIMIT (R41, R476, R587). -/
def limitRecord (i : Island) (q : Quantity) (entered : Bool) (v : W32) (s : State) : State :=
  report (if controlIsland i then .vital else .general) 0x0104 0 (byte i.code ++ byte q.code ++ byte (b2n entered)) (le4 v.toNat) s

/-- A condition as it stands, and changed. -/
def limitAt (s : State) (k : Nat) : LimitState := smGet LimitState.zero s.ctl.island k
def onLimit (k : Nat) (f : LimitState → LimitState) (s : State) : State :=
  onCtl (fun c => { c with island := smSet LimitState.zero c.island k (f (smGet LimitState.zero c.island k)) }) s

/-- The treatment of an island that exceeds a limit (R40). A lane's standing ends at the next release (R182), and the belay lane counts as
unavailable (R199); a star sends nothing and isolates all its ports. -/
def limitExceeded (i : Island) (s : State) : State :=
  match i with
  | .lane _ => s
  | .x | .y | .vio => trip 0x0E true s
  | .star c =>
    let s := onStar c (fun x => { x with isolatedAll := true }) s
    (List.range 64).foldl (fun s p => match (port s c p).mode with
      | .integrating | .active => isolatePort c p (followerOf s (.star c)).cycle false s
      | _ => s) s
  | .net => assertSrc .netReset 0 s
  | .mgt => watchdogReset s
  | .refclk => onPower (fun p => { p with refclkHeld := true }) (trip 0x0E true s)

/-- A condition clears (R40, R41): a star is reset, REFCLK counts again. -/
def limitCleared (k : Nat) (i : Island) (q : Quantity) (s : State) : State :=
  let s := limitRecord i q false (limitAt s k).last (onLimit k (fun _ => LimitState.zero) s)
  if islandOut s i then s
  else match i with
    | .star c => if (star s c).isolatedAll then assertSrc (.starReset c) 0 s else s
    | .refclk => onPower (fun p => { p with refclkHeld := false }) s
    | _ => s

/-- The domain of an island (R13). -/
def islandDom : Island → Nat
  | .lane l => laneDom l
  | .x => 5
  | .y => 6
  | .vio => 11
  | .star c => starDom c
  | .net => 2
  | .mgt => 1
  | .refclk => 0

/-- A reading judged (R37, R41, R587): the key of its condition, the island concerned, whether it lies outside the limit, whether it counts
towards clearance, and the value as a record carries it. -/
structure Reading where
  key : Nat
  island : Island
  out : Bool
  clears : Bool
  value : W32
  deriving DecidableEq, Repr

/-- The reading `v` of a quantity of island `i`. Clock: 2 % in units of 0.001 %. Voltage: 5 % in units of 0.01 %. Temperature: the difference
to the neighbour of code v[23:16] in units of 0.125 K, 40 K and 35 K; the hotter of the pair is concerned, and a pair that R38 does not
list has no limit. -/
def readingOf (i : Island) (q : Quantity) (v : W32) : Option Reading :=
  match q with
  | .clock => let out := decide (2000 < absI v.toInt); some ⟨limitKey i q, i, out, !out, v⟩
  | .voltage => let out := decide (500 < absI v.toInt); some ⟨limitKey i q, i, out, !out, v⟩
  | .temperature =>
    match (Island.ofCode (field v.toNat 16 8)).bind (fun j => (pairIndex i j).map (fun n => (j, n))) with
    | none => none
    | some (j, n) =>
      let d := signedN 16 (v.toNat % 65536)
      let hot := if d < 0 then j else i
      let cool := if d < 0 then i else j
      let a := d.natAbs
      some ⟨pairKey n, hot, decide (320 < a), decide (a < 280), BitVec.ofNat 32 (cool.code * 65536 + a)⟩

/-- What a reading makes of its condition: entry, a step towards clearance, or a step back (R40, R41). -/
def takeReading (q : Quantity) (r : Reading) (s : State) : State :=
  let x := limitAt s r.key
  if x.out then
    onLimit r.key (fun x => { x with inRun := if r.clears then (if q = .temperature then 64 else min 64 (x.inRun + 1)) else 0,
                                     last := r.value }) s
  else if r.out then
    limitExceeded r.island (limitRecord r.island q true r.value (onLimit r.key (fun _ => ⟨true, 0, r.island.code, r.value⟩) s))
  else s

/-- ISLAND_LIMIT_MEASUREMENT (R37 to R41): one reading of a quantity of an island, as R587 encodes it. -/
def execIslandLimitMeasurement (i : Island) (q : Quantity) (v : W32) (s : State) : Host.Outcome State Fault Refusal :=
  .next (if !domRun s (islandDom i) then s
    else match readingOf i q v with
      | some r => takeReading q r s
      | none => s)

/-- ISLAND_LIMIT_CLEAR (R41): 64 consecutive readings of a clock or voltage were in limit, or the difference to neighbour `j` has fallen
below 35 K; the record carries the reading that cleared it. -/
def execIslandLimitClear (i : Island) (q : Quantity) (j : Island) (s : State) : Host.Outcome State Fault Refusal :=
  .next (
    let k := match q with | .temperature => (pairIndex i j).map pairKey | _ => some (limitKey i q)
    match k with
    | none => s
    | some k =>
      let x := limitAt s k
      if x.out && decide (64 ≤ x.inRun) then limitCleared k ((Island.ofCode x.who).getD i) q s else s)

/-! ### Bridges (R35) -/

/-- BRIDGE_FAULT (R476). -/
def bridgeRecord (rx tx : Island) (attempts : Nat) (s : State) : State :=
  report .general 0x020A 0 (byte rx.code ++ byte tx.code) (byte attempts) s

/-- The key of a bridge's failed attempts. -/
def bridgeKey (rx tx : Island) : Nat := 16 * rx.code + tx.code

/-- NET and MGT have the word sent again; after 3 failed attempts at one word the bridge is reset (R35). `again` is a fault of the
retransmission of the word that failed before. -/
def bridgeRetry (rx tx : Island) (again : Bool) (s : State) : State :=
  let n := (if again then smGet 0 s.ctl.bridgeTries (bridgeKey rx tx) else 0) + 1
  let s := onCtl (fun c => { c with bridgeTries := smSet 0 c.bridgeTries (bridgeKey rx tx) (if n = 3 then 0 else n) }) s
  if n = 3 then bridgeRecord rx tx 3 s else s

/-- A bridge fault at a lane (R35): one that takes part sends a withdrawal of cause 0x83 and no more of the scan (R146, R148). -/
def laneBridgeFault (x : LaneState) : LaneState :=
  if x.core.phase ≠ .stopped ∧ x.core.active.isSome then laneWithdraw 0x83 x
  else { x with commit := { x.commit with renewBad := true } }

/-- BRIDGE_PARITY_FAULT (R35): the receiving island treats the word as not received. A lane's record at a voter half is judged as
one that has not arrived. -/
def execBridgeParityFault (rx tx : Island) (again : Bool) (s : State) : Host.Outcome State Fault Refusal :=
  .next (if rx = tx ∨ !domRun s (islandDom rx) ∨ !domRun s (islandDom tx) then s
    else match rx with
      | .net | .mgt => bridgeRetry rx tx again s
      | .refclk => bridgeRecord rx tx 1 s
      | .lane l => onLane l laneBridgeFault (bridgeRecord rx tx 1 s)
      | .x | .y =>
        let s := bridgeRecord rx tx 1 s
        match tx with
        | .x | .y | .vio | .star _ => tripXY s
        | _ => s
      | .star c =>
        let s := bridgeRecord rx tx 1 s
        match tx with
        | .x | .y => onAux c (fun a => { a with badFor := some ((followerOf s (.star c)).cycle + 1) }) s
        | _ => s
      | .vio => tripXY (bridgeRecord rx tx 1 s))

end Sys2Proof.Machine
end

