-- ==== Sys2Proof/Machine/Update.lean ====
section
/-! DEFINITION. Firmware update (R525 to R552): delivery and staging, the activation steps, rollback, commit and revert, migration
of the configuration blocks, loading by the mask ROM, and the UPD commands (R434). -/

namespace Sys2Proof.Machine

open Sys2Proof

/-! ### Steps (R537) -/

/-- The components of a step. -/
def stepComps (n : Nat) : List Nat :=
  match n with
  | 2 => [0, 1]
  | 3 => [4]
  | 4 => [4]
  | 5 => [5]
  | 6 => [3]
  | 7 => [2]
  | _ => []

/-- The set that the activation moves to: P; and the set that it left. -/
def stepChanges (u : UpdState) (n : Nat) : List Nat := (stepComps n).filter (fun c => decide (verOf u.previous c ≠ verOf u.bankP c))

/-- COMPONENT of a step: 0xFF where it names none (R536). -/
def stepComponent (u : UpdState) (n : Nat) : Nat :=
  let cs := match u.mode with | .rollback => stepComps n | _ => stepChanges u n
  cs.getLast?.getD 0xFF

/-- A step starts or ends: the UPDATE event and the UPDATE_STEP record (R447, R476, R537). -/
def stepNote (n : Nat) (st : Status) (percent : Nat) (s : State) : State :=
  let c := byte (stepComponent s.mgt.upd n) ++ byte n ++ byte st.code
  raise 0x0006 (c ++ byte percent) (report .vital 0x0702 0 c [] s)

/-- The configuration blocks as stored (R547). -/
def storedBlocks (s : State) : SMap (List Byte) :=
  [(vioBlk, s.mgt.store.vioBlock), (netBlk, s.mgt.store.netBlock), (linkBlk, s.mgt.store.linkBlock), (schedBlk, s.mgt.store.schedBlock)]

def putBlocks (m : SMap (List Byte)) (s : State) : State :=
  onStore (fun x => { x with vioBlock := smGet [] m vioBlk, netBlock := smGet [] m netBlk, linkBlock := smGet [] m linkBlk,
                             schedBlock := smGet [] m schedBlk }) s

/-- P is rewritten from Q and the original configuration reinstated (R544, R546). -/
def backToQ (s : State) : State :=
  let s := match s.mgt.upd.originals with
    | some m => onStore (fun x => { x with itemFmt := s.mgt.upd.origFmt }) (putBlocks m s)
    | none => s
  onUpd (fun u => { u with bankP := u.bankQ, originals := none, origFmt := [], used := u.preferred }) s

/-- The activation or rollback is over. -/
def updEnds (m : UpdMode) (s : State) : State :=
  onUpd (fun u => { u with mode := m, step := 0, begun := false, complete := [] }) s

/-- Lanes that a lane step rotates: on F all home lanes, on T likewise one at a time (R208, R210). -/
def laneQueue (v : Variant) : List Lane :=
  match v with
  | .e => []
  | _ => [.a, .b, .c]

/-- A step begins (R537 to R542). A star step waits for its other channel, the lane step for the rotation in progress (R556). -/
def beginStep (n : Nat) (s : State) : State :=
  let waits := decide (n = 3 ∨ n = 4 ∨ n = 7)
  let s := stepNote n .pending 0 (onUpd (fun u => { u with step := n, begun := !waits, stepSince := s.clk.tick, stepScn := scn s, refusals := 0,
                                                           shadowVio := none, shadowVoter := ⟨none, none⟩ }) s)
  if n = 1 then onUpd (fun u => { u with bankQ := u.bankP }) s else s

/-- The lane step takes up the rotations; those that were due wait for its end (R208, R556). -/
def beginLanes (s : State) : State :=
  onUpd (fun u => { u with begun := true }) (onRot (fun r => { r with forFirmware := true, fwFails := 0, queue := laneQueue s.variant,
                                                                      waiting := r.queue ++ r.waiting.filter (fun l => !r.queue.contains l) }) s)

/-- The lane step is over: rotations that have come due and that it has not made are made now (R556). -/
def endLanes (s : State) : State :=
  onRot (fun r => { r with forFirmware := false, fwFails := 0, queue := r.waiting, waiting := [] }) s

/-- Rollback goes on with the latest step completed, and ends once none but step 1 is left (R544). -/
def rollbackNext (s : State) : State :=
  match (s.mgt.upd.complete.filter (fun n => decide (2 ≤ n))).foldl max 0 with
  | 0 => updEnds .staged s
  | n => beginStep n (onUpd (fun u => { u with complete := u.complete.filter (fun k => decide (k ≠ n)) }) s)

/-- A step fails (R544). -/
def stepFails (st : Status) (s : State) : State :=
  let s := stepNote s.mgt.upd.step st 100 s
  let s := if s.mgt.upd.step = 7 then endLanes s else s
  match s.mgt.upd.mode with
  | .activating => rollbackNext (backToQ (onUpd (fun u => { u with mode := .rollback, lastStatus := st.code }) s))
  | .rollback => rollbackNext s
  | _ => s

/-- A step starts: S4 is read again, but not in a rollback (R537, R544). -/
def startStep (n : Nat) (s : State) : State :=
  if s.mgt.upd.mode = .activating ∧ !switchOn s 4 then stepFails .deniedSeal (onUpd (fun u => { u with step := n }) s)
  else beginStep n s

/-- The steps that the package still needs (R537). -/
def stepsLeft (u : UpdState) : List Nat :=
  [2, 3, 4, 5, 6, 7].filter (fun n => !u.complete.contains n && !(stepChanges u n).isEmpty)

/-- The activation is complete (R535). -/
def activated (s : State) : State := updEnds .awaitCommit (onUpd (fun u => { u with lastStatus := Status.ok.code }) s)

/-- A step is complete: its component's version is active (R390, R537). -/
def finishStep (s : State) : State :=
  let n := s.mgt.upd.step
  let s := stepNote n .ok 100 s
  let s := onUpd (fun u => { u with active := (stepComps n).foldl (fun v c => setVer v c (verOf u.bankP c)) u.active, begun := false }) s
  let s := if n = 7 then endLanes s else s
  match s.mgt.upd.mode with
  | .rollback => rollbackNext s
  | .activating =>
    let s := onUpd (fun u => { u with complete := u.complete ++ [n] }) s
    match (stepsLeft s.mgt.upd).head? with
    | some k => startStep k s
    | none => activated s
  | _ => s

/-! ### What drives the steps -/

/-- The step in progress has begun. -/
def inStep (s : State) (n : Nat) : Bool :=
  mgtUp s && (decide (s.mgt.upd.mode = .activating) || decide (s.mgt.upd.mode = .rollback)) && decide (s.mgt.upd.step = n) && s.mgt.upd.begun

/-- The channel of a star step. -/
def stepChan (n : Nat) : Option Chan :=
  match n with
  | 3 => some .a
  | 4 => some .b
  | _ => none

def channelRunning (s : State) (ch : Chan) : Bool := domRun s (starDom ch) && decide ((star s ch).mode = .running)

/-- A lane without a seat and in no transfer is reloaded with the step's firmware: MGT resets its domain and loads it as it leaves reset (R17,
R208; DEDUCED, log entry 110). It then passes its test before it stands by again (R518). -/
def reloadIdle (s : State) (l : Lane) : State :=
  let idle := (seatOf s l).isNone && domRun s (laneDom l) && decide (s.ctl.dbg.halted ≠ some l) &&
    (match (voter s).join with | some j => decide (j.lane ≠ l) | none => true) &&
    (match (voter s).laneVote.get l with | .belay | .vacated => true | _ => false)
  if idle && decide ((lane s l).core.fwVer ≠ (curSet s).lane) then assertSrc (.laneReset l) 0 s else s

/-- Every lane not declared failed runs the step's firmware (R537 step 7). -/
def lanesReloaded (s : State) : Bool :=
  s.variant == .e ||
  (s.ctl.rot.queue.isEmpty && s.ctl.rot.active.isNone &&
   (fitted s.variant).all (fun l => decide ((voter s).laneVote.get l = .failed) || s.ctl.rot.excluded.get l ||
     decide ((lane s l).core.fwVer = (curSet s).lane)))

/-- MGT drives the step in progress (R539, R542): a star step waits for the other channel and completes as its own channel runs;
the lane step reloads what is free, fails at a lane's second failure in a row, and completes with the last lane. -/
def updPump (s : State) : State :=
  let u := s.mgt.upd
  if !mgtUp s || s.mgt.start.inAttempt || !(u.mode == .activating || u.mode == .rollback) then s
  else match stepChan u.step with
    | some ch =>
      if u.begun then (if channelRunning s ch then finishStep s else s)
      else if channelRunning s ch.other then
        assertSrc (.starReset ch) 0 (onUpd (fun u => { u with begun := true, stepSince := s.clk.tick }) s)
      else s
    | none =>
      if u.step = 7 ∧ !u.begun then (if s.ctl.rot.active.isNone then beginLanes s else s)
      else if u.step = 7 then
        let s := if s.variant ≠ .e ∧ ctlRuns s then (fitted s.variant).foldl reloadIdle s else s
        if 2 ≤ s.ctl.rot.fwFails then stepFails .timeout s
        else if lanesReloaded s then finishStep s else s
      else s

/-- UPD_BANK_STEP (R537 step 1): P stands in Q, the package in P, and both read back. -/
def execUpdBankStep (readBackOk : Bool) (s : State) : Host.Outcome State Fault Refusal :=
  .next (if inStep s 1 then
    match s.mgt.upd.manifest with
    | some m =>
      if readBackOk then finishStep (onUpd (fun u => { u with bankP := withPackage u.bankP m, used := u.preferred }) s)
      else stepFails .checkFail s
    | none => s
  else s)

/-! ### The MGT bank swap and migration (R538, R548) -/

/-- A block passes the field checks of its owning chapter (R548). -/
def blockFields (s : State) (blk : Nat) (b : List Byte) : Bool :=
  let lm := s.power.linkMode
  let link := storedBlock s linkBlk
  if blk = vioBlk then vioBlockOk b
  else if blk = netBlk then netBlockOk s.tscan b
  else if blk = linkBlk then linkBlockOk s.tscan b
  else schedBlockOk s.tscan (portEntry link) (fun p => compatEntry lm (portEntry link p)) b

/-- Every stored block and item migrated; none where a step or a result's check fails (R548). -/
def migrateAll (fw : W32) (s : State) : Option State :=
  let old := storedBlocks s
  let new := old.filterMap (fun p => (migrated fw p.1 p.2).map (fun b => (p.1, b)))
  let s' := onStore (fun x => { x with itemFmt := x.itemFmt.map (fun p => (p.1, max p.2 (Config.fmtCur fw p.1))) }) (putBlocks new s)
  let items := s.mgt.store.itemFmt.all (fun p => (List.range (Config.fmtCur fw p.1 - p.2)).all (fun i => Config.itemStepOk fw p.1 (p.2 + i)))
  if new.length = old.length ∧ items = true ∧ (old.zip new).all (fun p => decide (p.1.2 = p.2.2) || blockFields s' p.2.1 p.2.2) then some s' else none

/-- MGT runs the firmware of P: it migrates and confirms, or leaves its boot loader counting (R538, R548). -/
def mgtStarts (s : State) : State :=
  let fw := (curSet s).mgt
  match migrateAll fw s with
  | some s => finishStep (onUpd (fun u => { u with confirmed := true, unconfirmed := 0 }) (onMbx (fun m => { m with ready := true }) s))
  | none => onUpd (fun u => { u with unconfirmed := u.unconfirmed + 1, confirmed := false })
      (onMbx (fun m => { m with ready := false }) (onStart (fun x => { x with booted := false }) s))

/-- What MGT ends before it swaps banks: both transports, and every pulse (R393, R402, R538). -/
def swapQuiesce (s : State) : State :=
  let ps := s.mgt.mbx.pulses
  let s := onStaging (fun m => ps.foldl (fun m p => setVarBits p.count p.addr 0 m) m) s
  onMbx (fun m => { m with pulses := [] }) (bothReset s)

/-- MGT_BANK_SWAP (R538). -/
def execMgtBankSwap (confirms : Bool) (s : State) : Host.Outcome State Fault Refusal :=
  .next (if inStep s 2 then
    let s := onUpd (fun u => { u with used := u.preferred }) (swapQuiesce s)
    if confirms then mgtStarts s
    else onUpd (fun u => { u with unconfirmed := u.unconfirmed + 1, confirmed := false })
      (onMbx (fun m => { m with ready := false }) (onStart (fun x => { x with booted := false }) s))
  else s)

/-- An activation as MGT starts (R538, R543, R552): an interrupted step 1, a fallback to Q and the third start of unconfirmed
firmware roll back; unconfirmed firmware confirms; the step in progress restarts. -/
def updAtBoot (s : State) : State :=
  let u := s.mgt.upd
  if u.mode ≠ .activating ∧ u.mode ≠ .rollback then s
  else if u.mode = .activating ∧ (u.step = 1 ∨ u.used ≠ u.preferred) then stepFails .aborted s
  else if u.step = 2 then
    if u.mode = .activating ∧ 2 ≤ u.unconfirmed then stepFails .aborted (onUpd (fun u => { u with unconfirmed := 0 }) s)
    else mgtStarts s
  else startStep u.step s

/-- A start attempt that succeeds ends an activation after step 1, and a rollback (R543). -/
def updAtSuccess (s : State) : State :=
  let u := s.mgt.upd
  let s := if s.ctl.rot.forFirmware then endLanes s else s
  match u.mode with
  | .activating => if u.complete.contains 1 then
      activated (onUpd (fun u => { u with active := u.bankP }) (stepNote u.step .ok 100 s)) else s
  | .rollback => updEnds .staged (onUpd (fun u => { u with active := u.bankP }) (stepNote u.step .ok 100 s))
  | _ => s

/-! ### Star, VIO and voter steps (R539 to R541) -/

/-- STAR_STEP_TIMEOUT (R539): 30 s after its release the channel is not RUNNING. -/
def execStarStepTimeout (ch : Chan) (s : State) : Host.Outcome State Fault Refusal :=
  .next (if decide (stepChan s.mgt.upd.step = some ch) && inStep s s.mgt.upd.step && domRun s (starDom ch) &&
      decide ((star s ch).mode ≠ .running) && decide ((star s ch).coldSince + msTicks 30000 ≤ s.clk.tick) then
    stepFails .timeout s
  else s)

/-- The firmware of a target stands in its shadow bank, its check has passed and both voter halves have the report, or the check fails the step
(R540, R541, R544). -/
def shadowReport (sound : Bool) (f : UpdState → UpdState) (s : State) : State :=
  if sound then onUpd (fun u => { f u with stepScn := scn s }) s else stepFails .checkFail s

/-- STAGING_TRANSFER_DONE (R23): a transfer over the staging path ends in the idle part of a scan. -/
def execStagingTransferDone (target : StagingTo) (s : State) : Host.Outcome State Fault Refusal :=
  .next (if !(ctlRuns s && idlePart s) then s
    else match target with
      | .lane l => match s.ctl.olc.image with
        | some i => stageLane l i s
        | none => s
      | .vio sound =>
        if inStep s 5 && domRun s 11 && s.mgt.upd.shadowVio.isNone then
          shadowReport sound (fun u => { u with shadowVio := some u.bankP.vio }) s
        else s
      | .half h sound =>
        if inStep s 6 && (s.mgt.upd.shadowVoter.get h).isNone then
          shadowReport sound (fun u => { u with shadowVoter := u.shadowVoter.set h (some u.bankP.voter) }) s
        else s)

/-- Sixteen scans have passed since both halves have the report (R540, R541). -/
def sixteenScans (s : State) : Bool := decide (16 ≤ scnAhead s.mgt.upd.stepScn (scn s))

/-- A swap boundary, schedule boundary or handover boundary falls on a scan (R555). -/
def otherBoundary (s : State) (n : Scn) : Bool :=
  (s.ctl.olc.mode == .swapping && decide (s.ctl.olc.w = n)) ||
  (match s.data.sched.change with
   | some c => (match c.a with | some a => decide (a + 17 = n) | none => false)
   | none => false) ||
  (match (voter s).join with
   | some j => (match j.step with | .handover c => decide (c = n) | _ => false)
   | none => false)

/-- A cycle instant CI(n) that half X may name and half Y checks: at least 16 scans after the report, once VIO has captured for scan n, and none
at which another change takes effect (R540, R555). -/
def vioInstant (s : State) : Bool :=
  let n := BitVec.ofNat 32 s.ctl.followers.vio.cycle
  decide (16 ≤ scnAhead s.mgt.upd.stepScn n) && !otherBoundary s n

/-- VIO_FIRMWARE_SWAP (R540): at the named instant VIO runs the bank that it has checked; it keeps all it holds. -/
def execVioFirmwareSwap (s : State) : Host.Outcome State Fault Refusal :=
  .next (match s.mgt.upd.shadowVio with
    | some fw =>
      if inStep s 5 && domRun s 11 && ctlRuns s && vioInstant s then finishStep (onVio (fun v => { v with fwVer := fw }) s) else s
    | none => s)

/-- What refuses the voter's swap at its boundary (R541). -/
def microcodeRefused (s : State) : Bool :=
  (seatsOf s.variant).any (fun k => ((voter s).seats.get k).mode != .held) || s.ctl.olc.mode == .swapping ||
  schedAnnounced s || debugAttached s || shutdownRequested s

/-- The barrier of the scan in progress has been released, and no word of it is delivered yet. -/
def atRelease (s : State) : Bool := (voter s).released && (voter s).now.words.isEmpty

/-- VOTER_MICROCODE_SWAP (R541): at a cairn boundary both halves switch, or the swap waits for the next; the 64th refusal fails the
step. Halves that do not then run one version are an X/Y disagreement (R155, R156). -/
def execVoterMicrocodeSwap (s : State) : Host.Outcome State Fault Refusal :=
  .next (match s.mgt.upd.shadowVoter.x, s.mgt.upd.shadowVoter.y with
    | some x, some y =>
      if inStep s 6 && ctlRuns s && decide ((scn s).toNat % 64 = 0) && atRelease s && sixteenScans s then
        if microcodeRefused s then
          let s := onUpd (fun u => { u with refusals := u.refusals + 1, stepScn := scn s }) s
          if 64 ≤ s.mgt.upd.refusals then stepFails .timeout s else s
        else
          let s := onVoter (fun v => { v with fwVer := ⟨x, y⟩ }) s
          if x = y then finishStep s else tripXY s
      else s
    | _, _ => s)

/-! ### The mask ROM (R550, R551) -/

/-- A block that the mask ROM has received, checked as in R532; its status. -/
def romTake (index : Nat) (crc : W32) (b : List Byte) (s : State) : State :=
  let s := onUpd (fun u => { u with romIndex := index, romCrc := crc }) s
  if b.length = 4096 ∧ crc.toNat = crc32c b then
    onUpd (fun u => { u with held := smPut u.held index b, romResult := Status.ok.code }) s
  else onUpd (fun u => { u with romResult := Status.checkFail.code }) s

/-- Once every block is held the package is judged, without the PREV_MIN condition. -/
def romVerify (loaded : Versions → UpdState → UpdState) (s : State) : State :=
  let b := heldBlock s.mgt.upd.held 0
  let n := leAt b 0x10 4
  if b.isEmpty ∨ n < 2 ∨ !allHeld s.mgt.upd.held n then s
  else match verifyPackage s (BitVec.ofNat 64 (leAt b 8 8)) n false with
    | .error st => onUpd (fun u => { u with romResult := st.code }) s
    | .ok m => onUpd (fun u => { loaded (withPackage Versions.zero m) u with romComplete := true, romResult := Status.ok.code }) s

/-- ROM_BLOCK_GO (R550): with boot source HOST, before MGT runs; nothing is written to a bank. -/
def execRomBlockGo (index : BitVec 16) (crc : W32) (block : List Byte) (s : State) : Host.Outcome State Fault Refusal :=
  .next (if domRun s 1 && !s.mgt.start.booted && !s.power.recovery && !s.mgt.upd.romComplete &&
      decide (s.power.bootCfg.map bootSource = some .host) then
    romVerify (fun v u => { u with active := v }) (romTake index.toNat crc block s)
  else s)

/-- The mask ROM's reply to a datagram (R551): INDEX, STATUS and HELD, big-endian. -/
def recoveryReply (index : W32) (s : State) : State :=
  onUpd (fun u => { u with romReply := beBytes 4 index.toNat ++ byte u.romResult ++ List.replicate 3 0 ++ beBytes 4 u.held.length }) s

/-- RECOVERY_DATAGRAM (R551): a verified set is written into both banks; each further datagram is answered OK. -/
def execRecoveryDatagram (index : W32) (crc : W32) (block : List Byte) (s : State) : Host.Outcome State Fault Refusal :=
  .next (if domRun s 1 && s.power.recovery then
    recoveryReply index (if s.mgt.upd.romComplete then onUpd (fun u => { u with romResult := Status.ok.code }) s
      else romVerify (fun v u => { u with bankP := v, bankQ := v }) (romTake index.toNat crc block s))
  else s)

/-! ### The UPD commands (R434, R531 to R536, R545, R546) -/

/-- The states 3 to 5 of R535. -/
def updBusy (s : State) : Bool :=
  match s.mgt.upd.mode with
  | .activating | .awaitCommit | .rollback => true
  | _ => false

/-- HELD. -/
def heldLe (s : State) : List Byte := le4 s.mgt.upd.held.length

/-- UPD_BEGIN (R531). -/
def execUpdBegin (c : CmdHdr) (pkg : W64) (blocks : W32) (s : State) : Host.Outcome State Fault Refusal :=
  .next (cmdRun c 0x0700 (formOk c false false true) false
    [(updBusy s, .notReady), (decide (blocks.toNat < 2) || decide (65536 < blocks.toNat), .badArg)]
    (fun s =>
      let u := s.mgt.upd
      let same := decide (u.mode ≠ .idle) && decide (u.pkgId = pkg) && decide (u.blocks = blocks.toNat)
      let s := onUpd (fun u => { u with mode := .receiving, pkgId := pkg, blocks := blocks.toNat, manifest := none,
                                        held := if same then u.held else [] }) s
      finish c 0x0700 .ok (heldLe s) [] s) s)

/-- A package has been begun (R434, R535). -/
def pkgBegun (s : State) : Bool := decide (s.mgt.upd.mode = .receiving) || decide (s.mgt.upd.mode = .staged)

/-- UPD_BLOCK (R532): the ciphertext of a block whose form stands passes the update stream as it is received (R453). -/
def execUpdBlock (c : CmdHdr) (index : W32) (crc : W32) (data : List Byte) (s : State) : Host.Outcome State Fault Refusal :=
  .next (
    let form := formOk c true false (decide (c.dataLen = 4096) && decide (data.length = 4096))
    let s := if mgtUp s && form && !s.mgt.bist.running then snoop 24 0 true true data s else s
    cmdRun c 0x0701 form false
    [(!pkgBegun s, .notReady), (decide (s.mgt.upd.blocks ≤ index.toNat), .badArg), (nandBusy s 0x0701, .busySelftest), (decide (crc32c data ≠ crc.toNat), .checkFail)]
    (fun s =>
      let s := onUpd (fun u => { u with mode := .receiving, manifest := none, held := smPut u.held index.toNat data }) s
      finish c 0x0701 .ok (heldLe s) [] s) s)

/-- The bytes of a bitmap of held blocks (R533). -/
def heldBitmap (s : State) (first count : Nat) : List Byte :=
  (List.range (count / 8)).map (fun k => BitVec.ofNat 8 ((List.range 8).foldl (fun n i =>
    let b := first + 8 * k + i
    n + b2n (decide (b < s.mgt.upd.blocks) && (smFind s.mgt.upd.held b).isSome) * 2 ^ i) 0))

/-- UPD_BITMAP (R533). -/
def execUpdBitmap (c : CmdHdr) (first : W32) (count : W32) (s : State) : Host.Outcome State Fault Refusal :=
  .next (
    let n := count.toNat
    cmdRun c 0x0702 (formOk c false true (decide (n / 8 ≤ c.dataLen))) false
      [(!pkgBegun s, .notReady), (decide (n % 8 ≠ 0) || decide (n < 8) || decide (65536 < n), .badArg)]
      (fun s => finish c 0x0702 .ok [] (heldBitmap s first.toNat n) s) s)

/-- UPD_VERIFY (R534). -/
def execUpdVerify (c : CmdHdr) (s : State) : Host.Outcome State Fault Refusal :=
  .next (cmdRun c 0x0703 (formOk c false false true) false [(!pkgBegun s, .notReady), (nandBusy s 0x0703, .busySelftest)]
    (fun s => match verifyPackage s s.mgt.upd.pkgId s.mgt.upd.blocks true with
      | .error st => finish c 0x0703 st [] [] s
      | .ok m =>
        let s := onUpd (fun u => { u with mode := .staged, manifest := some m }) s
        finish c 0x0703 .ok (le4 m.components) [] s) s)

/-- UPD_ACTIVATE (R537): the activation record, and step 1. -/
def execUpdActivate (c : CmdHdr) (s : State) : Host.Outcome State Fault Refusal :=
  .next (cmdRun c 0x0704 (formOk c false false true) false
    [(decide (s.mgt.upd.mode ≠ .staged) || s.mgt.upd.manifest.isNone || shutdownRequested s, .notReady), (!switchOn s 4, .deniedSeal)]
    (fun s =>
      let s := onUpd (fun u => { u with mode := .activating, previous := u.bankP, complete := [], unconfirmed := 0, confirmed := false,
                                        originals := some (storedBlocks s), origFmt := s.mgt.store.itemFmt }) s
      startStep 1 (finish c 0x0704 .pending [] [] s)) s)

/-- UPD_ABORT (R434, R535). -/
def execUpdAbort (c : CmdHdr) (s : State) : Host.Outcome State Fault Refusal :=
  .next (cmdRun c 0x0705 (formOk c false false true) false [(updBusy s, .notReady)]
    (fun s =>
      let s := if pkgBegun s then onUpd (fun u => { u with mode := .idle, held := [], pkgId := 0, blocks := 0, manifest := none }) s else s
      finish c 0x0705 .ok [] [] s) s)

/-- UPD_COMMIT (R545); a fuse that does not read back leaves the state. -/
def execUpdCommit (c : CmdHdr) (fuseOk : Bool) (s : State) : Host.Outcome State Fault Refusal :=
  .next (cmdRun c 0x0706 (formOk c false false true) false [(decide (s.mgt.upd.mode ≠ .awaitCommit), .notReady)]
    (fun s =>
      let sec := match s.mgt.upd.manifest with | some m => m.secVer | none => 0
      if s.mgt.upd.fuseSecVer < sec ∧ !fuseOk then finish c 0x0706 .checkFail [] [] s
      else
        let n := match s.mgt.upd.originals with | some m => (m.filter (fun p => !p.2.isEmpty)).length | none => 0
        let s := onUpd (fun u => { u with mode := .idle, fuseSecVer := max u.fuseSecVer sec, bankQ := u.bankP, originals := none, origFmt := [],
                                          lastStatus := Status.ok.code, held := [], pkgId := 0, blocks := 0, manifest := none }) s
        finish c 0x0706 .ok (le4 n) [] s) s)

/-- UPD_REVERT (R546). -/
def execUpdRevert (c : CmdHdr) (s : State) : Host.Outcome State Fault Refusal :=
  .next (cmdRun c 0x0707 (formOk c false false true) false [(decide (s.mgt.upd.mode ≠ .awaitCommit), .notReady)]
    (fun s =>
      let s := onUpd (fun u => { u with mode := .idle, lastStatus := Status.aborted.code, held := [], pkgId := 0, blocks := 0, manifest := none }) (backToQ s)
      finish c 0x0707 .ok [] [] s) s)

/-- The state code (R535). -/
def updCode : UpdMode → Nat
  | .idle => 0
  | .receiving => 1
  | .staged => 2
  | .activating => 3
  | .awaitCommit => 4
  | .rollback => 5

/-- PERCENT (R536): of a step in progress no rule states a measure, so it is a free value up to 100 (log entry 53). -/
def updPercent (s : State) : Nat := if s.mgt.upd.step = 0 then 0 else (freeNow s).toNat % 101

/-- UPD_STATUS data (R536). -/
def updStatusData (s : State) : List Byte :=
  let u := s.mgt.upd
  let comp := if u.step = 0 then 0xFF else stepComponent u u.step
  withCrc (byte (updCode u.mode) ++ byte u.step ++ byte comp ++ byte (updPercent s) ++ leBytes 8 u.pkgId.toNat ++ le4 u.blocks ++ heldLe s ++
    le4 (match u.manifest with | some m => m.secVer | none => 0) ++ le4 u.fuseSecVer ++
    le4 (match u.manifest with | some m => m.components | none => 0) ++ byte u.lastStatus ++ byte u.preferred ++ List.replicate 26 0)

/-- UPD_STATUS (R536). -/
def execUpdStatus (c : CmdHdr) (s : State) : Host.Outcome State Fault Refusal :=
  .next (cmdRun c 0x0708 (formOk c false true (decide (64 ≤ c.dataLen))) false []
    (fun s => drawn (finish c 0x0708 .ok (byte (updCode s.mgt.upd.mode)) (updStatusData s) s)) s)

end Sys2Proof.Machine
end

