-- ==== Sys2Proof/Machine/Start.lean ====
section
/-! DEFINITION. Starts (R140, R141, R252, R320, R385, R478, R485 to R503, R515 to R517): the boot of MGT, the restoration of the
retention domain, start BIST, the load of the control plane, and how an attempt succeeds, times out and is retried. -/

namespace Sys2Proof.Machine

open Sys2Proof

/-! ### The shutdown-BIST record and the hold (R504, R515, R516) -/

/-- The blocks that BIST covers in a variant, by their codes (R515, R521). -/
def bistBlocks (s : State) : List Nat := (fitted s.variant).map Lane.idx ++ [4, 5, 6, 7]

/-- The domain of a block code. -/
def blockDom (b : Nat) : Nat :=
  match b with
  | 4 => 5
  | 5 => 6
  | 6 => 3
  | 7 => 4
  | l => 7 + l

/-- Shutdown BIST is over: its record is stored (R516). `at_` is PCC at the shutdown. -/
def storeRecord (abandoned : Bool) (at_ : W32) (s : State) : State :=
  let b := s.mgt.bist
  let complete := !abandoned && (bistBlocks s).all (fun k => b.done.getLsbD k)
  let passed := decide (b.lFail = 0 ∧ b.mFail = 0)
  let r : BistRecord := ⟨complete, passed, abandoned, at_, ophHours s, ophFrac s, b.done, b.lFail, b.mFail,
                         b.repairs, (s.clk.tick - b.startedAt) / 25000, upt s⟩
  onStore (fun x => { x with shutdownRunning := false }) (onBist (fun b => { b with running := false, record := some r }) s)

/-- The sequencer holds the module (R504): SYS_RESET stays asserted until a wake, and the release that ends it counts in PCC (R488). -/
def enterHold (s : State) : State :=
  let s := onStart (fun x => { x with shutdownPending := false, skipBist := false }) s
  onPower (fun p => { p with shutdownHold := true, pccBump := true }) (assertSrc .sysReset (sourceCause .sysReset) s)

/-! ### The boot of MGT (R487, R494, R498) -/

/-- MGT restores what RET has lost (R487). -/
def restoreRet (s : State) : State :=
  if s.ret.valid && s.ret.sram.crcOk then s
  else
    let s := onVoter (fun v => { v with diversity := { v.diversity with remain := s.mgt.store.divMirror - 65536 } }) s
    onRet (fun r => { r with pcc := if r.valid then r.pcc else s.mgt.store.pccCopy + 2, failedStarts := 0, valid := true,
                             sram := ⟨true, (namedBank s).getD 0, 0, 0xFFFFFFFF, 0xFFFFFFFF, 0⟩ }) s

/-- Records held through an MGT reset are committed before any new one, and a freeze has ended (R467, R471, R472). -/
def recorderBoot (s : State) : State :=
  let s := onRec (endFreeze s.clk.tick) s
  commitAll (committable s.mgt.recorder .general) .general (commitAll (committable s.mgt.recorder .vital) .vital s)

/-- The scree of general records left uncommitted as main power fell (R471). No rule states their times: free values (log entry 1). -/
def screeBoot (s : State) : State :=
  let n := s.ret.sram.uncommitted
  if n = 0 then s
  else
    let first := (freeNow s).toNat
    let s := drawn s
    let last := (freeNow s).toNat
    let s := drawn (onRet (fun r => { r with sram := { r.sram with uncommitted := 0 } }) s)
    onRec (fun m => { m with reports := m.reports ++ [kindReport s .general 2 0x0803 (screeData n first last 2)] }) s

/-- A start attempt or a wait that MGT's own watchdog reset (R501, R506). -/
def afterWatchdog (s : State) : State :=
  if !s.mgt.start.wdBoot then s
  else
    let s := onStart (fun x => { x with wdBoot := false }) s
    if s.mgt.start.inAttempt && s.mgt.start.runSince.isNone then startFail .timeout s
    else if s.mgt.start.backoffUntil.isSome then
      let wait := 25000000 * backoffSeconds s.ret.failedStarts.toNat
      rawAssert .ctrlReset (onStart (fun x => { x with backoffUntil := some (s.clk.tick + wait) }) s)
    else s

/-- A shutdown BIST that MGT finds unfinished (R506, R516, R517): its record is stored; after a watchdog reset the shutdown proceeds. -/
def afterBist (at_ : W32) (s : State) : State :=
  if !s.mgt.store.shutdownRunning then s
  else
    let wd := s.mgt.start.wdBoot
    let s := storeRecord true at_ s
    if wd then enterHold s else s

/-- MGT reads RET and retention SRAM, and restores what the station-data store keeps (R478, R485, R487, R502). `at_` is the PCC that
the store held. -/
def bootState (bankOk : Bool) (s : State) : State :=
  let s := restoreRet s
  let bank := s.ret.sram.bank
  let s := onStore (fun x => { x with pccCopy := s.ret.pcc }) s
  let s := onUpd (fun u => { u with used := if bankOk then bank else 1 - bank }) s
  let set := curSet s
  let s := onUpd (fun u => { u with active := { u.active with boot := set.boot, mgt := set.mgt } }) s
  let s := onMgt (fun m => { m with cycles := { m.cycles with counts := m.cycles.persisted } }) s
  onMbx (fun m => { m with ready := true }) (onStart (fun x => { x with booted := true }) s)

/-- The PCIe link goes down once the MGT firmware starts, with codes 4 and 5 (R494). -/
def hostLink (s : State) : State :=
  match s.power.bootCfg with
  | some 4 | some 5 => onPower (fun p => { p with pcieDown := true }) s
  | _ => s

/-- MGT runs: records, the time anchor, the blocks it hands out, and where the start stands (R17, R464, R493, R497). -/
def bootMgt (bankOk : Bool) (s : State) : State :=
  let at_ := s.mgt.store.pccCopy
  let s := hostLink (bootState bankOk s)
  let s := screeBoot (recorderBoot s)
  let s := if s.data.time.valid then anchor s else s
  let s := handStar .b (handStar .a (handNet s))
  let s := afterWatchdog (afterBist at_ s)
  let s := if s.mgt.start.inAttempt && s.mgt.start.viaMgt && s.mgt.start.runSince.isNone then decideKind s else s
  let s := if s.mgt.start.inAttempt && s.power.strapInvalid then startFail .badArg s else s
  if mgtUp s then updAtBoot s else s

/-- MGT_BOOT_COMPLETE (R494, R498): the bank that BANK names verifies, else the other does, else the mask ROM acts as RECOVERY. On
HOST the set is the one that the host has loaded. -/
def execMgtBootComplete (bankOk otherOk : Bool) (s : State) : Host.Outcome State Fault Refusal :=
  .next (if !domRun s 1 || s.mgt.start.booted || s.power.recovery then s
    else match s.power.bootCfg.map bootSource with
      | some .host => if s.mgt.upd.romComplete then bootMgt true s else s
      | some .nvA | some .nvB =>
        if bankOk || otherOk then bootMgt bankOk s else enterRecovery (startFail .signatureFail s)
      | _ => s)

/-! ### Start BIST and shutdown BIST, die by die (R507 to R512, R515) -/

/-- A die is under shutdown BIST. -/
def shutdownTest (s : State) : Bool := s.mgt.bist.running

/-- Every fitted domain of the control plane runs. -/
def planeReleased (s : State) : Bool := [5, 6, 7, 8, 9, 10, 11].all (fun d => domAbsent s.variant d || domRun s d)

/-- A die is under the BIST of a FULL start. -/
def startTest (s : State) : Bool :=
  s.mgt.start.inAttempt && decide (s.mgt.start.kind = .full) && !s.mgt.start.bistDone && !s.mgt.start.loaded && planeReleased s

/-- The test times of a block in milliseconds: logic BIST and MBIST (R507). -/
def bistMs (b : Nat) : Nat :=
  match b with
  | 4 => 792
  | 5 => 722
  | 6 | 7 => 752
  | _ => 1765

/-- The rows of the schedule of R515. -/
def bistRows : List (List Nat) := [[0, 1], [2, 3], [4, 6], [5, 7]]

/-- The blocks of a row that the shutdown BIST tests: those fitted, and of the stars those in RUN (R514). -/
def rowBlocks (s : State) (r : List Nat) : List Nat :=
  r.filter (fun b => (bistBlocks s).contains b && (decide (b < 6) || domRun s (blockDom b)))

/-- Milliseconds of the rows not yet begun or not yet ended, and of the storing of the record (R515). -/
def bistLeft (s : State) (rows : List (List Nat)) : Nat :=
  100 + (rows.map (fun r => ((rowBlocks s r).map bistMs).foldl max 0)).sum

/-- The end of the shutdown BIST as the schedule stands once a die has ended: rows of which no die has ended follow from now, and
repairs have moved them back by their retests (R420, R515). -/
def moveEnd (s : State) : State :=
  let rows := bistRows.filter (fun r => (rowBlocks s r).all (fun b => !s.mgt.bist.done.getLsbD b))
  onBist (fun b => { b with endAt := max b.endAt (s.clk.tick + msTicks (bistLeft s rows)) }) s

/-- The records of a die's tests: logic BIST, MBIST, and the retest after a repair; one that repair has met is OK (R476, R511, R521). -/
def dieRecords (block : Nat) (v : Verdict) (s : State) : State :=
  let st := fun (p : Bool) => if p then Status.ok else .checkFail
  let s := bistResult .vital block 1 (st v.logic) (v.made.filter isEngine).length s
  let s := bistResult .vital block 2 (st v.memory) (v.made.filter (fun r => !isEngine r)).length s
  if v.retested then bistResult .vital block 3 (st v.passes) v.made.length s else s

/-- A macro or a lane with no spare left: a general record, of which R476 states no code (R524; log entry 2). -/
def spareRecords (block : Nat) (made : List Repair) (s : State) : State :=
  (usedUp (repairsOf s block) made).foldl (fun s m => report .general (Config.unstatedCode 8) 0 (byte block ++ le2 m) [] s) s

/-- What a die's result leaves: its bits, and the repairs that its retest has confirmed in the soft repair map; a die that fails
discards its repairs (R511, R512). A lane that passes is excluded no more (R207, R518). -/
def dieMarks (block : Nat) (v : Verdict) (s : State) : State :=
  let s := onBist (fun b => { b with
    done := setBit b.done block true,
    lFail := setBit b.lFail block (!v.lPass),
    mFail := setBit b.mFail block (!v.mPass),
    repairs := b.repairs + v.kept.length,
    softMap := if v.kept.isEmpty then b.softMap else smPut b.softMap block (smGet [] b.softMap block ++ v.kept) })
    (if v.kept.isEmpty then s else itemStored repairsItem s)
  match Lane.ofIdx block with
  | some l => if v.passes then onRot (fun r => { r with excluded := r.excluded.set l false }) s else s
  | none => s

/-- A die's test has ended: its marks, its records, and those of spares that have run out (R510 to R512, R521, R524). -/
def dieTested (block : Nat) (v : Verdict) (s : State) : State := spareRecords block v.kept (dieRecords block v (dieMarks block v s))

/-- The start BIST is over: every block being released has ended (R497, R500). -/
def bistJudged (s : State) : State :=
  if (bistBlocks s).all (fun b => !domRun s (blockDom b) || s.mgt.bist.done.getLsbD b) then
    if s.mgt.bist.lFail = 0 ∧ s.mgt.bist.mFail = 0 then
      onStart (fun x => { x with bistDone := true }) (onRet (fun r => { r with sram := { r.sram with evidPcc := r.pcc } }) s)
    else startFail .checkFail s
  else s

/-- DIE_BIST_DONE (R515): a die's logic BIST and MBIST have ended, with what they found. -/
def execDieBistDone (block : BitVec 4) (found : DieTest) (s : State) : Host.Outcome State Fault Refusal :=
  .next (
    let b := block.toNat
    if mgtUp s && (bistBlocks s).contains b && domRun s (blockDom b) && !s.mgt.bist.done.getLsbD b && (shutdownTest s || startTest s) then
      let s := dieTested b (verdict s b found) s
      if shutdownTest s then moveEnd s else bistJudged s
    else s)

/-! ### The load of the control plane (R17, R140, R141, R252, R274, R320) -/

/-- The ports of a star under a new link configuration: one that it keeps in use stands as it is (R353), any other starts (R336). -/
def portsHanded (ch : Chan) (s : State) : State :=
  if domRun s (starDom ch) then
    (List.range 64).foldl (fun s p =>
      if (portCfg s ch p).use && decide ((port s ch p).mode ≠ .disabled) then s else onPort ch p (fun _ => portStart s ch p) s) s
  else s

/-- The schedule that voter half X takes as the one in force (R320). -/
def startSchedule (s : State) (start : Nat) : Nat :=
  if (star s .a).mode = .running then (star s .a).applied
  else if (star s .b).mode = .running then (star s .b).applied
  else start

/-- A lane as MGT loads it for a start; a lane declared failed keeps the time of its declaration (R17, R428). -/
def startLane (i : Image) (l : Lane) (s : State) : State :=
  if domRun s (laneDom l) then
    let failed := if s.ctl.rot.excluded.get l then (lane s l).health.failedAt else none
    onLane l (fun _ => { loadLane i (curSet s).lane with health := { LaneHealth.zero with failedAt := failed } }) s
  else s

/-- The control plane is loaded: the image in every lane, the blocks in their consumers, the schedule, and the firmware in force. -/
def loadPlane (i : Image) (s : State) : State :=
  let bnd := (parseNet (blockInUse s netBlk)).bnd
  let cfg := { parseLink (blockInUse s linkBlk) (blockInUse s schedBlk) with bnd := bnd }
  let vioBlock := blockInUse s vioBlk
  let s := { s with tscan := i.tscan }
  let s := onData (fun d => { d with cfg := cfg, net := { d.net with firstCount := [] } }) s
  let s := portsHanded .b (portsHanded .a s)
  let s := onSched (fun x => { x with inForce := startSchedule s cfg.start }) (changeEnds s)
  let s := Lane.list.foldl (fun s l => startLane i l s) s
  let set := curSet s
  let s := onVio (fun v => { loadVioBlock s.clk.tick vioBlock v with fwVer := set.vio }) s
  let s := onUpd (fun u => { u with active := { u.active with lane := set.lane, voter := set.voter, vio := set.vio } }) s
  let n := BitVec.ofNat 32 s.ctl.followers.x.cycle
  let s := onVoter (fun v => { v with running := true, released := false, votedRun := false, scn := n, fwVer := ⟨set.voter, set.voter⟩ }) s
  let s := onExp (fun e => { e with cycleBase := none }) s
  notCarried i (onStart (fun x => { x with loaded := true }) s)

/-- The checks of the start image by MGT and by every lane supervisor that a start loads, all of one firmware; one that is not stored fails its
check (R140, R141). -/
def startCheck (s : State) : Except Status Image × Nat :=
  let fw := (curSet s).lane
  checkBy ((0, fw) :: (Lane.list.filter (fun l => domRun s (laneDom l))).map (fun l => (l.idx + 1, fw))) s.variant s.mgt.store.keys none
    s.mgt.store.image

/-- The start image, or why it is refused. -/
def startImage (s : State) : Except Status Image := (startCheck s).1

/-- Why the load fails, by the rows of R500. -/
def loadRefusal (componentsOk : Bool) (s : State) : Option Status :=
  match judge [(!componentsOk, .signatureFail), (s.power.strapInvalid, .badArg)] with
  | some st => some st
  | none =>
    match startBlocks s (parseImage s.mgt.store.image).tscan with
    | some st => some st
    | none => match startImage s with
      | .error st => some st
      | .ok _ => none

/-- START_LOAD_COMPLETE (R141): MGT has loaded and checked all that the control plane runs from. A component that fails its
signature in both banks leads to RECOVERY (R500). -/
def execStartLoadComplete (componentsOk : Bool) (s : State) : Host.Outcome State Fault Refusal :=
  .next (
    let x := s.mgt.start
    if mgtUp s && x.inAttempt && !x.loaded && planeReleased s && (decide (x.kind ≠ .full) || x.bistDone) then
      let c := startCheck s
      let s := noteCertificate s.mgt.store.image c.1 (dissentRecord 1 c.2 .version (leAt s.mgt.store.image 0xFC 4) s)
      match loadRefusal componentsOk s, startImage s with
      | some st, _ => (if componentsOk then id else enterRecovery) (startFail st s)
      | none, .ok i => loadPlane i s
      | none, .error _ => s
    else s)

/-! ### How an attempt ends (R497 to R503) -/

/-- START_TIMEOUT (R497): the bound of the start kind has passed, the holds of R232 excluded, before the first voted scan. -/
def execStartTimeout (s : State) : Host.Outcome State Fault Refusal :=
  .next (
    let x := s.mgt.start
    if domRun s 1 && x.inAttempt && x.runSince.isNone && decide (x.began + x.bound + x.held < s.clk.tick) then startFail .timeout s
    else s)

/-- START_ATTEMPT_SUCCESS (R499): the control plane has run for 60 s after its first voted scan. -/
def execStartAttemptSuccess (s : State) : Host.Outcome State Fault Refusal :=
  .next (match s.mgt.start.runSince with
    | some t =>
      if mgtUp s && s.mgt.start.inAttempt && ctlRuns s && decide (t + 1500000000 ≤ s.clk.tick) then
        let s := onRet (fun r => { r with failedStarts := 0, sram := { r.sram with bankFails := 0 } }) s
        let s := attemptEnds .ok s
        let s := match namedBank s with
          | some b => onRet (fun r => { r with sram := { r.sram with bank := b } }) s
          | none => s
        updAtSuccess s
      else s
    | none => s)

/-- BACKOFF_EXPIRY (R501): the wait is over, and the next attempt begins as PD5 is released. -/
def execBackoffExpiry (s : State) : Host.Outcome State Fault Refusal :=
  .next (match s.mgt.start.backoffUntil with
    | some t => if mgtUp s && decide (t ≤ s.clk.tick) then endWait s else s
    | none => s)

/-! ### Whole hours of TB3 (R175, R360, R478, R485, R487) -/

/-- MGT writes every cycle counter to the station-data store (R478). -/
def persistCycles (s : State) : State :=
  itemStored cyclesItem (onMgt (fun m => { m with cycles := { m.cycles with persisted := m.cycles.counts, persistedOph := ophHours s } }) s)

/-- TB3_WHOLE_HOUR (R360): MGT takes the hours that RET has counted. -/
def execTb3WholeHour (s : State) : Host.Outcome State Fault Refusal :=
  .next (if mgtUp s && decide (s.clk.hoursPending ≠ 0) then
    let s := onClk (fun c => { c with tb3Hours := c.tb3Hours + c.hoursPending, hoursPending := 0 }) s
    let s := bookDiversity (persistCycles s)
    onStore (fun x => { x with divMirror := s.ctl.voter.diversity.remain }) s
  else s)

end Sys2Proof.Machine
end

