-- ==== Sys2Proof/Machine/SelfTest.lean ====
section
/-! DEFINITION. Self-test and repair in service and at shutdown (R207, R504, R513 to R524), the reset that SYS_RESET asks for, and the
TST commands (R445, R516, R522). -/

namespace Sys2Proof.Machine

open Sys2Proof

/-- SHUTDOWN_BIST_DONE (R515, R516): the last test has ended; the record is stored and the sequencer holds the module. -/
def execShutdownBistDone (s : State) : Host.Outcome State Fault Refusal :=
  .next (if mgtUp s && s.mgt.bist.running && bistRows.all (fun r => (rowBlocks s r).all (fun b => s.mgt.bist.done.getLsbD b)) then
    enterHold (storeRecord false s.mgt.store.pccCopy s)
  else s)

/-- SYS_RESET_ASSERT (R424): 10 ms after the completion of SYS_RESET. -/
def execSysResetAssert (s : State) : Host.Outcome State Fault Refusal :=
  .next (match s.power.sysResetAt with
    | some t =>
      if mgtUp s && decide (t ≤ s.clk.tick) then
        assertSrc .sysReset (sourceCause .sysReset) (onPower (fun p => { p with sysResetAt := none }) s)
      else s
    | none => s)

/-! ### Lane tests in service (R207, R208, R210, R518) -/

/-- A lane is under test: the home lane that a rotation has released, or on F a lane VACATED or FAILED that holds no seat and is not
being brought up; in a firmware activation once it runs the new firmware (R208, R514, R518). -/
def laneTested (s : State) (l : Lane) : Bool :=
  let v := (voter s).laneVote.get l
  mgtUp s && ctlRuns s && domRun s (laneDom l) && (seatOf s l).isNone && decide (s.ctl.dbg.halted ≠ some l) &&
  (!s.ctl.rot.forFirmware || decide ((lane s l).core.fwVer = (curSet s).lane)) &&
  (match (voter s).join with | some j => decide (j.lane ≠ l) | none => true) &&
  (decide (s.ctl.rot.active = some l) && (s.ctl.rot.testing || decide (s.variant = .t ∧ v = .vacated)) ||
   decide (s.variant = .f ∧ (v = .vacated ∨ v = .failed)))

/-- On T the lane is resynchronised as a shadow for the seat it left, which counts like any other (R170, R210). -/
def reopened (l : Lane) (s : State) : State :=
  match (seatsOf s.variant).find? (fun k => decide (homeLane k = l)) with
  | some k =>
    let s := setVote l .resync (onSeat k (fun x => { x with mode := .opened, openFor := some l, openScans := 0, verifying := false }) s)
    let s := onVoter (fun v => { v with resyncAt := v.resyncAt.set l (v.resyncAt.get l ++ [tb3Tick s]) }) s
    onLane l (fun x => { x with health := { x.health with resyncStarted := x.health.resyncStarted + 1 } }) s
  | none => s

/-- A passed test makes the lane eligible, and one with new firmware counts for the interval (R518, R556). -/
def lanePasses (l : Lane) (s : State) : State :=
  let s := onRot (fun r => { r with testing := if r.active = some l then false else r.testing,
                                    waiting := if r.forFirmware then r.waiting.filter (fun x => decide (x ≠ l)) else r.waiting }) s
  let s := onLane l (fun x => { x with health := { x.health with failedAt := none } }) s
  if s.variant = .t then reopened l s else setVote l .belay s

/-- A lane that fails takes no seat until a shutdown BIST or a FULL start passes it (R207, R518). -/
def laneFails (l : Lane) (s : State) : State :=
  let s := setVote l .failed (onRot (fun r => { r with excluded := r.excluded.set l true }) s)
  let at_ := (ophHours s, ophFrac s)
  let s := onLane l (fun x => { x with health := { x.health with failedAt := some (x.health.failedAt.getD at_) } }) s
  let s := onVoter (fun v => { v with belay := v.belay.filter (fun p => decide (p.1.lane ≠ l)) }) s
  if s.ctl.rot.active = some l then rotationEnds l .checkFail s else s

/-- LANE_TEST_DONE (R518): logic BIST and MBIST of a lane have ended. -/
def execLaneTestDone (l : Lane) (found : DieTest) (s : State) : Host.Outcome State Fault Refusal :=
  .next (if laneTested s l then
    let v := verdict s l.idx found
    let s := dieTested l.idx v s
    if v.passes then lanePasses l s else laneFails l s
  else s)

/-- The belay lane: the lane that stands by without a seat (R196). -/
def belayLane (s : State) : Option Lane :=
  if s.variant = .f then Lane.list.find? (fun l => decide ((voter s).laneVote.get l = .belay) && domRun s (laneDom l)) else none

/-- A section that the belay lane may test now: not a shadow bank that holds a staged image, whose place another bank could not take, and not a
rope buffer that holds a transfer (R197, R508). A section of a code bank is saved into the other bank, beyond the image that this holds, or into
the rope buffer; every section is restored before the step reports. -/
def belayMayTest (s : State) (l : Lane) (r : TestRegion) : Bool :=
  match r with
  | .codeBank true => !((lane s l).core.shadow.isSome && decide ((lane s l).core.shadow = s.ctl.olc.image))
  | .ropeBuffer => (match (voter s).capture with | some c => decide (c.source ≠ l) | none => true)
  | _ => true

/-- A lane's own test changes. -/
def onTest (l : Lane) (f : LaneTest → LaneTest) (s : State) : State := onLane l (fun x => { x with selfTest := f x.selfTest }) s

/-- The repairs of one kind that waited for their retest stand in the soft map (R511, R512). -/
def trialKept (l : Lane) (kind : Repair → Bool) (s : State) : State :=
  let made := (lane s l).selfTest.trial.filter kind
  let s := onTest l (fun t => { t with trial := t.trial.filter (fun r => !kind r) }) s
  if made.isEmpty then s
  else spareRecords l.idx made
    (itemStored repairsItem (onBist (fun b => { b with softMap := smPut b.softMap l.idx (smGet [] b.softMap l.idx ++ made) }) s))

/-- A failure starts repair analysis; one in the retest of a repair discards that repair (R511, R519). -/
def trialOf (kind : Repair → Bool) (found : Option (List Repair)) (t : LaneTest) : List Repair :=
  let rest := t.trial.filter (fun r => !kind r)
  if (t.trial.filter kind).isEmpty then rest ++ found.getD [] else rest

/-- A logic BIST step (R519): 256 steps run the patterns of one partition, 36 partitions are a run, and a failure begins the run again as its
retest (DEDUCED, log entry 113). -/
def belayLogic (l : Lane) (misr : W64) (golden : Bool) (s : State) : State :=
  let t := (lane s l).selfTest
  let rs := repairsOf s l.idx ++ t.trial
  let p := t.steps / 256
  let s := onBist (fun b => { b with belayPart := p }) s
  if t.steps % 256 ≠ 255 then onTest l (fun t => { t with steps := t.steps + 1 }) s
  else if !golden && partitionUsed rs p then
    onTest l (fun t => { t with steps := 0, lbistFail := true,
                                trial := trialOf isEngine (engineRepairs l.idx rs ⟨⟨[p], []⟩, [], [], ⟨[], []⟩⟩) t }) s
  else if p < 35 then onTest l (fun t => { t with steps := t.steps + 1 }) s
  else trialKept l isEngine (onTest l (fun t => { t with steps := 0, lbistFail := false, lbistRuns := t.lbistRuns + 1, misr := misr }) s)

/-- A section of a macro (R519); the last of all ends a run. -/
def belayMemory (l : Lane) (m : Nat) (cells : List Cell) (last : Bool) (s : State) : State :=
  let rs := repairsOf s l.idx ++ (lane s l).selfTest.trial
  let s := onBist (fun b => { b with belayPart := m }) s
  let kind := fun (r : Repair) => !isEngine r
  if !cells.isEmpty then
    onTest l (fun t => { t with mbistFail := true, trial := trialOf kind (memoryRepairs rs ⟨⟨[], cells⟩, [], [], ⟨[], []⟩⟩) t }) s
  else if last then trialKept l kind (onTest l (fun t => { t with mbistFail := false, mbistRuns := t.mbistRuns + 1 }) s)
  else s

/-- BELAY_TEST_STEP (R519): a step of the belay lane, which no join has taken up (R197). -/
def execBelayTestStep (step : BelayStep) (s : State) : Host.Outcome State Fault Refusal :=
  .next (match belayLane s, (voter s).join with
    | some l, none =>
      match step with
      | .logic misr golden => belayLogic l misr golden s
      | .memory r m cells last => if belayMayTest s l r then belayMemory l m cells last s else s
    | _, _ => s)

/-! ### NAND scrub and fuses (R513, R514) -/

/-- NAND_SCRUB_REGION (R514): the scrub of a region begins, once in 24 operating hours, or ends. The spec states no time for one: a free value (log entry 1). -/
def execNandScrubRegion (region : Byte) (done : Bool) (s : State) : Host.Outcome State Fault Refusal :=
  .next (if !mgtUp s then s
    else if done then
      (if s.mgt.bist.nandRegion = some region.toNat then onBist (fun b => { b with nandRegion := none }) s else s)
    else if s.mgt.bist.nandRegion.isNone && decide (smFind s.mgt.bist.scrubbed region.toNat ≠ some (ophHours s / 24)) then
      drawn (onBist (fun b => { b with nandRegion := some region.toNat, nandEnd := s.clk.tick + (freeNow s).toNat,
                                       scrubbed := smPut b.scrubbed region.toNat (ophHours s / 24) }) s)
    else s)

/-- FUSE_BURN_DONE (R513): the soft repairs of a lane are burnt, their fuses read back, those that are not burnt named, and the lane retested.
Every fuse reads back and the retest finds nothing, or the soft map is kept. -/
def execFuseBurnDone (unburnt : List Nat) (again : DieRun) (s : State) : Host.Outcome State Fault Refusal :=
  .next (match s.mgt.bist.fuseBurn with
    | none => s
    | some (l, c) =>
      if !mgtUp s then s
      else
        let soft := smGet [] s.mgt.bist.softMap l.idx
        let ok := unburnt.isEmpty && logicClean l.idx (repairsOf s l.idx) again && again.cells.isEmpty
        let st := if ok then Status.ok else .checkFail
        let s := onBist (fun b => { b with fuseBurn := none }) s
        let s := if ok then
            itemStored repairsItem
              (onBist (fun b => { b with softMap := smDrop b.softMap l.idx, fuseMap := smPut b.fuseMap l.idx (smGet [] b.fuseMap l.idx ++ soft) }) s)
          else bistResult .vital l.idx 3 .checkFail 0 s
        raise 0x0007 (byte l.idx ++ byte 2 ++ byte st.code) (finishRef c st 0 (if ok then le2 soft.length else []) [] s))

/-! ### The TST commands (R445) -/

/-- The lanes that TST_ROTATE names. -/
def rotateLanes (l : Byte) : Option (List Lane) :=
  if l = 0xFF#8 then some [.a, .b, .c] else if l.toNat < 3 then (Lane.ofIdx l.toNat).map (fun x => [x]) else none

/-- TST_ROTATE (R445): the rotation waits under R209. -/
def execTstRotate (c : CmdHdr) (l : Byte) (s : State) : Host.Outcome State Fault Refusal :=
  .next (
    let r := s.ctl.rot
    cmdRun c 0x0A00 (formOk c false false true) false
      [(r.active.isSome || !r.queue.isEmpty, .notReady), ((rotateLanes l).isNone, .badArg),
       (s.variant != .f || laneCfg s == 1 || laneCfg s == 2, .deniedMode)]
      (fun s =>
        let s := onRot (fun r => { r with queue := (rotateLanes l).getD [], requested := some l.toNat }) s
        finish c 0x0A00 .pending [] [] s) s)

/-- SELFTEST of DEV_STATUS (R391): 1 a lane under rotation test, 2 shutdown BIST. -/
def selfTestCode (s : State) : Nat := if s.mgt.bist.running then 2 else if s.ctl.rot.active.isSome && s.ctl.rot.testing then 1 else 0

/-- ROT_STEP (R522). -/
def rotStep (s : State) : Nat :=
  let r := s.ctl.rot
  match (voter s).join with
  | some j =>
    if r.active.isNone then (if r.queue.isEmpty then 0 else 1)
    else match j.why, j.step with
      | .handback, _ => 5
      | _, .handover _ => 3
      | _, _ => 2
  | none => if r.active.isSome then (if r.testing then 4 else 5) else if r.queue.isEmpty then 0 else 1

/-- ROT_LANE (R522): the lane in rotation, or the one whose rotation is deferred. -/
def rotLane (s : State) : Nat :=
  match s.ctl.rot.active with
  | some l => l.idx
  | none => laneByte s.ctl.rot.queue.head?

/-- EST_MS (R522): to the end of a NAND scrub; of a lane test no time is stated but its bound, so it is a free value (log entry 1). -/
def testMs (s : State) : Nat :=
  if s.ctl.rot.testing then (freeNow s).toNat % 65536
  else match s.mgt.bist.nandRegion with
    | some _ => leftMs s s.mgt.bist.nandEnd
    | none => 0

/-- NEXT_ROT_H (R522); with the interval at 0 none is due, and the field is a free value (log entry 1). -/
def nextRotation (s : State) : Nat :=
  let r := s.ctl.rot
  if r.intervalHours = 0 then (freeNow s).toNat % 2 ^ 32 else (r.lastAt + r.intervalHours * Config.hourTicks) / Config.hourTicks

/-- TST_STATUS data (R522). -/
def tstData (s : State) : List Byte :=
  let word := fun (b : Nat) => match smFind s.mgt.bist.lastResult b with
    | some (t, st, h) => le4 (t * 2 ^ 24 + st * 65536 + h)
    | none => le4 0
  withCrc (byte (selfTestCode s) ++ byte (rotLane s) ++ byte (rotStep s) ++
    byte (if rotStep s = 1 then (deferral s).getD 0 else 0) ++ le4 (nextRotation s) ++ le2 s.mgt.bist.belayPart ++
    le2 (s.mgt.bist.nandRegion.getD 0xFFFF) ++ le2 (testMs s) ++ le2 0 ++ ((List.range 8).map word).flatten ++ List.replicate 12 0)

/-- TST_STATUS (R522). -/
def execTstStatus (c : CmdHdr) (s : State) : Host.Outcome State Fault Refusal :=
  .next (cmdRun c 0x0A01 (formOk c false true (decide (64 ≤ c.dataLen))) false []
    (fun s => drawn (finish c 0x0A01 .ok (byte (selfTestCode s)) (tstData s) s)) s)

/-- A lane of the variant by its number in a command. -/
def laneArg (s : State) (l : Byte) : Option Lane := (Lane.ofIdx l.toNat).filter (fun x => (fitted s.variant).contains x)

/-- What keeps a lane's soft repairs from being burnt now (R445, R524). -/
def fuseBusy (s : State) (l : Lane) : Bool :=
  (seatOf s l).isSome || (smGet [] s.mgt.bist.softMap l.idx).isEmpty || decide (s.ctl.rot.active = some l)

/-- TST_FUSE_REPAIR (R445, R513): MGT burns the soft repairs; the command completes at FUSE_BURN_DONE. -/
def execTstFuseRepair (c : CmdHdr) (l : Byte) (s : State) : Host.Outcome State Fault Refusal :=
  .next (cmdRun c 0x0A02 (formOk c false false true) false
    [(s.mgt.bist.fuseBurn.isSome || (match laneArg s l with | some x => fuseBusy s x | none => false), .notReady),
     ((laneArg s l).isNone, .badArg), (!switchOn s 1, .deniedSeal)]
    (fun s => match laneArg s l with
      | some x => onBist (fun b => { b with fuseBurn := some (x, refOf c 0x0A02) }) s
      | none => s) s)

/-- The shutdown-BIST record (R516). -/
def bistRecordBytes (r : BistRecord) : List Byte :=
  withCrc (le2 1 ++ le2 (b2n r.complete + 2 * b2n r.abandoned + 4 * b2n r.passed) ++ le4 r.pcc.toNat ++ le4 r.ophH ++ le2 r.ophF ++ le2 0 ++
    le2 r.tested.toNat ++ le2 r.lbistFail.toNat ++ le2 r.mbistFail.toNat ++ le2 r.repairNew ++ le4 r.durationMs ++ leBytes 6 r.uptEnd ++
    List.replicate 26 0)

/-- TST_SHUTDOWN_RECORD (R516). -/
def execTstShutdownRecord (c : CmdHdr) (s : State) : Host.Outcome State Fault Refusal :=
  .next (cmdRun c 0x0A03 (formOk c false true (decide (64 ≤ c.dataLen))) false
    [(s.mgt.bist.record.isNone, .notReady), (nandBusy s 0x0A03, .busySelftest)]
    (fun s => match s.mgt.bist.record with
      | some r => finish c 0x0A03 .ok [] (bistRecordBytes r) s
      | none => s) s)

end Sys2Proof.Machine
end

