-- ==== Sys2Proof/Machine/Status.lean ====
section
/-! DEFINITION. What MGT shows in the device status registers (R391, R554, R559) and on the front panel (R583), the heartbeat
(R392), and what MGT does with each published snapshot (R245, R267, R328, R477). -/

namespace Sys2Proof.Machine

open Sys2Proof

/-! ### Degradation (R559) -/

/-- The lane that stands seatless and is not failed: on F the belay lane, else the first such lane (R196, R391). -/
def seatlessLane (s : State) : Option Lane :=
  if s.variant = .f ∧ (voter s).running then
    match Lane.list.find? (fun l => decide ((voter s).laneVote.get l = .belay)) with
    | some l => some l
    | none => Lane.list.find? (fun l => (seatOf s l).isNone &&
        (match (voter s).laneVote.get l with | .resync | .verify | .vacated => true | _ => false))
  else none

/-- The rows of the seats, the belay lane and diversity, which apply while the lane configuration is not NONE; and on T the whole lane step of an
activation (R210). -/
def lanesDegraded (s : State) : Bool :=
  (decide (s.variant = .t) && s.ctl.rot.forFirmware) || decide (laneCfg s ≠ 0) &&
  ((decide (s.variant = .f) && !belayReady s) || decide (votingCount s < (seatsOf s.variant).length) || (voter s).diversity.lost)

/-- DEGRADED: a row of R559 applies. -/
def degraded (s : State) : Bool :=
  lanesDegraded s || !channelRunning s .a || !channelRunning s .b || !s.mgt.elec.portDown.isEmpty ||
  s.ctl.vio.vout.any (fun p => p.2.failed.isSome) || s.ctl.vio.vin.any (fun p => p.2.a.fault || p.2.b.fault) || !domRun s 2

/-! ### The status words (R391) -/

/-- The forces that MGT's last snapshot shows (R250); none before the run has voted. -/
def shownForces (s : State) : SMap Force :=
  if (voter s).votedRun then (match s.mgt.exp.evaluated with | some q => q.forces | none => []) else []

/-- FORCE_CLASS (R391): 1 restrictive forces only, 2 an any-value force. -/
def forceClass (t : SMap Force) : Nat := if t.isEmpty then 0 else if t.any (fun p => p.2.any) then 2 else 1

/-- DEV_STATUS (R391). -/
def devStatus (s : State) : W32 :=
  BitVec.ofNat 32 (b2n (inService s) * 2 ^ 31 + laneCfg s * 2 ^ 28 + b2n s.mgt.start.bivouac * 2 ^ 27 + b2n s.ctl.trip.inForce * 2 ^ 26 +
    b2n (degraded s) * 2 ^ 25 + b2n (!(shownForces s).isEmpty) * 2 ^ 24 + forceClass (shownForces s) * 2 ^ 22 +
    olcCode s.ctl.olc.mode * 2 ^ 20 + min 3 (updCode s.mgt.upd.mode) * 2 ^ 18 + b2n s.mgt.recorder.frozen * 2 ^ 17 +
    selfTestCode s * 2 ^ 15 + b2n (debugAttached s) * 2 ^ 14 + b2n (voter s).diversity.lost * 2 ^ 13 + b2n (!bothStars s) * 2 ^ 12 +
    s.data.sched.inForce % 8 * 2 ^ 9 + b2n (silentRun s) * 2 ^ 8)

/-- The code of a domain's state (R391). -/
def domCode : DomState → Nat
  | .absent => 0
  | .off => 1
  | .held => 2
  | .run => 3

/-- DOMAIN_STATE (R391). -/
def domainWord (s : State) : W32 :=
  BitVec.ofNat 32 ((List.range 12).foldl (fun n i => n + domCode (dom s i) * 4 ^ i) 0)

/-- STATE of a seat (R391). -/
def seatCode : SeatMode → Nat
  | .vacant => 0
  | .held => 1
  | .opened => 2
  | .handover => 3

/-- The eight bits of a seat; an open seat shows the lane that it is held open for (R186). -/
def seatByte (s : State) (k : Seat) : Nat :=
  let x := (voter s).seats.get k
  let l := match x.mode with | .opened => x.openFor | .vacant => none | _ => holder s k
  seatCode x.mode * 64 + (match l with | some l => l.idx | none => 0) * 16

/-- SEAT_STATUS (R391). -/
def seatStatus (s : State) : W32 :=
  BitVec.ofNat 32 (b2n (belayReady s) * 2 ^ 31 + (match seatlessLane s with | some l => l.idx | none => 0) * 2 ^ 29 +
    b2n (seatlessLane s).isSome * 2 ^ 28 + seatByte s .s3 * 65536 + seatByte s .s2 * 256 + seatByte s .s1)

/-- LANE_STATE of a lane (R391, R428). -/
def laneVoteCode : LaneVote → Nat
  | .starting => 0
  | .seated => 1
  | .resync => 2
  | .verify => 3
  | .vacated => 4
  | .failed => 5
  | .belay => 6
  | .absent => 7

/-- The register 0x64 (R391). -/
def laneWord (s : State) : W32 :=
  BitVec.ofNat 32 (diversityHours s * 65536 + Lane.list.foldl (fun n l => n + laneVoteCode ((voter s).laneVote.get l) * 16 ^ l.idx) 0)

/-- The register 0x60 (R391). -/
def startWord (s : State) : W32 :=
  BitVec.ofNat 32 (s.mgt.start.restartCause * 2 ^ 24 + s.mgt.start.result * 65536 + s.ret.failedStarts.toNat)

/-- A status word that changed sets its ALERT bit and raises its event (R391, R447). -/
def shown (new old : W32) (f : State → State) (s : State) : State := if new = old then s else f s

/-- The status registers with their present words. -/
def statusWritten (dev sealW dom seat : BitVec 32) (s : State) : State :=
  onRegs (fun r => { r with devStatus := dev, domainState := dom, seatStatus := seat, sealStatus := sealW,
                            timeStatus := timeStatus s, startStatus := startWord s, laneState := laneWord s }) s

/-- What the host is told of each status register that changed. -/
def statusTold (old : RegFile) (dev sealW dom seat : BitVec 32) (s : State) : State :=
  let s := shown dev old.devStatus (alert 0) s
  let s := shown sealW old.sealStatus (fun s => raise 0x000B (le4 sealW.toNat) (alert 2 s)) s
  let s := shown dom old.domainState (fun s => raise 0x000C (le4 dom.toNat) (alert 4 s)) s
  shown seat old.seatStatus (raise 0x0003 (le4 seat.toNat ++ scnLe s)) s

/-- MGT brings the device status registers up to date (R391). -/
def refreshStatus (s : State) : State :=
  if mgtUp s then
    statusTold s.mgt.mbx.regs (devStatus s) (sealWord s) (domainWord s) (seatStatus s)
      (statusWritten (devStatus s) (sealWord s) (domainWord s) (seatStatus s) s)
  else s

/-- HEARTBEAT_TICK (R391, R392): the MGT firmware's main loop, once every 1 ms of TB1. -/
def execHeartbeatTick (s : State) : Host.Outcome State Fault Refusal :=
  .next (if mgtUp s && (decide (s.clk.beatAt + 25000 ≤ s.clk.tick) || decide (s.clk.tick < s.clk.beatAt)) then
    refreshStatus (updPump (onClk (fun c => { c with heartbeat := c.heartbeat + 1, beatAt := c.tick }) s))
  else s)

/-! ### A published snapshot read by MGT -/

/-- The current export buffer (R25, R409). -/
def currentSnapshot (s : State) : Option Snapshot :=
  if s.mgt.exp.valid then (if s.mgt.exp.cur then s.mgt.exp.buf1 else s.mgt.exp.buf0) else none

/-- FORCE: the table that a snapshot shows has changed (R447). -/
def forceEvent (q : Snapshot) (s : State) : State :=
  let old := match s.mgt.exp.evaluated with | some p => p.forces | none => []
  if q.forces = old then s
  else raise 0x0004 (le2 q.forces.length ++ byte (forceClass q.forces) ++ byte 0 ++ le4 q.scn.toNat) s

/-- The bits of word `k` that ADMISSION variables of an image declare (R125). -/
def admissionMask (i : Image) (k : Nat) : W64 :=
  (i.vars.filter (fun v => decide (v.kind = 8) && decide (v.addr / 64 = k))).foldl
    (fun m v => m ||| BitVec.ofNat 64 ((2 ^ v.width - 1) * 2 ^ (v.addr % 64))) 0

/-- Positions of the request area that an image does not declare are 0; the system request block stands (R127, R266). -/
def clearUndeclared (i : Image) (m : SMap W64) : SMap W64 :=
  (m.map (fun p => if 2176 ≤ p.1 ∧ p.1 < 2672 then (p.1, p.2 &&& admissionMask i p.1) else p)).filter (fun p => decide (p.2 ≠ 0))

/-- The swap at W is shown: the image is marked active, OLC_SWAP completes, and the state is IDLE (R266, R267). -/
def swapShown (q : Snapshot) (s : State) : State :=
  let o := s.ctl.olc
  if o.mode = .swapping ∧ o.swapped ∧ !scnBefore q.scn o.w then
    let s := match o.image with
      | some i => onStaging (clearUndeclared i) s
      | none => s
    let s := onStore (fun x => { x with image := x.staged }) s
    olcIdle (finishSwap .ok (le4 o.w.toNat) (olcRecord 5 0 o.w.toNat (stagedCrc s) s))
  else s

/-- A schedule change completes on the snapshot of scan a + 17 (R328). -/
def schedShown (q : Snapshot) (s : State) : State :=
  match s.data.sched.change with
  | some c => match c.a with
    | some a =>
      if c.confirmed = some true ∧ !scnBefore q.scn (boundaryOf a) then
        onSched (fun x => { x with inForce := c.t }) (changeEnds (finishRef c.cmd .ok 0 (le4 (boundaryOf a).toNat) [] s))
      else s
    | none => s
  | none => s

/-- A node has a channel in a snapshot (R119). -/
def nodeUp (m : SMap W64) (k : Nat) : Bool := varBit m (0x020200 + 2 * k) || varBit m (0x020200 + 2 * k + 1)

/-- A bit lies inside a forced variable of a snapshot (R248). -/
def bitForced (i : Image) (t : SMap Force) (a : Nat) : Bool := match declAt i a with | some v => (smFind t v.id).isSome | none => false

/-- An element counts a cycle between two snapshots (R477). -/
def cycleCounted (i : Image) (p q : Snapshot) (e : ElementDecl) : Bool :=
  let a := 16 * e.element + e.cycleBit
  let k := e.element / 64
  varBit q.vars a && !varBit p.vars a && nodeUp p.vars k && nodeUp q.vars k && !bitForced i p.forces a && !bitForced i q.forces a

/-- The cycle counters of the running image's elements (R477); the first snapshot after a start is the base of comparison. -/
def countCycles (q : Snapshot) (s : State) : State :=
  let s := match runImage s, s.mgt.exp.cycleBase with
    | some i, some p => onMgt (fun m => { m with cycles := { m.cycles with
        counts := (i.elements.filter (cycleCounted i p q)).foldl
          (fun cs e => smSet 0 cs e.element (BitVec.ofNat 32 (satAdd 0xFFFFFFFF (smGet 0#32 cs e.element).toNat 1))) m.cycles.counts } }) s
    | _, _ => s
  onExp (fun x => { x with cycleBase := some q }) s

/-- MGT reads a snapshot that it has not evaluated. -/
def evalSnapshot (q : Snapshot) (s : State) : State :=
  let s := syncStore q.forces (completeForces q.scn s)
  let s := schedShown q (swapShown q (forceEvent q s))
  let s := onExp (fun x => { x with evaluated := some q }) (countCycles q s)
  refreshStatus (updPump s)

/-- MGT_SNAPSHOT_EVAL (R245, R252, R267, R328, R391, R477). -/
def execMgtSnapshotEval (s : State) : Host.Outcome State Fault Refusal :=
  .next (match currentSnapshot s with
    | some q => if mgtUp s && decide (s.mgt.exp.evaluated.map (·.scn) ≠ some q.scn) then evalSnapshot q s else s
    | none => s)

/-! ### The front panel (R583) -/

/-- What a LED shows; the frequency of a blink is in quarters of a hertz. -/
inductive Led where
  | dark | green | greenBlink (q : Nat) | amber | amberBlink | red | redBlink (q : Nat)
  deriving DecidableEq, Repr

/-- Every LED but FAULT is dark while RET_POR or a hold of PD1 is in force (R495, R583). -/
def ledsDark (s : State) : Bool := s.power.sources.contains .retPor || !domRun s 1

/-- RUN (R583). -/
def ledRun (s : State) : Led :=
  if ledsDark s || s.power.shutdownHold then .dark
  else if s.mgt.start.shutdownPending || s.mgt.bist.running then .greenBlink 1
  else if s.ctl.trip.inForce then .greenBlink 16
  else if s.mgt.start.bivouac || !(voter s).votedRun then .greenBlink 4
  else .green

/-- SEAT of a lane (R583). -/
def ledSeat (s : State) (l : Lane) : Led :=
  let towards := match (voter s).join with
    | some j => decide (j.lane = l) &&
        (match j.step with | .handover _ => true | .catchUp | .copied | .compare => decide (j.why = JoinFor.takeover) | _ => false)
    | none => false
  if ledsDark s then .dark
  else match (voter s).laneVote.get l with
    | .absent => .dark
    | .failed => .red
    | .resync | .verify => .greenBlink 4
    | v =>
      if towards then .greenBlink 4
      else if v = .seated then .green
      else if laneTested s l then .amberBlink
      else if v = .belay && belayReady s then .amber
      else .dark

/-- FORCE (R583). -/
def ledForce (s : State) : Led :=
  if ledsDark s then .dark
  else match forceClass (shownForces s) with
    | 0 => .dark
    | 1 => .amber
    | _ => .amberBlink

/-- SEAL (R583). -/
def ledSeal (s : State) : Led :=
  if ledsDark s then .dark
  else if s.ctl.vio.loop = 1 ∨ s.ctl.vio.loop = 2 then .red
  else if s.ctl.seals.fault then .redBlink 4
  else .dark

/-- TIME (R583). -/
def ledTime (s : State) : Led :=
  if ledsDark s then .dark
  else match s.data.time.mode with
    | .lockedPrimary => .green
    | .lockedSecondary => .greenBlink 4
    | .holdover => .amber
    | .free => .dark

/-- FAULT (R583). -/
def ledFault (s : State) : Led :=
  if s.ret.stuckReset then .red
  else if ledsDark s then .dark
  else if s.ctl.vio.vin.any (fun p => p.2.a.fault || p.2.b.fault) || s.ctl.vio.vout.any (fun p => p.2.failed.isSome) ||
      s.mgt.elec.foreignEnergy || s.mgt.recorder.vitalLost || s.mgt.elec.vfLow || s.mgt.elec.storeWeak then .red
  else if s.mgt.elec.cellLow then .redBlink 1
  else .dark

end Sys2Proof.Machine
end

