-- ==== Sys2Proof/Machine/Bar0.lean ====
section
/-! DEFINITION. BAR0 (R387 to R395, R450, R473): the read map, the time read latch, writes to registers; SYS_REG_READ and the TIM commands (R424, R427). -/

namespace Sys2Proof.Machine

open Sys2Proof

/-! ### The time read latch (R395) -/

/-- The capture of the four time bases at one REFCLK tick. -/
def captureTime (s : State) : State :=
  let down := !domRun s 2
  onMbx (fun m => { m with latch := ⟨down, m.latch.seq + 1, if down then 0 else s.data.time.tb0, tb1 s,
    if down then s.ctl.followers.x.cycle else s.clk.tb2, ophHours s, ophFrac s, timeStatus s⟩ }) s

/-- TIME_LATCH (R395): a write of 1 to LATCH. -/
def execTimeLatch (s : State) : Host.Outcome State Fault Refusal :=
  .next (if barUp s then captureTime s else s)

/-- A register of the latch. -/
def latchWord (l : TimeLatch) (o : Nat) : Nat :=
  match o with
  | 0x00 => 2 ^ 30 + b2n l.netDown * 2 ^ 29 + l.seq.toNat
  | 0x04 => tb0Ns l.tb0
  | 0x08 => tb0Sec l.tb0 % 2 ^ 32
  | 0x0C => tb0Frac l.tb0 * 65536 + tb0Sec l.tb0 / 2 ^ 32 % 65536
  | 0x10 => l.tb1 % 2 ^ 32
  | 0x14 => l.tb1 / 2 ^ 32 % 2 ^ 32
  | 0x18 => l.tb2 % 2 ^ 32
  | 0x1C => l.tb2 / 2 ^ 32 % 2 ^ 32
  | 0x20 => l.tb3Hours % 2 ^ 32
  | 0x24 => l.tb3Frac
  | 0x28 => l.status.toNat
  | _ => 0

/-! ### The read map -/

/-- VARIANT (R390). -/
def variantCode : Variant → Nat
  | .f => 0x46
  | .t => 0x54
  | .e => 0x45

/-- LANES_FITTED (R390). -/
def lanesFitted (v : Variant) : Nat := (fitted v).foldl (fun n l => n + 2 ^ l.idx) 0

/-- The identity registers (R390). -/
def identityWord (s : State) (o : Nat) : Nat :=
  let v := s.mgt.upd.active
  match o with
  | 0x00 => 0x5045524B
  | 0x04 => Config.hwRevision.toNat * 65536 + variantCode s.variant * 256
  | 0x08 => 0x10200 + Config.mbxMinor.toNat
  | 0x0C => v.boot.toNat
  | 0x10 => v.mgt.toNat
  | 0x14 => v.lane.toNat
  | 0x18 => v.voter.toNat
  | 0x1C => v.star.toNat
  | 0x20 => v.vio.toNat
  | 0x24 => Config.imgFmtMax v.lane % 65536 * 65536 + Config.imgFmtMin v.lane % 65536
  | 0x28 => Config.serial.toNat % 2 ^ 32
  | 0x2C => Config.serial.toNat / 2 ^ 32
  | 0x30 => kPol.toNat % 2 ^ 32
  | 0x34 => kPol.toNat / 2 ^ 32
  | 0x38 => lanesFitted s.variant
  | _ => 0

/-- Device status and host control (R391). -/
def statusWord (s : State) (o : Nat) : Nat :=
  let r := s.mgt.mbx.regs
  match o with
  | 0x40 => r.devStatus.toNat
  | 0x44 => s.clk.heartbeat.toNat
  | 0x48 => r.domainState.toNat
  | 0x4C => r.seatStatus.toNat
  | 0x50 => b2n s.mgt.exp.valid * 2 + b2n (s.mgt.exp.valid && s.mgt.exp.cur)
  | 0x54 => r.expLatch.toNat
  | 0x58 => r.sealStatus.toNat
  | 0x5C => r.timeStatus.toNat
  | 0x60 => r.startStatus.toNat
  | 0x64 => r.laneState.toNat
  | 0x100 => b2n r.mbxEn * 2 ^ 31 + b2n r.mbxReset * 2 ^ 30
  | 0x104 => b2n s.mgt.mbx.ready * 2 ^ 31 + min 256 s.mgt.mbx.inflight.length
  | 0x108 => r.admCmd.toNat % 2 ^ 32
  | 0x10C => r.admCmd.toNat / 2 ^ 32
  | 0x110 => r.admCpl.toNat % 2 ^ 32
  | 0x114 => r.admCpl.toNat / 2 ^ 32
  | 0x118 => r.admEntries.toNat
  | 0x11C => r.alert.toNat
  | 0x120 => r.alertEn.toNat
  | 0x124 => r.scratch.toNat
  | _ => 0

/-- RING_STATE of ring r (R394). -/
def ringStateWord (s : State) (r : Nat) : Nat :=
  let x := ringOf s r
  if !ringThere x then 0
  else x.rtype * 2 ^ 29 + x.state * 2 ^ 27 + b2n x.session.isSome * 2 ^ 26 + x.log2 * 2 ^ 12 + (if x.rtype = 1 then x.cons else x.prod)

/-- A register of a check-value unit (R450). -/
def cvuWord (x : Cvu) (o : Nat) : Nat :=
  match o with
  | 0x00 => b2n x.enable * 2 ^ 31 + x.point * 2 ^ 24 + x.trigger * 2 ^ 22 + b2n x.refout * 2 ^ 21 + b2n x.refin * 2 ^ 20 +
      x.width * 256 + x.filter
  | 0x04 => x.count.toNat
  | 0x08 => x.poly.toNat % 2 ^ 32
  | 0x0C => x.poly.toNat / 2 ^ 32
  | 0x10 => x.init.toNat % 2 ^ 32
  | 0x14 => x.init.toNat / 2 ^ 32
  | 0x18 => x.xorout.toNat % 2 ^ 32
  | 0x1C => x.xorout.toNat / 2 ^ 32
  | 0x20 => x.result.toNat % 2 ^ 32
  | 0x24 => x.result.toNat / 2 ^ 32
  | 0x28 => x.seq.toNat
  | 0x2C => b2n x.valid * 2 ^ 31 + b2n x.winOpen * 2 ^ 30 + b2n x.cfgErr * 2 ^ 29 + x.overrun.toNat
  | 0x34 => x.winBytes.toNat
  | 0x38 => x.winScn.toNat
  | _ => 0

/-- The recorder window (R473). -/
def logWord (m : RecorderState) (o : Nat) : Nat :=
  let x := recRing m m.winRing
  match o with
  | 0x1800 => b2n m.frozen * 2 ^ 29 + b2n (m.winRing == .general) * 2 ^ 28 + b2n m.autoInc * 2 ^ 27 + b2n m.winReady * 2 ^ 26 +
      b2n (curValid m) * 2 ^ 25 + b2n m.vitalLost * 2 ^ 24 + wraps x % 65536
  | 0x1804 => m.cursor.toNat
  | 0x1808 => (oldestSeq x).toNat
  | 0x180C => x.next.toNat
  | _ =>
    if m.winReady && curValid m then leAt (m.window.getD []) (o - 0x1810) 4 else 0

/-- What a 32-bit read of an offset returns (R387): 0 where no table lists it. -/
def regRead (s : State) (o : Nat) : Nat :=
  if o % 4 ≠ 0 then 0
  else if o < 0x40 then identityWord s o
  else if o < 0x400 then statusWord s o
  else if o < 0xC00 then (if o % 8 = 4 then ringStateWord s ((o - 0x400) / 8) else 0)
  else if o < 0x1000 then 0
  else if o < 0x1400 then cvuWord (cvuOf s ((o - 0x1000) / 64)) (o % 64)
  else if o < 0x1800 then 0
  else if o < 0x1850 then logWord s.mgt.recorder o
  else if o < 0x2000 then 0
  else if o < 0x2030 then latchWord s.mgt.mbx.latch (o - 0x2000)
  else if o < 0x3000 then 0
  else if o < 0x3400 then (msixWord s ((o - 0x3000) / 4)).toNat
  else if o = 0x3400 then s.mgt.mbx.regs.msixPending.toNat % 2 ^ 32
  else if o = 0x3404 then s.mgt.mbx.regs.msixPending.toNat / 2 ^ 32
  else 0

/-- A read of 0x50 captures EXP_SCN (R391). -/
def captureScn (s : State) : State := onRegs (fun r => { r with expLatch := if s.mgt.exp.valid then s.mgt.exp.scn else 0 }) s

/-- EXP_STATUS_READ (R391). -/
def execExpStatusRead (s : State) : Host.Outcome State Fault Refusal :=
  .next (if barUp s then captureScn s else s)

/-- A read of 0x184C with AUTO_INC (R473). -/
def autoRead (s : State) : State :=
  if s.mgt.recorder.autoInc && s.mgt.recorder.winReady then
    onRec (fun m => { m with cursor := m.cursor + 1, winReady := false, window := none }) s
  else s

/-! ### Writes (R8, R387) -/

/-- One half of a 64-bit register replaced. -/
def setLow (x : W64) (v : W32) : W64 := BitVec.ofNat 64 (x.toNat / 2 ^ 32 * 2 ^ 32 + v.toNat)
def setHigh (x : W64) (v : W32) : W64 := BitVec.ofNat 64 (v.toNat * 2 ^ 32 + x.toNat % 2 ^ 32)

/-- A write of 0x100: MBX_RESET begins a reset, MBX_EN follows its bit (R391, R393). -/
def hostControl (v : W32) (s : State) : State :=
  let s := if v.getLsbD 30 then onRegs (fun r => { r with mbxReset := true }) s else s
  if v.getLsbD 31 then mbxEnableWrite s else onRegs (fun r => { r with mbxEn := false }) s

/-- A write of an admin ring register: ignored while MBX_EN = 1 (R391). -/
def admWriteReg (f : RegFile → RegFile) (s : State) : State := if s.mgt.mbx.regs.mbxEn then s else onRegs f s

/-- A write of a host control register. -/
def controlWrite (o : Nat) (v : W32) (s : State) : State :=
  match o with
  | 0x100 => hostControl v s
  | 0x108 => admWriteReg (fun r => { r with admCmd := setLow r.admCmd v }) s
  | 0x10C => admWriteReg (fun r => { r with admCmd := setHigh r.admCmd v }) s
  | 0x110 => admWriteReg (fun r => { r with admCpl := setLow r.admCpl v }) s
  | 0x114 => admWriteReg (fun r => { r with admCpl := setHigh r.admCpl v }) s
  | 0x118 => admWriteReg (fun r => { r with admEntries := v }) s
  | 0x11C => onRegs (fun r => { r with alert := r.alert &&& ~~~(v.setWidth 6) }) s
  | 0x120 => onRegs (fun r => { r with alertEn := v.setWidth 6 }) s
  | 0x124 => onRegs (fun r => { r with scratch := v }) s
  | _ => s

/-- A CLOSE by a write of CTRL. At a point whose bytes lie outside the module's state the write does not name them: result and length are free
values (log entry 1), but of an empty window. -/
def freeClose (s : State) (x : Cvu) : Cvu :=
  if softUnit x ∧ x.winOpen then
    let y := if pointOutside x.point && domRun s (pointDom x.point) then
        cvuDone (scn s) (BitVec.ofNat 64 ((Config.freeValue s.free).toNat % 2 ^ x.width)) ((Config.freeValue (s.free + 1)).setWidth 32) x
      else cvuClose (scn s) x.window x
    { y with winOpen := false, window := [] }
  else x

/-- A write of a register of a check-value unit (R450, R451, R454, R457). -/
def cvuWrite (u o : Nat) (v : W32) (s : State) : State :=
  let put := fun (f : Cvu → Cvu) => onCvu u (fun x => let x := cvuTouched x; if x.enable then x else f x) s
  match o with
  | 0x00 =>
    let s' := onCvu u (fun x =>
      let x := cvuCtrl v (cvuTouched x)
      let x := if v.getLsbD 29 then freeClose s x else x
      if v.getLsbD 30 then cvuOpen x else x) s
    drawn (drawn s')
  | 0x04 => put (fun x => { x with count := v })
  | 0x08 => put (fun x => { x with poly := setLow x.poly v })
  | 0x0C => put (fun x => { x with poly := setHigh x.poly v })
  | 0x10 => put (fun x => { x with init := setLow x.init v })
  | 0x14 => put (fun x => { x with init := setHigh x.init v })
  | 0x18 => put (fun x => { x with xorout := setLow x.xorout v })
  | 0x1C => put (fun x => { x with xorout := setHigh x.xorout v })
  | 0x30 => onCvu u (fun x => cvuAck v (cvuTouched x)) s
  | _ => s

/-- A write of the MSI-X table: a vector unmasked with its message pending sends it (R389, R405). Of Vector Control only the mask bit is
there. -/
def msixWrite (i : Nat) (v : W32) (s : State) : State :=
  let w := if i % 4 = 3 then (v &&& 1#32) ^^^ 1#32 else v
  let s := onRegs (fun r => { r with msixTable := smSet 0 r.msixTable i w }) s
  if i % 4 = 3 ∧ !v.getLsbD 0 ∧ s.mgt.mbx.regs.msixPending.getLsbD (i / 4) then
    sendVector (i / 4) (onRegs (fun r => { r with msixPending := setBit r.msixPending (i / 4) false }) s)
  else s

/-- A write of the recorder window (R472, R473). -/
def logWrite (o : Nat) (v : W32) (s : State) : State :=
  match o with
  | 0x1800 => logControl v s
  | 0x1804 => onRec (fun m => { m with cursor := v, winReady := false, window := none }) s
  | _ => s

/-- A 32-bit write to an offset; one that no table lists, or that is read-only, is ignored (R8, R387). -/
def regWrite (o : Nat) (v : W32) (s : State) : State :=
  if o % 4 ≠ 0 then s
  else if o < 0x400 then controlWrite o v s
  else if o < 0xC00 then (if o % 8 = 0 then doorbellWrite ((o - 0x400) / 8) (v.toNat % 4096) s else s)
  else if o < 0x1000 then s
  else if o < 0x1400 then cvuWrite ((o - 0x1000) / 64) (o % 64) v s
  else if o < 0x1800 then s
  else if o < 0x1850 then logWrite o v s
  else if o = 0x2000 then (if v.getLsbD 31 then captureTime s else s)
  else if o < 0x3000 then s
  else if o < 0x3400 then msixWrite ((o - 0x3000) / 4) v s
  else s

/-- REGISTER_WRITE (R387). -/
def execRegisterWrite (off : BitVec 14) (v : W32) (s : State) : Host.Outcome State Fault Refusal :=
  .next (if barUp s then regWrite off.toNat v s else s)

/-! ### SYS_REG_READ and the TIM commands -/

/-- SYS_REG_READ (R424): the values of the reads it replaces, 0x50 captured first (R391); with AUTO_INC, 0x184C read. -/
def execSysRegRead (c : CmdHdr) (off : W32) (count : BitVec 16) (s : State) : Host.Outcome State Fault Refusal :=
  let n := count.toNat
  let o := off.toNat
  .next (cmdRun c 0x0001 (formOk c false true (decide (4 * n ≤ c.dataLen))) true
    [(decide (o % 4 ≠ 0) || decide (n < 1) || decide (256 < n) || decide (0x4000 < o + 4 * n), .badArg)]
    (fun s =>
      let s := if o ≤ 0x50 ∧ 0x50 < o + 4 * n then captureScn s else s
      let data := (List.range n).flatMap (fun k => le4 (regRead s (o + 4 * k)))
      let s := if o ≤ 0x184C ∧ 0x184C < o + 4 * n then autoRead s else s
      finish c 0x0001 .ok [] data s) s)

/-- TIM_LATCH (R427). -/
def execTimLatch (c : CmdHdr) (s : State) : Host.Outcome State Fault Refusal :=
  .next (cmdRun c 0x0200 (formOk c false true (decide (48 ≤ c.dataLen))) false []
    (fun s =>
      let s := captureTime s
      let l := s.mgt.mbx.latch
      finish c 0x0200 .ok (le2 l.seq.toNat) ((List.range 12).flatMap (fun k => le4 (latchWord l (4 * k)))) s) s)

/-- TIM_MAP (R427). -/
def execTimMap (c : CmdHdr) (s : State) : Host.Outcome State Fault Refusal :=
  .next (cmdRun c 0x0201 (formOk c false true (decide (24 ≤ c.dataLen))) false [(s.data.time.map.isNone, .notReady)]
    (fun s => match s.data.time.map with
      | some m => finish c 0x0201 .ok [] (leBytes 8 m.tb2 ++ leBytes 8 (m.sec % 2 ^ 48) ++ le4 m.ns ++ le2 m.frac ++ le2 m.state) s
      | none => s) s)

/-- The block of a domain in TIM_PTP (R427). -/
def ptpBlock (s : State) (sec : Bool) : List Byte :=
  let v := servoOf s.data.time sec
  let cfg := s.data.net.cfg
  let dn := match cfg with | some c => if sec then c.domS else c.domP | none => 0
  let p2p := match cfg with
    | some c => [0, 1, 2, 3, 4, 5].any (fun p => (if sec then portS c p else portP c p) && portP2p c p)
    | none => false
  (match v.master with | some m => leBytes 8 m.1.toNat ++ le2 m.2 | none => List.replicate 10 0) ++ byte dn ++
    byte (b2n v.locked + 2 * b2n p2p) ++ le4 (ofSigned 32 v.offset) ++ le4 (ofSigned 32 v.meanDelay) ++ le4 (ofSigned 32 v.freq) ++
    List.replicate 8 0

/-- TIM_PTP (R427). -/
def execTimPtp (c : CmdHdr) (s : State) : Host.Outcome State Fault Refusal :=
  .next (cmdRun c 0x0202 (formOk c false true (decide (64 ≤ c.dataLen))) false [(!domRun s 2, .notReady)]
    (fun s => finish c 0x0202 .ok [] (ptpBlock s false ++ ptpBlock s true) s) s)

end Sys2Proof.Machine
end

