-- ==== Sys2Proof/Machine/Boundary.lean ====
section
/-! DEFINITION. Boundary links (R377 to R382), station ports (R375), cycle-point messages (R334, R335). -/

namespace Sys2Proof.Machine

open Sys2Proof

/-! ### The telegram (R377) -/

/-- The number of a boundary port. -/
def bndIdx : Bnd → Nat
  | .bnd0 => 0
  | .bnd1 => 1

/-- Bytes 0x00 to 0x3B of a telegram (R377). -/
def telegramBytes (t : Telegram) : List Byte :=
  byte 0x14 ++ byte (128 * b2n t.first + 64 * b2n t.force) ++ beBytes 2 t.srcId.toNat ++ beBytes 2 t.dstId.toNat ++ byte t.tscan ++
  byte 0 ++ beBytes 4 t.seq.toNat ++ t.payload

/-- CODE: CRC-32C over bytes 0x00 to 0x3B (R377). -/
def telegramCode (t : Telegram) : W32 := BitVec.ofNat 32 (crc32c (telegramBytes t))

/-- An address on a boundary link: 02 4B 58 BD and an identity (R377). -/
def bndAddr (id : BitVec 16) : List Byte := byte 2 ++ byte 0x4B ++ byte 0x58 ++ byte 0xBD ++ beBytes 2 id.toNat

/-- A telegram as the frame of 82 bytes that leaves its port (R377). -/
def telegramFrame (t : Telegram) : List Byte := macFrame (bndAddr t.dstId) (bndAddr t.srcId) (telegramBytes t ++ beBytes 4 t.code.toNat)

/-- The 48 bytes of a port's outgoing image (R122, R377). -/
def outgoingBytes (p : Bnd) (m : SMap W64) : List Byte :=
  ((List.range 6).map (fun j => leBytes 8 (smGet 0#64 m (2128 + 32 * bndIdx p + j)).toNat)).flatten

/-- The boundary entry that the lanes run from (R376). -/
def laneBnd (s : State) (p : Bnd) : BndCfg := smGet BndCfg.zero s.data.cfg.bnd (bndIdx p)

/-- FIRST of the next telegram of a port (R379). -/
def firstFlag (s : State) (p : Bnd) : Bool := decide (smGet 0 s.data.net.firstCount (bndIdx p) < 16)

/-- The telegram of scan n as an image gives it (R377, R378). -/
def makeTelegram (s : State) (p : Bnd) (m : SMap W64) : Telegram :=
  let b := laneBnd s p
  let t : Telegram := ⟨firstFlag s p, s.ctl.force.active, b.localId, b.partnerId, s.tscan, scn s, outgoingBytes p m, 0⟩
  { t with code := telegramCode t }

/-! ### Sending (R378, R379) -/

/-- The boundary code records of scan n that NET has from the code lanes, once they have committed, each with its lease: header and CODE from their
own outgoing images (R378). The table has no command for such a record (DESIGN CHOICE, log entry 121). -/
def boundaryRecords (s : State) (p : Bnd) : List W32 :=
  ((voter s).now.codeLanes.filter (fun q => (lane s q.1).core.phase == .idle && decide (ownLease (lane s q.1) = q.2))).map
    (fun q => (makeTelegram s p (lane s q.1).core.vars).code)

/-- The CODE on which two code lanes agree, or in SINGLE the one code lane's (R378). -/
def agreedTelegram (s : State) (p : Bnd) : Option W32 :=
  let rs := boundaryRecords s p
  if votingCount s = 1 then rs.head?
  else rs.find? (fun c => decide (2 ≤ (rs.filter (fun d => decide (d = c))).length))

/-- The identities that NET is configured with are the lanes' (R378). -/
def identitiesAgree (s : State) (p : Bnd) : Bool :=
  match s.data.net.cfg with
  | some c => let b := smGet BndCfg.zero c.bnd (bndIdx p)
              decide (b.localId = (laneBnd s p).localId) && decide (b.partnerId = (laneBnd s p).partnerId)
  | none => false

/-- A boundary port exchanges telegrams (R376). -/
def bndEnabled (s : State) (p : Bnd) : Bool :=
  match s.data.net.cfg with
  | some c => domRun s 2 && (smGet BndCfg.zero c.bnd (bndIdx p)).en
  | none => false

/-- The telegram of this scan has left the port. -/
def telegramSent (s : State) (p : Bnd) : Bool :=
  match smFind s.data.net.sent (bndIdx p) with
  | some t => decide (t.seq = scn s) && decide (smGet 0 s.data.net.firstCount (bndIdx p) ≠ 0)
  | none => false

/-- A telegram of the scan in progress may still leave: until 2 us after the next cycle instant (R379). -/
def telegramLeaves (s : State) : Bool :=
  decide (BitVec.ofNat 32 (cycleNow s) = scn s) || decide (s.clk.tick ≤ s.ctl.followers.x.lastCi + 50)

/-- BOUNDARY_TELEGRAM_SEND (R378, R379): after the publication of scan n, with the snapshot's image under the code lanes' header and
CODE; with nothing to send 10 us before the next cycle instant a general record, and nothing leaves. -/
def execBoundaryTelegramSend (p : Bnd) (s : State) : Host.Outcome State Fault Refusal :=
  .next (if bndEnabled s p && ctlRuns s && !telegramSent s p && telegramLeaves s then
    let miss := fun (s : State) => if s.clk.tick + 250 < nextCi s .x then s else report .general 0x0607 0x1000 (byte (bndIdx p)) (scnLe s) s
    match s.data.net.outgoing, agreedTelegram s p with
    | some (n, m), some code =>
      if n = scn s ∧ identitiesAgree s p then
        let t := { makeTelegram s p m with code := code }
        let s := snoop (19 + 2 * bndIdx p) 0 true true (telegramFrame t) s
        onNet (fun x => { x with sent := smPut x.sent (bndIdx p) t, leaving := smPut x.leaving (bndIdx p) (telegramFrame t), telegramsSent := x.telegramsSent + 1,
                                 firstCount := smSet 0 x.firstCount (bndIdx p) (min 16 (smGet 0 x.firstCount (bndIdx p) + 1)) }) s
      else miss s
    | _, _ => miss s
  else s)

/-! ### Receiving (R380, R381) -/

/-- NET passes a frame on to the lanes: FCS, the addresses of its own port entry and length 0x0040 are correct (R380). -/
def netPasses (s : State) (p : Bnd) (b : List Byte) : Bool :=
  match s.data.net.cfg with
  | some c =>
    let e := smGet BndCfg.zero c.bnd (bndIdx p)
    fcsCorrect b && decide (frameDa b = bndAddr e.localId) && decide (frameSa b = bndAddr e.partnerId) && decide (frameLen b = 64) &&
    decide (b.length = 82)
  | none => false

/-- The telegram of a frame. -/
def telegramOf (b : List Byte) : Telegram :=
  ⟨bitN (hdrByte b 1) 7, bitN (hdrByte b 1) 6, BitVec.ofNat 16 (hdrField b 2 2), BitVec.ofNat 16 (hdrField b 4 2), hdrByte b 6,
   BitVec.ofNat 32 (hdrField b 8 4), slice b 26 48, BitVec.ofNat 32 (hdrField b 0x3C 4)⟩

/-- Rows 1 to 5 of R380 in a lane, which all lanes judge alike. -/
def telegramRows (s : State) (p : Bnd) (b : List Byte) : Bool :=
  let e := laneBnd s p
  let t := telegramOf b
  decide (hdrByte b 0 = 0x14) && decide (t.srcId = e.partnerId) && decide (t.dstId = e.localId) &&
  decide (t.code.toNat = crc32c (slice b 14 60)) && decide (hdrByte b 1 % 64 = 0) && decide (hdrByte b 7 = 0) && decide (t.tscan ≤ 4) &&
  decide (Config.tscanUs t.tscan ≤ 4 * Config.tscanUs s.tscan)

/-- The SEQ lies 1 to 64 beyond a reference (R380). -/
def seqBeyond (seq ref : W32) : Bool := decide (1 ≤ (seq - ref).toNat) && decide ((seq - ref).toNat ≤ 64)

/-- A telegram that passed rows 1 to 5, at row 6 of a lane (R380): with LAST, or as the second of a confirming pair. One that misses the cut-off is
used in no scan (R54). -/
def row6Step (t : Telegram) (inTime : Bool) (cycle : Nat) (b : LaneBoundary) : LaneBoundary :=
  let b := { b with firsts := b.firsts + b2n t.first }
  let keep := fun (b : LaneBoundary) => if inTime then { b with got := some t.payload, gotAt := cycle } else b
  let take := fun (b : LaneBoundary) => keep { b with last := some t.seq, candidate := none }
  match b.last, b.candidate with
  | some l, _ => if seqBeyond t.seq l then take b else b
  | none, some c => if seqBeyond t.seq c then take b else { b with candidate := some t.seq }
  | none, none => { b with candidate := some t.seq }

/-- A telegram received now is in time for the latch of the next cycle instant: before the cut-off tick (R53, R54, R380). -/
def telegramInTime (s : State) : Bool := decide (s.clk.tick + 125 < nextCi s .x)

/-- BOUNDARY_TELEGRAM_RECEIVE (R380): a frame on a boundary port; NET passes a good one to every lane, which checks it. -/
def execBoundaryTelegramReceive (p : Bnd) (frame : List Byte) (s : State) : Host.Outcome State Fault Refusal :=
  .next (
    let s := if domRun s 2 && !frame.isEmpty then snoop (18 + 2 * bndIdx p) 0 true true frame s else s
    if bndEnabled s p && netPasses s p frame && (voter s).running && telegramRows s p frame then
    let t := telegramOf frame
    let step := row6Step t (telegramInTime s) (cycleNow s)
    Lane.list.foldl (fun s l =>
      if domRun s (laneDom l) && (lane s l).core.active.isSome then
        onLane l (fun x => match p with
          | .bnd0 => { x with bnd0 := step x.bnd0 }
          | .bnd1 => { x with bnd1 := step x.bnd1 }) s
      else s) s
  else s)

/-! ### Station ports (R375) -/

/-- A role is enabled on a NET port (R375). -/
def roleEnabled (c : NetPortCfg) : Bool := c.ptpP || c.ptpS || c.mbx || c.exp

/-- NET_LINK_CHANGE (R373, R375): at link-up a NET port's PHY latencies are measured by loopback; NET3 always writes a record, NET0 to NET2 where a
role is enabled. -/
def execNetLinkChange (port : BitVec 3) (up : Bool) (ingress egress : Nat) (s : State) : Host.Outcome State Fault Refusal :=
  .next (
    let p := port.toNat
    if domRun s 2 && decide (p < 6) && decide (smGet false s.data.net.linkUp p ≠ up) then
      let s := onNet (fun n => { n with linkUp := smSet false n.linkUp p up,
                                        latency := if up ∧ p < 4 then smPut n.latency p (ingress, egress) else n.latency }) s
      let role := match s.data.net.cfg with | some c => roleEnabled (smGet NetPortCfg.zero c.net p) | none => false
      if p = 3 ∨ (p < 3 ∧ role = true) then report .general 0x0603 (0x1000 + p) (byte p ++ byte (b2n up)) [] s else s
    else s)

/-- A frame is an ARP request for an IPv4 address (R375; frame formats PRESUMED, log entry 120). -/
def arpRequest (ip : W32) (b : List Byte) : Bool :=
  decide (ofBe (slice b 12 2) = 0x0806) && decide (ofBe (slice b 20 2) = 1) && decide (ofBe (slice b 38 4) = ip.toNat) && decide (42 ≤ b.length)

/-- A frame is an ICMP echo request to an IPv4 address (R375; frame formats PRESUMED, log entry 120). -/
def echoRequest (ip : W32) (b : List Byte) : Bool :=
  let h := 4 * (ofBe (slice b 14 1) % 16)
  decide (ofBe (slice b 12 2) = 0x0800) && decide (ofBe (slice b 14 1) / 16 = 4) && decide (ofBe (slice b 23 1) = 1) &&
  decide (ofBe (slice b 30 4) = ip.toNat) && decide (ofBe (slice b (14 + h) 1) = 8) && decide (20 ≤ h) && decide (22 + h ≤ b.length)

/-- ARP_ICMP_ECHO (R375): answered for the port's own address; any other frame is discarded and counted. -/
def execArpIcmpEcho (port : BitVec 2) (frame : List Byte) (s : State) : Host.Outcome State Fault Refusal :=
  .next (if domRun s 2 then
    let ip := match s.data.net.cfg with | some c => (smGet NetPortCfg.zero c.net port.toNat).ip | none => 0
    if ip ≠ 0 ∧ (arpRequest ip frame || echoRequest ip frame) then onNet (fun n => { n with answered := n.answered + 1 }) s
    else onNet (fun n => { n with discarded := n.discarded + 1 }) s
  else s)

/-! ### Cycle points (R334, R335) -/

/-- CYCLE_POINT_MESSAGE (R335): between CI + OFFSET and 3 us later, in every DIVIDE-th cycle. -/
def execCyclePointMessage (i : BitVec 3) (s : State) : Host.Outcome State Fault Refusal :=
  .next (match smFind s.data.sched.cpSubs i.toNat with
    | some (off, vec, div) =>
      let ci := s.ctl.followers.x.lastCi
      let n := s.clk.tb2
      if mgtUp s && !s.power.pcieDown && decide (n % div = 0) && decide (ci + off ≤ s.clk.tick) && decide (s.clk.tick ≤ ci + off + 75) &&
          decide (smGet 0 s.data.sched.cpSent i.toNat ≠ n + 1) then
        sendVector vec (onSched (fun x => { x with cpSent := smPut x.cpSent i.toNat (n + 1) }) s)
      else s
    | none => s)

end Sys2Proof.Machine
end

