-- ==== Sys2Proof/Machine/SysCmd.lean ====
section
/-! DEFINITION. The SYS commands that act on the whole module (R424): NOP, shutdown, start, resets and trip. SYS_REG_READ stands with
BAR0, the ring commands with the mailbox. -/

namespace Sys2Proof.Machine

open Sys2Proof

/-- SYS_NOP (R424): never refused, in shutdown BIST neither (R420). -/
def execSysNop (c : CmdHdr) (echo : W32) (s : State) : Host.Outcome State Fault Refusal :=
  .next (cmdRun c 0x0000 (formOk c false false true) true [] (fun s => finish c 0x0000 .ok (le4 echo.toNat) [] s) s)

/-! ### Shutdown (R424, R504, R514, R515) -/

/-- Step 1 of a shutdown: the drive is removed, the lanes stop, the stars substitute, and the run is over; a trip still in sequence
asserts no CTRL_RESET any more (R233, R424). -/
def goRestrictive (s : State) : State :=
  let s := if s.mgt.start.inAttempt then attemptEnds .aborted s else s
  let s := if s.mgt.start.backoffUntil.isSome then endWait s else s
  let s := onLanes (fun x => { x with core := { x.core with phase := .stopped } }) (allDead (ctlDown s))
  let s := onStar .a (fun x => { x with substitution := true }) (onStar .b (fun x => { x with substitution := true }) s)
  onTrip (fun t => { t with ctrlReset := false }) (onStart (fun x => { x with bivouac := true, service := false, loaded := false }) s)

/-- Step 2: shutdown BIST begins, and the station-data store marks it (R506, R515). -/
def beginShutdownBist (s : State) : State :=
  let s := onStore (fun x => { x with shutdownRunning := true }) s
  let s := onBist (fun b => { b with running := true, done := 0, lFail := 0, mFail := 0, repairs := 0, startedAt := s.clk.tick }) s
  onBist (fun b => { b with endAt := s.clk.tick + msTicks (bistLeft s bistRows) }) s

/-- SYS_SHUTDOWN (R424): it completes with PENDING before it acts. The evidence of a BIST in this power cycle is gone (R497). -/
def execSysShutdown (c : CmdHdr) (flags : Byte) (s : State) : Host.Outcome State Fault Refusal :=
  .next (cmdRun c 0x0004 (formOk c false false true && decide (flags.toNat < 2)) false
    [(decide (s.mgt.upd.mode = .activating) || decide (s.mgt.upd.mode = .rollback), .notReady)]
    (fun s =>
      let s := finish c 0x0004 .pending [] [] s
      let s := persistCycles (goRestrictive s)
      let s := onRet (fun r => { r with sram := { r.sram with evidPcc := 0xFFFFFFFF } }) s
      let s := onStart (fun x => { x with shutdownPending := true, skipBist := flags.getLsbD 0 }) s
      if flags.getLsbD 0 then enterHold s else beginShutdownBist s) s)

/-- SYS_START (R424, R517): in bivouac it ends the backoff wait; in shutdown BIST it abandons the BIST and resets the module. -/
def execSysStart (c : CmdHdr) (s : State) : Host.Outcome State Fault Refusal :=
  .next (cmdRun c 0x0005 (formOk c false false true) true [(ctlRuns s && !s.mgt.bist.running, .deniedMode)]
    (fun s =>
      let s := finish c 0x0005 .ok [] [] s
      if s.mgt.bist.running then
        let s := onStart (fun x => { x with shutdownPending := false }) (storeRecord true s.mgt.store.pccCopy s)
        assertSrc .sysReset (sourceCause .sysReset) s
      else if s.mgt.start.backoffUntil.isSome then endWait s else s) s)

/-- SYS_RESET (R424): the reset follows 10 ms later, at SYS_RESET_ASSERT. -/
def execSysReset (c : CmdHdr) (s : State) : Host.Outcome State Fault Refusal :=
  .next (cmdRun c 0x0006 (formOk c false false true) false [(!switchOn s 1, .deniedSeal)]
    (fun s =>
      let at_ := s.clk.tick + msTicks 10
      onPower (fun p => { p with sysResetAt := some (match p.sysResetAt with | some t => min t at_ | none => at_) })
        (finish c 0x0006 .ok [] [] s)) s)

/-! ### Trip and control reset (R232 to R235, R424) -/

/-- SYS_CTRL_RESET takes the trip sequence where the control plane runs or a trip is still in sequence, and always asserts CTRL_RESET
with RESTART_CAUSE 0x05. -/
def ctrlReset (s : State) : State :=
  if s.ctl.trip.inForce && !s.ctl.trip.recorded then tripSettle (onTrip (fun t => { t with ctrlReset := true }) (noteCause 5 s))
  else if ctlRuns s then tripNow 5 true (noteCause 5 s)
  else assertSrc .ctrlReset (sourceCause .ctrlReset) s

/-- SYS_CTRL_RESET (R424). -/
def execSysCtrlReset (c : CmdHdr) (s : State) : Host.Outcome State Fault Refusal :=
  .next (cmdRun c 0x0007 (formOk c false false true) false [] (fun s => ctrlReset (finish c 0x0007 .ok (scnLe s) [] s)) s)

/-- SYS_TRIP (R232, R424): OK once the trip is in force; nothing more in bivouac or while a trip is in force. -/
def execSysTrip (c : CmdHdr) (s : State) : Host.Outcome State Fault Refusal :=
  .next (cmdRun c 0x0008 (formOk c false false true) false []
    (fun s =>
      let s := finish c 0x0008 .ok (scnLe s) [] s
      if s.ctl.trip.inForce then s else trip 0x0D true s) s)

/-! ### SYS_BLOCK_RESET (R424) -/

/-- The source of a TARGET. -/
def blockTarget (t : Byte) : Option ResetSrc :=
  match t.toNat with
  | 1 => some .netReset
  | 2 => some (.starReset .a)
  | 3 => some (.starReset .b)
  | 4 => some (.laneReset .a)
  | 5 => some (.laneReset .b)
  | 6 => some (.laneReset .c)
  | 7 => some (.laneReset .d)
  | _ => none

/-- The seats that vote and that a lane does not hold. -/
def votingWithout (s : State) (l : Lane) : Nat :=
  (Seat.list.filter (fun k => SeatVotes ((voter s).seats.get k) && decide (holder s k ≠ some l))).length

/-- Why a block may not be reset in this mode. -/
def blockDenied (s : State) : Option ResetSrc → Bool
  | some (.starReset ch) => !channelRunning s ch.other
  | some (.laneReset l) => decide (laneCfg s ≠ 0) && decide (votingWithout s l < 2)
  | _ => false

/-- The target names a lane that the variant does not carry, or nothing. -/
def blockAbsent (s : State) : Option ResetSrc → Bool
  | none => true
  | some (.laneReset l) => !(fitted s.variant).contains l
  | some _ => false

/-- SYS_BLOCK_RESET (R424): the source is asserted; RESET_SOURCE_RELEASE releases it after 1 ms. -/
def execSysBlockReset (c : CmdHdr) (t : Byte) (s : State) : Host.Outcome State Fault Refusal :=
  .next (
    let r := blockTarget t
    cmdRun c 0x0009 (formOk c false false true) false [(blockAbsent s r, .badArg), (blockDenied s r, .deniedMode)]
      (fun s =>
        let s := reportSvc 0x0106 0 (byte t.toNat) [] (finish c 0x0009 .ok [] [] s)
        match r with
        | some r => assertSrc r 0 s
        | none => s) s)

end Sys2Proof.Machine
end

