-- ==== Sys2Proof/Machine/Cfg.lean ====
section
/-! DEFINITION. The CFG commands (R426): blocks, keys and parameters of the station-data store, and the FMT_VER range of R548. -/

namespace Sys2Proof.Machine

open Sys2Proof

/-- A block of the CFG class: one that carries a format, by Config's number; the trust anchor; a key by its index. -/
inductive CfgBlock where | formatted (blk : Nat) | anchor | key (i : Nat)
  deriving DecidableEq, Repr

/-- The block that a BLOCK code names (R426). -/
def cfgBlock (b : Byte) : Option CfgBlock :=
  match b.toNat with
  | 1 => some (.formatted vioBlk)
  | 2 => some (.formatted netBlk)
  | 3 => some .anchor
  | 0x10 => some (.key 0)
  | 0x11 => some (.key 1)
  | 0x12 => some (.key 2)
  | 0x13 => some (.key 3)
  | _ => none

/-- The block as stored; empty where none is. -/
def cfgStored (s : State) : CfgBlock → List Byte
  | .formatted blk => smGet [] (storedBlocks s) blk
  | .anchor => s.mgt.mbx.trustAnchor
  | .key i => smGet [] s.mgt.store.keys i

/-- A block is stored. -/
def cfgStore (k : CfgBlock) (b : List Byte) (s : State) : State :=
  match k with
  | .formatted blk => putBlocks (smPut (storedBlocks s) blk b) s
  | .anchor => onMbx (fun m => { m with trustAnchor := b }) s
  | .key i => onStore (fun x => { x with keys := smPut x.keys i b }) s

/-- What the MGT firmware stores of a written block: one of an older format is migrated (R548), one whose migration fails has no valid fields. -/
def cfgNew (s : State) (k : CfgBlock) (b : List Byte) : List Byte :=
  match k with
  | .formatted blk => (migrated s.mgt.upd.active.mgt blk b).getD []
  | _ => b

/-- Its FMT_VER is not supported. -/
def cfgVersion (s : State) (k : CfgBlock) (b : List Byte) : Bool :=
  match k with
  | .formatted blk => !fmtOk s blk b
  | _ => false

/-- It fails the checks of its owning chapter. -/
def cfgBad (s : State) (k : CfgBlock) (b : List Byte) : Bool :=
  match k with
  | .formatted blk => !blockFields s blk (cfgNew s k b)
  | .anchor => !Config.certOk b
  | .key _ => !(decide (b.length = 97) && decide (b.head? = some 4#8))

/-- Blocks that S1 seals. -/
def cfgSealed : CfgBlock → Bool
  | .formatted _ => false
  | _ => true

/-- CONFIGURATION (R476): `kind` 1 block, 2 parameter. -/
def configRecord (code kind old new : Nat) (s : State) : State :=
  reportSvc 0x0701 0 (byte code ++ byte kind ++ le4 old ++ le4 new) [] s

/-- The record of a block; what its old and new fields hold no rule states: free values (log entry 1). -/
def blockRecord (code : Nat) (s : State) : State :=
  let old := (freeNow s).toNat
  let s := drawn s
  let new := (freeNow s).toNat
  configRecord code 1 old new (drawn s)

/-- CFG_WRITE (R426). -/
def execCfgWrite (c : CmdHdr) (block : Byte) (data : List Byte) (s : State) : Host.Outcome State Fault Refusal :=
  .next (cmdRun c 0x0100 (formOk c true false (decide (c.dataLen ≤ 4096) && decide (data.length = c.dataLen))) false
    (match cfgBlock block with
     | none => [(true, .badArg)]
     | some k => [(decide (data.length < 2), .badArg), (cfgVersion s k data, .version), (cfgBad s k data, .badArg),
                  (cfgSealed k && !switchOn s 1, .deniedSeal), (nandBusy s 0x0100, .busySelftest)])
    (fun s => match cfgBlock block with
     | some k => finish c 0x0100 .ok [] [] (blockRecord block.toNat (cfgStore k (cfgNew s k data) s))
     | none => s) s)

/-- The FMT_VER range of a block as RESULT gives it; 0 for one without a format. -/
def fmtRange (s : State) : CfgBlock → List Byte
  | .formatted blk => le2 (Config.fmtMin s.mgt.upd.active.mgt blk) ++ le2 (Config.fmtCur s.mgt.upd.active.mgt blk)
  | _ => le2 0 ++ le2 0

/-- The rows of a read of a stored block. -/
def readRows (s : State) (op : Nat) (k : Option CfgBlock) : List (Bool × Status) :=
  match k with
  | none => [(true, .badArg)]
  | some k => [((cfgStored s k).isEmpty, .notReady), (nandBusy s op, .busySelftest)]

/-- A stored block is returned, as far as DATA_LEN holds it. -/
def readBlock (c : CmdHdr) (op : Nat) (k : Option CfgBlock) (s : State) : State :=
  match k with
  | some k => finish c op .ok (le4 (cfgStored s k).length ++ fmtRange s k) ((cfgStored s k).take c.dataLen) s
  | none => s

/-- CFG_READ (R426). -/
def execCfgRead (c : CmdHdr) (block : Byte) (s : State) : Host.Outcome State Fault Refusal :=
  .next (cmdRun c 0x0101 (formOk c false true (decide (c.dataLen ≤ 4096))) false (readRows s 0x0101 (cfgBlock block))
    (readBlock c 0x0101 (cfgBlock block)) s)

/-! ### Parameters -/

/-- The value of a parameter. -/
def param (s : State) (id : Nat) : Nat :=
  match id with
  | 1 => (voter s).diversity.hours
  | 2 => s.ctl.rot.intervalHours
  | 3 => s.mgt.store.coalMs
  | _ => s.mgt.store.freezeS

/-- The range of a parameter. -/
def paramOk (id v : Nat) : Bool :=
  match id with
  | 1 => decide (v ≤ 720)
  | 2 => decide (v ≤ 168)
  | 3 => decide (v ≤ 60000)
  | _ => decide (1 ≤ v) && decide (v ≤ 3600)

/-- A parameter takes its new value at once. -/
def setParam (id v : Nat) (s : State) : State :=
  match id with
  | 1 => onVoter (fun q => { q with diversity := { q.diversity with hours := v, remain := min q.diversity.remain (65536 * v) } }) (bookDiversity s)
  | 2 => onRot (fun r => { r with intervalHours := v, lastAt := tb3Tick s }) s
  | 3 => onStore (fun x => { x with coalMs := v }) s
  | _ => onStore (fun x => { x with freezeS := v }) s

/-- A PARAM_ID that is defined. -/
def paramKnown (id : Byte) : Bool := decide (1 ≤ id.toNat) && decide (id.toNat ≤ 4)

/-- CFG_SET (R426). -/
def execCfgSet (c : CmdHdr) (id : Byte) (v : W32) (s : State) : Host.Outcome State Fault Refusal :=
  .next (cmdRun c 0x0102 (formOk c false false true) false
    [(!paramKnown id || !paramOk id.toNat v.toNat, .badArg), (nandBusy s 0x0102, .busySelftest)]
    (fun s =>
      let old := param s id.toNat
      finish c 0x0102 .ok (le4 old) [] (configRecord id.toNat 2 old v.toNat (setParam id.toNat v.toNat s))) s)

/-- CFG_GET (R426). -/
def execCfgGet (c : CmdHdr) (id : Byte) (s : State) : Host.Outcome State Fault Refusal :=
  .next (cmdRun c 0x0103 (formOk c false false true) false [(!paramKnown id, .badArg), (nandBusy s 0x0103, .busySelftest)]
    (fun s => finish c 0x0103 .ok (le4 (param s id.toNat)) [] s) s)

/-- The key that signs the active image (R139, R426). -/
def signingKey (s : State) : Nat := leAt (sectionBytes s.mgt.store.image 0xF) 0 1

/-- CFG_KEY_REMOVE (R426). -/
def execCfgKeyRemove (c : CmdHdr) (i : Byte) (s : State) : Host.Outcome State Fault Refusal :=
  .next (cmdRun c 0x0104 (formOk c false false true) false
    [(decide (3 < i.toNat), .badArg), (inService s && !s.mgt.store.image.isEmpty && decide (signingKey s = i.toNat), .deniedMode),
     (!switchOn s 1, .deniedSeal), (nandBusy s 0x0104, .busySelftest)]
    (fun s =>
      let s := onStore (fun x => { x with keys := smDrop x.keys i.toNat }) s
      finish c 0x0104 .ok [] [] (blockRecord (0x10 + i.toNat) s)) s)

end Sys2Proof.Machine
end

