-- ==== Sys2Proof/Machine/Exp.lean ====
section
/-! DEFINITION. Export subscriptions and their datagrams (R415, R441 to R443) and EXP_READ (R444). -/

namespace Sys2Proof.Machine

open Sys2Proof

/-- A range cut into parts of at most 1,400 bytes (R442). -/
def cutRange (r : Nat × Nat) : List (Nat × Nat) :=
  (List.range (ceilDiv r.2 1400)).map (fun i => (r.1 + 1400 * i, min 1400 (r.2 - 1400 * i)))

/-- The parts of a subscription, in range order. -/
def expParts (rs : List (Nat × Nat)) : List (Nat × Nat) := rs.flatMap cutRange

/-- Two ranges overlap. -/
def rangesOverlap : List (Nat × Nat) → Bool
  | [] => false
  | r :: rs => rs.any (fun q => decide (r.1 < q.1 + q.2) && decide (q.1 < r.1 + r.2)) || rangesOverlap rs

/-- The NET port carries exports (R376, R442). -/
def expPort (s : State) (p : Nat) : Bool :=
  match s.data.net.cfg with
  | some c => decide (p < 4) && (smGet NetPortCfg.zero c.net p).exp && decide ((smGet NetPortCfg.zero c.net p).ip ≠ 0)
  | none => false

/-- The argument checks of EXP_SUBSCRIBE (R441, R442). -/
def subscribeBad (s : State) (q : SubParam) : Bool :=
  !expPort s q.netPort.toNat || decide (q.dstIp = 0) || decide (q.dstIp.toNat / 2 ^ 28 = 0xE) || decide (q.divide = 0) ||
  (decide (63 < q.sub.toNat) && decide (q.sub.toNat ≠ 0xFF)) || decide (q.ranges.length < 1) || decide (16 < q.ranges.length) ||
  q.ranges.any (fun r => decide (r.2 = 0) || decide (0x80000 < r.1 + r.2)) || rangesOverlap q.ranges ||
  decide (255 < (expParts q.ranges).length)

/-- The subscription that a command may take: its own number, or the lowest free for any. -/
def freeSub (s : State) (sub : Nat) : Option Nat :=
  let free := fun n => (smFind s.mgt.exp.subs n).isNone
  if sub = 0xFF then (List.range 64).find? free
  else if free sub then some sub else none

/-- EXP_SUBSCRIBE (R441 to R443): it starts with the first selected publication after its completion. -/
def execExpSubscribe (c : CmdHdr) (q : SubParam) (s : State) : Host.Outcome State Fault Refusal :=
  .next (cmdRun c 0x0900 (formOk c true false (decide (c.dataLen = 8 * q.ranges.length))) false
    [(subscribeBad s q, .badArg), ((freeSub s q.sub.toNat).isNone, .noResource)]
    (fun s => match freeSub s q.sub.toNat with
      | some k =>
        let n := (expParts q.ranges).length
        let x : ExpSub := ⟨q.dstIp, q.dstUdp.toNat, q.netPort.toNat, q.ranges, q.divide.toNat, n, 0, 0, none⟩
        finish c 0x0900 .ok (byte k ++ leBytes 3 0 ++ byte n) [] (onExp (fun e => { e with subs := smPut e.subs k x }) s)
      | none => s) s)

/-- EXP_UNSUBSCRIBE (R441, R443). -/
def execExpUnsubscribe (c : CmdHdr) (sub : Byte) (s : State) : Host.Outcome State Fault Refusal :=
  .next (cmdRun c 0x0901 (formOk c false false true) false [((smFind s.mgt.exp.subs sub.toNat).isNone, .badArg)]
    (fun s =>
      let sent := match smFind s.mgt.exp.subs sub.toNat with | some x => x.sent | none => 0
      finish c 0x0901 .ok (le4 sent) [] (onExp (fun e => { e with subs := smDrop e.subs sub.toNat }) s)) s)

/-- An entry of EXP_LIST (R443). -/
def subEntry (k : Nat) (x : ExpSub) : List Byte :=
  byte k ++ byte x.netPort ++ le2 x.dstUdp ++ le4 x.dstIp.toNat ++ le2 x.divide ++ byte x.parts ++ byte 0 ++ le4 x.abandoned

/-- EXP_LIST (R441, R443). -/
def execExpList (c : CmdHdr) (s : State) : Host.Outcome State Fault Refusal :=
  .next (cmdRun c 0x0902 (formOk c false true (decide (1024 ≤ c.dataLen))) false []
    (fun s => finish c 0x0902 .ok (byte s.mgt.exp.subs.length)
      (padTo 1024 (s.mgt.exp.subs.flatMap (fun p => subEntry p.1 p.2))) s) s)

/-- EXP_READ (R441, R444): bytes of one snapshot. -/
def execExpRead (c : CmdHdr) (off : W32) (len : W32) (s : State) : Host.Outcome State Fault Refusal :=
  .next (cmdRun c 0x0903 (formOk c false true (decide (len.toNat ≤ c.dataLen))) false
    [((currentSnapshot s).isNone, .notReady), (decide (0x80000 < off.toNat + len.toNat), .badArg)]
    (fun s => match currentSnapshot s with
      | some q => finish c 0x0903 .ok (le4 q.scn.toNat) (snapBytes q off.toNat len.toNat) s
      | none => s) s)

/-! ### The stream (R415, R443) -/

/-- The buffer that still holds the snapshot of a scan. -/
def bufferOf (s : State) (n : Scn) : Option Snapshot := [s.mgt.exp.buf0, s.mgt.exp.buf1].findSome? (fun b => b.filter (fun q => decide (q.scn = n)))

/-- The export datagram of a part (R415): its header big-endian, its data as the buffer holds them. -/
def exportDatagram (sub part parts : Nat) (q : Snapshot) (r : Nat × Nat) : List Byte :=
  let b := byte 1 ++ byte sub ++ byte part ++ byte parts ++ beBytes 4 q.scn.toNat ++ beBytes 4 r.1 ++ beBytes 2 r.2 ++ beBytes 2 0 ++
    snapBytes q r.1 r.2
  b ++ beBytes 4 (crc32c b)

/-- EXPORT_STREAM_SEND (R415): the next part of a subscription leaves its NET port. -/
def execExportStreamSend (sub : BitVec 6) (s : State) : Host.Outcome State Fault Refusal :=
  .next (match smFind s.mgt.exp.subs sub.toNat with
    | some x =>
      match x.current with
      | some (n, k) =>
        match (expParts x.ranges)[k]?, bufferOf s n with
        | some r, some q =>
          if mgtUp s && netUp s then
            onExp (fun e => { e with subs := smPut e.subs sub.toNat { x with current := some (n, k + 1), sent := x.sent + 1 },
                                     datagram := exportDatagram sub.toNat k x.parts q r }) s
          else s
        | _, _ => s
      | none => s
    | none => s)

end Sys2Proof.Machine
end

