-- ==== Sys2Proof/Machine/Lnk.lean ====
section
/-! DEFINITION. The LNK commands (R440): the link blocks, schedule changes (R326), port and channel power (R45, R355), the lock list
(R346), PORT_STATUS (R337) and cycle-point subscriptions (R334). -/

namespace Sys2Proof.Machine

open Sys2Proof

/-- The block that BLOCK names. -/
def lnkBlock (b : Byte) : Option CfgBlock :=
  match b.toNat with
  | 1 => some (.formatted linkBlk)
  | 2 => some (.formatted schedBlk)
  | _ => none

/-- LNK_CFG_WRITE (R275, R324, R440): it takes effect at the next control-plane start. -/
def execLnkCfgWrite (c : CmdHdr) (block : Byte) (data : List Byte) (s : State) : Host.Outcome State Fault Refusal :=
  .next (cmdRun c 0x0B00 (formOk c true false (decide (c.dataLen ≤ 16420) && decide (data.length = c.dataLen))) false
    (match lnkBlock block with
     | none => [(true, .badArg)]
     | some k => [(decide (data.length < 2), .badArg), (cfgVersion s k data, .version), (cfgBad s k data, .badArg),
                  (nandBusy s 0x0B00, .busySelftest)])
    (fun s => match lnkBlock block with
     | some k => finish c 0x0B00 .ok [] [] (cfgStore k (cfgNew s k data) s)
     | none => s) s)

/-- LNK_CFG_READ (R440). -/
def execLnkCfgRead (c : CmdHdr) (block : Byte) (s : State) : Host.Outcome State Fault Refusal :=
  .next (cmdRun c 0x0B01 (formOk c false true (decide (c.dataLen ≤ 16420))) false (readRows s 0x0B01 (lnkBlock block))
    (readBlock c 0x0B01 (lnkBlock block)) s)

/-! ### Schedule change -/

/-- The rows of R326. -/
def schedRows (s : State) (t : Nat) : List (Bool × Status) :=
  [(!ctlRuns s, .notReady), (decide (s.data.cfg.count ≤ t) || decide (t = s.data.sched.inForce), .badArg),
   (s.data.sched.change.isSome, .notReady), (s.ctl.olc.mode == .swapping, .notReady), (shutdownRequested s, .notReady)]

/-- No acknowledgement counts from before the announcement (R328). -/
def clearAcks (s : State) : State :=
  onLanes (fun x => { x with nodes := smMap NodeLink.zero (fun n => { n with ack := none }) x.nodes }) s

/-- LNK_SCHED_CHANGE (R326): announced with the next barrier release; it completes under R328 or R330. -/
def execLnkSchedChange (c : CmdHdr) (t : Byte) (s : State) : Host.Outcome State Fault Refusal :=
  .next (cmdRun c 0x0B02 (formOk c false false true) false (schedRows s t.toNat)
    (fun s => onSched (fun x => { x with change := some ⟨refOf c 0x0B02, t.toNat, none, none⟩ }) (clearAcks s)) s)

/-! ### Port and channel commands -/

/-- LINK_COMMAND (R440, R476). -/
def linkRecord (op : Nat) (ch : Chan) (p : Nat) (s : State) : State :=
  reportSvc 0x0508 0 (le2 op ++ byte ch.idx ++ byte p) [] s

/-- The channel that CHANNEL names. -/
def chanArg (b : Byte) : Option Chan := Chan.ofIdx b.toNat

/-- CHANNEL and PORT name no port in use. -/
def portArgBad (s : State) (ch p : Byte) : Bool :=
  match chanArg ch with
  | some c => decide (63 < p.toNat) || !(portCfg s c p.toNat).use
  | none => true

/-- PORT_POWER (R355, R476). -/
def portPowerRecord (ch : Chan) (p : Nat) (on : Bool) (s : State) : State :=
  reportSvc 0x0507 0 (byte ch.idx ++ byte p ++ byte (b2n on)) [] s

/-- An isolation of the cycle of a power-down is not counted: power-down wins (R356). A lock made in that cycle stands, since its record and its
entry in the lock list are written (DESIGN CHOICE, log entry 117). -/
def uncounted (now : Nat) (x : PortState) : PortState :=
  { x with linkUp := false, isoAt := if x.isoCycle = some now ∧ x.mode ≠ .locked then x.isoAt.dropLast else x.isoAt, isoCycle := none }

/-- A port of a running star is powered down, or up where it is OFF (R355, R356). -/
def portPower (ch : Chan) (p : Nat) (on : Bool) (s : State) : State :=
  if !domRun s (starDom ch) then s
  else if on then
    (if (port s ch p).mode = .off then setPortMode ch p .linkDown (portPowerRecord ch p true s) else s)
  else setPortMode ch p .off (onPort ch p (uncounted (followerOf s (.star ch)).cycle) (portPowerRecord ch p false s))

/-- LNK_PORT_POWER (R355). -/
def execLnkPortPower (c : CmdHdr) (ch : Byte) (p : Byte) (on : Byte) (s : State) : Host.Outcome State Fault Refusal :=
  .next (cmdRun c 0x0B03 (formOk c false false true) false [(portArgBad s ch p || decide (1 < on.toNat), .badArg)]
    (fun s => match chanArg ch with
      | some k => finish c 0x0B03 .ok [] [] (portPower k p.toNat (decide (on ≠ 0)) (linkRecord 0x0B03 k p.toNat s))
      | none => s) s)

/-- The unlock of a LOCKED port (R346). -/
def unlockPort (ch : Chan) (p : Nat) (s : State) : State :=
  if (port s ch p).mode = .locked then
    let s := itemStored locksItem (onStore (fun x => { x with lockList := x.lockList.filter (fun k => decide (k ≠ portKey ch p)) }) s)
    setPortMode ch p (if (port s ch p).linkUp then .integrating else .linkDown) (lockRecord ch p false s)
  else s

/-- LNK_PORT_UNLOCK (R346, R440). -/
def execLnkPortUnlock (c : CmdHdr) (ch : Byte) (p : Byte) (s : State) : Host.Outcome State Fault Refusal :=
  .next (cmdRun c 0x0B04 (formOk c false false true) false [(portArgBad s ch p, .badArg)]
    (fun s => match chanArg ch with
      | some k =>
        let s := unlockPort k p.toNat (linkRecord 0x0B04 k p.toNat s)
        finish c 0x0B04 .ok (byte (portCode (port s k p.toNat).mode)) [] s
      | none => s) s)

/-- PORT_STATUS (R337). -/
def portWord (s : State) (ch : Chan) (p : Nat) : Nat :=
  let x := port s ch p
  ofSigned 16 x.txc * 2 ^ 48 + ofSigned 16 (sentDly (asymOf s ch p) x) * 2 ^ 32 + portCode x.mode * 2 ^ 29 + b2n x.seeded * 2 ^ 28 + b2n x.slew.isSome * 2 ^ 27 +
    b2n x.calFault * 2 ^ 26 + min 7 x.vcount * 2 ^ 23 + min 4 (isoHour (tb3Tick s) x) * 2 ^ 20 + min 0xFFFF x.edgeCnt

/-- LNK_PORT_STATUS (R337, R440). -/
def execLnkPortStatus (c : CmdHdr) (ch : Byte) (first : Byte) (count : Byte) (s : State) : Host.Outcome State Fault Refusal :=
  .next (cmdRun c 0x0B05 (formOk c false true (decide (8 * count.toNat ≤ c.dataLen))) false
    [((chanArg ch).isNone || decide (count.toNat < 1) || decide (64 < first.toNat + count.toNat), .badArg)]
    (fun s => match chanArg ch with
      | some k => finish c 0x0B05 .ok [] ((List.range count.toNat).flatMap (fun i => leBytes 8 (portWord s k (first.toNat + i)))) s
      | none => s) s)

/-- DOMAIN_OFF (R45, R476). -/
def domainOffRecord (d code : Nat) (s : State) : State := reportSvc 0x0105 (0xC000 + d) (byte d ++ byte code) [] s

/-- A channel is switched OFF, or on: its domain then takes its place in the release order (R43, R45, R482). -/
def channelPower (ch : Chan) (on : Bool) (s : State) : State :=
  let d := starDom ch
  if on then (if dom s d = .off then domainOffRecord d (domCode .held) (setDom d .held s) else s)
  else if dom s d = .off then s
  else
    let s := if domRun s d then singleChannel ch true s else s
    domainOffRecord d (domCode .off) (setDom d .off (holdDomain d s))

/-- LNK_CHANNEL_POWER (R45, R440). -/
def execLnkChannelPower (c : CmdHdr) (ch : Byte) (on : Byte) (s : State) : Host.Outcome State Fault Refusal :=
  .next (
    let other := match chanArg ch with | some k => domRun s (starDom k.other) | none => false
    cmdRun c 0x0B06 (formOk c false false true) false
      [((chanArg ch).isNone || decide (1 < on.toNat), .badArg), (decide (on = 0) && !other, .deniedMode)]
      (fun s => match chanArg ch with
        | some k => finish c 0x0B06 .ok [] [] (channelPower k (decide (on ≠ 0)) (linkRecord 0x0B06 k 0 s))
        | none => s) s)

/-! ### Cycle-point subscriptions -/

/-- A field is out of its range (R334). -/
def cpSubBad (s : State) (sub en vector : Byte) (off div : W32) : Bool :=
  decide (7 < sub.toNat) || decide (1 < en.toNat) || decide (63 < vector.toNat) || decide (Config.tscanTicks s.tscan ≤ off.toNat) ||
  decide (div.toNat < 1) || decide (65536 < div.toNat)

/-- LNK_CP_SUB (R334, R440). -/
def execLnkCpSub (c : CmdHdr) (sub : Byte) (en : Byte) (vector : Byte) (off : W32) (div : W32) (s : State) :
    Host.Outcome State Fault Refusal :=
  .next (cmdRun c 0x0B07 (formOk c false false true) false [(cpSubBad s sub en vector off div || c.session.isSome, .badArg)]
    (fun s =>
      let k := sub.toNat
      let s := onSched (fun x => { x with
        cpSubs := if en = 0 then smDrop x.cpSubs k else smPut x.cpSubs k (off.toNat, vector.toNat, div.toNat),
        cpSent := smDrop x.cpSent k }) s
      finish c 0x0B07 .ok [] [] s) s)

end Sys2Proof.Machine
end

