-- ==== Sys2Proof/Machine/Log.lean ====
section
/-! DEFINITION. The page commits of the recorder (R468), the LOG commands (R428, R472 to R475, R477, R478) and FRC_LIST (R431). -/

namespace Sys2Proof.Machine

open Sys2Proof

/-- PAGE_COMMIT (R468): a page of a ring is written, and the streams take its records (R428). -/
def execPageCommit (r : RecRing) (s : State) : Host.Outcome State Fault Refusal :=
  .next (if pageDue s r then streamsPump (commitPage r s) else s)

/-- The ring of a RING byte. -/
def ringArg (r : Byte) : RecRing := if r = 0 then .vital else .general

/-- RING is neither 0 nor 1. -/
def ringArgBad (r : Byte) : Bool := decide (1 < r.toNat)

/-- Where a read from a number starts: at the oldest record kept where that number is older (R428). -/
def readStart (s : State) (r : RecRing) (from_ : W32) : W32 :=
  let x := recRing s.mgt.recorder r
  if scnBefore from_ (oldestSeq x) then oldestSeq x else from_

/-- The records from a number on that exist, at most `n`. -/
def recordsFrom (s : State) (r : RecRing) : Nat → W32 → List (List Byte)
  | 0, _ => []
  | n + 1, q =>
    match findRec s.mgt.recorder r q with
    | some (x, held, frozen) => recBytes x held frozen :: recordsFrom s r n (q + 1)
    | none => []

/-- LOG_READ (R428). -/
def execLogRead (c : CmdHdr) (r : Byte) (from_ : W32) (count : BitVec 16) (s : State) : Host.Outcome State Fault Refusal :=
  .next (cmdRun c 0x0300 (formOk c false true (decide (64 * count.toNat ≤ c.dataLen))) false
    [(ringArgBad r || decide (count.toNat < 1) || decide (16384 < count.toNat), .badArg), (nandBusy s 0x0300, .busySelftest)]
    (fun s =>
      let ring := ringArg r
      let start := readStart s ring from_
      let rs := recordsFrom s ring count.toNat start
      let st := if start = from_ then Status.ok else .stale
      finish c 0x0300 st (le4 (start.toNat + rs.length) ++ le2 rs.length ++ le2 0 ++ le4 (wraps (recRing s.mgt.recorder ring))) rs.flatten s) s)

/-- LOG_FREEZE (R428, R472). -/
def execLogFreeze (c : CmdHdr) (s : State) : Host.Outcome State Fault Refusal :=
  .next (cmdRun c 0x0301 (formOk c false false true) false [(s.mgt.recorder.frozen, .notReady)]
    (fun s => finish c 0x0301 .ok (le4 s.mgt.store.freezeS) [] (startFreeze s)) s)

/-- LOG_UNFREEZE (R428, R472). -/
def execLogUnfreeze (c : CmdHdr) (s : State) : Host.Outcome State Fault Refusal :=
  .next (cmdRun c 0x0302 (formOk c false false true) false [(!s.mgt.recorder.frozen, .notReady)]
    (fun s => finish c 0x0302 .ok (le4 s.mgt.recorder.freeze.length) [] (onRec (endFreeze s.clk.tick) s)) s)

/-- Every record of a ring is discarded, committed and held, and the ring-cleared record opens in the vital ring (R462, R475). -/
def clearRing (r : Byte) (s : State) : State :=
  let ring := ringArg r
  let x := recRing s.mgt.recorder ring
  let e := kindReport s .vital 3 0x0801
    (byte r.toNat ++ leBytes 3 0 ++ le4 x.count ++ le4 (oldestSeq x).toNat ++ le4 (x.next - 1).toNat ++ List.replicate 12 0)
  onRec (fun m =>
    let m := setIntake ring [] (setRecRing ring { x with count := 0, overwritten := 0, committed := [] } m)
    openNew s e { m with freeze := m.freeze.filter (fun q => decide (q.ev.ring ≠ ring)) }) s

/-- LOG_CLEAR (R428, R475). -/
def execLogClear (c : CmdHdr) (r : Byte) (s : State) : Host.Outcome State Fault Refusal :=
  .next (cmdRun c 0x0303 (formOk c false false true) false
    [(s.mgt.recorder.frozen, .notReady), (ringArgBad r, .badArg),
     (!switchOn s 1 || (decide (r = 0) && !switchOn s 6), .deniedSeal), (nandBusy s 0x0303, .busySelftest)]
    (fun s => finish c 0x0303 .ok (le4 (recRing s.mgt.recorder (ringArg r)).count) [] (clearRing r s)) s)

/-- LOG_STREAM (R403, R428): the stream begins with what is committed already. -/
def execLogStream (c : CmdHdr) (sr : Byte) (r : Byte) (from_ : W32) (s : State) : Host.Outcome State Fault Refusal :=
  .next (
    let x := ringOf s sr.toNat
    cmdRun c 0x0304 (formOk c false false true) false
      [(x.stream.isSome, .notReady),
       (ringArgBad r || decide (sr = 0) || decide (x.rtype ≠ 4) || decide (x.entrySize ≠ 64) || decide (x.session ≠ c.session), .badArg)]
      (fun s =>
        let start := readStart s (ringArg r) from_
        streamsPump (onRing sr.toNat (fun x => { x with stream := some (r.toNat, start.toNat) }) (finish c 0x0304 .ok (le4 start.toNat) [] s))) s)

/-! ### Health, cycles, belay report -/

/-- Withdrawals of a lane with causes from `lo` to `hi` (R173). -/
def withdrawn (h : LaneHealth) (lo n : Nat) : Nat := ((List.range n).map (fun i => smGet 0 h.withdrawals (lo + i))).sum

/-- The lane health report (R173, R428). -/
def healthBytes (s : State) (l : Lane) : List Byte :=
  let h := (lane s l).health
  withCrc (le4 h.oddValue ++ le4 h.oddLate ++ le4 h.oddSeq ++ le4 h.latent ++ le4 h.resyncStarted ++ le4 h.resyncDone ++
    le4 h.resyncFailed ++ le4 (withdrawn h 1 13) ++ le4 (withdrawn h 0x80 5) ++
    le4 (match h.failedAt with | some p => p.1 | none => 0xFFFFFFFF) ++ le2 (match h.failedAt with | some p => p.2 | none => 0) ++
    byte (laneVoteCode ((voter s).laneVote.get l)) ++ byte h.lastCause ++ le4 h.corrected ++ List.replicate 12 0)

/-- LOG_HEALTH (R428). -/
def execLogHealth (c : CmdHdr) (l : Byte) (s : State) : Host.Outcome State Fault Refusal :=
  .next (cmdRun c 0x0305 (formOk c false true (decide (64 ≤ c.dataLen))) false [((laneArg s l).isNone, .badArg)]
    (fun s => match laneArg s l with
      | some l => finish c 0x0305 .ok [] (healthBytes s l) s
      | none => s) s)

/-- LOG_CYCLES (R428, R477, R478). -/
def execLogCycles (c : CmdHdr) (first : BitVec 16) (count : BitVec 16) (s : State) : Host.Outcome State Fault Refusal :=
  .next (cmdRun c 0x0306 (formOk c false true (decide (4 * count.toNat ≤ c.dataLen))) false
    [(decide (count.toNat < 1) || decide (4096 < first.toNat + count.toNat), .badArg)]
    (fun s =>
      let y := s.mgt.cycles
      finish c 0x0306 .ok (le4 y.persistedOph)
        ((List.range count.toNat).flatMap (fun i => le4 (smGet 0#32 y.counts (first.toNat + i)).toNat)) s) s)

/-- LOG_BELAY (R198, R428). -/
def execLogBelay (c : CmdHdr) (s : State) : Host.Outcome State Fault Refusal :=
  .next (cmdRun c 0x0307 (formOk c false true (decide (64 ≤ c.dataLen))) false [(s.mgt.bist.belayReport.isNone, .notReady)]
    (fun s => match s.mgt.bist.belayReport with
      | some r => finish c 0x0307 .ok [] (belayBytes r) s
      | none => s) s)

/-- FRC_LIST (R431): the FORCE entries of the current export buffer. -/
def execFrcList (c : CmdHdr) (s : State) : Host.Outcome State Fault Refusal :=
  .next (cmdRun c 0x0503 (formOk c false true (decide (8192 ≤ c.dataLen))) false [((currentSnapshot s).isNone, .notReady)]
    (fun s => match currentSnapshot s with
      | some q => finish c 0x0503 .ok (le4 q.scn.toNat ++ le2 q.forces.length) (snapBytes q 0x1000 0x2000) s
      | none => s) s)

end Sys2Proof.Machine
end

