-- ==== Sys2Proof/Machine/Nodes.lean ====
section
/-! DEFINITION. Field nodes: reception and the cycle instant (R301, R302), link states (R303), outputs (R304, R305), upframes
(R306), schedules and announcements (R325, R329), nodes on COMPAT ports (R72, R234, R332). -/

namespace Sys2Proof.Machine

open Sys2Proof

/-! ### Reception (R301) -/

def onNodeChan (k : Nat) (ch : Chan) (f : NodeChan → NodeChan) (s : State) : State :=
  onNode k (fun n => { n with ch := n.ch.set ch (f (n.ch.get ch)) }) s

/-- The channel is in SYNC or ACTIVE. -/
def timed (q : NodeChan) : Bool :=
  match q.mode with
  | .sync | .active => true
  | _ => false

/-- The node is attached to a channel (R273, R300). -/
def attached (n : NodeState) (ch : Chan) : Bool :=
  match ch with
  | .a => n.cfg.chanA
  | .b => n.cfg.chanB

/-- VER of a node's mode (R282, R301). -/
def nodeVer (n : NodeState) : Nat := if n.cfg.compat then 1 else 2

/-- The start of a downframe lies within 1 us of where the node predicts it, with the DLY of its last beacon (R301 row 3). -/
def startPredicted (n : NodeState) (ch : Chan) (start : Nat) : Bool :=
  let at_ := n.ci + 2000 + (n.ch.get ch).dly
  decide (at_ ≤ start + 1000) && decide (start ≤ at_ + 1000)

/-- The class of a frame at a node, by the first row of R301 that fails: its bytes, and its start at the node's MDI in ns. -/
def classify (n : NodeState) (k : Nat) (ch : Chan) (start : Nat) (b : List Byte) : RxClass :=
  if !fcsCorrect b ∨ frameDa b ≠ nodeAddr ch k ∨ frameSa b ≠ starAddr ch k then .ignored
  else if hdrByte b 0 ≠ 16 * nodeVer n + 1 ∨ hdrByte b 2 / 128 ≠ ch.idx ∨ hdrByte b 2 % 64 ≠ k ∨ hdrField b 8 2 ≠ n.cfg.linkId.toNat then .ignored
  else if timed (n.ch.get ch) && (!startPredicted n ch start || decide (hdrField b 4 4 ≠ n.cycle.toNat)) then .ignored
  else if bitN (hdrByte b 1) 7 then .beaconRestr
  else if frameLen b = 20 + 2 * n.cfg.n ∧ field (hdrByte b 1) 3 3 = 0 ∧ bitN (hdrByte b 2) 6 = false ∧
      frameCode b = vitalCode ch (slice b 14 10 ++ framePayload b) then .normal
  else .beaconBad

/-! ### Beacons (R302, R303, R329) -/

/-- The header fields that a node takes from a beacon (R284). -/
structure Beacon where
  cycle : W32
  start : Nat
  echo : Byte
  sched : Nat
  dly : Nat
  txc : Int
  annSched : Nat
  annCnt : Nat
  reint : Bool
  deriving DecidableEq, Repr, Inhabited

/-- The fields of a beacon's bytes. -/
def beaconOf (start : Nat) (b : List Byte) : Beacon :=
  ⟨BitVec.ofNat 32 (hdrField b 4 4), start, BitVec.ofNat 8 (hdrByte b 3), hdrByte b 1 % 8, hdrField b 0x0A 2, signedN 16 (hdrField b 0x0C 2),
   hdrByte b 0x0E / 32, hdrByte b 0x0E % 32, bitN (hdrByte b 0x0F) 4⟩

/-- The link state after a beacon (R303); a COMPAT port's beacon carries no correction (R343). -/
def beaconState (f : Beacon) (compat : Bool) (q : NodeChan) : NodeChan :=
  let q := { q with beacon := true, beaconAt := if q.beacon then q.beaconAt else f.start, dly := f.dly, txc := if compat then 0 else f.txc }
  match q.mode, f.reint with
  | .listen, false => { q with mode := .sync, missed := 0, syncAt := f.cycle }
  | .sync, true => { q with mode := .listen }
  | .sync, false => if f.cycle = q.syncAt + 1 then { q with mode := .active, missed := 0, echoBad := 0, first := true, activeAt := f.cycle } else q
  | .active, true => { q with mode := .listen }
  | .active, false => { q with missed := 0 }
  | _, _ => q

/-- The ECHO row of R303: the USEQ that the node sent in cycle m - 2 comes back in a valid normal downframe of cycle m. -/
def echoCheck (f : Beacon) (q : NodeChan) : NodeChan :=
  if q.mode ≠ .active then q
  else match q.sentUseq.find? (fun p => p.1 = f.cycle - 2) with
    | none => q
    | some p =>
      if f.echo = p.2 then { q with echoBad := 0 }
      else if 64 ≤ q.echoBad + 1 then { q with mode := .listen, echoBad := 0 }
      else { q with echoBad := q.echoBad + 1 }

/-- The node holds a schedule in its table (R329). -/
def holdsSched (n : NodeState) (t : Nat) : Bool := n.cfg.aps.any (fun p => decide (p.1 / 2 = t))

/-- What a beacon announces (R329): the boundary lies at its cycle plus ANN_CNT. -/
def hearAnnouncement (f : Beacon) (n : NodeState) : NodeState :=
  let n := { n with heard := some f.sched, deaf := false }
  if n.cfg.compat then n
  else if f.annCnt = 0 then (if n.confirmed.isSome then n else { n with ack := none, boundary := none })
  else
    let holds := holdsSched n f.annSched
    { n with boundary := some (f.cycle + BitVec.ofNat 32 f.annCnt), ack := if holds then some f.annSched else n.ack,
             confirmed := if f.annCnt = 1 ∧ holds then some f.annSched else n.confirmed }

/-- The node's time by a beacon: the beacon that ends LISTEN gives the cycle; the first of a cycle gives its instant, on channel A while that is in
SYNC or ACTIVE, and on channel B otherwise (R302, R303). -/
def takeInstant (ch : Chan) (f : Beacon) (joins firstOf : Bool) (n : NodeState) : NodeState :=
  let follows := match ch with
    | .a => timed n.ch.a
    | .b => timed n.ch.b && !timed n.ch.a
  let n := if joins && timed (n.ch.get ch) then { n with cycle := f.cycle } else n
  if follows && firstOf then { n with ci := f.start - 2000 - f.dly } else n

/-- All command bits of all elements 0 (R304, R305). -/
def restrOutputs (n : NodeState) : List Byte := List.replicate (2 * n.cfg.n) 0

/-- A beacon at a node (R301 to R303, R329); in COMPAT mode it is applied on receipt (R72, R234, R332). -/
def nodeBeacon (k : Nat) (ch : Chan) (f : Beacon) (payload : List Byte) (c : RxClass) (s : State) : State :=
  let n := node s k
  let q := n.ch.get ch
  let s := onNodeChan k ch (beaconState f n.cfg.compat) s
  let s := if c = .normal then
      onNodeChan k ch (fun x => { echoCheck f x with lastNormal := BitVec.ofNat 8 f.cycle.toNat, rx := if timed q then some payload else none }) s
    else s
  let s := onNode k (fun n => takeInstant ch f (decide (q.mode = .listen)) (!q.beacon) (hearAnnouncement f n)) s
  if !n.cfg.compat then s
  else match c with
    | .normal => onNode k (fun n => { n with outputs := payload, nrestr := false }) s
    | .beaconRestr => onNode k (fun n => { n with outputs := restrOutputs n, nrestr := true }) s
    | _ => s

/-- The bytes of the star's downframe of its present cycle on a port, where there is one. -/
def sentDown (s : State) (ch : Chan) (k : Nat) : Option (List Byte) :=
  if downSent s ch k then (smFind (star s ch).sent k).map (downBytes ch k) else none

/-- NODE_DOWNFRAME_RECEIVE (R301): a frame whose start at the node's MDI was `start`, in ns of REFCLK time, has arrived; `given` none is the one
that the star sent in this cycle. -/
def execNodeDownframeReceive (k : BitVec 6) (ch : Chan) (start : Nat) (given : Option (List Byte)) (s : State) : Host.Outcome State Fault Refusal :=
  .next (
    let i := k.toNat
    let n := node s i
    match (match given with | some b => some b | none => sentDown s ch i) with
    | none => s
    | some b =>
      if attached n ch && decide ((n.ch.get ch).mode ≠ .init) then
        match classify n i ch start b with
        | .ignored => s
        | c => nodeBeacon i ch (beaconOf start b) (framePayload b) c s
      else s)

/-! ### Link states (R303) -/

/-- The end of a cycle on a channel: a cycle without a beacon (R303). -/
def endCycle (q : NodeChan) : NodeChan :=
  if q.ended then q
  else
    let q := { q with ended := true }
    if q.beacon then q
    else match q.mode with
      | .sync => { q with mode := .listen }
      | .active => if q.missed = 0 then { q with missed := 1 } else { q with mode := .listen }
      | _ => q

/-- The node's present cycle is over, within the 100 ns that its instants keep (R300). -/
def cycleOver (s : State) (k : Nat) : Bool := decide ((node s k).ci + 40 * Config.tscanTicks s.tscan ≤ 40 * s.clk.tick + 100)

/-- A node comes up with the configuration it holds: every channel in INIT, its outputs restrictive (R300, R303, R305). -/
def nodeStarts (cfg : NodeCfg) : NodeState := { NodeState.zero with cfg := cfg, outputs := List.replicate (2 * cfg.n) 0, nrestr := true }

/-- NODE_LINK_STATE (R303): the node's power-up or reset, PHY link down, PHY link up, or the end of a cycle. -/
def execNodeLinkState (k : BitVec 6) (ch : Chan) (ev : NodeEvent) (s : State) : Host.Outcome State Fault Refusal :=
  .next (
    let n := node s k.toNat
    match ev with
    | .powerUp cfg => onNode k.toNat (fun _ => nodeStarts cfg) s
    | .down => if attached n ch then onNodeChan k.toNat ch (fun q => { q with mode := .init }) s else s
    | .up => if attached n ch then onNodeChan k.toNat ch (fun q => if q.mode = .init then { q with mode := .listen } else q) s else s
    | .cycleEnd => if attached n ch && cycleOver s k.toNat then onNodeChan k.toNat ch endCycle s else s)

/-! ### Outputs (R304) -/

/-- The outputs that the frames of a cycle give: equal bits as received, each differing bit 0 (R304). -/
def outputDecision (a b : Option (List Byte)) : Option (List Byte) :=
  match a, b with
  | some x, some y => some (List.zipWith (fun p q => p &&& q) x y)
  | some x, none => some x
  | none, y => y

/-- The schedule and the acknowledgement as the next cycle begins (R325, R329). -/
def nextSched (n : NodeState) : NodeState :=
  let c := n.cycle + 1
  let heard := n.heard.getD n.sched
  if n.boundary = some c then
    { n with sched := n.confirmed.getD heard, muted := n.deaf, ack := none, boundary := none, confirmed := none }
  else { n with sched := heard, muted := false }

/-- The node passes into its next cycle. -/
def nextCycle (ns : Nat) (n : NodeState) : NodeState :=
  let clear := fun (q : NodeChan) => { q with beacon := false, rx := none, ended := false }
  let n := nextSched n
  { n with cycle := n.cycle + 1, ci := n.ci + ns, heard := none, deaf := true, ch := n.ch.map clear }

/-- What a node in NATIVE mode applies at a cycle instant: the outputs of the frames that counted, restrictive ones without, or where no channel is in
SYNC or ACTIVE any more (R304). -/
def applyOutputs (n : NodeState) : NodeState :=
  match outputDecision n.ch.a.rx n.ch.b.rx with
  | some p => if timed n.ch.a || timed n.ch.b then { n with outputs := p, nrestr := false } else { n with outputs := restrOutputs n, nrestr := true }
  | none => { n with outputs := restrOutputs n, nrestr := true }

/-- NODE_OUTPUT_APPLY (R304, R306): at CI(m + 1) a node in NATIVE mode applies what it received in cycle m, and one in COMPAT mode has applied it
on receipt. `samples` are its inputs as it samples them in cycle m + 1, at this instant, or in COMPAT mode at cycle point 0 (R332). -/
def execNodeOutputApply (k : BitVec 6) (samples : List Byte) (s : State) : Host.Outcome State Fault Refusal :=
  .next (
    let i := k.toNat
    if ((node s i).cfg.chanA || (node s i).cfg.chanB) && cycleOver s i then
      onNode i (fun n =>
        let n := { n with ch := n.ch.map endCycle }
        let n := if n.cfg.compat then n else applyOutputs n
        if timed n.ch.a || timed n.ch.b then nextCycle (40 * Config.tscanTicks s.tscan) { n with samples := padTo (2 * n.cfg.n) samples }
        else { n with ch := n.ch.map (fun q => { q with beacon := false, rx := none, ended := false }) }) s
    else s)

/-! ### Upframes (R306) -/

/-- The instant of an upframe in ns: CI(k) + AP - DLY + TXC of the schedule that the node uses (R306, R325). -/
def sendAt (n : NodeState) (ch : Chan) : Int :=
  let q := n.ch.get ch
  (n.ci : Int) + smGet 0 n.cfg.aps (2 * n.sched + ch.idx) - q.dly + q.txc

/-- TURN: from the start of this cycle's beacon to the start of the upframe, in ns; 0 without a beacon (R286, R306). -/
def turnOf (n : NodeState) (ch : Chan) : Nat :=
  let q := n.ch.get ch
  if q.beacon then (sendAt n ch - q.beaconAt).toNat % 2 ^ 32 else 0

/-- The upframe of a node's present cycle on a channel (R286). -/
def ownUpframe (n : NodeState) (k : Nat) (ch : Chan) (nfault : Bool) : List Byte :=
  let q := n.ch.get ch
  upFrame ch k (upHeader (nodeVer n) q.first n.ack n.nrestr nfault ch k (q.useq + 1) n.cycle n.cfg.linkId q.lastNormal (turnOf n ch)) n.samples

/-- NODE_UPFRAME_SEND (R306): one upframe a channel and cycle, in ACTIVE only, from the cycle after its entry (R303); none in the
second cycle without a beacon, nor in the cycle of a missed boundary (R329). `nfault` is what the node's own diagnosis finds (R286). -/
def execNodeUpframeSend (k : BitVec 6) (ch : Chan) (nfault : Bool) (s : State) : Host.Outcome State Fault Refusal :=
  .next (
    let n := node s k.toNat
    let q := n.ch.get ch
    if attached n ch && decide (q.mode = .active) && decide (q.activeAt ≠ n.cycle) && !n.muted &&
        (q.beacon || decide (q.missed = 0)) && !(q.sentUseq.any (fun p => p.1 == n.cycle)) &&
        decide (sendAt n ch ≤ 40 * s.clk.tick + 100) then
      onNodeChan k.toNat ch (fun q => { q with useq := q.useq + 1, first := false, sentUseq := ((n.cycle, q.useq + 1) :: q.sentUseq).take 3,
                                               tx := some ((sendAt n ch).toNat, ownUpframe n k.toNat ch nfault) }) s
    else s)

end Sys2Proof.Machine
end

