-- ==== Sys2Proof/Machine/Req.lean ====
section
/-! DEFINITION. The REQ commands (R435 to R439): request bits and words written into MGT's staging copy. -/

namespace Sys2Proof.Machine

open Sys2Proof

/-- A request target: address, COUNT, VALUE. -/
structure ReqTarget where
  addr : Nat
  count : Nat
  value : Nat
  deriving DecidableEq, Repr

/-- The range lies in the request positions (R436). -/
def reqInArea (a n : Nat) : Bool := decide (0x022000 ≤ a) && decide (a + n ≤ 0x029C00)

/-- The declaration of the ADMISSION variable that a position belongs to in the running image (R125). -/
def reqDecl (s : State) (a : Nat) : Option VarDecl := ((runImage s).bind (fun i => declAt i a)).filter (fun v => decide (v.kind = 8))

/-- A position that a target may write: a declared request bit, or a bit of a 16-bit word that the target writes whole. -/
def reqPosOk (s : State) (t : ReqTarget) (a : Nat) : Bool :=
  match reqDecl s a with
  | some v => decide (v.width = 1) || (decide (t.addr = v.addr) && decide (t.count = 16))
  | none => false

/-- A target passes R436. -/
def reqTargetOk (s : State) (t : ReqTarget) : Bool :=
  decide (1 ≤ t.count) && decide (t.count ≤ 16) && reqInArea t.addr t.count && (List.range t.count).all (fun i => reqPosOk s t (t.addr + i))

/-- Two ranges share a position. -/
def rangesMeet (a n b m : Nat) : Bool := decide (a < b + m) && decide (b < a + n)

/-- Two entries of one command overlap. -/
def reqOverlap : List ReqTarget → Bool
  | [] => false
  | t :: r => r.any (fun u => rangesMeet t.addr t.count u.addr u.count) || reqOverlap r

/-- The rows of R436. -/
def reqRows (s : State) (ts : List ReqTarget) : List (Bool × Status) :=
  [(s.mgt.start.bivouac || s.ctl.trip.inForce, .notReady), (!ts.all (reqTargetOk s) || reqOverlap ts, .badArg)]

/-- The positions of a command are written between two snapshots (R437). -/
def reqPut (ts : List ReqTarget) (s : State) : State := ts.foldl (fun s t => admWrite t.count t.addr t.value s) s

/-- A write of any position of a target under pulse ends that pulse (R439). -/
def pulsesEnd (ts : List ReqTarget) (s : State) : State :=
  onMbx (fun m => { m with pulses := m.pulses.filter (fun p => !ts.any (fun t => rangesMeet t.addr t.count p.addr p.count)) }) s

/-- A new pulse of a target; one on the same target restarts its count (R439). -/
def pulseStart (t : ReqTarget) (hold : Nat) (s : State) : State :=
  onMbx (fun m => { m with
    pulses := m.pulses.filter (fun p => !(decide (p.addr = t.addr) && decide (p.count = t.count))) ++ [⟨t.addr, t.count, hold⟩] }) s

/-- With SNAP = 0 the command completes at once, with SNAP = 1 after the snapshot that first carries it (R438). -/
def reqFinish (c : CmdHdr) (op : Nat) (snap : Bool) (s : State) : State :=
  if snap then onMbx (fun m => { m with snapWait := m.snapWait ++ [(refOf c op, none)] }) s
  else finish c op .ok (reqResult (nextCarried s) false) [] s

/-- REQ_WRITE (R435, R436, R437). -/
def execReqWrite (c : CmdHdr) (a : W32) (count : Byte) (flags : Byte) (v : BitVec 16) (s : State) : Host.Outcome State Fault Refusal :=
  .next (
    let ts := [⟨a.toNat, count.toNat, v.toNat⟩]
    cmdRun c 0x0800 (formOk c false false true && decide (flags.toNat < 2)) false (reqRows s ts)
      (fun s => reqFinish c 0x0800 (flags.getLsbD 0) (pulsesEnd ts (reqPut ts s))) s)

/-- REQ_PULSE (R439). -/
def execReqPulse (c : CmdHdr) (a : W32) (count : Byte) (flags : Byte) (v : BitVec 16) (hold : Byte) (s : State) :
    Host.Outcome State Fault Refusal :=
  .next (
    let t : ReqTarget := ⟨a.toNat, count.toNat, v.toNat⟩
    cmdRun c 0x0801 (formOk c false false true && decide (flags.toNat < 2)) false (reqRows s [t] ++ [(decide (hold = 0), .badArg)])
      (fun s => reqFinish c 0x0801 (flags.getLsbD 0) (pulseStart t hold.toNat (reqPut [t] s))) s)

/-- REQ_WRITE_MULTI (R435, R436): one refused entry refuses all. -/
def execReqWriteMulti (c : CmdHdr) (flags : Byte) (es : List (W32 × Byte × BitVec 16)) (s : State) : Host.Outcome State Fault Refusal :=
  .next (
    let ts := es.map (fun e => (⟨e.1.toNat, e.2.1.toNat, e.2.2.toNat⟩ : ReqTarget))
    let n := es.length
    cmdRun c 0x0802 (formOk c true false (decide (c.dataLen = 8 * n)) && decide (flags.toNat < 2)) false
      (reqRows s ts ++ [(decide (n < 1) || decide (512 < n), .badArg)])
      (fun s => reqFinish c 0x0802 (flags.getLsbD 0) (pulsesEnd ts (reqPut ts s))) s)

/-- The scan of the last snapshot that was taken (R435). -/
def lastSnapshot (s : State) : Scn := if s.ctl.adm.taken && !s.ctl.adm.discard then scn s + 1 else scn s

/-- REQ_READ (R435, R436): the staging copy. -/
def execReqRead (c : CmdHdr) (a : W32) (bits : W32) (s : State) : Host.Outcome State Fault Refusal :=
  .next (
    let n := bits.toNat
    cmdRun c 0x0803 (formOk c false true (decide (n / 8 ≤ c.dataLen))) false
      [(s.mgt.start.bivouac || s.ctl.trip.inForce, .notReady),
       (decide (a.toNat % 8 ≠ 0) || decide (n % 8 ≠ 0) || decide (32768 < n) || !reqInArea a.toNat n, .badArg)]
      (fun s => finish c 0x0803 .ok (le4 (lastSnapshot s).toNat)
        ((List.range (n / 8)).map (fun i => BitVec.ofNat 8 (admRead 8 (a.toNat + 8 * i) s.ctl.adm.staging))) s) s)

end Sys2Proof.Machine
end

