-- ==== Sys2Proof/Machine/Dispatch.lean ====
section
/-! DEFINITION. What each command does to everything but the queue: one arm per command, one direct call of its meaning. -/

namespace Sys2Proof.Machine

/-- The effect of a command on the state (the queue aside). -/
def exec (i : Instr) (s : State) : Host.Outcome State Fault Refusal :=
  match i with
  | .nop l e h x => Sys2Proof.Machine.execNop l e h x s
  | .endSeg l e h x => Sys2Proof.Machine.execEndSeg l e h x s
  | .sync l e h x => Sys2Proof.Machine.execSync l e h x s
  | .syncBarrierLeave l => Sys2Proof.Machine.execSyncBarrierLeave l s
  | .ld l e h x => Sys2Proof.Machine.execLd l e h x s
  | .andB l e h x => Sys2Proof.Machine.execAndB l e h x s
  | .orB l e h x => Sys2Proof.Machine.execOrB l e h x s
  | .xorB l e h x => Sys2Proof.Machine.execXorB l e h x s
  | .st l e h x => Sys2Proof.Machine.execSt l e h x s
  | .setB l e h x => Sys2Proof.Machine.execSetB l e h x s
  | .rst l e h x => Sys2Proof.Machine.execRst l e h x s
  | .ldk l e h x => Sys2Proof.Machine.execLdk l e h x s
  | .bro l e h x => Sys2Proof.Machine.execBro l e h x s
  | .bca l e h x => Sys2Proof.Machine.execBca l e h x s
  | .bco l e h x => Sys2Proof.Machine.execBco l e h x s
  | .jmp l e h x => Sys2Proof.Machine.execJmp l e h x s
  | .jc l e h x => Sys2Proof.Machine.execJc l e h x s
  | .ton l e h x => Sys2Proof.Machine.execTon l e h x s
  | .tof l e h x => Sys2Proof.Machine.execTof l e h x s
  | .tp l e h x => Sys2Proof.Machine.execTp l e h x s
  | .ctu l e h x => Sys2Proof.Machine.execCtu l e h x s
  | .ctd l e h x => Sys2Proof.Machine.execCtd l e h x s
  | .ctr l e h x => Sys2Proof.Machine.execCtr l e h x s
  | .edr l e h x => Sys2Proof.Machine.execEdr l e h x s
  | .edf l e h x => Sys2Proof.Machine.execEdf l e h x s
  | .scrubUncorrectable l => Sys2Proof.Machine.execScrubUncorrectable l s
  | .ciMark f net xm => Sys2Proof.Machine.execCiMark f net xm s
  | .admissionSnapshot yCheck laneFail => Sys2Proof.Machine.execAdmissionSnapshot yCheck laneFail s
  | .barrierRelease => Sys2Proof.Machine.execBarrierRelease s
  | .leaseExpiry k => Sys2Proof.Machine.execLeaseExpiry k s
  | .readyWord h l r => Sys2Proof.Machine.execReadyWord h l r s
  | .commitRecord h l r => Sys2Proof.Machine.execCommitRecord h l r s
  | .skewWindowClose h w => Sys2Proof.Machine.execSkewWindowClose h w s
  | .scanDeadline h => Sys2Proof.Machine.execScanDeadline h s
  | .supervisorDigestLate => Sys2Proof.Machine.execSupervisorDigestLate s
  | .exportPublication assembled => Sys2Proof.Machine.execExportPublication assembled s
  | .codeRecord ch l p given => Sys2Proof.Machine.execCodeRecord ch l p given s
  | .syncRecord ch l given => Sys2Proof.Machine.execSyncRecord ch l given s
  | .downframeStart ch p => Sys2Proof.Machine.execDownframeStart ch p s
  | .starUpframe ch p start given => Sys2Proof.Machine.execStarUpframe ch p start given s
  | .upframeRecord l ch p => Sys2Proof.Machine.execUpframeRecord l ch p s
  | .isolationHoldEnd ch p => Sys2Proof.Machine.execIsolationHoldEnd ch p s
  | .starTxGateFault ch p => Sys2Proof.Machine.execStarTxGateFault ch p s
  | .portLinkUp ch p low => Sys2Proof.Machine.execPortLinkUp ch p low s
  | .portLinkDown ch p => Sys2Proof.Machine.execPortLinkDown ch p s
  | .starPortSelftest ch p loopback window => Sys2Proof.Machine.execStarPortSelftest ch p loopback window s
  | .portEnergyDetected ch p => Sys2Proof.Machine.execPortEnergyDetected ch p s
  | .listenTimerExpiry ch l => Sys2Proof.Machine.execListenTimerExpiry ch l s
  | .coldstartFrame ch src start given inProgress => Sys2Proof.Machine.execColdstartFrame ch src start given inProgress s
  | .schedChangeDecision => Sys2Proof.Machine.execSchedChangeDecision s
  | .schedChangeBoundary => Sys2Proof.Machine.execSchedChangeBoundary s
  | .nodeDownframeReceive k ch start given => Sys2Proof.Machine.execNodeDownframeReceive k ch start given s
  | .nodeLinkState k ch ev => Sys2Proof.Machine.execNodeLinkState k ch ev s
  | .nodeOutputApply k samples => Sys2Proof.Machine.execNodeOutputApply k samples s
  | .nodeUpframeSend k ch nfault => Sys2Proof.Machine.execNodeUpframeSend k ch nfault s
  | .resyncIdlePart l => Sys2Proof.Machine.execResyncIdlePart l s
  | .cairnCaptureDone altered => Sys2Proof.Machine.execCairnCaptureDone altered s
  | .belayHealthReport l temp clk given => Sys2Proof.Machine.execBelayHealthReport l temp clk given s
  | .belayReportStale => Sys2Proof.Machine.execBelayReportStale s
  | .cairnLoadDone => Sys2Proof.Machine.execCairnLoadDone s
  | .takeoverDeadline => Sys2Proof.Machine.execTakeoverDeadline s
  | .bistIntervalExpiry => Sys2Proof.Machine.execBistIntervalExpiry s
  | .diversityLostSet => Sys2Proof.Machine.execDiversityLostSet s
  | .diversityAllowanceExpiry => Sys2Proof.Machine.execDiversityAllowanceExpiry s
  | .diversityAllowanceRestore => Sys2Proof.Machine.execDiversityAllowanceRestore s
  | .contactFilterChange c b v n => Sys2Proof.Machine.execContactFilterChange c b v n s
  | .discrepancyExpiry c => Sys2Proof.Machine.execDiscrepancyExpiry c s
  | .vinTestSlot c b last vs => Sys2Proof.Machine.execVinTestSlot c b last vs s
  | .voutReadback k r => Sys2Proof.Machine.execVoutReadback k r s
  | .voutOvercurrent k ma => Sys2Proof.Machine.execVoutOvercurrent k ma s
  | .voutTestWindow k c1 c2 c3 => Sys2Proof.Machine.execVoutTestWindow k c1 c2 c3 s
  | .voutCalibration zero full currents => Sys2Proof.Machine.execVoutCalibration zero full currents s
  | .loopMeasurement ohms => Sys2Proof.Machine.execLoopMeasurement ohms s
  | .switchPoleSample h levels => Sys2Proof.Machine.execSwitchPoleSample h levels s
  | .sealFaultExpiry => Sys2Proof.Machine.execSealFaultExpiry s
  | .vfLowSet v ticks => Sys2Proof.Machine.execVfLowSet v ticks s
  | .vfLowClear v ticks => Sys2Proof.Machine.execVfLowClear v ticks s
  | .supplyCollapseWarning v ticks => Sys2Proof.Machine.execSupplyCollapseWarning v ticks s
  | .starConfirmation ch => Sys2Proof.Machine.execStarConfirmation ch s
  | .starConfirmTimeout => Sys2Proof.Machine.execStarConfirmTimeout s
  | .islandLimitMeasurement i0 q v => Sys2Proof.Machine.execIslandLimitMeasurement i0 q v s
  | .islandLimitClear i0 q j => Sys2Proof.Machine.execIslandLimitClear i0 q j s
  | .bridgeParityFault rx tx again => Sys2Proof.Machine.execBridgeParityFault rx tx again s
  | .resetSourceAssert r => Sys2Proof.Machine.execResetSourceAssert r s
  | .resetSourceRelease r mV ticks rest => Sys2Proof.Machine.execResetSourceRelease r mV ticks rest s
  | .domainRelease strap energyMj => Sys2Proof.Machine.execDomainRelease strap energyMj s
  | .retPor mV => Sys2Proof.Machine.execRetPor mV s
  | .mainPor mV ticks railOut => Sys2Proof.Machine.execMainPor mV ticks railOut s
  | .resetNDebounce level ticks => Sys2Proof.Machine.execResetNDebounce level ticks s
  | .resetNStuck => Sys2Proof.Machine.execResetNStuck s
  | .resetNStuckClear => Sys2Proof.Machine.execResetNStuckClear s
  | .mgtWatchdogExpiry => Sys2Proof.Machine.execMgtWatchdogExpiry s
  | .heartbeatTick => Sys2Proof.Machine.execHeartbeatTick s
  | .startAttemptSuccess => Sys2Proof.Machine.execStartAttemptSuccess s
  | .startTimeout => Sys2Proof.Machine.execStartTimeout s
  | .backoffExpiry => Sys2Proof.Machine.execBackoffExpiry s
  | .holdupStoreCharged => Sys2Proof.Machine.execHoldupStoreCharged s
  | .backupCellMeasure mV => Sys2Proof.Machine.execBackupCellMeasure mV s
  | .inletAirOvertemp t ticks => Sys2Proof.Machine.execInletAirOvertemp t ticks s
  | .tb3WholeHour => Sys2Proof.Machine.execTb3WholeHour s
  | .ptpSync m => Sys2Proof.Machine.execPtpSync m s
  | .ptpFollowUp m => Sys2Proof.Machine.execPtpFollowUp m s
  | .ptpAnnounce m => Sys2Proof.Machine.execPtpAnnounce m s
  | .ptpDelayResp m => Sys2Proof.Machine.execPtpDelayResp m s
  | .ptpPdelayReq m => Sys2Proof.Machine.execPtpPdelayReq m s
  | .ptpPdelayResp m => Sys2Proof.Machine.execPtpPdelayResp m s
  | .syncTimeout sec => Sys2Proof.Machine.execSyncTimeout sec s
  | .announceTimeout sec => Sys2Proof.Machine.execAnnounceTimeout sec s
  | .primaryRevert => Sys2Proof.Machine.execPrimaryRevert s
  | .holdoverExpiry => Sys2Proof.Machine.execHoldoverExpiry s
  | .slewComplete => Sys2Proof.Machine.execSlewComplete s
  | .timeMapRecord => Sys2Proof.Machine.execTimeMapRecord s
  | .boundaryTelegramReceive p frame => Sys2Proof.Machine.execBoundaryTelegramReceive p frame s
  | .boundaryTelegramSend p => Sys2Proof.Machine.execBoundaryTelegramSend p s
  | .cyclePointMessage i0 => Sys2Proof.Machine.execCyclePointMessage i0 s
  | .mbxEnable => Sys2Proof.Machine.execMbxEnable s
  | .mbxReset => Sys2Proof.Machine.execMbxReset s
  | .doorbell r i0 => Sys2Proof.Machine.execDoorbell r i0 s
  | .expStatusRead => Sys2Proof.Machine.execExpStatusRead s
  | .timeLatch => Sys2Proof.Machine.execTimeLatch s
  | .registerWrite off v => Sys2Proof.Machine.execRegisterWrite off v s
  | .commandFetch r session d => Sys2Proof.Machine.execCommandFetch r session d s
  | .completionPost => Sys2Proof.Machine.execCompletionPost s
  | .eventPost => Sys2Proof.Machine.execEventPost s
  | .interruptCoalesceExpiry r => Sys2Proof.Machine.execInterruptCoalesceExpiry r s
  | .dtlsHandshake port peer chain => Sys2Proof.Machine.execDtlsHandshake port peer chain s
  | .dtlsCmdDatagram sn r index ds => Sys2Proof.Machine.execDtlsCmdDatagram sn r index ds s
  | .dtlsCplAck sn r index => Sys2Proof.Machine.execDtlsCplAck sn r index s
  | .dtlsKeepalive sn => Sys2Proof.Machine.execDtlsKeepalive sn s
  | .dtlsRetransmit sn r => Sys2Proof.Machine.execDtlsRetransmit sn r s
  | .dtlsIdleTimeout sn => Sys2Proof.Machine.execDtlsIdleTimeout sn s
  | .exportStreamSend sub => Sys2Proof.Machine.execExportStreamSend sub s
  | .mgtSnapshotEval => Sys2Proof.Machine.execMgtSnapshotEval s
  | .forceTimeout slot => Sys2Proof.Machine.execForceTimeout slot s
  | .olcSwapBoundary => Sys2Proof.Machine.execOlcSwapBoundary s
  | .stagingTransferDone target => Sys2Proof.Machine.execStagingTransferDone target s
  | .recordIntake => Sys2Proof.Machine.execRecordIntake s
  | .coalesceWindowExpiry r => Sys2Proof.Machine.execCoalesceWindowExpiry r s
  | .pageCommit r => Sys2Proof.Machine.execPageCommit r s
  | .freezeExpiry => Sys2Proof.Machine.execFreezeExpiry s
  | .logFreezeBit => Sys2Proof.Machine.execLogFreezeBit s
  | .logUnfreezeBit => Sys2Proof.Machine.execLogUnfreezeBit s
  | .logCursorWrite ctrl v => Sys2Proof.Machine.execLogCursorWrite ctrl v s
  | .logWinLoadDone => Sys2Proof.Machine.execLogWinLoadDone s
  | .logWinAutoRead => Sys2Proof.Machine.execLogWinAutoRead s
  | .cvuEnableWrite u v => Sys2Proof.Machine.execCvuEnableWrite u v s
  | .cvuOpenWrite u => Sys2Proof.Machine.execCvuOpenWrite u s
  | .cvuCloseWrite u bytes => Sys2Proof.Machine.execCvuCloseWrite u bytes s
  | .cvuResultAckWrite u v => Sys2Proof.Machine.execCvuResultAckWrite u v s
  | .cvuWindowClose u bytes => Sys2Proof.Machine.execCvuWindowClose u bytes s
  | .cvuUnitTest u => Sys2Proof.Machine.execCvuUnitTest u s
  | .updBankStep readBackOk => Sys2Proof.Machine.execUpdBankStep readBackOk s
  | .mgtBankSwap confirms => Sys2Proof.Machine.execMgtBankSwap confirms s
  | .starStepTimeout ch => Sys2Proof.Machine.execStarStepTimeout ch s
  | .vioFirmwareSwap => Sys2Proof.Machine.execVioFirmwareSwap s
  | .voterMicrocodeSwap => Sys2Proof.Machine.execVoterMicrocodeSwap s
  | .romBlockGo index crc block => Sys2Proof.Machine.execRomBlockGo index crc block s
  | .recoveryDatagram index crc block => Sys2Proof.Machine.execRecoveryDatagram index crc block s
  | .shutdownBistDone => Sys2Proof.Machine.execShutdownBistDone s
  | .laneTestDone l found => Sys2Proof.Machine.execLaneTestDone l found s
  | .belayTestStep step => Sys2Proof.Machine.execBelayTestStep step s
  | .nandScrubRegion region done => Sys2Proof.Machine.execNandScrubRegion region done s
  | .fuseBurnDone unburnt again => Sys2Proof.Machine.execFuseBurnDone unburnt again s
  | .sysResetAssert => Sys2Proof.Machine.execSysResetAssert s
  | .sysNop c echo => Sys2Proof.Machine.execSysNop c echo s
  | .sysRegRead c off count => Sys2Proof.Machine.execSysRegRead c off count s
  | .sysRingCreate c q => Sys2Proof.Machine.execSysRingCreate c q s
  | .sysRingDestroy c r => Sys2Proof.Machine.execSysRingDestroy c r s
  | .sysShutdown c flags => Sys2Proof.Machine.execSysShutdown c flags s
  | .sysStart c => Sys2Proof.Machine.execSysStart c s
  | .sysReset c => Sys2Proof.Machine.execSysReset c s
  | .sysCtrlReset c => Sys2Proof.Machine.execSysCtrlReset c s
  | .sysTrip c => Sys2Proof.Machine.execSysTrip c s
  | .sysBlockReset c t => Sys2Proof.Machine.execSysBlockReset c t s
  | .cfgWrite c block data => Sys2Proof.Machine.execCfgWrite c block data s
  | .cfgRead c block => Sys2Proof.Machine.execCfgRead c block s
  | .cfgSet c id v => Sys2Proof.Machine.execCfgSet c id v s
  | .cfgGet c id => Sys2Proof.Machine.execCfgGet c id s
  | .cfgKeyRemove c i0 => Sys2Proof.Machine.execCfgKeyRemove c i0 s
  | .timLatch c => Sys2Proof.Machine.execTimLatch c s
  | .timMap c => Sys2Proof.Machine.execTimMap c s
  | .timPtp c => Sys2Proof.Machine.execTimPtp c s
  | .logRead c r from_ count => Sys2Proof.Machine.execLogRead c r from_ count s
  | .logFreeze c => Sys2Proof.Machine.execLogFreeze c s
  | .logUnfreeze c => Sys2Proof.Machine.execLogUnfreeze c s
  | .logClear c r => Sys2Proof.Machine.execLogClear c r s
  | .logStream c sr r from_ => Sys2Proof.Machine.execLogStream c sr r from_ s
  | .logHealth c l => Sys2Proof.Machine.execLogHealth c l s
  | .logCycles c first count => Sys2Proof.Machine.execLogCycles c first count s
  | .logBelay c => Sys2Proof.Machine.execLogBelay c s
  | .cvuConfig c q => Sys2Proof.Machine.execCvuConfig c q s
  | .cvuRead c u => Sys2Proof.Machine.execCvuRead c u s
  | .cvuReadAck c u seq => Sys2Proof.Machine.execCvuReadAck c u seq s
  | .cvuTrigger c u action bytes => Sys2Proof.Machine.execCvuTrigger c u action bytes s
  | .cvuDisable c u => Sys2Proof.Machine.execCvuDisable c u s
  | .frcSet c id v => Sys2Proof.Machine.execFrcSet c id v s
  | .frcClear c id => Sys2Proof.Machine.execFrcClear c id s
  | .frcClearAll c => Sys2Proof.Machine.execFrcClearAll c s
  | .frcList c => Sys2Proof.Machine.execFrcList c s
  | .olcLoadBegin c target len crc => Sys2Proof.Machine.execOlcLoadBegin c target len crc s
  | .olcLoadData c off data => Sys2Proof.Machine.execOlcLoadData c off data s
  | .olcLoadEnd c => Sys2Proof.Machine.execOlcLoadEnd c s
  | .olcSwap c w => Sys2Proof.Machine.execOlcSwap c w s
  | .olcCancel c => Sys2Proof.Machine.execOlcCancel c s
  | .olcDiscard c => Sys2Proof.Machine.execOlcDiscard c s
  | .olcStatus c => Sys2Proof.Machine.execOlcStatus c s
  | .updBegin c pkg blocks => Sys2Proof.Machine.execUpdBegin c pkg blocks s
  | .updBlock c index crc data => Sys2Proof.Machine.execUpdBlock c index crc data s
  | .updBitmap c first count => Sys2Proof.Machine.execUpdBitmap c first count s
  | .updVerify c => Sys2Proof.Machine.execUpdVerify c s
  | .updActivate c => Sys2Proof.Machine.execUpdActivate c s
  | .updAbort c => Sys2Proof.Machine.execUpdAbort c s
  | .updCommit c fuseOk => Sys2Proof.Machine.execUpdCommit c fuseOk s
  | .updRevert c => Sys2Proof.Machine.execUpdRevert c s
  | .updStatus c => Sys2Proof.Machine.execUpdStatus c s
  | .reqWrite c a count flags v => Sys2Proof.Machine.execReqWrite c a count flags v s
  | .reqPulse c a count flags v hold => Sys2Proof.Machine.execReqPulse c a count flags v hold s
  | .reqWriteMulti c flags es => Sys2Proof.Machine.execReqWriteMulti c flags es s
  | .reqRead c a bits => Sys2Proof.Machine.execReqRead c a bits s
  | .lnkCfgWrite c block data => Sys2Proof.Machine.execLnkCfgWrite c block data s
  | .lnkCfgRead c block => Sys2Proof.Machine.execLnkCfgRead c block s
  | .lnkSchedChange c t => Sys2Proof.Machine.execLnkSchedChange c t s
  | .lnkPortPower c ch p on => Sys2Proof.Machine.execLnkPortPower c ch p on s
  | .lnkPortUnlock c ch p => Sys2Proof.Machine.execLnkPortUnlock c ch p s
  | .lnkPortStatus c ch first count => Sys2Proof.Machine.execLnkPortStatus c ch first count s
  | .lnkChannelPower c ch on => Sys2Proof.Machine.execLnkChannelPower c ch on s
  | .lnkCpSub c sub en vector off div => Sys2Proof.Machine.execLnkCpSub c sub en vector off div s
  | .expSubscribe c q => Sys2Proof.Machine.execExpSubscribe c q s
  | .expUnsubscribe c sub => Sys2Proof.Machine.execExpUnsubscribe c sub s
  | .expList c => Sys2Proof.Machine.execExpList c s
  | .expRead c off len => Sys2Proof.Machine.execExpRead c off len s
  | .tstRotate c l => Sys2Proof.Machine.execTstRotate c l s
  | .tstStatus c => Sys2Proof.Machine.execTstStatus c s
  | .tstFuseRepair c l => Sys2Proof.Machine.execTstFuseRepair c l s
  | .tstShutdownRecord c => Sys2Proof.Machine.execTstShutdownRecord c s
  | .dbgAttach c l => Sys2Proof.Machine.execDbgAttach c l s
  | .dbgDetach c => Sys2Proof.Machine.execDbgDetach c s
  | .dbgHalt c => Sys2Proof.Machine.execDbgHalt c s
  | .dbgResume c => Sys2Proof.Machine.execDbgResume c s
  | .dbgRead c space a len => Sys2Proof.Machine.execDbgRead c space a len s
  | .dbgWrite c space a data => Sys2Proof.Machine.execDbgWrite c space a data s
  | .illegalOpcode l e h => Sys2Proof.Machine.execIllegalOpcode l e h s
  | .netLinkChange port up ingress egress => Sys2Proof.Machine.execNetLinkChange port up ingress egress s
  | .perstN => Sys2Proof.Machine.execPerstN s
  | .dtlsAlert sn => Sys2Proof.Machine.execDtlsAlert sn s
  | .delayReqSend port sec p2p => Sys2Proof.Machine.execDelayReqSend port sec p2p s
  | .arpIcmpEcho port frame => Sys2Proof.Machine.execArpIcmpEcho port frame s
  | .mgtBootComplete bankOk otherOk => Sys2Proof.Machine.execMgtBootComplete bankOk otherOk s
  | .startLoadComplete componentsOk => Sys2Proof.Machine.execStartLoadComplete componentsOk s
  | .dieBistDone block found => Sys2Proof.Machine.execDieBistDone block found s
  | .mbxResetDone => Sys2Proof.Machine.execMbxResetDone s
  | .portDownDegraded ch p => Sys2Proof.Machine.execPortDownDegraded ch p s
  | .supplyRecovery v ticks => Sys2Proof.Machine.execSupplyRecovery v ticks s

end Sys2Proof.Machine
end

