-- ==== Sys2Proof/Machine/Tick.lean ====
section
/-! DEFINITION. One REFCLK tick: TB1 and TB3 count it, and the local clock TB0 advances by it, and the rope carries what is
under way (R195, R357 to R360, R365). -/

namespace Sys2Proof.Machine

open Sys2Proof

/-- Main power is present, REFCLK lies inside its limit, and its ticks are counted (R40, R360, R479). -/
def counting (s : State) : Bool :=
  !(s.power.sources.contains .mainPor || s.power.sources.contains .retPor || s.power.refclkHeld)

/-- The slew's part of one tick in units of 2^-40 ns: 10 us/s (R365). -/
def slewStep (t : TimeState) : Int :=
  match t.slew with
  | none => 0
  | some d => if d < 0 then -439804651 else 439804651

/-- The local clock after one REFCLK tick, 20 ticks of the 500 MHz reference (R358, R359, R365). -/
def tb0Tick (t : TimeState) : TimeState :=
  let r := t.resid + 40 * t.freq + slewStep t
  let adv := (40 * 65536 + r / 16777216).toNat
  { t with tb0 := t.tb0 + (adv - min adv t.hold), hold := t.hold - min adv t.hold, resid := r % 16777216 }

/-- How far the phase of a mark lies from its target, in units of 2^-16 ns, in the shorter direction (R370). `tb0` is the local clock's
reading at the mark. -/
def phaseError (per phase tb0 : Nat) : Int :=
  let p := per * 65536
  let r := (tb0 + p - phase * 65536 % p) % p
  if 2 * r ≤ p then (r : Int) else (r : Int) - (p : Nat)

/-- NET's mark falls due: the next follows one T_scan of the local clock later, moved towards station time by at most 10 us/s, and
CI_SETTLED says whether the phase lies within 20 ns of its target (R32, R358, R369, R370). -/
def markIssue (per phase refNow : Nat) (t : TimeState) : TimeState :=
  match t.ciNext with
  | none => t
  | some m =>
    if refNow < m then t
    else
      let len : Int := per * 65536 - per * 65536 * t.freq / 1099511627776
      let e := phaseError per phase (t.tb0 - (refNow - m))
      let lim : Int := (per * 65536 / 100000 : Nat)
      let move := if t.valid then clampI (-e) (-lim) lim else 0
      { t with ciMark := some m, ciNext := some ((m : Int) + len + move).toNat,
               settled := t.valid && decide (-1310720 ≤ e) && decide (e ≤ 1310720) }

/-- NET takes the running phase from the marks in use: voter half X's, or with none its own from now on (R32). -/
def markAdopt (per refNow : Nat) (x : FollowerState) (xRuns : Bool) (t : TimeState) : TimeState :=
  match t.ciNext with
  | some _ => t
  | none =>
    if x.seen then { t with ciNext := some ((x.ciNs + per) * 65536) }
    else if xRuns then t else { t with ciNext := some (refNow + per * 65536) }

/-- The cycle-instant marks of NET after one tick. -/
def netMarks (s : State) : State :=
  let per := tscanNs s
  let now := 40 * 65536 * s.clk.tick
  let phase := match s.data.net.cfg with | some c => c.ciPhase | none => 0
  onTime (fun t => markIssue per phase now (markAdopt per now s.ctl.followers.x (domRun s 5) t)) s

/-- The copies of this scan's idle parts that still occupy a path of the rope, of lanes brought up for a planned transfer or of any other (R195). -/
def copiesOn (s : State) (planned : Bool) : Nat :=
  (Lane.list.filter (fun l =>
    (match (voter s).copyEnd.get l with | some t => decide (s.clk.tick < t) | none => false) &&
    ((match (voter s).join with | some j => decide (j.lane = l) && decide (j.why ≠ .takeover) | none => false) == planned))).length

/-- A cairn is being loaded into a lane (R200). -/
def loadOn (s : State) : Bool :=
  (match (voter s).join with | some j => decide (j.step = .loading) | none => false) && (voter s).cairn.isSome

/-- What the rope carries in a tick, 160 bytes a path: a cairn load has a path unless two transfers of priority 1 or 2 hold both, a cairn
capture unless two of any higher priority do (R195). -/
def ropeTick (s : State) : State :=
  if (voter s).join.isNone && (voter s).capture.isNone then s
  else
    let first := copiesOn s false
    let load := loadOn s && decide (first < 2)
    let capture := decide (first + b2n (loadOn s) + copiesOn s true < 2)
    onVoter (fun v => { v with join := if load then v.join.map (fun j => { j with sent := j.sent + 160 }) else v.join,
                               capture := if capture then v.capture.map (fun c => { c with sent := c.sent + 160 }) else v.capture }) s

/-- TB1 and TB3 after one tick: TB3's fraction wraps at a whole hour, which MGT then writes (R360). -/
def clkTick (c : ClockState) : ClockState :=
  if c.tb3Ticks + 1 < Config.hourTicks then { c with tick := c.tick + 1, tb3Ticks := c.tb3Ticks + 1 }
  else { c with tick := c.tick + 1, tb3Ticks := 0, hoursPending := min 15 (c.hoursPending + 1) }

/-- What passes when no command waits: one REFCLK tick (log entry 8). A trip that waited for its 12 us settles in its tick (R233). -/
def idleTick (s : State) : State :=
  if counting s then
    let s := ropeTick (onClk clkTick s)
    tripSettle (if domRun s 2 then netMarks (onTime tb0Tick s) else s)
  else s

end Sys2Proof.Machine
end

