-- ==== Sys2Proof/Safety.lean ====
section
/-! DEFINITION. What a safe state is: while a trip is in force no VOUT and not MODULE_ALIVE is driven (R232). -/

namespace Sys2Proof

open Sys2Proof.Machine

/-- Nothing drives the output. -/
def VoutDead (v : VoutState) : Prop := v.commanded = false ∧ v.gate = false ∧ v.xTrain = false ∧ v.yTrain = false

/-- A trip in force leaves every output without drive (R232). -/
def TripSafe (s : State) : Prop :=
  s.ctl.trip.inForce = true → ∀ p ∈ s.ctl.vio.vout, VoutDead p.2

end Sys2Proof
end

