-- ==== Sys2Proof/Certificates/Slice0/Obligations.lean ====
section
/-! DEFINITION. The statements for the provers. Each def Obligations.<Name> is one statement about the model; the helpers that the
statements share stand under Sys2Proof.Claims. -/

namespace Sys2Proof.Claims

open Sys2Proof.Machine

/-- What command `c` leaves: the next state, or nothing where it stops. -/
def after (c : Instr) (s : State) : Option State :=
  match exec c s with
  | .next t => some t
  | _ => none

end Sys2Proof.Claims

section

open Sys2Proof Sys2Proof.Machine Sys2Proof.Claims

/-! ### Steps, and what holds of every command -/

/-- Every command has an effect: no command faults and none is refused, in any state. -/
def Obligations.EveryCommandCompletes : Prop := ∀ (c : Instr) (s : State), ∃ t, exec c s = .next t

/-- A step with command `c` at the front of the queue is `exec` of `c` with the queue's rest. -/
def Obligations.StepRunsFrontCommand : Prop :=
  ∀ (c : Instr) (s : State), step { s with pending := c :: s.pending } = exec c s

/-- With no command waiting a step lets one REFCLK tick of 40 ns pass where REFCLK is counted, and nothing otherwise (DESIGN CHOICE, log
entry 8; R360): TB1, TB3 and, where NET runs, the local clock and its marks move on. Where no trip waits to settle (R233) and the rope carries
nothing (R195) nothing else changes. -/
def Obligations.IdleStepPassesOneTick : Prop :=
  ∀ (s : State), s.pending = [] →
    (counting s = false → step s = .next s) ∧
    (counting s = true → (s.ctl.trip.inForce = false ∨ s.ctl.trip.recorded = true) → ∃ t, step s = .next t ∧
      t.mgt = s.mgt ∧ t.power = s.power ∧ t.ret = s.ret ∧ t.tscan = s.tscan ∧ t.variant = s.variant ∧ t.free = s.free ∧
      t.pending = [] ∧ t.data = { s.data with time := t.data.time } ∧
      ((voter s).join = none → (voter s).capture = none → t.ctl = s.ctl) ∧
      tb1 t = tb1 s + 40 ∧ t.clk.tb2 = s.clk.tb2 ∧
      (s.clk.hoursPending < 15 → s.clk.tb3Ticks < Config.hourTicks → tb3Tick t = tb3Tick s + 1) ∧
      (domRun s 2 = false → t.data = s.data))

/-- R43, R488: a command leaves the queue of waiting commands and the product variant as they are, in every state: the queue is the step's. -/
def Obligations.CommandsLeaveTheQueue : Prop :=
  ∀ (c : Instr) (s t : State), exec c s = .next t → t.pending = s.pending ∧ t.variant = s.variant

/-- After reset no trip is in force, so nothing has to be kept without drive, and nothing is driven (R232, R495). -/
def Obligations.ResetIsTripSafe : Prop := TripSafe State.reset ∧ State.reset.ctl.trip.inForce = false ∧ State.reset.ctl.vio.vout = []

/-- R232, R233: in every state in which a trip in force has left no output and not MODULE_ALIVE with a command, a gate or a train, every step keeps it so: while a trip is in
force nothing is driven, whatever command comes. -/
def Obligations.TripsKeepEveryOutputDead : Prop :=
  ∀ (s t : State), TripSafe s → step s = .next t → TripSafe t

/-- R391, R450, R479: after reset every domain but PD0 is held with MAIN_POR asserted, no command waits, the module is in bivouac with no voter half running, no export is valid, MBX_EN, ALERT,
ALERT_EN and SCRATCH read 0, and every check-value unit reads 0 throughout. -/
def Obligations.ResetHoldsTheModule : Prop :=
  dom State.reset 0 = .run ∧ (∀ d, d ≠ 0 → dom State.reset d = .held) ∧ State.reset.power.sources = [.mainPor] ∧
  State.reset.pending = [] ∧ State.reset.mgt.start.bivouac = true ∧ (voter State.reset).running = false ∧
  State.reset.mgt.exp.valid = false ∧ (∀ o ∈ [0x50, 0x54, 0x100, 0x11C, 0x120, 0x124], regRead State.reset o = 0) ∧
  (∀ u o : Nat, u < 16 → o < 0x40 → regRead State.reset (0x1000 + 0x40 * u + o) = 0)

/-! ### The engines (R76 to R109) -/

/-- Engine `e` of lane `l` fetches the word `w` of opcode `opc` and fields `x` before the deadline of the scan (R58), and the memories report nothing (R80, R81). `last`
is the word address of its segment's END. -/
def Sys2Proof.Claims.Fetches (s : State) (l : Lane) (e : BitVec 5) (h : Hw) (x : EngArg) (opc : Nat) (w : W32) (last : Nat) : Prop :=
  (lane s l).core.phase = .evaluating ∧ (engine (lane s l).core e.toNat).run = .running ∧ s.clk.tick < deadlineTick s ∧ h = .ok ∧
  fetchWord (lane s l).core e.toNat (engine (lane s l).core e.toNat) = .word w last ∧ opcodeOf w = opc ∧ argOf w = x

/-- The state with engine `e` of lane `l` replaced by `g`, and the lane's core changed by `f` beside it. -/
def Sys2Proof.Claims.engTo (l : Lane) (e : BitVec 5) (g : Engine) (f : LaneCore → LaneCore) (s : State) : State :=
  onLane l (fun st => { st with core := setEngine e.toNat g (f st.core) }) s

/-- The value that a bit instruction of engine `e` reads: V[a] xor N, V[a] as the engine sees it in its phase (R90, R93). -/
def Sys2Proof.Claims.operandBit (s : State) (l : Lane) (e : BitVec 5) (x : EngArg) : Bool :=
  xor (engBit (lane s l).core e.toNat x.opd.toNat) x.n

/-- R93, R88: LD, AND, OR, XOR and LDK put their result into ACC, take one cycle, go on with the next word and change nothing else. -/
def Sys2Proof.Claims.BitReadsSetAcc : Prop :=
  ∀ (s : State) (l : Lane) (e : BitVec 5) (h : Hw) (x : EngArg) (w : W32) (last : Nat), modOk x = true →
    let g := engine (lane s l).core e.toNat
    let v := operandBit s l e x
    let done := fun (b : Bool) => Host.Outcome.next (φ := Fault) (ρ := Refusal)
      (engTo l e { g with acc := b, pc := g.pc + 1, cycles := g.cycles + 1 } (fun c => c) s)
    (engReadable x.opd.toNat = true →
      (Fetches s l e h x 0x04 w last → exec (.ld l e h x) s = done v) ∧
      (Fetches s l e h x 0x05 w last → exec (.andB l e h x) s = done (g.acc && v)) ∧
      (Fetches s l e h x 0x06 w last → exec (.orB l e h x) s = done (g.acc || v)) ∧
      (Fetches s l e h x 0x07 w last → exec (.xorB l e h x) s = done (xor g.acc v))) ∧
    (x.opd = 0#22 → Fetches s l e h x 0x0B w last → exec (.ldk l e h x) s = done x.n)

/-- R93, R88, R90: ST, SET and RST write the one bit that OPD names, for the engine itself at once and for the others from the next phase on;
ACC stays, one cycle passes and nothing else changes. -/
def Sys2Proof.Claims.BitWritesStoreOneBit : Prop :=
  ∀ (s : State) (l : Lane) (e : BitVec 5) (h : Hw) (x : EngArg) (w : W32) (last : Nat), modOk x = true →
    engReadable x.opd.toNat = true → engWritable x.opd.toNat = true →
    let g := engine (lane s l).core e.toNat
    let a := x.opd.toNat
    let v := engBit (lane s l).core e.toNat a
    let done := fun (b : Bool) => Host.Outcome.next (φ := Fault) (ρ := Refusal)
      (engTo l e { g with pc := g.pc + 1, cycles := g.cycles + 1 } (putEngBit e.toNat a b) s)
    (Fetches s l e h x 0x08 w last → exec (.st l e h x) s = done (xor g.acc x.n)) ∧
    (Fetches s l e h x 0x09 w last → exec (.setB l e h x) s = done (xor g.acc x.n || v)) ∧
    (Fetches s l e h x 0x0A w last → exec (.rst l e h x) s = done (!(xor g.acc x.n) && v))

/-- A bit that a write-class instruction stored reads as stored in its own engine, every other bit as before, and another engine reads what it
read; at the end of a phase in which one engine wrote, all read its bit (R90, R93, R113). -/
def Sys2Proof.Claims.StoredBitReadsBack : Prop :=
  (∀ (m : SMap W64) (a k : Nat) (b : Bool), varBit (setVarBit a b m) k = if k = a then b else varBit m k) ∧
  (∀ (c : LaneCore) (e j a k : Nat) (b : Bool), engBit (putEngBit e a b c) e k = (if k = a then b else engBit c e k) ∧
    (j ≠ e → engBit (putEngBit e a b c) j k = engBit c j k)) ∧
  (∀ (c : LaneCore) (e j a : Nat) (b : Bool), c.writes = [] → engBit (phaseEnds (putEngBit e a b c)) j a = b)

/-- R94, R96, R104: BRO, BCA, BCO, NOP, JMP and JC: the branch stack, ACC and the PC after them; nothing else changes. -/
def Obligations.BranchesAndJumps : Prop :=
  ∀ (s : State) (l : Lane) (e : BitVec 5) (h : Hw) (x : EngArg) (w : W32) (last : Nat), modOk x = true →
    let g := engine (lane s l).core e.toNat
    let done := fun (q : Engine) => Host.Outcome.next (φ := Fault) (ρ := Refusal) (engTo l e q (fun c => c) s)
    (x.n = false → x.opd = 0#22 →
      (Fetches s l e h x 0x01 w last → exec (.nop l e h x) s = done { g with pc := g.pc + 1, cycles := g.cycles + 1 }) ∧
      (g.bsd < 16 → Fetches s l e h x 0x0C w last → exec (.bro l e h x) s =
        done { g with stack := setBit g.stack g.bsd g.acc, bsd := g.bsd + 1, pc := g.pc + 1, cycles := g.cycles + 1 })) ∧
    (x.opd = 0#22 → 0 < g.bsd →
      (Fetches s l e h x 0x0D w last → exec (.bca l e h x) s =
        done { g with acc := g.stack.getLsbD (g.bsd - 1) && (xor g.acc x.n), bsd := g.bsd - 1, pc := g.pc + 1, cycles := g.cycles + 1 }) ∧
      (Fetches s l e h x 0x0E w last → exec (.bco l e h x) s =
        done { g with acc := g.stack.getLsbD (g.bsd - 1) || (xor g.acc x.n), bsd := g.bsd - 1, pc := g.pc + 1, cycles := g.cycles + 1 })) ∧
    (g.pc + 1 + x.opd.toNat ≤ last →
      (x.n = false → Fetches s l e h x 0x10 w last → exec (.jmp l e h x) s =
        done { g with pc := g.pc + 1 + x.opd.toNat, cycles := g.cycles + 2 }) ∧
      (Fetches s l e h x 0x11 w last → exec (.jc l e h x) s =
        done (if xor g.acc x.n then { g with pc := g.pc + 1 + x.opd.toNat, cycles := g.cycles + 2 }
              else { g with pc := g.pc + 1, cycles := g.cycles + 1 })))

/-- R98, R101, R102: a timer, counter or edge instruction on a declared unit changes that unit as its rule says, puts the unit's
output xor N into ACC and takes its cycles; nothing else changes (but a carried preset that the timer drops, R258). -/
def Sys2Proof.Claims.UnitInstructionsRun : Prop :=
  ∀ (s : State) (l : Lane) (e : BitVec 5) (h : Hw) (x : EngArg) (w : W32) (last : Nat) (i : Image),
    (lane s l).core.active = some i → x.m3 = false →
    let st := lane s l
    let g := engine st.core e.toNat
    let acc := fun (n : Nat) (b : Bool) => { g with acc := xor b x.n, pc := g.pc + 1, cycles := g.cycles + n }
    let timed := fun (d : TimerDecl) (t : TimerState) => Host.Outcome.next (φ := Fault) (ρ := Refusal)
      (onLane l (fun q => { q with presets := if t.run then q.presets else smDrop q.presets d.index })
        (engTo l e (acc 4 t.q) (fun c => { c with timers := smSet TimerState.zero c.timers d.index t }) s))
    let counted := fun (d : CounterDecl) (c : CounterState) => Host.Outcome.next (φ := Fault) (ρ := Refusal)
      (engTo l e (acc 4 (counterCmp x.cmp c.cv (BitVec.ofNat 32 d.pv)))
        (fun q => { q with counters := smSet CounterState.zero q.counters d.index c }) s)
    let edged := fun (f : Bool → Bool → Bool) => Host.Outcome.next (φ := Fault) (ρ := Refusal)
      (let prev := if st.edgeFresh.contains x.opd.toNat then g.acc else varBit st.core.edges x.opd.toNat
       onLane l (fun q => { q with edgeFresh := q.edgeFresh.filter (fun j => j ≠ x.opd.toNat) })
        (engTo l e (acc 2 (f g.acc prev)) (fun c => { c with edges := setVarBit x.opd.toNat g.acc c.edges }) s))
    (∀ d : TimerDecl, x.cmp = 0#2 →
      let t := smGet TimerState.zero st.core.timers d.index
      (timerDecl i 0 x.opd.toNat = some d → Fetches s l e h x 0x18 w last →
        exec (.ton l e h x) s = timed d (tonNext g.acc (presetOf st i d) t)) ∧
      (timerDecl i 1 x.opd.toNat = some d → Fetches s l e h x 0x19 w last →
        exec (.tof l e h x) s = timed d (tofNext g.acc (presetOf st i d) t)) ∧
      (timerDecl i 2 x.opd.toNat = some d → Fetches s l e h x 0x1A w last →
        exec (.tp l e h x) s = timed d (tpNext g.acc (presetOf st i d) t))) ∧
    (∀ d : CounterDecl, counterDecl i x.opd.toNat = some d →
      let c := counterOf st.core d.index
      (Fetches s l e h x 0x1C w last → exec (.ctu l e h x) s = counted d (ctuNext g.acc c)) ∧
      (Fetches s l e h x 0x1D w last → exec (.ctd l e h x) s = counted d (ctdNext g.acc c)) ∧
      (Fetches s l e h x 0x1E w last → exec (.ctr l e h x) s = counted d (ctrNext g.acc (BitVec.ofNat 32 d.rv) c))) ∧
    (x.cmp = 0#2 →
      ((edgeDecl i 0 x.opd.toNat).isSome = true → Fetches s l e h x 0x20 w last →
        exec (.edr l e h x) s = edged (fun a p => a && !p)) ∧
      ((edgeDecl i 1 x.opd.toNat).isSome = true → Fetches s l e h x 0x21 w last →
        exec (.edf l e h x) s = edged (fun a p => p && !a)))

/-- R98, R99: after any execution of a timer with preset P, TON and TOF hold ET at or below P, TON's Q is 1 exactly where its input
is 1 and ET has reached P, and TP's Q is 1 only while it runs. -/
def Sys2Proof.Claims.TimersFollowTheirTable : Prop :=
  (∀ (p : W32) (t : TimerState) (inp : Bool), let u := tonNext inp p t
    u.et.toNat ≤ p.toNat ∧ (u.q = true ↔ inp = true ∧ p.toNat ≤ u.et.toNat) ∧ u.run = inp) ∧
  (∀ (p : W32) (t : TimerState) (inp : Bool), t.et.toNat ≤ p.toNat → let u := tofNext inp p t
    u.et.toNat ≤ p.toNat ∧ (inp = true → u.q = true ∧ u.et = 0#32) ∧ (u.run = true → u.q = true)) ∧
  (∀ (p : W32) (t : TimerState) (inp : Bool), let u := tpNext inp p t
    u.inp = inp ∧ u.q = u.run ∧ (t.run = false → u.run = true → inp = true ∧ t.inp = false ∧ u.et = 0#32))

/-- R102: a counter counts rising edges of its input only, stops at its ends, and CTR loads RV while its input is 1. -/
def Sys2Proof.Claims.CountersCountRisingEdges : Prop :=
  ∀ (c : CounterState) (inp : Bool) (rv : W32),
    (ctuNext inp c).cv.toNat = (if inp = true ∧ c.ciu = false then min (c.cv.toNat + 1) 0xFFFFFFFF else c.cv.toNat) ∧
    (ctuNext inp c).ciu = inp ∧ (ctuNext inp c).cid = c.cid ∧
    (ctdNext inp c).cv.toNat = (if inp = true ∧ c.cid = false then c.cv.toNat - 1 else c.cv.toNat) ∧
    (ctdNext inp c).cid = inp ∧ (ctdNext inp c).ciu = c.ciu ∧
    ctrNext inp rv c = { c with cv := if inp then rv else c.cv }

/-- R79, R95, R104: END goes to the engine's next segment with ACC and the stack cleared, or finishes the engine after its last one
where BAR is the image's last barrier. SYNC waits where its number is above BAR. -/
def Sys2Proof.Claims.EndAndSyncMoveTheEngine : Prop :=
  ∀ (s : State) (l : Lane) (e : BitVec 5) (h : Hw) (x : EngArg) (w : W32) (last : Nat) (i : Image),
    (lane s l).core.active = some i → modOk x = true → x.n = false →
    let g := engine (lane s l).core e.toNat
    (x.opd = 0#22 → g.bsd = 0 → Fetches s l e h x 0x02 w last →
      (∀ start len, ((segList i e.toNat).drop (g.seg + 1)).head? = some (start, len) →
        exec (.endSeg l e h x) s = .next (engTo l e { g with seg := g.seg + 1, pc := start, acc := false, bsd := 0, cycles := g.cycles + 2 }
          (fun c => c) s)) ∧
      (((segList i e.toNat).drop (g.seg + 1)).head? = none → g.bar = i.barriers.getLast? →
        ∃ t, exec (.endSeg l e h x) s = .next t ∧
          engine (lane t l).core e.toNat = { g with run := .finished, cycles := g.cycles + 2 } ∧
          ((∀ k : BitVec 5, k ≠ e → (engine (lane s l).core k.toNat).run = .finished) → (lane t l).core.phase = .committing) ∧
          ((∃ k : BitVec 5, k ≠ e ∧ (engine (lane s l).core k.toNat).run ≠ .finished) → (lane t l).core.phase = .evaluating))) ∧
    (x.opd.toNat < 256 → (∀ b, g.bar = some b → b < x.opd.toNat) → Fetches s l e h x 0x03 w last →
      (∃ k : BitVec 5, k ≠ e ∧ (engine (lane s l).core k.toNat).run = .running) →
      exec (.sync l e h x) s = .next (engTo l e { g with run := .waiting x.opd.toNat } (fun c => c) s))

/-- R106: once all 32 engines wait at one barrier they leave together, two cycles after the last arrived, each with BAR set to it. -/
def Sys2Proof.Claims.BarrierReleasesAllEngines : Prop :=
  ∀ (s : State) (l : Lane) (b : Nat), (lane s l).core.phase = .evaluating → s.clk.tick < deadlineTick s →
    (∀ k : BitVec 5, (engine (lane s l).core k.toNat).run = .waiting b) →
    ∃ t, exec (.syncBarrierLeave l) s = .next t ∧
      ∀ k : BitVec 5, let g := engine (lane s l).core k.toNat
        let q := engine (lane t l).core k.toNat
        q.run = .running ∧ q.bar = some b ∧ q.pc = g.pc + 1 ∧ q.acc = g.acc ∧ q.stack = g.stack ∧ q.seg = g.seg ∧
        (∀ j : BitVec 5, (engine (lane s l).core j.toNat).cycles + 2 ≤ q.cycles) ∧
        (∃ j : BitVec 5, q.cycles = (engine (lane s l).core j.toNat).cycles + 2)

/-- R84, R89, R107, R108: a bit instruction on an address that no engine may read, an ST to a read-only one, and an uncorrectable
operand word fault the engine with their code, where no other engine faults in the same cycle (R109): the lane stops and owes a withdrawal of
that cause, and no variable changes. -/
def Sys2Proof.Claims.OperandFaultsWithdrawTheLane : Prop :=
  ∀ (s : State) (l : Lane) (e : BitVec 5) (x : EngArg) (w : W32) (last : Nat), modOk x = true → (lane s l).commit.withdraw = none →
    let a := x.opd.toNat
    let faulted := fun (i : Instr) (code : Nat) => faultsWith s l e.toNat code = [(e.toNat, code)] → ∃ t, exec i s = .next t ∧
      (lane t l).core.phase = .stopped ∧ (lane t l).commit.withdraw = some code ∧ (lane t l).commit.renewBad = true ∧
      (engine (lane t l).core e.toNat).run = .faulted ∧ (lane t l).core.vars = (lane s l).core.vars ∧
      (∀ m, m ≠ l → lane t m = lane s m) ∧ t.ctl.voter = s.ctl.voter ∧ t.data = s.data ∧
      t.mgt.recorder.reports.length = s.mgt.recorder.reports.length + 1
    (engReadable a = false → Fetches s l e .ok x 0x04 w last → faulted (.ld l e .ok x) 0x03) ∧
    (engReadable a = true → engWritable a = false → Fetches s l e .ok x 0x08 w last → faulted (.st l e .ok x) 0x04) ∧
    (engReadable a = true → Fetches s l e .ok x 0x04 w last → faulted (.ld l e .operand x) 0x0C) ∧
    (opcodeDefined (opcodeOf w) = false → Fetches s l e .ok x (opcodeOf w) w last → faulted (.illegalOpcode l e .ok) 0x01) ∧
    (Fetches s l e .ok x (opcodeOf w) w last → faulted (.illegalOpcode l e .code) 0x0B)

/-- R151, R148: an uncorrectable word that a lane's scrub finds is a withdrawal of cause 0x81: the lane stops, and nothing else of the
module changes. -/
def Sys2Proof.Claims.ScrubErrorWithdrawsTheLane : Prop :=
  ∀ (s : State) (l : Lane), (lane s l).core.phase ≠ .stopped → (lane s l).core.active.isSome = true →
    (lane s l).commit.withdraw = none →
    exec (.scrubUncorrectable l) s = .next (onLane l (fun x =>
      { x with core := { x.core with phase := .stopped }, commit := { x.commit with withdraw := some 0x81, renewBad := true } }) s)

/-- R81: the fields of an instruction word read back as they were put in, and every word is the word of its own fields: encoding and
decoding agree in both directions, so no bit of the encoding is dropped and none is read twice. -/
def Obligations.EngineWordsDecodeToTheirFields : Prop :=
  (∀ (opc : Nat) (x : EngArg), opc < 64 → opcodeOf (engWord opc x) = opc ∧ argOf (engWord opc x) = x) ∧
  (∀ w : W32, engWord (opcodeOf w) (argOf w) = w)

/-! ### The vote and the seats (R145 to R209) -/

/-- A voter half can take the record `r` of lane `l` for seat `k` as the next in order (R149). -/
def Sys2Proof.Claims.InOrder (s : State) (h : Half) (l : Lane) (k : Seat) (r : CommitRec) : Prop :=
  voting s = true ∧ slotOf s h l = some k ∧ holdsLease s l r = true ∧ recordBroken l r true = false ∧
  (voter s).test.injection = none ∧ r.scn = scn s ∧ r.word = (halfOf s h).due.get l ∧ r.word ≤ 1025 ∧ laterWords s h r.word = [] ∧
  (wordOf s h r.word).voted = none

/-- R149, R157: an in-order record with an intact TAG and the lane's own lease is placed for its seat, opens the skew window, and the
next word is due from the lane, whether it is given or the lane's own next record; check-value units that snoop the point take its bytes; no word is voted while every other seat that votes is to come, and nothing else of the vote changes. -/
def Sys2Proof.Claims.InOrderRecordIsPlaced : Prop :=
  ∀ (s : State) (h : Half) (l : Lane) (k : Seat) (r : CommitRec), InOrder s h l k r →
    (wordOf s h r.word).opened = none → (∀ j, (wordOf s h r.word).vals.get j = .absent) → 2 ≤ (votersOf s h r.word).length →
    ∃ t, exec (.commitRecord h l (.given r true)) s = .next t ∧
      (wordOf t h r.word).vals.get k = .value (trueValue r) ∧ (wordOf t h r.word).opened = some s.clk.tick ∧
      (wordOf t h r.word).voted = none ∧ (halfOf t h).due.get l = r.word + 1 ∧
      (∀ m, m ≠ l → (halfOf t h).due.get m = (halfOf s h).due.get m) ∧ (∀ u, u ≠ r.word → wordOf t h u = wordOf s h u) ∧
      halfOf t h.other = halfOf s h.other ∧ t.ctl.voter.seats = s.ctl.voter.seats ∧
      t.mgt = { s.mgt with cvu := t.mgt.cvu } ∧ (s.mgt.cvu = [] → t.mgt = s.mgt) ∧ t.data = s.data ∧
      (nextRecord s h l = some r → exec (.commitRecord h l .asSent) s = .next t)

/-- R158: the second of two equal records votes the word: both seats are judged agreeing. -/
def Sys2Proof.Claims.TwoEqualRecordsVoteTheWord : Prop :=
  ∀ (s : State) (h : Half) (l : Lane) (j k : Seat) (r : CommitRec), InOrder s h l k r → j ≠ k → j ∈ votersOf s h r.word →
    (wordOf s h r.word).vals.get k = .absent → (wordOf s h r.word).vals.get j = .value (trueValue r) →
    (wordOf s h r.word).judged = ⟨.open_, .open_, .open_⟩ → (wordOf s h.other r.word).voted = none →
    ∃ t, exec (.commitRecord h l (.given r true)) s = .next t ∧ (wordOf t h r.word).voted = some (trueValue r) ∧
      (wordOf t h r.word).judged.get j = .agreeing ∧ (wordOf t h r.word).judged.get k = .agreeing ∧
      halfOf t h.other = halfOf s h.other ∧ t.ctl.trip = s.ctl.trip ∧ t.ctl.voter.seats = s.ctl.voter.seats

/-- R149 rows 1 and 2: a record whose TAG, parity, lane, polarity or word number is wrong does not count as received and is reported; a
record without the lane's lease is reported as stale. Neither changes the vote. -/
def Sys2Proof.Claims.BadRecordsAreReportedAndDropped : Prop :=
  ∀ (s : State) (h : Half) (l : Lane) (r : CommitRec) (ok : Bool), voting s = true →
    (recordBroken l r ok = true → ∃ t, exec (.commitRecord h l (.given r ok)) s = .next t ∧ t.ctl.voter = s.ctl.voter ∧
      t.ctl.trip = s.ctl.trip ∧ t.mgt.recorder.reports = s.mgt.recorder.reports ++
        [⟨.general, 0, 0x020A, voterSource h 0, upt s, byte (halfIsland h) ++ byte l.idx, byte 0⟩]) ∧
    (recordBroken l r ok = false → holdsLease s l r = false → shadowing s l = false → silentRun s = false →
      ∃ t, exec (.commitRecord h l (.given r ok)) s = .next t ∧ t.ctl.voter = s.ctl.voter ∧ t.ctl.trip = s.ctl.trip ∧
        (t.mgt.recorder.reports.map (·.code)) = s.mgt.recorder.reports.map (·.code) ++ [0x020E])

/-- R158 to R160: of three records two equal values vote; of two, two equal values; one alone votes only where one seat votes. -/
def Obligations.VotedValueIsSharedByTwo : Prop :=
  (∀ (vs : List VoteVal) (v : W64), vs.length ≠ 1 → pairValue vs = some v →
    2 ≤ (vs.filter (fun x => x == .value v)).length) ∧
  (∀ (a b c : VoteVal) (v : W64), (a = .value v ∧ b = .value v ∨ a = .value v ∧ c = .value v ∨ b = .value v ∧ c = .value v) →
    pairValue [a, b, c] = some v ∧ noVote [a, b, c] = none) ∧
  (∀ (u v : W64), u ≠ v → pairValue [.value u, .value v] = none ∧ noVote [.value u, .value v] = some 0x08) ∧
  (∀ (v : W64), pairValue [.value v] = some v)

/-- R157, R155: 300 ticks after a word's skew window opened, the seats without a record are late in half X; R64: at the deadline a half
with a complete commit judges the scan timely and changes nothing else; with one that is not complete it records the overrun and trips. -/
def Sys2Proof.Claims.SkewWindowAndDeadline : Prop :=
  (∀ (s : State) (w : BitVec 11) (t0 : Nat) (k : Seat) (v : W64), voting s = true → (wordOf s .x w.toNat).opened = some t0 →
    t0 + 300 ≤ s.clk.tick → k ∈ votersOf s .x w.toNat → (wordOf s .x w.toNat).vals.get k = .absent →
    (∀ j ∈ votersOf s .x w.toNat, j ≠ k → (wordOf s .x w.toNat).vals.get j ≠ .absent) →
    (wordOf s .x w.toNat).voted = some v → (wordOf s .x w.toNat).judged.get k = .open_ → (halfOf s .x).out.get k = none →
    (wordOf s .y w.toNat).voted = none → (voter s).test.injection = none → laterWords s .x w.toNat = [] →
    ∃ t, exec (.skewWindowClose .x w) s = .next t ∧ (wordOf t .x w.toNat).closed = true ∧
      (wordOf t .x w.toNat).vals.get k = .late ∧ (wordOf t .x w.toNat).judged.get k = .late ∧
      (halfOf t .x).out.get k = some w.toNat ∧ (wordOf t .x w.toNat).voted = some v ∧
      halfOf t .y = halfOf s .y ∧ t.ctl.voter.seats = s.ctl.voter.seats ∧ t.ctl.trip = s.ctl.trip ∧ t.data = s.data) ∧
  (∀ (s : State) (h : Half), (voter s).running = true → (voter s).released = true → (halfOf s h).timely = false →
    s.ctl.trip.inForce = false → nextCi s h ≤ s.clk.tick + 625 →
    (commitComplete s h = true → exec (.scanDeadline h) s = .next (onHalf h (fun x => { x with timely := true }) s)) ∧
    (commitComplete s h = false → ctlRuns s = true → ∃ t, exec (.scanDeadline h) s = .next t ∧ t.ctl.trip.inForce = true ∧
      t.ctl.trip.mask = 0x0001#16 ∧ (∀ l, (lane t l).core.phase = .stopped) ∧ (0x0103 ∈ t.mgt.recorder.reports.map (·.code))))


/-- R182, R183: a ready word in time is kept by the half it came to, as received or as the lane sends it once its commit and its copies are done:
its lease ID, RENEW where it has no reason against it, and the HDR_CRC in its shadow bank. -/
def Sys2Proof.Claims.ReadyWordIsKept : Prop :=
  ∀ (s : State) (h : Half) (l : Lane), voting s = true → domRun s (laneDom l) = true →
    s.clk.tick + 50 ≤ nextCi s h → (∀ j, (voter s).join = some j → j.lane ≠ l) →
    let kept := fun (r : ReadyWord) => Host.Outcome.next (φ := Fault) (ρ := Refusal)
      (onVoter (fun v => { v with ready := v.ready.set h ((v.ready.get h).set l (some r)) }) s)
    (∀ id renew crc, exec (.readyWord h l (.given id renew crc)) s = kept ⟨id, renew, crc⟩) ∧
    ((lane s l).core.phase = .idle → (voter s).copyEnd.get l = none →
      exec (.readyWord h l .asSent) s = kept ⟨ownLease (lane s l), !(lane s l).commit.renewBad,
        match (lane s l).core.shadow with | some i => i.hdrCrc | none => 0⟩)

/-- R181, R188: at the release that its expiry names, a lease that does not vote ends with a SEAT_CHANGE of kind 3; nothing else of
the vote changes. -/
def Sys2Proof.Claims.LeaseEndsAtItsExpiry : Prop :=
  ∀ (s : State) (k : Seat) (g : Lease), ctlRuns s = true → ((voter s).seats.get k).lease.x = some g → g.ended = false →
    (g.revoked = true ∨ SeatVotes ((voter s).seats.get k) = false) → scnBefore (scn s) g.expiry = false →
    ∃ t, exec (.leaseExpiry k) s = .next t ∧
      ((voter t).seats.get k).lease.x = some { g with revoked := true, ended := true } ∧
      ((voter t).seats.get k).mode = ((voter s).seats.get k).mode ∧ (∀ j, j ≠ k → (voter t).seats.get j = (voter s).seats.get j) ∧
      t.ctl.lanes = s.ctl.lanes ∧ t.data = s.data ∧ t.mgt.recorder.reports = s.mgt.recorder.reports ++
        [⟨.vital, 0, 0x0205, voterSource .x k.num, upt s, byte k.num ++ byte 3 ++ byte g.holder.idx ++ byte 0xFF ++
          le2 g.id.toNat ++ le2 0, scnLe s⟩]

/-- R190 to R193: once its last block has passed, a capture whose checks pass becomes the latest valid cairn, with the blocks as they entered; one
that fails a check, or a block of which has not its digest, is abandoned and the cairn before it stays. -/
def Sys2Proof.Claims.CairnCaptureEntersOrIsAbandoned : Prop :=
  ∀ (s : State) (c : Capture) (altered : List (Nat × Nat × W64)), (voter s).capture = some c → 4096 * c.blocks.length ≤ c.sent →
    let entered := enteredBlocks c altered
    (altered = [] → entered = c.snapshot) ∧
    (c.failed = 0 → enteredOk c entered = true → exec (.cairnCaptureDone altered) s =
      .next (onVoter (fun v => { v with cairn := some (newCairn c entered v.cairn), capture := none }) s)) ∧
    ((c.failed ≠ 0 ∨ enteredOk c entered = false) → ∃ t, exec (.cairnCaptureDone altered) s = .next t ∧ (voter t).cairn = (voter s).cairn ∧
      (voter t).capture = none ∧ t.ctl.lanes = s.ctl.lanes ∧ t.mgt.recorder.reports = s.mgt.recorder.reports ++
        [⟨.general, 0, 0x020C, voterSource .x 0, upt s, byte (if c.failed ≠ 0 then c.failed else 3), scnLe s⟩])

/-- R200, R202: once the rope has carried the cairn its blocks stand in the joining lane, which joins at the next release; a takeover whose copy
is not complete by the idle part of scan v + 13 is abandoned, with a SEAT_CHANGE of kind 9, and the lane reports itself unavailable. -/
def Sys2Proof.Claims.TakeoverLoadsTheCairn : Prop :=
  ∀ (s : State) (j : Join), ctlRuns s = true → (voter s).join = some j →
    (∀ c, (voter s).cairn = some c → j.step = .loading → loadBytes c (lane s j.lane) ≤ j.sent → ∃ t, exec .cairnLoadDone s = .next t ∧
      (voter t).join = some { j with step := .waitRelease } ∧ lane t j.lane = copyLane c.image (lane s j.lane) ∧
      (lane t j.lane).core.vars = c.image.core.vars ∧ (lane t j.lane).core.timers = c.image.core.timers ∧
      (lane t j.lane).core.counters = c.image.core.counters ∧ (lane t j.lane).core.edges = c.image.core.edges ∧
      (∀ l, l ≠ j.lane → lane t l = lane s l) ∧ t.mgt = s.mgt) ∧
    (j.why = .takeover → (j.step = .loading ∨ j.step = .waitRelease ∨ j.step = .catchUp) →
      (13 < scnAhead j.start (scn s) ∨ scnAhead j.start (scn s) = 13 ∧ nextCi s .x ≤ s.clk.tick + 50) →
      ∃ t, exec .takeoverDeadline s = .next t ∧ (voter t).join = none ∧
        (∀ r a, (voter s).belay = some (r, a) → (voter t).belay = some ({ r with state := 1 }, a)) ∧
        (lane t j.lane).core.phase = .stopped ∧ (∀ l, l ≠ j.lane → lane t l = lane s l) ∧
        t.mgt.recorder.reports.length = s.mgt.recorder.reports.length + 1)

/-- R167, R168: an idle part sends a lane, in block order, the blocks whose digests differ from its source's, as many as fit; where all of them did the lane is one verification
scan away from its seat. -/
def Sys2Proof.Claims.CompletedResyncCopiesTheSource : Prop :=
  ∀ (s : State) (l src : Lane), voting s = true → domRun s (laneDom l) = true → copySource s l = some src → (voter s).laneVote.get l = .resync →
    (lane s src).core.phase = .idle → (lane s l).core.phase = .idle → (lane s src).core.fwVer = (lane s l).core.fwVer →
    (voter s).copyEnd.get l = none → s.clk.tick + ropeTicks 4256 + 50 ≤ nextCi s .x →
    let bs := differingBlocks (lane s src) (lane s l)
    let n := blocksThatFit s
    ∃ t, exec (.resyncIdlePart l) s = .next t ∧ lane t l = copyBlocks (bs.take n) (lane s src) (lane s l) ∧
      (voter t).copyEnd.get l = some (s.clk.tick + ropeTicks (4256 + 4096 * (bs.take n).length)) ∧
      (bs.length ≤ n → (voter t).laneVote.get l = .verify ∧ lane t l = copyBlocks bs (lane s src) (lane s l)) ∧
      (n < bs.length → (voter t).laneVote.get l = .resync) ∧
      (∀ m, m ≠ l → lane t m = lane s m) ∧ (voter t).seats = (voter s).seats ∧ t.mgt = s.mgt ∧ t.data = s.data

/-- R198, R199, R207: the health report that a lane without a seat composes is kept with its instant, bytes that are not a report with a good CRC count as
not received, and a report older than 2.5 s counts no more. -/
def Sys2Proof.Claims.BelayReportsAreKept : Prop :=
  (∀ (s : State) (l : Lane) (temp clk : BitVec 16), reportDue s l = true → (voter s).join = none →
    let r := composeReport s l temp clk
    ∃ t, exec (.belayHealthReport l temp clk none) s = .next t ∧ (voter t).belay = some (r, s.clk.tick) ∧
      (r.state = 0 ↔ r.causes = 0#16) ∧ r.lane = l ∧ r.dieTemp = temp ∧ r.clkDev = clk ∧
      (voter t).seats = (voter s).seats ∧ (lane t l).health.corrected = r.corrected.toNat ∧
      (∀ m, m ≠ l → lane t m = lane s m) ∧ t.data = s.data ∧ t.mgt.recorder = s.mgt.recorder) ∧
  (∀ (s : State) (l : Lane) (temp clk : BitVec 16) (b : List Byte), reportDue s l = true → parseBelay b = none →
    exec (.belayHealthReport l temp clk (some b)) s = .next (onLane l (fun x =>
      { x with selfTest := { x.selfTest with seq := x.selfTest.seq + 1, sentAt := some s.clk.tick } }) s)) ∧
  (∀ b : List Byte, (b.length ≠ 64 ∨ crc32c (b.take 60) ≠ leAt b 0x3C 4) → parseBelay b = none) ∧
  (∀ (s : State) (r : BelayReport) (at_ : Nat), (voter s).belay = some (r, at_) → at_ + 62500000 < s.clk.tick →
    exec .belayReportStale s = .next (onVoter (fun v => { v with belay := none }) s))

/-- R174 to R176, R207: the 64th scan without a polarity sets DIVERSITY_LOST, 24 operating hours of both polarities restore the allowance, and a
whole BIST interval queues one rotation for each of lanes A to C. -/
def Sys2Proof.Claims.DiversityAndRotationRunOnTheirCounts : Prop :=
  (∀ (s : State), ctlRuns s = true → (voter s).diversity.lost = false → 64 ≤ (voter s).diversity.lackRun →
    0 < (voter s).diversity.remain → ∃ t, exec .diversityLostSet s = .next t ∧ (voter t).diversity.lost = true ∧
      (voter t).diversity.since = tb3Tick s ∧ t.ctl.trip = s.ctl.trip ∧ t.ctl.lanes = s.ctl.lanes ∧
      (t.mgt.recorder.reports.map (·.code)) = s.mgt.recorder.reports.map (·.code) ++ [0x0206]) ∧
  (∀ (s : State) (n : Nat), ctlRuns s = true → (voter s).diversity.lost = false → (voter s).diversity.both = some n →
    n + 24 * Config.hourTicks ≤ tb3Tick s → exec .diversityAllowanceRestore s =
      .next (onVoter (fun v => { v with diversity := { v.diversity with remain := 65536 * v.diversity.hours } }) s)) ∧
  (∀ (s : State), s.variant = .f → mgtUp s = true → s.ctl.rot.intervalHours ≠ 0 → s.ctl.rot.queue = [] → s.ctl.rot.forFirmware = false →
    s.ctl.rot.lastAt + s.ctl.rot.intervalHours * Config.hourTicks ≤ tb3Tick s →
    exec .bistIntervalExpiry s = .next (onRot (fun q => { q with lastAt := tb3Tick s, queue := [.a, .b, .c] }) s))

/-- R176, R232, R233: when the allowance is used up the module trips without CTRL_RESET: every removal means is without drive, every lane stops, and
the TRIP event is raised. -/
def Sys2Proof.Claims.DiversityExpiryTrips : Prop :=
  ∀ (s : State), ctlRuns s = true → (voter s).diversity.lost = true → diversityLeft s = 0 →
    ∃ t, exec .diversityAllowanceExpiry s = .next t ∧ t.ctl.trip.inForce = true ∧ t.ctl.trip.mask = 0x0200#16 ∧
      t.ctl.trip.ctrlReset = false ∧ (voter t).running = true ∧ (∀ l, (lane t l).core.phase = .stopped) ∧
      (∀ p ∈ t.ctl.vio.vout, VoutDead p.2) ∧ t.mgt.exp.tripCnt = s.mgt.exp.tripCnt + 1 ∧
      (0x0001 ∈ t.mgt.mbx.events.map (·.code))

/-- R30, R31, R49: a cycle instant that is due moves a follower on: to the mark of its source where it accepts it, else to its own prediction; where no other
follower has counted the instant the cycle count goes up by one. (A silent scan may end the start where the halves part.) -/
def Sys2Proof.Claims.CycleInstantCounts : Prop :=
  ∀ (s : State) (f : Follower) (net xm : Option Int), let a := netArrival s f net
    let b := xArrival s f xm
    markDue s f a b = true → (silentRun s = false ∨ ∃ ch, f = .star ch) →
    ∃ t, exec (.ciMark f net xm) s = .next t ∧
      t.clk.tb2 = (if countedNow s = true then s.clk.tb2 else s.clk.tb2 + 1) ∧
      (followerOf t f).ciNs = instantOf s f a b ∧ (followerOf t f).seen = true ∧ (followerOf t f).cycle = t.clk.tb2 ∧
      (∀ g, g ≠ f → followerOf t g = followerOf s g) ∧ t.clk.tick = s.clk.tick ∧
      (∀ p i, predicted s f = some p → a = some i → (p : Int) - 500 ≤ i → i ≤ (p : Int) + 500 → (followerOf s f).source = .net → f ≠ .y →
        (followerOf t f).source = .net ∧ (followerOf t f).missed = 0 ∧ (followerOf t f).ciNs = i.toNat) ∧
      (∀ p, predicted s f = some p → a = none → b = none → (followerOf t f).ciNs = p)

/-- R19 to R21: where the halves' check values agree and no lane's own check fails, the snapshot becomes MGT's staging copy, for every lane; where they
differ the snapshot is discarded and reported. The copy counts as it stood at the cut-off; a lane whose check fails withdraws. -/
def Sys2Proof.Claims.AdmissionSnapshotIsTakenOrDiscarded : Prop :=
  ∀ (s : State), (voter s).running = true → domRun s 1 = true → s.ctl.adm.taken = false → nextCi s .x ≤ s.clk.tick + 125 →
    let held := s.ctl.adm.cut.getD s.ctl.adm.staging
    (∀ fail : List Lane, ∃ t, exec (.admissionSnapshot none fail) s = .next t ∧ t.ctl.adm.snapshot = held ∧ t.ctl.adm.taken = true ∧
      t.ctl.adm.discard = false ∧ (∀ l, t.ctl.adm.laneOk.get l = !(fail.contains l)) ∧ t.mgt.mbx.snapWait = [] ∧
      t.mgt.mbx.finished.length = s.mgt.mbx.finished.length + s.mgt.mbx.snapWait.length ∧ (∀ l, l ∉ fail → lane t l = lane s l) ∧
      (∀ l, l ∈ fail → runs s l = true → (lane t l).commit.withdraw.isSome = true) ∧
      t.ctl.voter = s.ctl.voter ∧ t.data = s.data) ∧
    (∀ y : W64, y ≠ Config.admissionCheck held → ∃ t, exec (.admissionSnapshot (some y) []) s = .next t ∧
      t.ctl.adm.discard = true ∧ t.ctl.adm.taken = true ∧ t.ctl.adm.snapshot = s.ctl.adm.snapshot ∧
      t.ctl.adm.staging = s.ctl.adm.staging ∧ t.mgt.mbx.snapWait = s.mgt.mbx.snapWait ∧
      (t.mgt.recorder.reports.map (·.code)) = s.mgt.recorder.reports.map (·.code) ++ [0x020B])

/-- R24, R25, R409: 10 us before the next cycle instant the assembled snapshot of a voted scan replaces the buffer that is not current. -/
def Sys2Proof.Claims.SnapshotIsPublished : Prop :=
  ∀ (s : State) (k : Seat) (l : Lane), publishable s = true → domRun s 1 = true → (digestSeats s).head? = some k → holder s k = some l →
    ¬ (s.mgt.exp.valid = true ∧ s.mgt.exp.scn = scn s) → nextCi s .x ≤ s.clk.tick + 250 →
    ∃ t, exec (.exportPublication true) s = .next t ∧ t.mgt.exp.valid = true ∧ t.mgt.exp.scn = scn s ∧
      (if t.mgt.exp.cur then t.mgt.exp.buf1 else t.mgt.exp.buf0) = some (snapshotOf s l) ∧
      (s.mgt.exp.valid = true → (if t.mgt.exp.cur then t.mgt.exp.buf0 else t.mgt.exp.buf1) =
        (if s.mgt.exp.cur then s.mgt.exp.buf1 else s.mgt.exp.buf0)) ∧
      t.ctl = s.ctl ∧ t.mgt.recorder = s.mgt.recorder

/-- R56, R79, R233: a due release starts scan n, the cycle count of voter half X: no record of it has been received, no ready word is kept, the
admission gate is open for the next snapshot; or the release itself ends in a trip or a failed start. In a silent scan before the sixteenth (R177,
R178), with the injection before it seen and the halves' tables and leases equal, it does start the scan, and counts it. -/
def Obligations.DueReleaseStartsTheScan : Prop :=
  (∀ (s : State), releaseDue s = true → ∃ t, exec .barrierRelease s = .next t ∧
    ((voter t).running = false ∨ t.ctl.trip.inForce = true ∨
      ((voter t).now.scn = (voter t).scn ∧ (voter t).now.words = [] ∧ (voter t).halves = ⟨HalfVote.zero, HalfVote.zero⟩ ∧
        (∀ h l, ((voter t).ready.get h).get l = none) ∧ (voter t).firstScan = false ∧ t.ctl.adm.taken = false ∧
        (voter t).scn = BitVec.ofNat 32 s.ctl.followers.x.cycle))) ∧
  (∀ (s : State), releaseDue s = true → (voter s).released = true → (voter s).votedRun = false → (voter s).test.silent < 16 →
    injectionSeen s = true → s.ctl.force.out.x = s.ctl.force.out.y → leasesDiffer s = false →
    ∃ t, exec .barrierRelease s = .next t ∧ (voter t).running = true ∧ t.ctl.trip.inForce = false ∧
      (voter t).scn = BitVec.ofNat 32 s.ctl.followers.x.cycle ∧ (voter t).now.scn = (voter t).scn ∧ (voter t).now.words = [] ∧
      (voter t).halves = ⟨HalfVote.zero, HalfVote.zero⟩ ∧ (∀ h l, ((voter t).ready.get h).get l = none) ∧
      (voter t).test.silent = (voter s).test.silent + 1 ∧ (voter t).seats = (voter s).seats ∧ t.ctl.adm.taken = false)

/-- R161: 8 us before the next cycle instant of a cairn scan a half that has voted the supervisor digest keeps its vote, and the seats that have
not sent it to a half that has not are late. -/
def Sys2Proof.Claims.LateSupervisorDigestIsLate : Prop :=
  ∀ (s : State), voting s = true → cairnScan (scn s) = true → mixedFirmware s = false →
    nextCi s .x ≤ s.clk.tick + 200 →
    ((wordOf s .x 1026).voted.isSome = true → (wordOf s .y 1026).voted.isSome = true → exec .supervisorDigestLate s = .next s) ∧
    ((wordOf s .x 1026).voted.isSome = true → (wordOf s .y 1026).voted = none → ctlRuns s = true → domRun s 3 = true →
      (votersOf s .y 1026).length = 3 → laterWords s .y 1026 = [] → (∀ k, (wordOf s .y 1026).vals.get k = .absent) →
      ∃ t, exec .supervisorDigestLate s = .next t ∧ t.ctl.trip.inForce = true ∧ t.ctl.trip.mask = 0x0008#16 ∧
        (∀ k, (wordOf t .y 1026).vals.get k = .late) ∧ (∀ l, (lane t l).core.phase = .stopped))

/-! ### Stars and nodes (R272 to R356) -/

/-- R271, R336, R346, R355: a port whose PHY link comes up on its configured level integrates, but a port on the lock list is locked; a partner of the
other level gets no link. One whose link goes down, whether it integrates or is ACTIVE or ISOLATED, is LINKDOWN with its delay calibration and
corrections gone. A locked port stays locked. -/
def Sys2Proof.Claims.PortLinkMovesThePort : Prop :=
  ∀ (s : State) (ch : Chan) (p : BitVec 6), domRun s (starDom ch) = true →
    let x := port s ch p.toNat
    let low := (portCfg s ch p.toNat).level
    (x.mode = .linkDown → ∃ t, exec (.portLinkUp ch p low) s = .next t ∧ (port t ch p.toNat).linkUp = true ∧
      (port t ch p.toNat).mode = (if onLockList s ch p.toNat then .locked else .integrating) ∧
      (x.seeded = false → onLockList s ch p.toNat = false → (port t ch p.toNat).dly = dlySeed (portCfg s ch p.toNat)) ∧
      (∀ q : BitVec 6, q ≠ p → port t ch q.toNat = port s ch q.toNat) ∧ t.ctl = s.ctl) ∧
    exec (.portLinkUp ch p !low) s = .next s ∧
    (x.mode = .integrating ∨ x.mode = .active ∨ x.mode = .isolated → ∃ t, exec (.portLinkDown ch p) s = .next t ∧
      (port t ch p.toNat).mode = .linkDown ∧ (port t ch p.toNat).linkUp = false ∧ (port t ch p.toNat).dly = 0 ∧
      (port t ch p.toNat).txc = 0 ∧ (port t ch p.toNat).seeded = false ∧
      (∀ q : BitVec 6, q ≠ p → port t ch q.toNat = port s ch q.toNat) ∧ t.ctl = s.ctl) ∧
    (x.mode = .locked → exec (.portLinkUp ch p low) s = .next (onPort ch p.toNat (fun y => { y with linkUp := true }) s) ∧
      exec (.portLinkDown ch p) s = .next (onPort ch p.toNat (fun y => { y with linkUp := false }) s))

/-- What a star holds once the frame `b` has passed its tap point: its check-value units have it, unless the port truncates it (R339, R453). -/
def Sys2Proof.Claims.tapped (s : State) (ch : Chan) (p start : Nat) (b : List Byte) : State :=
  if frameTruncated s ch p start b then s else snoop (rxPoint ch) p true true b s

/-- R295, R339, R344, R345: an accepted frame makes an integrating port ACTIVE, clears the count of violations and is passed on from DA to VCODE with its
start; a frame outside the window, cut or of a wrong length is a violation; the eighth in a row isolates the port (not the fourth time in an hour); 16
quiet cycles end the isolation. -/
def Sys2Proof.Claims.FramesAreJudgedAtThePort : Prop :=
  ∀ (s : State) (ch : Chan) (p : BitVec 6) (start : Nat) (b : List Byte), domRun s (starDom ch) = true → (star s ch).mode = .running →
    (star s ch).isolatedAll = false → b ≠ [] →
    let x := port s ch p.toNat
    let c := (followerOf s (.star ch)).cycle
    let e := offsetOf s ch p.toNat start
    let bad := frameViolates (schedPort s (star s ch).applied ch p.toNat).lMax e b
    let s0 := tapped s ch p.toNat start b
    (x.mode = .integrating → bad = false → fcsCorrect b = true → hdrField b 0x0C 4 = 0 →
      ∃ t, exec (.starUpframe ch p start (some b)) s = .next t ∧
      (port t ch p.toNat).mode = .active ∧ (port t ch p.toNat).vcount = 0 ∧ (port t ch p.toNat).tookAt = some c ∧
      smFind (t.data.aux.get ch).passed p.toNat = some ⟨start, passedBytes b⟩ ∧ t.ctl = s.ctl) ∧
    (e < -4000 ∨ 4000 < e ∨ frameLen b < 20 ∨ 148 < frameLen b ∨ b.length ≠ max 64 (18 + frameLen b) → bad = true) ∧
    (x.mode = .active → bad = true → x.vcount < 7 →
      exec (.starUpframe ch p start (some b)) s = .next (onPort ch p.toNat (fun y => { y with vcount := x.vcount + 1 }) s0)) ∧
    (x.mode = .active → bad = true → x.vcount = 7 → x.isoAt = [] → ∃ t, exec (.starUpframe ch p start (some b)) s = .next t ∧
      (port t ch p.toNat).mode = .isolated ∧ (port t ch p.toNat).vcount = 0 ∧ (port t ch p.toNat).isoAt = [tb3Tick s] ∧
      (port t ch p.toNat).quiet = c) ∧
    (x.mode = .active → bad = false → fcsCorrect b = false →
      exec (.starUpframe ch p start (some b)) s = .next (onPort ch p.toNat (fun y => { y with fcsErrors := y.fcsErrors + 1 }) s0)) ∧
    (x.mode = .isolated → x.quiet + 17 ≤ c → ∃ t, exec (.isolationHoldEnd ch p) s = .next t ∧
      (port t ch p.toNat).mode = .integrating ∧ t.ctl = s.ctl)

/-- R352: a gate fault ends the downframe in transmission; the third cycle in a row with one isolates the star; an earlier one is counted. -/
def Sys2Proof.Claims.GateFaultsIsolateTheStar : Prop :=
  ∀ (s : State) (ch : Chan) (p : BitVec 6), domRun s (starDom ch) = true → (star s ch).isolatedAll = false → downSent s ch p.toNat = true →
    gateCloses s ch = true →
    let c := (followerOf s (.star ch)).cycle
    ((star s ch).txFaultCycle = none → exec (.starTxGateFault ch p) s =
      .next (onStar ch (fun x => { x with txFaults := 1, txFaultCycle := some c })
        (onStar ch (fun x => { x with sent := spoilDown p.toNat x.sent }) s))) ∧
    ((star s ch).txFaultCycle = some c →
      exec (.starTxGateFault ch p) s = .next (onStar ch (fun x => { x with sent := spoilDown p.toNat x.sent }) s)) ∧
    (∀ d, (star s ch).txFaultCycle = some d → d + 1 = c → (star s ch).txFaults = 2 → mgtUp s = false →
      ∃ t, exec (.starTxGateFault ch p) s = .next t ∧ (star t ch).isolatedAll = true ∧ (star t ch).txFaults = 3 ∧ t.ctl = s.ctl)

/-- R514, R520: a port in LINKDOWN or OFF is tested once in an hour by loopback and window, a failure of either is reported, and the result is kept;
energy on the pair abandons the test. -/
def Sys2Proof.Claims.PortSelfTestIsKept : Prop :=
  ∀ (s : State) (ch : Chan) (p : BitVec 6), domRun s (starDom ch) = true →
    ((port s ch p.toNat).mode = .linkDown ∨ (port s ch p.toNat).mode = .off →
      smFind (s.data.aux.get ch).testedIn p.toNat ≠ some (ophHours s) → ∀ loopback window : Bool, ∃ t,
      exec (.starPortSelftest ch p loopback window) s = .next t ∧
        smFind (t.data.aux.get ch).selfTest p.toNat = some (loopback && window) ∧
        smFind (t.data.aux.get ch).testedIn p.toNat = some (ophHours s) ∧ port t ch p.toNat = port s ch p.toNat ∧ t.ctl = s.ctl ∧
        (loopback = true → window = true → t.mgt = s.mgt)) ∧
    (smFind (s.data.aux.get ch).testedIn p.toNat = some (ophHours s) → ∀ loopback window : Bool,
      exec (.starPortSelftest ch p loopback window) s = .next s) ∧
    exec (.portEnergyDetected ch p) s = .next (onAux ch (fun a => { a with selfTest := smDrop a.selfTest p.toNat }) s)

/-- R559: a port in use that has been OFF, LINKDOWN, ISOLATED or LOCKED for one second degrades the module. -/
def Sys2Proof.Claims.LostPortDegrades : Prop :=
  ∀ (s : State) (ch : Chan) (p : BitVec 6) (at_ : Nat), mgtUp s = true → (portCfg s ch p.toNat).use = true →
    portLost (port s ch p.toNat).mode = true → (port s ch p.toNat).downSince = some at_ → at_ + 25000000 ≤ s.clk.tick →
    portKey ch p.toNat ∉ s.mgt.elec.portDown →
    exec (.portDownDegraded ch p) s = .next (onElec (fun e => { e with portDown := portKey ch p.toNat :: e.portDown }) s)

/-- R310 to R313: a lane whose listen timer runs out sends its 64-byte cold-start frame, with the cycle count, LINK_ID, cycle time and schedule in force and
the next CSEQ; the frame of a lane, as sent or as received, that ends the tie set wins where it is alone, and every lane cancels its timer; a frame that
fails a check is refused and reported. -/
def Sys2Proof.Claims.ColdStartContention : Prop :=
  ∀ (s : State) (ch : Chan), contentionOpen s ch = true →
    (∀ l : Lane, l ∈ linkLanes s → (lane s l).listen.get ch ≠ 0 → (lane s l).listen.get ch ≤ s.clk.tick →
      ∃ t, exec (.listenTimerExpiry ch l) s = .next t ∧ (lane t l).listen.get ch = 0 ∧
        (lane t l).cseq.get ch = (lane s l).cseq.get ch + 1 ∧
        (lane t l).coldTx.get ch = some (coldFrame ch l ((lane s l).cseq.get ch) (coldCycle s ch l) s.data.cfg.linkId s.tscan s.data.sched.inForce) ∧
        (∀ m, m ≠ l → lane t m = lane s m) ∧ (lane t l).core = (lane s l).core ∧ t.data = s.data ∧ t.mgt = s.mgt) ∧
    (∀ (src : ColdFrom) (l : Lane) (start : Nat) (given : Option (List Byte)) (b : List Byte), src = .lane l →
      b = given.getD (((lane s l).coldTx.get ch).getD []) → (star s ch).contention = [] →
      (coldOk s ch src b = true →
        ∃ t, exec (.coldstartFrame ch src start given []) s = .next t ∧
          (star t ch).winner = some ⟨l.idx, start, hdrByte b 0x0B % 8, none, b⟩ ∧
          (star t ch).firstAfter = s.clk.tick ∧ (star t ch).contention = [] ∧ (∀ m, (lane t m).listen.get ch = 0)) ∧
      (coldOk s ch src b = false →
        ∃ t, exec (.coldstartFrame ch src start given []) s = .next t ∧ (star t ch).winner = none ∧ (star t ch).contention = [] ∧
          t.ctl = s.ctl ∧ (t.mgt.recorder.reports.map (·.code)) = s.mgt.recorder.reports.map (·.code) ++ [0x050A]))

/-- R291, R293, R316, R351: a star keeps the code and sync records of the lanes, as they send them or as received with a good CRC; at CI(m) + 2 us it sends a
port its downframe: the agreed header, code and the voted payload where its rows hold, and a restrictive one under substitution or where a row fails. -/
def Sys2Proof.Claims.StarSendsDownframes : Prop :=
  ∀ (s : State) (ch : Chan),
    (∀ (l : Lane) (p : BitVec 6), domRun s (starDom ch) = true → (portCfg s ch p.toNat).use = true →
      (seatOf s l).isSome = true → recordsDue s l = true →
      let keeps := fun (r : CodeRec) => Host.Outcome.next (φ := Fault) (ρ := Refusal)
        (onStar ch (fun x => { x with codes := putCode (starCycle s ch) r x.codes }) s)
      exec (.codeRecord ch l p none) s = keeps (ownCode s ch l p.toNat) ∧ ∀ r, exec (.codeRecord ch l p (some r)) s = keeps r) ∧
    (∀ (l : Lane), domRun s (starDom ch) = true → ((star s ch).mode = .coldStart ∨ (star s ch).mode = .running) →
      l ∈ linkLanes s → recordsDue s l = true →
      let keeps := fun (r : SyncRec) => Host.Outcome.next (φ := Fault) (ρ := Refusal)
        (onStar ch (fun x => { x with syncs := putSync (starCycle s ch) r x.syncs }) s)
      (∀ r, parseSync (syncBytes (ownSync s l)) = some r → exec (.syncRecord ch l none) s = keeps r) ∧
      (∀ b r, parseSync b = some r → exec (.syncRecord ch l (some b)) s = keeps r) ∧
      (∀ b, parseSync b = none → exec (.syncRecord ch l (some b)) s = .next s)) ∧
    (∀ p : BitVec 6, downDue s ch p.toNat = true →
      let m := starCycle s ch
      let d := decideDown ch p.toNat m (onPort ch p.toNat slewDly (beaconDecide ch s))
      (∀ a pl, d.2 = some (a, pl) → (port d.1 ch p.toNat).mode ≠ .isolated → (port d.1 ch p.toNat).mode ≠ .locked →
        ∃ t f, exec (.downframeStart ch p) s = .next t ∧ smFind (star t ch).sent p.toNat = some f ∧ f.cycle = m ∧ f.start = s.clk.tick ∧
          f.hdr = a.hdr ∧ f.vcode = a.vcode ∧ f.payload = pl ∧ f.aborted = false) ∧
      ((d.2 = none ∨ (star s ch).substitution = true ∧ (star s ch).beaconOf = some m.toNat) →
        ∃ t f, exec (.downframeStart ch p) s = .next t ∧ smFind (star t ch).sent p.toNat = some f ∧ DownFrame.restr f = true ∧
          f.cycle = m ∧ f.payload = [] ∧ f.vcode = 0#32))

/-- R295 to R297: a lane that finds the star's upframe record of the cycle valid keeps its payload, its USEQ as LAST and its flags; one that fails a row counts
the failure under that row and keeps everything else. -/
def Obligations.UpframeRecordsAreChecked : Prop :=
  ∀ (s : State) (l : Lane) (ch : Chan) (p : BitVec 6) (r : UpRecord), domRun s (laneDom l) = true → (lane s l).core.active.isSome = true →
    smFind (s.data.aux.get ch).passed p.toNat = some r → (port s ch p.toNat).tookAt = some (followerOf s (.star ch)).cycle →
    let key := portKey ch p.toNat
    let n := smGet NodeLink.zero (lane s l).nodes key
    let seen := some (followerOf s (.star ch)).cycle
    n.seenAt ≠ seen →
    let row := upframeRow s ch p.toNat { n with seenAt := seen } r.bytes
    ∃ t, exec (.upframeRecord l ch p) s = .next t ∧
      (let q := smGet NodeLink.zero (lane t l).nodes key
       let u := BitVec.ofNat 8 (hdrByte r.bytes 3)
       (row = none → q.last = some u ∧ q.got = some u ∧ q.gotAt = cycleNow s ∧ q.payload = framePayload r.bytes ∧
         q.nfault = bitN (hdrByte r.bytes 1) 4 ∧ q.nrestr = bitN (hdrByte r.bytes 1) 5 ∧ q.fails = n.fails) ∧
       (∀ w, row = some w → q = { n with seenAt := seen, fails := smSet 0 n.fails w (smGet 0 n.fails w + 1) })) ∧
      (∀ k, k ≠ key → smGet NodeLink.zero (lane t l).nodes k = smGet NodeLink.zero (lane s l).nodes k) ∧
      (∀ m, m ≠ l → lane t m = lane s m) ∧ (lane t l).core = (lane s l).core ∧ t.mgt = s.mgt ∧ t.data = s.data

/-- R300, R303, R305, R306: power-up or reset puts every channel of a node into INIT with restrictive outputs; PHY link down puts a channel into INIT, link up
from INIT into LISTEN; an ACTIVE channel sends one upframe a cycle, with the node's samples and the next USEQ. -/
def Sys2Proof.Claims.NodeChannelsMove : Prop :=
  ∀ (s : State) (k : BitVec 6) (ch : Chan),
    (∀ cfg : NodeCfg, ∃ t, exec (.nodeLinkState k ch (.powerUp cfg)) s = .next t ∧ (node t k.toNat).cfg = cfg ∧
      (∀ c, ((node t k.toNat).ch.get c).mode = .init) ∧ (node t k.toNat).outputs = List.replicate (2 * cfg.n) 0 ∧ (node t k.toNat).nrestr = true ∧
      (∀ j : BitVec 6, j ≠ k → node t j.toNat = node s j.toNat) ∧ t.ctl = s.ctl) ∧
    (attached (node s k.toNat) ch = true →
    (∃ t, exec (.nodeLinkState k ch .down) s = .next t ∧ ((node t k.toNat).ch.get ch).mode = .init ∧
      (node t k.toNat).outputs = (node s k.toNat).outputs ∧ (∀ j : BitVec 6, j ≠ k → node t j.toNat = node s j.toNat) ∧ t.ctl = s.ctl) ∧
    (((node s k.toNat).ch.get ch).mode = .init → ∃ t, exec (.nodeLinkState k ch .up) s = .next t ∧
      ((node t k.toNat).ch.get ch).mode = .listen ∧ (∀ j : BitVec 6, j ≠ k → node t j.toNat = node s j.toNat)) ∧
    (cycleOver s k.toNat = true → ∃ t, exec (.nodeLinkState k ch .cycleEnd) s = .next t ∧
      (node t k.toNat).ch.get ch = endCycle ((node s k.toNat).ch.get ch) ∧ (∀ j : BitVec 6, j ≠ k → node t j.toNat = node s j.toNat)) ∧
    (((node s k.toNat).ch.get ch).mode = .active → ((node s k.toNat).ch.get ch).activeAt ≠ (node s k.toNat).cycle →
      (node s k.toNat).muted = false → ((node s k.toNat).ch.get ch).beacon = true → ((node s k.toNat).ch.get ch).sentUseq = [] →
      sendAt (node s k.toNat) ch ≤ 40 * s.clk.tick + 100 → ∀ nfault : Bool, ∃ t, exec (.nodeUpframeSend k ch nfault) s = .next t ∧
        ((node t k.toNat).ch.get ch).useq = ((node s k.toNat).ch.get ch).useq + 1 ∧
        ((node t k.toNat).ch.get ch).first = false ∧
        ((node t k.toNat).ch.get ch).tx = some ((sendAt (node s k.toNat) ch).toNat, ownUpframe (node s k.toNat) k.toNat ch nfault) ∧
        ((node t k.toNat).ch.get ch).sentUseq = [((node s k.toNat).cycle, ((node s k.toNat).ch.get ch).useq + 1)]))

/-- R304, R306: at the end of its cycle a NATIVE node with a channel that stays in SYNC or ACTIVE applies the one payload that its channels received; where
neither brought one, or none stays, it takes its restrictive outputs. It then samples its inputs. -/
def Sys2Proof.Claims.NodeAppliesItsOutputs : Prop :=
  ∀ (s : State) (k : BitVec 6) (samples : List Byte), (node s k.toNat).cfg.chanA = true ∨ (node s k.toNat).cfg.chanB = true →
    (node s k.toNat).cfg.compat = false → cycleOver s k.toNat = true →
    let q := (node s k.toNat).ch.map endCycle
    let on := timed q.a || timed q.b
    ∃ t, exec (.nodeOutputApply k samples) s = .next t ∧
      (∀ pl, outputDecision q.a.rx q.b.rx = some pl → on = true → (node t k.toNat).outputs = pl ∧ (node t k.toNat).nrestr = false) ∧
      (outputDecision q.a.rx q.b.rx = none ∨ on = false → (node t k.toNat).outputs = restrOutputs (node s k.toNat) ∧
        (node t k.toNat).nrestr = true) ∧
      (on = true → (node t k.toNat).samples = padTo (2 * (node s k.toNat).cfg.n) samples ∧ (node t k.toNat).cycle = (node s k.toNat).cycle + 1) ∧
      (∀ j : BitVec 6, j ≠ k → node t j.toNat = node s j.toNat) ∧ t.ctl = s.ctl ∧ t.mgt = s.mgt

/-- R327, R328: at CI(a + 17) a confirmed change of schedule is in force; in scan a + 15 a change that every port acknowledged is confirmed, by each
lane as it latched the acknowledgements. -/
def Sys2Proof.Claims.ScheduleChangeTakesForce : Prop :=
  ∀ (s : State) (c : SchedChange) (a : Scn), s.data.sched.change = some c → c.a = some a →
    (c.confirmed = some true → scnBefore (BitVec.ofNat 32 s.clk.tb2) (boundaryOf a) = false →
      exec .schedChangeBoundary s = .next (onSched (fun x => { x with inForce := c.t }) s)) ∧
    (ctlRuns s = true → c.confirmed = none → scn s = a + 15 →
      (confirmedOf s c = true → ∃ t, exec .schedChangeDecision s = .next t ∧ t.data.sched.change = some { c with confirmed := some true } ∧
        (∀ l, lane t l = { lane s l with change := (lane s l).change.map (fun x => { x with decided := some (laneConfirms s l) }) }) ∧
        t.data.sched.inForce = s.data.sched.inForce ∧ t.ctl = { s.ctl with lanes := t.ctl.lanes }) ∧
      (confirmedOf s c = false → ∃ t, exec .schedChangeDecision s = .next t ∧ t.data.sched.change = none ∧
        (∀ l, lane t l = { lane s l with change := none }) ∧ t.data.sched.inForce = s.data.sched.inForce ∧
        t.ctl = { s.ctl with lanes := t.ctl.lanes }))

/-- R301: a downframe that a node ignores, and one on a channel in INIT, changes nothing. R303: a beacon frame that it takes moves its channel. -/
def Sys2Proof.Claims.NodeTakesDownframes : Prop :=
  ∀ (s : State) (k : BitVec 6) (ch : Chan) (start : Nat) (b : List Byte), attached (node s k.toNat) ch = true →
    let c := classify (node s k.toNat) k.toNat ch start b
    (((node s k.toNat).ch.get ch).mode = .init → exec (.nodeDownframeReceive k ch start (some b)) s = .next s) ∧
    (((node s k.toNat).ch.get ch).mode ≠ .init → c = .ignored → exec (.nodeDownframeReceive k ch start (some b)) s = .next s) ∧
    (fcsCorrect b = false ∨ frameDa b ≠ nodeAddr ch k.toNat ∨ frameSa b ≠ starAddr ch k.toNat ∨ hdrByte b 0 % 16 ≠ 1 → c = .ignored) ∧
    (((node s k.toNat).ch.get ch).mode = .listen → c ≠ .ignored →
      ∃ t, exec (.nodeDownframeReceive k ch start (some b)) s = .next t ∧ ((node t k.toNat).ch.get ch).beacon = true ∧
        ((beaconOf start b).reint = false → ((node t k.toNat).ch.get ch).mode = .sync) ∧
        (∀ j : BitVec 6, j ≠ k → node t j.toNat = node s j.toNat) ∧ t.ctl = s.ctl)

/-! ### Vital inputs, outputs, switches and the removal loop (R211 to R237, R580) -/

/-- R212, R213, R575: samples of a contact up to a VIO tick step the run of equal unmasked samples; the contact takes their level once the run reaches its
filter's length N, and keeps its filtered state below it. No other channel changes. -/
def Sys2Proof.Claims.ContactTakesItsFilteredState : Prop :=
  ∀ (s : State) (c : BitVec 5) (b : Bool) (v : BitVec 16) (n : Nat), contactUsed s c.toNat b = true → vioTick s = true →
    (vinCfgOf s c.toNat).trip = false →
    let old := contactOf b (vinOf s c.toNat)
    let level := readsClosed old.raw v
    let x := feedContact s.clk.tick c.toNat b level n old
    let full := filterSamples (vinCfgOf s c.toNat).filter ≤ x.run ∧ masked s.clk.tick c.toNat b = false
    ∃ t, exec (.contactFilterChange c b v n) s = .next t ∧
      (full → (contactOf b (vinOf t c.toNat)).closed = level) ∧ (¬ full → (contactOf b (vinOf t c.toNat)).closed = old.closed) ∧
      (contactOf b (vinOf t c.toNat)).raw = level ∧ (contactOf b (vinOf t c.toNat)).run = x.run ∧
      (contactOf (!b) (vinOf t c.toNat)) = contactOf (!b) (vinOf s c.toNat) ∧
      (∀ d : BitVec 5, d ≠ c → vinOf t d.toNat = vinOf s d.toNat) ∧ t.ctl.vio.vout = s.ctl.vio.vout ∧ t.ctl.lanes = s.ctl.lanes ∧
      t.ctl.voter = s.ctl.voter ∧ t.data = s.data

/-- R216: contacts of a dual channel that have differed for DISC_MS make the channel discrepant. -/
def Sys2Proof.Claims.DifferingContactsAreDiscrepant : Prop :=
  ∀ (s : State) (c : BitVec 5) (at_ : Nat), contactUsed s c.toNat true = true → (vinCfgOf s c.toNat).trip = false → (vinOf s c.toNat).differSince = some at_ →
    (vinOf s c.toNat).discrepant = false →
    (let u := (vinCfgOf s c.toNat).use
     permissive u false (contactRead u false (vinOf s c.toNat).a) ≠ permissive u true (contactRead u true (vinOf s c.toNat).b)) → at_ + discTicks (vinCfgOf s c.toNat) ≤ s.clk.tick →
    ∃ t, exec (.discrepancyExpiry c) s = .next t ∧ (vinOf t c.toNat).discrepant = true ∧
      (∀ d : BitVec 5, d ≠ c → vinOf t d.toNat = vinOf s d.toNat) ∧ t.ctl.vio.vout = s.ctl.vio.vout

/-- R214, R215: a closed contact whose last three samples of its own test slot do not read open is in FAULT; eight passes in a row end the fault; a contact
that its last unmasked sample read open is not tested. A slot counts once. -/
def Sys2Proof.Claims.ContactTestJudgesItsSlot : Prop :=
  ∀ (s : State) (c : BitVec 5) (b : Bool) (last : BitVec 16) (vs : List (BitVec 16)), contactUsed s c.toNat b = true →
    (vinCfgOf s c.toNat).trip = false → s.clk.tick / 12500 % 64 = c.toNat + 32 * b2n b → vs.length = 20 → 19 ≤ slotSample s.clk.tick →
    (contactOf b (vinOf s c.toNat)).slot ≠ s.clk.tick / 12500 + 1 →
    let x := contactOf b (vinOf s c.toNat)
    let closed := readsClosed x.raw last
    let opened := ((samplesOf closed vs).drop 17).all (fun q => !q)
    ∃ t, exec (.vinTestSlot c b last vs) s = .next t ∧ (contactOf b (vinOf t c.toNat)).slot = s.clk.tick / 12500 + 1 ∧
      (closed = true → opened = false → (contactOf b (vinOf t c.toNat)).fault = true ∧ (contactOf b (vinOf t c.toNat)).passes = 0) ∧
      (closed = true → opened = true → x.fault = true → x.passes = 7 → (contactOf b (vinOf t c.toNat)).fault = false) ∧
      (closed = true → opened = true → x.passes < 7 → (contactOf b (vinOf t c.toNat)).fault = x.fault ∧
        (contactOf b (vinOf t c.toNat)).passes = x.passes + 1) ∧
      (closed = false → (contactOf b (vinOf t c.toNat)).fault = x.fault ∧ (contactOf b (vinOf t c.toNat)).passes = x.passes)

/-- R232: a trip-class channel whose VALUE falls while the control plane runs is trip trigger 0x0A: every output loses its drive and every lane stops. -/
def Sys2Proof.Claims.TripClassInputTrips : Prop :=
  ∀ (s : State) (c : BitVec 5) (b : Bool) (v : BitVec 16) (n : Nat), contactUsed s c.toNat b = true → vioTick s = true →
    (vinCfgOf s c.toNat).trip = true → (vinOf s c.toNat).value = true →
    let old := contactOf b (vinOf s c.toNat)
    let x := feedContact s.clk.tick c.toNat b (readsClosed old.raw v) n old
    filterSamples (vinCfgOf s c.toNat).filter ≤ x.run → masked s.clk.tick c.toNat b = false →
    (evalVin (vinCfgOf s c.toNat) s.clk.tick (onContact b (fun _ => { x with closed := readsClosed old.raw v }) (vinOf s c.toNat))).value = false →
    ctlRuns s = true → domRun s 3 = true → ∃ t, exec (.contactFilterChange c b v n) s = .next t ∧ t.ctl.trip.inForce = true ∧
      t.ctl.trip.mask = 0x0010#16 ∧ t.ctl.trip.ctrlReset = true ∧ t.ctl.trip.t0 = s.clk.tick ∧
      (∀ p ∈ t.ctl.vio.vout, VoutDead p.2) ∧ (∀ l, (lane t l).core.phase = .stopped)

/-- R221 to R225: over-current, a terminal that does not follow its command, and a test window step that fails take the drive off the output and
fail it with their cause; a read-back that agrees changes nothing. -/
def Sys2Proof.Claims.OutputFaultsFailTheOutput : Prop :=
  ∀ (s : State) (k : BitVec 5), k.toNat ≤ 16 → domRun s 11 = true → (voutOf s k.toNat).failed = none → (voutOf s k.toNat).retest = false →
    let v := voutOf s k.toNat
    let failed := fun (i : Instr) (cause : Nat) => ∃ t, exec i s = .next t ∧ (voutOf t k.toNat).failed = some cause ∧
      (voutOf t k.toNat).gate = false ∧ (voutOf t k.toNat).commanded = false ∧
      (∀ j : BitVec 5, j ≠ k → voutOf t j.toNat = voutOf s j.toNat) ∧ t.ctl.lanes = s.ctl.lanes ∧ t.data = s.data
    (∀ ma, v.commanded = true → overloadMa k.toNat < ma → failed (.voutOvercurrent k ma) 1) ∧
    (judgementDue s k.toNat = true → ∀ r : Readback,
      (v.commanded = true → overloadMa k.toNat < r.ma → failed (.voutReadback k r) 1) ∧
      (v.commanded = true → r.ma ≤ overloadMa k.toNat → corrected s r.mv < 20000 → stageDead s k.toNat = false → failed (.voutReadback k r) 2) ∧
      (v.commanded = false → 2000 < corrected s r.mv → failed (.voutReadback k r) 7) ∧
      (v.commanded = true → r.ma ≤ overloadMa k.toNat → 20000 ≤ corrected s r.mv → r.carrier = false → failed (.voutReadback k r) 9) ∧
      (v.commanded = false → corrected s r.mv ≤ 2000 → r.carrier = true → failed (.voutReadback k r) 9) ∧
      ((v.commanded = true ∧ r.ma ≤ overloadMa k.toNat ∧ 20000 ≤ corrected s r.mv ∧ r.carrier = true) ∨
        (v.commanded = false ∧ corrected s r.mv ≤ 2000 ∧ r.carrier = false) → exec (.voutReadback k r) s = .next s)) ∧
    ((voter s).running = true → (voter s).released = true → s.ctl.trip.inForce = false → testScan s k.toNat = true → v.changedAt = 0 →
      s.ctl.followers.vio.lastCi + 500 ≤ s.clk.tick → s.clk.tick ≤ s.ctl.followers.vio.lastCi + 2000 → stageDead s k.toNat = false →
      ∀ c1 c2 c3 : Bool,
        (∀ cause, testCause v.commanded c1 c2 c3 = some cause → failed (.voutTestWindow k c1 c2 c3) cause) ∧
        (testCause v.commanded c1 c2 c3 = none → ∃ t, exec (.voutTestWindow k c1 c2 c3) s = .next t ∧ (voutOf t k.toNat).failed = none ∧
          (voutOf t k.toNat).commanded = v.commanded ∧ (voutOf t k.toNat).testing = false ∧
          (∀ j : BitVec 5, j ≠ k → voutOf t j.toNat = voutOf s j.toNat)))

/-- R224: once a scan the converters are calibrated: a correction beyond its bounds fails every output that is not FAILED already with cause 8; any
other is kept, and a scan's mean current of an energised output counts towards what its load is learned to be. -/
def Sys2Proof.Claims.BadCalibrationFailsEveryOutput : Prop :=
  ∀ (s : State), domRun s 11 = true → (∀ at_, s.ctl.vio.calAt = some at_ → at_ < s.ctl.followers.vio.lastCi) → ∀ zero full : Int,
    (500 < zero ∨ zero < -500 ∨ 105 * (full - zero) < 2400000 ∨ 2400000 < 95 * (full - zero) → beyondBounds zero full = true) ∧
    (beyondBounds zero full = true → ∀ cs, ∃ t, exec (.voutCalibration zero full cs) s = .next t ∧
      ∀ k : BitVec 5, k.toNat ≤ 16 → ((voutOf s k.toNat).failed = none → (voutOf t k.toNat).failed = some 8 ∧
        (voutOf t k.toNat).gate = false ∧ (voutOf t k.toNat).commanded = false) ∧ (voutOf t k.toNat).failed.isSome = true) ∧
    (beyondBounds zero full = false →
      (∃ t, exec (.voutCalibration zero full []) s = .next t ∧ t.ctl.vio.calZero = zero ∧ t.ctl.vio.calFull = full ∧
        t.ctl.vio.calAt = some s.clk.tick ∧ t.ctl.vio.vout = s.ctl.vio.vout ∧ t.mgt = s.mgt) ∧
      (∀ (k : BitVec 5) (ma : Nat), k.toNat ≤ 16 → (voutOf s k.toNat).commanded = true → (voutOf s k.toNat).failed = none →
        (voutOf s k.toNat).learnCount < 64 → ∃ t, exec (.voutCalibration zero full [(k.toNat, ma)]) s = .next t ∧
          (voutOf t k.toNat).learnCount = (voutOf s k.toNat).learnCount + 1 ∧ (voutOf t k.toNat).learnSum = (voutOf s k.toNat).learnSum + ma ∧
          (voutOf t k.toNat).failed = none ∧ (voutOf t k.toNat).commanded = true))

/-- R229: a loop reading is due every 100 us; two readings of one class in a row set LOOP to it; a first reading of another class is kept only as the last
reading. -/
def Sys2Proof.Claims.LoopNeedsTwoReadings : Prop :=
  ∀ (s : State) (ohms : Nat), domRun s 11 = true → (∀ at_, s.ctl.vio.loopAt = some at_ → at_ + 2500 ≤ s.clk.tick) → s.mgt.start.service = false →
    ∃ t, exec (.loopMeasurement ohms) s = .next t ∧ t.ctl.vio.reading = loopClass ohms ∧ t.ctl.vio.loopAt = some s.clk.tick ∧
      t.ctl.vio.loop = (if loopClass ohms = 0 ∨ s.ctl.vio.reading = loopClass ohms then loopClass ohms else s.ctl.vio.loop) ∧
      t.ctl.vio.vout = s.ctl.vio.vout ∧ t.ctl.trip = s.ctl.trip ∧ t.data = s.data

/-- R230, R232: the loop found open or shorted in SERVICE while the control plane runs is trip trigger 0x0B: no output has drive any more. -/
def Sys2Proof.Claims.OpenLoopTripsInService : Prop :=
  ∀ (s : State) (ohms : Nat), domRun s 11 = true → domRun s 3 = true → (∀ at_, s.ctl.vio.loopAt = some at_ → at_ + 2500 ≤ s.clk.tick) →
    s.mgt.start.service = true → ctlRuns s = true →
    (voter s).released = true → s.ctl.vio.loop = 0 → loopClass ohms ≠ 0 → s.ctl.vio.reading = loopClass ohms →
    ∃ t, exec (.loopMeasurement ohms) s = .next t ∧ t.ctl.trip.inForce = true ∧ t.ctl.trip.mask = 0x0020#16 ∧
      t.ctl.trip.ctrlReset = true ∧ t.ctl.vio.loop = loopClass ohms ∧ (∀ p ∈ t.ctl.vio.vout, VoutDead p.2) ∧
      (∀ l, (lane t l).core.phase = .stopped)

/-- R227, R228: a half's 1 ms sample steps the run of its pole of every switch; poles that at a sample of both halves have differed for more than 200 ms set
SEAL_FAULT, and every switch then counts as off. -/
def Sys2Proof.Claims.SwitchPolesAreSampled : Prop :=
  (∀ (s : State) (levels : Byte), sampleDue s .x = true → ∃ t, exec (.switchPoleSample .x levels) s = .next t ∧
    (∀ i, 1 ≤ i → i ≤ 8 → smGet Pole.zero t.ctl.seals.poles.x i = samplePole (levels.getLsbD (i - 1)) (smGet Pole.zero s.ctl.seals.poles.x i)) ∧
    t.ctl.seals.sampled.x = some s.clk.tick ∧ t.ctl.seals.poles.y = s.ctl.seals.poles.y) ∧
  (∀ (s : State) (i at_ : Nat), s.ctl.seals.fault = false → (i, at_) ∈ s.ctl.seals.diffSince → at_ + msTicks 200 < s.clk.tick →
    s.ctl.seals.sampled.x = some s.clk.tick → (∃ y, s.ctl.seals.sampled.y = some y ∧ s.clk.tick < y + 25000) →
    ∃ t, exec .sealFaultExpiry s = .next t ∧ t.ctl.seals.fault = true ∧ (∀ j, switchOn t j = false))

/-- R580: VF below 17.0 V for 1 ms sets VF_LOW and closes every gate; 18.0 V for 100 ms clears it. -/
def Sys2Proof.Claims.LowFieldSupplyClosesEveryGate : Prop :=
  (∀ (s : State) (v : BitVec 16) (n : Nat), domRun s 11 = true → s.mgt.elec.vfLow = false → v.toNat < 170 → 25000 ≤ n →
    ∃ t, exec (.vfLowSet v n) s = .next t ∧ t.mgt.elec.vfLow = true ∧ (∀ k : BitVec 4, (voutOf t k.toNat).gate = false) ∧
      (∀ k : BitVec 5, (voutOf t k.toNat).commanded = (voutOf s k.toNat).commanded) ∧ t.ctl.trip = s.ctl.trip ∧ t.ctl.lanes = s.ctl.lanes) ∧
  (∀ (s : State) (v : BitVec 16) (n : Nat), domRun s 11 = true → s.mgt.elec.vfLow = true → 180 ≤ v.toNat → msTicks 100 ≤ n →
    ∃ t, exec (.vfLowClear v n) s = .next t ∧ t.mgt.elec.vfLow = false ∧ t.ctl = s.ctl)

/-- R232, R233, R236: a supply collapse trips a running control plane; a star in RUN confirms within 20 us with its downframes ended, and one that has not
by then is missed: both put the trip's record on its way. -/
def Obligations.TripIsConfirmedByTheStars : Prop :=
  (∀ (s : State) (v : BitVec 16) (n : Nat), v.toNat < 160 → 1250 ≤ n → ctlRuns s = true → domRun s 3 = true →
    ∃ t, exec (.supplyCollapseWarning v n) s = .next t ∧ t.ctl.trip.inForce = true ∧
    t.ctl.trip.supplyLow = true ∧ t.ctl.trip.confirm.a = .pending ∧ t.ctl.trip.mask = 0x0040#16 ∧
    (∀ p ∈ t.ctl.vio.vout, VoutDead p.2) ∧ (∀ l, (lane t l).core.phase = .stopped)) ∧
  (∀ (s : State) (c : Chan), s.ctl.trip.inForce = true → s.ctl.trip.confirm.get c = .pending → s.clk.tick ≤ s.ctl.trip.t0 + 500 →
    s.ctl.trip.confirm.get c.other = .pending → exec (.starConfirmation c) s =
      .next (onTrip (fun t => { t with confirm := t.confirm.set c (.confirmed (s.clk.tick - t.t0)) })
        (onStar c (fun x => { x with substitution := true, sent := abortDown s.clk.tick x.sent }) s))) ∧
  (∀ (s : State), s.ctl.trip.inForce = true → s.ctl.trip.confirm = ⟨.pending, .notRunning⟩ → s.ctl.trip.t0 + 500 ≤ s.clk.tick →
    s.ctl.trip.recorded = false → s.ctl.trip.ctrlReset = false → domRun s 3 = false → ∃ t, exec .starConfirmTimeout s = .next t ∧
      t.ctl.trip.recorded = true ∧ t.ctl.trip.confirm = ⟨.missed, .notRunning⟩ ∧ ResetSrc.starReset .a ∈ t.power.sources ∧
      (0x0102 ∈ t.mgt.recorder.reports.map (·.code)))

/-! ### Power, resets and starts (R37 to R44, R479 to R518, R573 to R584) -/

/-- R479, R43: a source that is asserted holds every domain that it reaches, and stays among the sources; a lane or star that the variant lacks has none. -/
def Sys2Proof.Claims.AssertedSourceHoldsItsDomains : Prop :=
  ∀ (s : State) (r : ResetSrc), asserted s r = false → (r = .resetN → s.ret.stuckReset = false) → (r = .watchdog → domRun s 1 = true) →
    (∃ t, exec (.resetSourceAssert r) s = .next t ∧ (∀ d ∈ reach r, d ≠ 0 → domRun t d = false) ∧
      ((∃ d ∈ reach r, domAbsent s.variant d = false) → r ∈ t.power.sources)) ∧
    (r = .mainPor → ∀ mV n out, out = true ∨ mV < 15000 ∧ 250 ≤ n → ∃ t, exec (.mainPor mV n out) s = .next t ∧ (∀ d ∈ reach r, d ≠ 0 → domRun t d = false) ∧ .mainPor ∈ t.power.sources ∧
      t.mgt.start.storeCharged = false) ∧
    (r = .retPor → ∀ mV, mV < 2000 → ∃ t, exec (.retPor mV) s = .next t ∧ (∀ d ∈ reach r, d ≠ 0 → domRun t d = false) ∧ .retPor ∈ t.power.sources ∧
      t.ret = RetState.zero ∧ t.clk.tb3Ticks = 0 ∧ t.clk.hoursPending = 0) ∧
    (r = .watchdog → ∃ t, exec .mgtWatchdogExpiry s = .next t ∧ domRun t 1 = false ∧ t.mgt.start.booted = false ∧
      t.mgt.start.wdBoot = true ∧ t.ctl.voter = s.ctl.voter ∧ t.ctl.vio = s.ctl.vio)

/-- R479, R482, R488, R491, R573: a source whose hold time is over is asserted no longer; the next domain in the order leaves reset: MGT's samples its
strap and measures its store, the voter's ends a trip and makes the cause of the restart known. -/
def Sys2Proof.Claims.SourcesAndDomainsAreReleased : Prop :=
  ∀ (s : State),
    (∀ (r : ResetSrc) (mV n : Nat) (rest : Bool), mayRelease s r mV n rest = true →
      ∃ t, exec (.resetSourceRelease r mV n rest) s = .next t ∧ r ∉ t.power.sources ∧
      (∀ q, q ∈ t.power.sources → q ∈ s.power.sources)) ∧
    (∀ (d : Nat) (strap : List Nat) (mj : Nat), nextDomain s = some d → d = 6 ∨ d = 11 →
      exec (.domainRelease strap mj) s = .next (onPower (fun p => { p with lastRelease := s.clk.tick }) (setDom d .run s))) ∧
    (∀ (d : Nat) (strap : List Nat) (mj : Nat), nextDomain s = some d → d = 2 ∨ d = 3 ∨ d = 4 →
      ∃ t, exec (.domainRelease strap mj) s = .next t ∧ dom t d = .run ∧ t.power.lastRelease = s.clk.tick ∧ t.ctl = s.ctl ∧
        (d = 3 → (star t .a).mode = .coldStart) ∧ (d = 4 → (star t .b).mode = .coldStart)) ∧
    (∀ (strap : List Nat) (mj : Nat), nextDomain s = some 1 → ∃ t, exec (.domainRelease strap mj) s = .next t ∧ dom t 1 = .run ∧
      t.power.bootCfg = some ((strapCode strap).getD 15) ∧ t.mgt.elec.storeWeak = decide (mj < 2700) ∧ t.power.lastRelease = t.clk.tick) ∧
    (∀ (strap : List Nat) (mj : Nat), nextDomain s = some 5 → s.mgt.bist.running = true ∨ s.mgt.start.inAttempt = true →
      ∃ t, exec (.domainRelease strap mj) s = .next t ∧ dom t 5 = .run ∧ t.power.lastRelease = s.clk.tick ∧ t.ctl.trip.inForce = false ∧
        t.mgt.start.restartCause = lowestCause s.mgt.start.causes ∧ t.mgt.start.causes = [] ∧ t.ctl.lanes = s.ctl.lanes) ∧
    (∀ (l : Lane) (strap : List Nat) (mj : Nat), nextDomain s = some (laneDom l) → ∃ t, exec (.domainRelease strap mj) s = .next t ∧
      dom t (laneDom l) = .run ∧ t.power.lastRelease = s.clk.tick ∧ (∀ m, m ≠ l → lane t m = lane s m) ∧
      ((voter s).running = false → t.ctl = s.ctl))

/-- R489, R490: 10 ms of equal samples, and no fewer, change RESET_N's debounced level; low for more than 60 s is STUCK_RESET, which ends after 1 s
high, counted from the first of the samples that raised the level. -/
def Sys2Proof.Claims.ResetPinIsDebounced : Prop :=
  ∀ (s : State) (n : Nat), asserted s .mainPor = false → asserted s .retPor = false → 250000 ≤ n →
    (∀ (level : Bool) (m : Nat), m < 250000 → exec (.resetNDebounce level m) s = .next s) ∧
    (s.ret.resetnLevel = true → s.ret.stuckReset = false → ∃ t, exec (.resetNDebounce false n) s = .next t ∧ t.ret.resetnLevel = false ∧
      t.ret.levelSince = s.clk.tick ∧ .resetN ∈ t.power.sources ∧ (∀ d, 1 ≤ d → d ≤ 11 → domRun t d = false)) ∧
    (s.ret.resetnLevel = false → s.ret.stuckReset = true → exec (.resetNDebounce true n) s =
      .next (onRet (fun r => { r with resetnLevel := true, levelSince := s.clk.tick }) s)) ∧
    (s.ret.resetnLevel = false → s.ret.stuckReset = false → asserted s .resetN = true → s.power.refclkHeld = false →
      ∃ t, exec (.resetNDebounce true n) s = .next t ∧ t.ret.resetnLevel = true ∧ .resetN ∉ t.power.sources) ∧
    (s.ret.resetnLevel = false → s.ret.stuckReset = false → asserted s .resetN = true → s.ret.levelSince + 1500000000 < s.clk.tick →
      ∃ t, exec .resetNStuck s = .next t ∧ t.ret.stuckReset = true ∧ .resetN ∉ t.power.sources ∧ t.ctl = s.ctl) ∧
    (s.ret.resetnLevel = true → s.ret.stuckReset = true → s.ret.levelSince + 24750000 ≤ s.clk.tick →
      exec .resetNStuckClear s = .next (onRet (fun r => { r with stuckReset := false }) s))

/-- R37 to R41: a reading that exceeds a limit is recorded with the island it concerns (a clock by 2 %, a voltage by 5 %, a neighbour's temperature by 40 K),
and a lane's seat stands until the next release judges it; a condition is clear after 64 readings in limit, a temperature's below 35 K. R35: a lane that
gets a damaged word withdraws with cause 0x83, and NET or MGT has the word sent again. -/
def Sys2Proof.Claims.IslandLimitsAndBridges : Prop :=
  (∀ (i : Island) (v : W32), (∃ r, readingOf i .clock v = some r ∧ r.island = i ∧ (r.out = true ↔ v.toInt < -2000 ∨ 2000 < v.toInt) ∧ r.clears = !r.out) ∧
    (∃ r, readingOf i .voltage v = some r ∧ r.island = i ∧ (r.out = true ↔ v.toInt < -500 ∨ 500 < v.toInt) ∧ r.clears = !r.out) ∧
    (∀ r, readingOf i .temperature v = some r → (r.out = true → r.clears = false))) ∧
  ∀ (s : State),
    (∀ (i : Island) (q : Quantity) (v : W32) (r : Reading), domRun s (islandDom i) = true → readingOf i q v = some r →
      (∀ l : Lane, r.island = .lane l → r.out = true → (limitAt s r.key).out = false →
        ∃ t, exec (.islandLimitMeasurement i q v) s = .next t ∧ limitAt t r.key = ⟨true, 0, (Island.lane l).code, r.value⟩ ∧
        t.ctl.voter = s.ctl.voter ∧ t.ctl.lanes = s.ctl.lanes ∧
        (t.mgt.recorder.reports.map (·.code)) = s.mgt.recorder.reports.map (·.code) ++ [0x0104]) ∧
      ((limitAt s r.key).out = true → exec (.islandLimitMeasurement i q v) s = .next (onLimit r.key (fun x =>
        { x with inRun := if r.clears then (if q = .temperature then 64 else min 64 (x.inRun + 1)) else 0, last := r.value }) s)) ∧
      (r.out = false → (limitAt s r.key).out = false → exec (.islandLimitMeasurement i q v) s = .next s)) ∧
    (∀ (l : Lane) (j : Island), let k := limitKey (.lane l) .clock
      (limitAt s k).out = true → 64 ≤ (limitAt s k).inRun → (limitAt s k).who = (Island.lane l).code →
      ∃ t, exec (.islandLimitClear (.lane l) .clock j) s = .next t ∧ limitAt t k = LimitState.zero ∧
        t.ctl.voter = s.ctl.voter ∧ t.ctl.lanes = s.ctl.lanes) ∧
    (∀ (l : Lane) (tx : Island) (again : Bool), tx ≠ .lane l → domRun s (laneDom l) = true → domRun s (islandDom tx) = true →
      ∃ t, exec (.bridgeParityFault (.lane l) tx again) s = .next t ∧ (lane t l).commit.renewBad = true ∧
        ((lane s l).core.phase ≠ .stopped → (lane s l).core.active.isSome = true → (lane s l).commit.withdraw = none →
          (lane t l).commit.withdraw = some 0x83 ∧ (lane t l).core.phase = .stopped) ∧
        (∀ m, m ≠ l → lane t m = lane s m) ∧
        (t.mgt.recorder.reports.map (·.code)) = s.mgt.recorder.reports.map (·.code) ++ [0x020A]) ∧
    (∀ (rx tx : Island), rx = .net ∨ rx = .mgt → tx ≠ rx → domRun s (islandDom rx) = true → domRun s (islandDom tx) = true →
      exec (.bridgeParityFault rx tx false) s =
        .next (onCtl (fun c => { c with bridgeTries := smSet 0 c.bridgeTries (bridgeKey rx tx) 1 }) s))

/-- R497, R500, R501: an attempt that has not voted by its bound fails: the counter of failed starts goes up, the module is in bivouac, CTRL_RESET holds the
control plane for the backoff wait. R499: one that has run 60 s has succeeded and the counters are 0. -/
def Sys2Proof.Claims.StartAttemptsSucceedOrFail : Prop :=
  ∀ (s : State), s.mgt.start.inAttempt = true →
    (domRun s 1 = true → s.mgt.start.runSince = none → s.mgt.start.began + s.mgt.start.bound + s.mgt.start.held < s.clk.tick →
      s.ret.sram.bankFails < 3 → ∃ t, exec .startTimeout s = .next t ∧ t.mgt.start.inAttempt = false ∧ t.mgt.start.bivouac = true ∧
        t.mgt.start.service = false ∧ t.ret.failedStarts.toNat = min 65535 (s.ret.failedStarts.toNat + 1) ∧
        .ctrlReset ∈ t.power.sources ∧ (∀ d, 5 ≤ d → d ≤ 11 → domRun t d = false) ∧
        t.mgt.start.backoffUntil = some (s.clk.tick + 25000000 * backoffSeconds (min 65535 (s.ret.failedStarts.toNat + 1)))) ∧
    (∀ at_, s.mgt.start.runSince = some at_ → mgtUp s = true → ctlRuns s = true → at_ + 1500000000 ≤ s.clk.tick →
      s.mgt.upd.mode = .idle → ∃ t, exec .startAttemptSuccess s = .next t ∧ t.mgt.start.inAttempt = false ∧ t.ret.failedStarts = 0 ∧
        t.ret.sram.bankFails = 0 ∧ t.mgt.start.result = 0 ∧ t.ctl = s.ctl) ∧
    (∀ at_, s.mgt.start.backoffUntil = some at_ → mgtUp s = true → at_ ≤ s.clk.tick → ∃ t, exec .backoffExpiry s = .next t ∧
      t.mgt.start.backoffUntil = none ∧ .ctrlReset ∉ t.power.sources ∧ t.ctl = s.ctl)

/-- R494, R498, R141: once the bank's firmware verifies MGT runs and takes commands; once everything that the control plane runs from is loaded and checked, the
voter runs with the image's T_scan, and no scan has been released. -/
def Sys2Proof.Claims.ModuleBootsAndLoads : Prop :=
  (∀ (s : State) (k : Nat), domRun s 1 = true → s.mgt.start.booted = false → s.power.recovery = false → s.power.bootCfg = some k → 8 ≤ k →
    s.mgt.start.inAttempt = false → s.mgt.start.wdBoot = false → s.mgt.store.shutdownRunning = false → s.mgt.upd.mode = .idle →
    s.data.time.valid = false → ∃ t, exec (.mgtBootComplete true true) s = .next t ∧ t.mgt.start.booted = true ∧ mgtUp t = true ∧
      t.mgt.mbx.ready = true ∧ t.ctl.vio = s.ctl.vio) ∧
  (∀ (s : State) (i : Image), mgtUp s = true → s.mgt.start.inAttempt = true → s.mgt.start.loaded = false → planeReleased s = true →
    (s.mgt.start.kind ≠ .full ∨ s.mgt.start.bistDone = true) → loadRefusal true s = none → startImage s = .ok i →
    ∃ t, exec (.startLoadComplete true) s = .next t ∧ (voter t).running = true ∧ (voter t).released = false ∧ (voter t).votedRun = false ∧
      t.tscan = i.tscan ∧ t.mgt.start.loaded = true ∧ t.ctl.vio.vout = s.ctl.vio.vout)

/-- R360, R391, R478: MGT's main loop counts its heartbeat once a millisecond; at a whole hour MGT takes the hours counted and keeps the cycle counters. -/
def Sys2Proof.Claims.HeartbeatAndHours : Prop :=
  ∀ (s : State), mgtUp s = true →
    (s.clk.beatAt + 25000 ≤ s.clk.tick → s.mgt.upd.mode = .idle → ∃ t, exec .heartbeatTick s = .next t ∧
      t.clk.heartbeat = s.clk.heartbeat + 1 ∧ t.clk.beatAt = s.clk.tick ∧ t.ctl = s.ctl ∧ t.data = s.data ∧
      t.mgt.mbx.regs.sealStatus = sealWord s ∧ t.mgt.mbx.regs.seatStatus = seatStatus s) ∧
    (s.clk.hoursPending ≠ 0 → ∃ t, exec .tb3WholeHour s = .next t ∧ t.clk.hoursPending = 0 ∧ ophHours t = ophHours s ∧
      t.clk.tb3Hours = s.clk.tb3Hours + s.clk.hoursPending ∧ t.mgt.cycles.persisted = s.mgt.cycles.counts ∧
      t.mgt.store.divMirror = diversityLeft s)

/-- R232, R573, R582, R584, R375: the electrical boundary: the supply's recovery, the hold-up store, the backup cell, the inlet air, a network link. -/
def Sys2Proof.Claims.ElectricalEventsAreKept : Prop :=
  ∀ (s : State),
    (∀ (v : BitVec 16) (n : Nat), 180 ≤ v.toNat → msTicks 100 ≤ n →
      exec (.supplyRecovery v n) s = .next (onTrip (fun t => { t with supplyLow := false, supplyOkSince := some s.clk.tick }) s)) ∧
    (asserted s .mainPor = false → asserted s .retPor = false →
      exec .holdupStoreCharged s = .next (onStart (fun x => { x with storeCharged := true }) s)) ∧
    (mgtUp s = true → (cellDue s = true → (∀ mV, 2700 ≤ mV →
        exec (.backupCellMeasure mV) s = .next (onElec (fun e => { e with cellLow := false, cellAt := some s.clk.tick }) s)) ∧
      (∀ mV, mV < 2700 → ∃ t, exec (.backupCellMeasure mV) s = .next t ∧ t.mgt.elec.cellLow = true ∧ t.mgt.elec.cellAt = some s.clk.tick ∧
        t.ctl = s.ctl ∧ t.mgt.recorder.reports.length = s.mgt.recorder.reports.length + 1)) ∧
      (∀ (c : BitVec 16) (n : Nat), 75 < c.toInt → 1500000000 ≤ n → ∃ t, exec (.inletAirOvertemp c n) s = .next t ∧ t.ctl = s.ctl ∧
        t.mgt.recorder.reports.length = s.mgt.recorder.reports.length + 1)) ∧
    (∀ (p : BitVec 3) (up : Bool) (ingress egress : Nat), domRun s 2 = true → p.toNat < 6 → smGet false s.data.net.linkUp p.toNat ≠ up →
      ∃ t, exec (.netLinkChange p up ingress egress) s = .next t ∧ smGet false t.data.net.linkUp p.toNat = up ∧
        (up = true → p.toNat < 4 → smFind t.data.net.latency p.toNat = some (ingress, egress)) ∧
        (∀ q : BitVec 3, q ≠ p → smGet false t.data.net.linkUp q.toNat = smGet false s.data.net.linkUp q.toNat) ∧
        (p = 3#3 → (t.mgt.recorder.reports.map (·.code)) = s.mgt.recorder.reports.map (·.code) ++ [0x0603]) ∧ t.ctl = s.ctl)

/-- R515, R516, R424: a die whose tests have ended is marked done with its result; when the last block of a shutdown BIST has ended the module is held; SYS_RESET
is asserted at its instant. -/
def Sys2Proof.Claims.ShutdownTestsAndHolds : Prop :=
  ∀ (s : State), mgtUp s = true →
    (∀ (b : BitVec 4) (found : DieTest), b.toNat ∈ bistBlocks s → domRun s (blockDom b.toNat) = true → s.mgt.bist.done.getLsbD b.toNat = false →
      s.mgt.bist.running = true → let v := verdict s b.toNat found
      ∃ t, exec (.dieBistDone b found) s = .next t ∧
        t.mgt.bist.done.getLsbD b.toNat = true ∧ t.mgt.bist.lFail.getLsbD b.toNat = !v.lPass ∧
        t.mgt.bist.mFail.getLsbD b.toNat = !v.mPass ∧ t.mgt.bist.repairs = s.mgt.bist.repairs + v.kept.length ∧
        (v.kept ≠ [] → smFind t.mgt.bist.softMap b.toNat = some (smGet [] s.mgt.bist.softMap b.toNat ++ v.kept)) ∧
        t.ctl.voter = s.ctl.voter ∧ s.mgt.recorder.reports.length + 2 ≤ t.mgt.recorder.reports.length) ∧
    (s.mgt.bist.running = true → bistRows.all (fun r => (rowBlocks s r).all (fun b => s.mgt.bist.done.getLsbD b)) = true →
      ∃ t, exec .shutdownBistDone s = .next t ∧ t.power.shutdownHold = true ∧ .sysReset ∈ t.power.sources ∧
        (∀ d, 1 ≤ d → d ≤ 11 → domRun t d = false)) ∧
    (∀ at_, s.power.sysResetAt = some at_ → at_ ≤ s.clk.tick → ∃ t, exec .sysResetAssert s = .next t ∧ t.power.sysResetAt = none ∧
      .sysReset ∈ t.power.sources ∧ (∀ d, 1 ≤ d → d ≤ 11 → domRun t d = false))

/-! ### Time, boundary ports and the network (R357 to R385) -/

/-- R362 to R364, R373: a message of a domain that its port carries acts on that domain's servo: a two-step Sync waits for its Follow_Up, an offset is the
corrected receipt less origin, the port's delay and asymmetry, the delays follow their formulas, and an Announce has the best master selected anew; a
message of another domain is discarded and counted. -/
def Obligations.PtpMessagesServeTheirDomain : Prop :=
  ∀ (s : State) (m : PtpMsg), netUp s = true →
    (domainOf s m = none → ∀ c ∈ [Instr.ptpSync m, .ptpFollowUp m, .ptpAnnounce m, .ptpDelayResp m, .ptpPdelayReq m, .ptpPdelayResp m],
      exec c s = .next (onNet (fun n => { n with discarded := n.discarded + 1 }) s)) ∧
    (∀ (sec : Bool) (cfg : NetCfg), domainOf s m = some sec → s.data.net.cfg = some cfg →
      let v := servoOf s.data.time sec
      let rx : Int := receivedAt s m - m.corr
      let delay := smGet 0 v.delays m.port + portAsym cfg m.port
      let measured := fun (i : Instr) (d : Int) => ∃ t, exec i s = .next t ∧ (servoOf t.data.time sec).meanDelay = d ∧
        smFind (servoOf t.data.time sec).delays m.port = some d ∧ smFind (servoOf t.data.time sec).reqAt m.port = none ∧
        servoOf t.data.time (!sec) = servoOf s.data.time (!sec) ∧ t.ctl = s.ctl ∧ t.mgt = s.mgt
      (v.master = some m.master → -7 ≤ m.interval → m.interval ≤ 1 →
        (m.twoStep = true → exec (.ptpSync m) s = .next (onServo sec (fun u =>
          { u with lastSync := s.clk.tick, interval := m.interval, pending := some (m.seq, rx.toNat) }) s)) ∧
        (m.twoStep = false → ∃ t, exec (.ptpSync m) s = .next t ∧ (servoOf t.data.time sec).lastSync = s.clk.tick ∧
          (servoOf t.data.time sec).offset = rx + v.vOff - m.time - delay ∧
          servoOf t.data.time (!sec) = servoOf s.data.time (!sec) ∧ t.ctl = s.ctl)) ∧
      (∀ rx0 : Nat, v.master = some m.master → v.pending = some (m.seq, rx0) → ∃ t, exec (.ptpFollowUp m) s = .next t ∧
        (servoOf t.data.time sec).pending = none ∧
        (servoOf t.data.time sec).offset = (rx0 : Int) + v.vOff - (m.time + m.corr) - delay ∧ t.ctl = s.ctl) ∧
      (-3 ≤ m.interval → m.interval ≤ 3 → let fs := noteAnnounce s.clk.tick m v.foreign
        ∃ t, exec (.ptpAnnounce m) s = .next t ∧ (servoOf t.data.time sec).foreign = fs ∧
          (servoOf t.data.time sec).master = (bestMaster s.clk.tick { v with foreign := fs }).map (·.master) ∧
          (v.master.isSome = true → (servoOf t.data.time sec).master ≠ v.master → (servoOf t.data.time sec).locked = false) ∧
          servoOf t.data.time (!sec) = servoOf s.data.time (!sec) ∧ t.ctl = s.ctl) ∧
      (∀ (t3 : Nat) (t1 t2 : Int), v.master = some m.master → smFind v.reqAt m.port = some (m.seq, t3) → smFind v.syncAt m.port = some (t1, t2) →
        portP2p cfg m.port = false → measured (.ptpDelayResp m) (((t2 - t1) + (m.time - m.corr - t3)) / 2)) ∧
      (∀ t1 : Nat, smFind v.reqAt m.port = some (m.seq, t1) → portP2p cfg m.port = true →
        measured (.ptpPdelayResp m) ((receivedAt s m - t1 - (m.time2 - m.time) - m.corr) / 2)) ∧
      (portP2p cfg m.port = true → exec (.ptpPdelayReq m) s = .next (onNet (fun n =>
        { n with sentPdelay := n.sentPdelay + (if portTwoStep cfg m.port then 2 else 1) }) s)))

/-- R362, R364, R368, R372: a delay request is kept with its instant; a servo without Sync for three intervals unlocks, a domain whose Announces have timed out has no
master; the time states revert to the primary, expire to FREE and complete their slew; the time map names the cycle instant. -/
def Obligations.TimeStatesMove : Prop :=
  ∀ (s : State) (cfg : NetCfg), s.data.net.cfg = some cfg → domRun s 2 = true →
    (∀ (port : Nat) (p2p : Bool), port < 6 → portP cfg port = true → portP2p cfg port = p2p → smFind s.data.time.p.reqLast port = none →
      exec (.delayReqSend port false p2p) s = .next (onNet (fun n => { n with sentDelayReq := n.sentDelayReq + 1 })
        (onServo false (fun v => { v with
          reqAt := smPut v.reqAt port (s.data.net.sentDelayReq % 65536, (stamp (tb1 s : Int) + egress s port).toNat),
          reqLast := smPut v.reqLast port s.clk.tick }) s))) ∧
    (∀ sec : Bool, (servoOf s.data.time sec).locked = true →
      (servoOf s.data.time sec).lastSync + 3 * intervalTicks (servoOf s.data.time sec).interval ≤ s.clk.tick →
      ∃ t, exec (.syncTimeout sec) s = .next t ∧ (servoOf t.data.time sec).locked = false ∧ (servoOf t.data.time sec).good = 0 ∧
        servoOf t.data.time (!sec) = servoOf s.data.time (!sec) ∧ t.ctl = s.ctl) ∧
    (∀ sec : Bool, (servoOf s.data.time sec).master.isSome = true →
      (∀ f ∈ (servoOf s.data.time sec).foreign, f.last + 3 * intervalTicks f.interval ≤ s.clk.tick) → ∃ t, exec (.announceTimeout sec) s = .next t ∧
      (servoOf t.data.time sec).master = none ∧ (servoOf t.data.time sec).locked = false ∧ t.ctl = s.ctl) ∧
    (cfg.revert = true → s.data.time.mode = .lockedSecondary → s.data.time.p.locked = true →
      s.data.time.p.lockedAt + msTicks 60000 ≤ s.clk.tick → ∃ t, exec .primaryRevert s = .next t ∧
        t.data.time.mode = .lockedPrimary ∧ t.ctl = s.ctl) ∧
    (s.data.time.mode = .holdover → s.data.time.holdSince + 25000000 * cfg.holdoverS ≤ s.clk.tick →
      ∃ t, exec .holdoverExpiry s = .next t ∧ t.data.time.mode = .free ∧ t.data.time.slew = none ∧ t.data.time.freq = 0 ∧
        t.data.time.tb0 = s.data.time.tb0 ∧ t.ctl = s.ctl) ∧
    (∀ (d : Int) (sec : Bool), s.data.time.slew = some d → selectedDomain s.data.time.mode = some sec → absI (stepTo s sec) < fiftyNs →
      exec .slewComplete s = .next (onTime (fun t => { adjust (stepTo s sec) t with slew := none, fault := false }) s)) ∧
    (mgtUp s = true → s.data.time.valid = true → s.data.time.map = none → ∃ t m, exec .timeMapRecord s = .next t ∧
      t.data.time.map = some m ∧ m.tb2 = s.clk.tb2 ∧ t.ctl = s.ctl ∧ t.data.time.tb0 = s.data.time.tb0)

/-- R378 to R380: a frame that NET passes and whose rows stand is a telegram for every lane that runs; after the publication of its scan a port sends one telegram
with the snapshot's image; without an agreed code none leaves and the miss is reported. -/
def Sys2Proof.Claims.BoundaryTelegramsPass : Prop :=
  ∀ (s : State) (p : Bnd), bndEnabled s p = true →
    (∀ (b : List Byte), (voter s).running = true → netPasses s p b = true → telegramRows s p b = true →
      ∃ t, exec (.boundaryTelegramReceive p b) s = .next t ∧
      (∀ l, domRun s (laneDom l) = true → (lane s l).core.active.isSome = true →
        (match p with | .bnd0 => (lane t l).bnd0 | .bnd1 => (lane t l).bnd1) =
          row6Step (telegramOf b) (telegramInTime s) (cycleNow s) (match p with | .bnd0 => (lane s l).bnd0 | .bnd1 => (lane s l).bnd1)) ∧
      (∀ l, (lane t l).core = (lane s l).core) ∧ t.ctl.voter = s.ctl.voter ∧ t.mgt = { s.mgt with cvu := t.mgt.cvu }) ∧
    (ctlRuns s = true → telegramSent s p = false → telegramLeaves s = true → nextCi s .x ≤ s.clk.tick + 250 →
      (∀ (m : SMap W64) (code : W32), s.data.net.outgoing = some (scn s, m) → agreedTelegram s p = some code → identitiesAgree s p = true →
        ∃ t, exec (.boundaryTelegramSend p) s = .next t ∧ t.data.net.telegramsSent = s.data.net.telegramsSent + 1 ∧
          (smFind t.data.net.sent (bndIdx p)).map (·.code) = some code ∧
          smFind t.data.net.leaving (bndIdx p) = some (telegramFrame { makeTelegram s p m with code := code }) ∧ t.ctl = s.ctl ∧
          t.mgt = { s.mgt with cvu := t.mgt.cvu }) ∧
      (agreedTelegram s p = none → ∃ t, exec (.boundaryTelegramSend p) s = .next t ∧ t.data = s.data ∧ t.ctl = s.ctl ∧
        (t.mgt.recorder.reports.map (·.code)) = s.mgt.recorder.reports.map (·.code) ++ [0x0607]))

/-- R335, R375: a cycle-point subscription sends its vector in every DIVIDE-th cycle; NET answers an ARP or echo request to the port's own address and counts every
other frame as discarded. -/
def Sys2Proof.Claims.CyclePointsAndAnswers : Prop :=
  ∀ (s : State),
    (∀ (i : BitVec 3) (off vec div : Nat), smFind s.data.sched.cpSubs i.toNat = some (off, vec, div) → mgtUp s = true →
      s.power.pcieDown = false → s.clk.tb2 % div = 0 → s.ctl.followers.x.lastCi + off ≤ s.clk.tick →
      s.clk.tick ≤ s.ctl.followers.x.lastCi + off + 75 → smGet 0 s.data.sched.cpSent i.toNat ≠ s.clk.tb2 + 1 → vectorMasked s vec = false →
      ∃ t, exec (.cyclePointMessage i) s = .next t ∧ t.mgt.mbx.interrupts = s.mgt.mbx.interrupts ++ [vec] ∧ t.ctl = s.ctl) ∧
    (∀ (port : BitVec 2) (cfg : NetCfg) (b : List Byte), domRun s 2 = true → s.data.net.cfg = some cfg →
      let ip := (smGet NetPortCfg.zero cfg.net port.toNat).ip
      (ip ≠ 0 → arpRequest ip b = true ∨ echoRequest ip b = true →
        exec (.arpIcmpEcho port b) s = .next (onNet (fun n => { n with answered := n.answered + 1 }) s)) ∧
      (ip = 0 ∨ arpRequest ip b = false ∧ echoRequest ip b = false →
        exec (.arpIcmpEcho port b) s = .next (onNet (fun n => { n with discarded := n.discarded + 1 }) s)))

/-! ### The mailbox: judgement, rings, fetch, completions, sessions (R386 to R422) -/

/-- The header, the opcode, what row 3 of R419 asks of the form, and whether a running shutdown BIST spares the command (R420), for
every mailbox command. -/
def Sys2Proof.Claims.mailbox : Instr → Option (CmdHdr × Nat × Bool × Bool)
  | .sysNop c _ => some (c, 0x0000, formOk c false false true, true)
  | .sysRegRead c _ count => some (c, 0x0001, formOk c false true (decide (4 * count.toNat ≤ c.dataLen)), true)
  | .sysRingCreate c _ => some (c, 0x0002, formOk c false false true && decide (c.ring.toNat = 0), false)
  | .sysRingDestroy c _ => some (c, 0x0003, formOk c false false true && decide (c.ring.toNat = 0), false)
  | .sysShutdown c flags => some (c, 0x0004, formOk c false false true && decide (flags.toNat < 2), false)
  | .sysStart c => some (c, 0x0005, formOk c false false true, true)
  | .sysReset c => some (c, 0x0006, formOk c false false true, false)
  | .sysCtrlReset c => some (c, 0x0007, formOk c false false true, false)
  | .sysTrip c => some (c, 0x0008, formOk c false false true, false)
  | .sysBlockReset c _ => some (c, 0x0009, formOk c false false true, false)
  | .cfgWrite c _ data => some (c, 0x0100, formOk c true false (decide (c.dataLen ≤ 4096) && decide (data.length = c.dataLen)), false)
  | .cfgRead c _ => some (c, 0x0101, formOk c false true (decide (c.dataLen ≤ 4096)), false)
  | .cfgSet c _ _ => some (c, 0x0102, formOk c false false true, false)
  | .cfgGet c _ => some (c, 0x0103, formOk c false false true, false)
  | .cfgKeyRemove c _ => some (c, 0x0104, formOk c false false true, false)
  | .timLatch c => some (c, 0x0200, formOk c false true (decide (48 ≤ c.dataLen)), false)
  | .timMap c => some (c, 0x0201, formOk c false true (decide (24 ≤ c.dataLen)), false)
  | .timPtp c => some (c, 0x0202, formOk c false true (decide (64 ≤ c.dataLen)), false)
  | .logRead c _ _ count => some (c, 0x0300, formOk c false true (decide (64 * count.toNat ≤ c.dataLen)), false)
  | .logFreeze c => some (c, 0x0301, formOk c false false true, false)
  | .logUnfreeze c => some (c, 0x0302, formOk c false false true, false)
  | .logClear c _ => some (c, 0x0303, formOk c false false true, false)
  | .logStream c _ _ _ => some (c, 0x0304, formOk c false false true, false)
  | .logHealth c _ => some (c, 0x0305, formOk c false true (decide (64 ≤ c.dataLen)), false)
  | .logCycles c _ count => some (c, 0x0306, formOk c false true (decide (4 * count.toNat ≤ c.dataLen)), false)
  | .logBelay c => some (c, 0x0307, formOk c false true (decide (64 ≤ c.dataLen)), false)
  | .cvuConfig c _ => some (c, 0x0400, formOk c false false true, false)
  | .cvuRead c _ => some (c, 0x0401, formOk c false true (decide (16 ≤ c.dataLen)), false)
  | .cvuReadAck c _ _ => some (c, 0x0402, formOk c false false true, false)
  | .cvuTrigger c _ _ _ => some (c, 0x0403, formOk c false false true, false)
  | .cvuDisable c _ => some (c, 0x0404, formOk c false false true, false)
  | .frcSet c _ _ => some (c, 0x0500, formOk c false false true, false)
  | .frcClear c _ => some (c, 0x0501, formOk c false false true, false)
  | .frcClearAll c => some (c, 0x0502, formOk c false false true, false)
  | .frcList c => some (c, 0x0503, formOk c false true (decide (8192 ≤ c.dataLen)), false)
  | .olcLoadBegin c _ _ _ => some (c, 0x0600, formOk c false false true, false)
  | .olcLoadData c _ data => some (c, 0x0601, formOk c true false (decide (c.dataLen = data.length)), false)
  | .olcLoadEnd c => some (c, 0x0602, formOk c false false true, false)
  | .olcSwap c _ => some (c, 0x0603, formOk c false false true, false)
  | .olcCancel c => some (c, 0x0604, formOk c false false true, false)
  | .olcDiscard c => some (c, 0x0605, formOk c false false true, false)
  | .olcStatus c => some (c, 0x0606, formOk c false false true, false)
  | .updBegin c _ _ => some (c, 0x0700, formOk c false false true, false)
  | .updBlock c _ _ data => some (c, 0x0701, formOk c true false (decide (c.dataLen = 4096) && decide (data.length = 4096)), false)
  | .updBitmap c _ count => some (c, 0x0702, formOk c false true (decide (count.toNat / 8 ≤ c.dataLen)), false)
  | .updVerify c => some (c, 0x0703, formOk c false false true, false)
  | .updActivate c => some (c, 0x0704, formOk c false false true, false)
  | .updAbort c => some (c, 0x0705, formOk c false false true, false)
  | .updCommit c _ => some (c, 0x0706, formOk c false false true, false)
  | .updRevert c => some (c, 0x0707, formOk c false false true, false)
  | .updStatus c => some (c, 0x0708, formOk c false true (decide (64 ≤ c.dataLen)), false)
  | .reqWrite c _ _ flags _ => some (c, 0x0800, formOk c false false true && decide (flags.toNat < 2), false)
  | .reqPulse c _ _ flags _ _ => some (c, 0x0801, formOk c false false true && decide (flags.toNat < 2), false)
  | .reqWriteMulti c flags es => some (c, 0x0802, formOk c true false (decide (c.dataLen = 8 * es.length)) && decide (flags.toNat < 2), false)
  | .reqRead c _ bits => some (c, 0x0803, formOk c false true (decide (bits.toNat / 8 ≤ c.dataLen)), false)
  | .lnkCfgWrite c _ data => some (c, 0x0B00, formOk c true false (decide (c.dataLen ≤ 16420) && decide (data.length = c.dataLen)), false)
  | .lnkCfgRead c _ => some (c, 0x0B01, formOk c false true (decide (c.dataLen ≤ 16420)), false)
  | .lnkSchedChange c _ => some (c, 0x0B02, formOk c false false true, false)
  | .lnkPortPower c _ _ _ => some (c, 0x0B03, formOk c false false true, false)
  | .lnkPortUnlock c _ _ => some (c, 0x0B04, formOk c false false true, false)
  | .lnkPortStatus c _ _ count => some (c, 0x0B05, formOk c false true (decide (8 * count.toNat ≤ c.dataLen)), false)
  | .lnkChannelPower c _ _ => some (c, 0x0B06, formOk c false false true, false)
  | .lnkCpSub c _ _ _ _ _ => some (c, 0x0B07, formOk c false false true, false)
  | .expSubscribe c q => some (c, 0x0900, formOk c true false (decide (c.dataLen = 8 * q.ranges.length)), false)
  | .expUnsubscribe c _ => some (c, 0x0901, formOk c false false true, false)
  | .expList c => some (c, 0x0902, formOk c false true (decide (1024 ≤ c.dataLen)), false)
  | .expRead c _ len => some (c, 0x0903, formOk c false true (decide (len.toNat ≤ c.dataLen)), false)
  | .tstRotate c _ => some (c, 0x0A00, formOk c false false true, false)
  | .tstStatus c => some (c, 0x0A01, formOk c false true (decide (64 ≤ c.dataLen)), false)
  | .tstFuseRepair c _ => some (c, 0x0A02, formOk c false false true, false)
  | .tstShutdownRecord c => some (c, 0x0A03, formOk c false true (decide (64 ≤ c.dataLen)), false)
  | .dbgAttach c _ => some (c, 0x0F00, formOk c false false true, false)
  | .dbgDetach c => some (c, 0x0F01, formOk c false false true, false)
  | .dbgHalt c => some (c, 0x0F02, formOk c false false true, false)
  | .dbgResume c => some (c, 0x0F03, formOk c false false true, false)
  | .dbgRead c _ _ len => some (c, 0x0F04, formOk c false true (decide (len.toNat ≤ c.dataLen)), false)
  | .dbgWrite c _ _ data => some (c, 0x0F05, formOk c true false (decide (c.dataLen = data.length)), false)
  | _ => none

/-- MGT runs, the form stands and no shutdown BIST is in the way: rows 3 and 4 of R419 pass. -/
def Sys2Proof.Claims.Accepted (i : Instr) (s : State) : Prop :=
  match Sys2Proof.Claims.mailbox i with
  | some (_, _, form, exempt) => mgtUp s = true ∧ form = true ∧ (exempt = true ∨ s.mgt.bist.running = false)
  | none => False

/-- R419, R420: a mailbox command acts only while MGT runs; one whose flags, lengths or reserved fields are wrong completes with BAD_ARG;
one that a running shutdown BIST does not spare completes with BUSY_SELFTEST and the time left; neither changes anything else. -/
def Obligations.MailboxCommandsAreJudgedFirst : Prop :=
  ∀ (i : Instr) (c : CmdHdr) (op : Nat) (form exempt : Bool) (s : State), mailbox i = some (c, op, form, exempt) →
    (mgtUp s = false → exec i s = .next s) ∧
    (mgtUp s = true → form = false → exec i s = .next (finish c op .badArg [] [] s)) ∧
    (mgtUp s = true → form = true → exempt = false → s.mgt.bist.running = true →
      exec i s = .next (finishRef (refOf c op) .busySelftest (leftMs s s.mgt.bist.endAt) [] [] s))

/-- R391, R393, R394, R396, R567: MBX_EN takes the admin rings, or raises ALERT 5 for a bad setting; MBX_RESET and PERST_N destroy the PCIe rings
and clear MBX_EN; a doorbell moves a command ring's producer, and one beyond the ring stops the ring. -/
def Sys2Proof.Claims.RingsFollowTheirRegisters : Prop :=
  ∀ s : State,
    (barUp s = true → mgtUp s = true → s.mgt.mbx.regs.mbxEn = false → s.mgt.mbx.regs.mbxReset = false →
      let r := s.mgt.mbx.regs
      (∀ a b : Nat, adminLog2 (r.admEntries.toNat % 65536) = some a → adminLog2 (r.admEntries.toNat / 65536) = some b →
        r.admCmd.toNat % 64 = 0 → r.admCpl.toNat % 32 = 0 → ∃ t, exec .mbxEnable s = .next t ∧ t.mgt.mbx.regs.mbxEn = true ∧
          ringOf t 0 = { newRing 1 none a with base := r.admCmd, cplRing := 256 } ∧
          ringOf t 256 = { newRing 2 none b with base := r.admCpl } ∧ (∀ k, k ≠ 0 → k ≠ 256 → ringOf t k = ringOf s k) ∧
          t.ctl = s.ctl ∧ t.data = s.data ∧ t.power = s.power ∧ t.mgt.recorder = s.mgt.recorder) ∧
      (adminLog2 (r.admEntries.toNat % 65536) = none → exec .mbxEnable s = .next (alert 5 s))) ∧
    (barUp s = true → exec .mbxReset s = .next (onRegs (fun r => { r with mbxReset := true }) s)) ∧
    (s.mgt.mbx.regs.mbxReset = true → ∃ t, exec .mbxResetDone s = .next t ∧ t.mgt.mbx.regs.mbxReset = false ∧
      t.mgt.mbx.regs.mbxEn = false ∧ t.mgt.mbx.rings = s.mgt.mbx.rings.filter (fun p => p.2.session.isSome) ∧
      t.mgt.mbx.sessions = s.mgt.mbx.sessions ∧ t.ctl = s.ctl ∧ t.data = s.data) ∧
    (domRun s 1 = true → ∃ t, exec .perstN s = .next t ∧ t.mgt.mbx.regs.mbxEn = false ∧ t.mgt.mbx.regs.msixTable = [] ∧
      t.mgt.mbx.rings = s.mgt.mbx.rings.filter (fun p => p.2.session.isSome) ∧ t.mgt.mbx.sessions = s.mgt.mbx.sessions ∧
      t.ctl = s.ctl ∧ t.data = s.data ∧ t.power = s.power) ∧
    (∀ (r : Byte) (i : BitVec 12), barUp s = true → s.mgt.mbx.regs.mbxReset = false → (ringOf s r.toNat).session = none →
      ((ringOf s r.toNat).rtype = 1 → (ringOf s r.toNat).state ≠ 3 → i.toNat < ringSize (ringOf s r.toNat) →
        exec (.doorbell r i) s = .next (onRing r.toNat (fun y => { y with prod := i.toNat }) s)) ∧
      ((ringOf s r.toNat).rtype ≠ 0 → ringSize (ringOf s r.toNat) ≤ i.toNat →
        exec (.doorbell r i) s = .next (alert 5 (onRing r.toNat (fun y => { y with state := 3 }) s))))

/-- R387, R391, R395: a register write changes what its offset names: SCRATCH takes the value, ALERT bits written as 1 are cleared, an
admin register stands while MBX_EN is 1, an offset that no table lists is ignored; a capture holds the time bases, and the read of 0x50
the export's SCN. -/
def Sys2Proof.Claims.RegistersTakeWrites : Prop :=
  ∀ (s : State) (v : W32), barUp s = true →
    (exec (.registerWrite 0x0124#14 v) s = .next (onRegs (fun r => { r with scratch := v }) s)) ∧
    (exec (.registerWrite 0x011C#14 v) s = .next (onRegs (fun r => { r with alert := r.alert &&& ~~~(v.setWidth 6) }) s)) ∧
    (s.mgt.mbx.regs.mbxEn = true → exec (.registerWrite 0x0118#14 v) s = .next s) ∧
    (s.mgt.mbx.regs.mbxEn = false → exec (.registerWrite 0x0118#14 v) s = .next (onRegs (fun r => { r with admEntries := v }) s)) ∧
    (∀ off : BitVec 14, off.toNat % 4 ≠ 0 ∨ off.toNat < 0x100 ∨ 0x3400 ≤ off.toNat → exec (.registerWrite off v) s = .next s) ∧
    (∃ t, exec .timeLatch s = .next t ∧ t.mgt.mbx.latch.tb1 = tb1 s ∧ t.mgt.mbx.latch.tb3Hours = ophHours s ∧
      t.mgt.mbx.latch.seq = s.mgt.mbx.latch.seq + 1 ∧ (domRun s 2 = true → t.mgt.mbx.latch.tb0 = s.data.time.tb0 ∧ t.mgt.mbx.latch.tb2 = s.clk.tb2) ∧
      t.ctl = s.ctl ∧ t.data = s.data ∧ t.mgt.mbx.rings = s.mgt.mbx.rings) ∧
    (∃ t, exec .expStatusRead s = .next t ∧ t.mgt.mbx.regs.expLatch = (if s.mgt.exp.valid then s.mgt.exp.scn else 0) ∧
      t.mgt.exp = s.mgt.exp ∧ t.ctl = s.ctl ∧ t.data = s.data)

/-- R396, R400 to R402, R419: MGT fetches the descriptor of the queue whose turn it is, a session's from what its datagrams have brought: the ring's consumer
index goes on by one and the command is in flight; an unknown opcode, a foreign layout and a TAG still in flight are refused at once, the last with DUP_TAG. -/
def Sys2Proof.Claims.FetchTakesTheTurn : Prop :=
  ∀ (s : State) (r : Byte) (session : Option Nat) (given : Descriptor), let key := cmdKey session r.toNat
    mgtUp s = true → s.mgt.mbx.ready = true → s.mgt.mbx.inflight.length < 256 → (ringOf s key).session = session →
    nextFetch s = some key →
    let d := match session with | some _ => (smFind (ringOf s key).descs (ringOf s key).cons).getD given | none => given
    let fly : InFlight := ⟨r.toNat, session, d.tag.toNat, d.opcode, d.fence⟩
    let ended := fun (st : Status) (dup : Bool) (t : State) => t.mgt.mbx.finished =
      s.mgt.mbx.finished ++ [⟨r.toNat, session, d.tag.toNat, d.opcode, st, 0, 0, dup, [], [], false, 0⟩]
    let again := s.mgt.mbx.inflight.any (fun f => decide (f.ring = r.toNat) && decide (f.session = session) && decide (f.tag = d.tag.toNat))
    ∃ t, exec (.commandFetch r session given) s = .next t ∧
      (ringOf t key).cons = ((ringOf s key).cons + 1) % ringSize (ringOf s key) ∧
      (ringOf t key).prod = (ringOf s key).prod ∧ (∀ k, k ≠ key → ringOf t k = ringOf s k) ∧
      t.mgt.mbx.inflight = s.mgt.mbx.inflight ++ [fly] ∧ t.mgt.mbx.turn = turnRank key ∧
      t.ctl = s.ctl ∧ t.data = s.data ∧ t.power = s.power ∧
      (opcodeKnown d.opcode = false → ended .unknownOpcode false t) ∧
      (opcodeKnown d.opcode = true → d.layout ≠ 1 → ended .version false t) ∧
      (opcodeKnown d.opcode = true → d.layout = 1 → again = true → ended .badArg true t) ∧
      (opcodeKnown d.opcode = true → d.layout = 1 → again = false → r.toNat ≠ 0 → d.opcode = 2 ∨ d.opcode = 3 → ended .badArg false t) ∧
      (opcodeKnown d.opcode = true → d.layout = 1 → again = false → (r.toNat = 0 ∨ (d.opcode ≠ 2 ∧ d.opcode ≠ 3)) →
        t.mgt.mbx.finished = s.mgt.mbx.finished)

/-- R399, R402: the first finished command whose completion queue has room is written to that queue's next entry with the queue's phase and its
command ring's index, the queue's producer goes on by one, and the command is no longer in flight. -/
def Sys2Proof.Claims.CompletionsAreWritten : Prop :=
  ∀ (s : State) (e : Completion) (rest : List Completion), mgtUp s = true → s.mgt.mbx.finished = e :: rest → awaited s e = true →
    let key := cplKey s e.session e.ring
    ringThere (ringOf s key) = true → ringHasRoom key (ringOf s key) = true →
    ∃ t, exec .completionPost s = .next t ∧ t.mgt.mbx.finished = rest ∧ t.mgt.mbx.inflight = endFlight e s.mgt.mbx.inflight ∧
      smFind (ringOf t key).slots (ringOf s key).prod =
        some { e with phase := (ringOf s key).phase, cmdIndex := (ringOf s (cmdKey e.session e.ring)).cons } ∧
      (ringOf t key).prod = ((ringOf s key).prod + 1) % ringSize (ringOf s key) ∧ (ringOf t key).cons = (ringOf s key).cons ∧
      (∀ k, k ≠ key → ringOf t k = ringOf s k) ∧ t.ctl = s.ctl ∧ t.data = s.data ∧ t.power = s.power

/-- R403, R405, R447: the oldest event is taken and given to the event rings that select it: one with room gets an entry of its code and
result, a full one counts it as lost; a ring's message follows when its time has come. -/
def Sys2Proof.Claims.EventsReachTheirRings : Prop :=
  ∀ (s : State) (key : Nat) (x : RingS), s.mgt.mbx.rings = [(key, x)] → mgtUp s = true →
    (∀ (e : EventMsg) (rest : List EventMsg), s.mgt.mbx.events = e :: rest → ∃ t, exec .eventPost s = .next t ∧ t.mgt.mbx.events = rest ∧
      t.ctl = s.ctl ∧ t.data = s.data ∧ t.mgt.mbx.finished = s.mgt.mbx.finished ∧
      (selects x e.code = false → t.mgt.mbx.rings = s.mgt.mbx.rings) ∧
      (selects x e.code = true → ringFull x = true → (ringOf t key) = { x with lost := x.lost + 1 }) ∧
      (selects x e.code = true → ringFull x = false → x.lost = 0 →
        (ringOf t key).prod = (x.prod + 1) % ringSize x ∧ (ringOf t key).lost = 0 ∧
        ∃ q, smFind (ringOf t key).slots x.prod = some q ∧ q.opcode = e.code ∧ q.result = e.result ∧ q.phase = x.phase)) ∧
    (∀ (r : Byte) (t0 : Nat), r.toNat = key → x.firstAt = some t0 → x.session = none → x.rtype ≠ 1 → t0 + 25 * x.coalUs ≤ s.clk.tick →
      s.power.pcieDown = false → ∃ t, exec (.interruptCoalesceExpiry r) s = .next t ∧
        (ringOf t key) = { x with unsent := 0, firstAt := none } ∧
        (vectorMasked s x.vector = false → t.mgt.mbx.interrupts = s.mgt.mbx.interrupts ++ [x.vector]) ∧
        (vectorMasked s x.vector = true → t.mgt.mbx.interrupts = s.mgt.mbx.interrupts ∧
          t.mgt.mbx.regs.msixPending = setBit s.mgt.mbx.regs.msixPending x.vector true) ∧ t.ctl = s.ctl ∧ t.data = s.data)

/-- R388, R398, R406 to R408: a peer whose chain of up to three certificates verifies against the trust anchor opens the lowest free session with its admin
pair, a failed certificate is recorded and opens none; a command datagram adds what is new of it to the ring; an acknowledgement, a keepalive, a retransmission, an idle minute and an alert act on
their own session alone. -/
def Obligations.SessionsLiveAndEnd : Prop :=
  ∀ (s : State),
    (∀ (port : BitVec 2) (peer : W32) (n : Nat), dtlsPort s port.toNat = true →
      (List.range 32).find? (fun n => !(s.mgt.mbx.sessions.map (·.id)).contains n) = some n →
      (∀ chain : List (List Byte), s.mgt.mbx.trustAnchor.isEmpty = false → chain.length ≤ 3 → Config.peerOk s.mgt.mbx.trustAnchor chain = true →
        ∃ t, exec (.dtlsHandshake port peer chain) s = .next t ∧
        t.mgt.mbx.sessions = s.mgt.mbx.sessions ++ [⟨n, port.toNat, peer, s.clk.tick, [], 0, []⟩] ∧
        ringOf t (512 + 2 * n) = { newRing 1 (some n) 6 with cplRing := 513 + 2 * n } ∧
        ringOf t (513 + 2 * n) = newRing 2 (some n) 6 ∧
        (∀ k, k ≠ 512 + 2 * n → k ≠ 513 + 2 * n → ringOf t k = ringOf s k) ∧ t.ctl = s.ctl ∧ t.data = s.data) ∧
      (∀ chain : List (List Byte), 3 < chain.length ∨ Config.peerOk s.mgt.mbx.trustAnchor chain = false → exec (.dtlsHandshake port peer chain) s = .next (report .general 0x0604 0 (byte port.toNat ++ le4 peer.toNat) [] s))) ∧
    (∀ n : Nat, dtlsUp s n = true →
      (exec (.dtlsKeepalive n) s = .next (heard n s)) ∧
      (∃ t, exec (.dtlsAlert n) s = .next t ∧ t.mgt.mbx.sessions = s.mgt.mbx.sessions.filter (fun x => decide (x.id ≠ n)) ∧
        t.mgt.mbx.rings = s.mgt.mbx.rings.filter (fun p => decide (p.2.session ≠ some n)) ∧
        t.mgt.recorder.reports.length = s.mgt.recorder.reports.length + 1 ∧ t.ctl = s.ctl ∧ t.data = s.data) ∧
      (∀ (r : Byte) (index : Nat) (ds : List Descriptor), let x := ringOf s (cmdKey (some n) r.toNat)
        let new := newDescriptors x index ds.length
        x.rtype = 1 → x.session = some n → ringUsed x + new < ringSize x → x.prod < ringSize x →
        ∃ t, exec (.dtlsCmdDatagram n r index ds) s = .next t ∧
          (ringOf t (cmdKey (some n) r.toNat)).prod = (x.prod + new) % ringSize x ∧
          (ringOf t (cmdKey (some n) r.toNat)).cons = x.cons ∧
          (∀ d, ds = [d] → new = 1 → smFind (ringOf t (cmdKey (some n) r.toNat)).descs x.prod = some d) ∧
          (∀ k, k ≠ cmdKey (some n) r.toNat → ringOf t k = ringOf s k) ∧ t.ctl = s.ctl ∧ t.data = s.data) ∧
      (∀ (r : Byte) (key index : Nat), hostRing s n r.toNat = some key → (ringOf s key).lost = 0 →
        (∀ k, (ringOf s k).stream = none) → smWf RingS.zero s.mgt.mbx.rings = true → index < ringSize (ringOf s key) →
        (index + ringSize (ringOf s key) - (ringOf s key).cons) % ringSize (ringOf s key) ≤ ringUsed (ringOf s key) →
        ∃ t, exec (.dtlsCplAck n r index) s = .next t ∧ (ringOf t key).cons = index ∧ (ringOf t key).prod = (ringOf s key).prod ∧
          (∀ k, k ≠ key → ringOf t k = ringOf s k) ∧ t.ctl = s.ctl ∧ t.data = s.data)) ∧
    (∀ (n : Nat) (x : Session), sessionOf s n = some x → mgtUp s = true →
      (∀ (r : Byte) (key t0 : Nat), hostRing s n r.toNat = some key → (ringOf s key).firstAt = some t0 → 0 < ringUsed (ringOf s key) →
        t0 + msTicks 100 ≤ s.clk.tick → smGet 0 x.tries r.toNat < 10 → ∃ t, exec (.dtlsRetransmit n r) s = .next t ∧
          (ringOf t key) = { ringOf s key with firstAt := some s.clk.tick } ∧ (∀ k, k ≠ key → ringOf t k = ringOf s k) ∧
          t.mgt.mbx.sessions.length = s.mgt.mbx.sessions.length ∧ t.ctl = s.ctl ∧ t.data = s.data) ∧
      (x.lastRx + msTicks 60000 ≤ s.clk.tick → ∃ t, exec (.dtlsIdleTimeout n) s = .next t ∧
        t.mgt.mbx.sessions = s.mgt.mbx.sessions.filter (fun x => decide (x.id ≠ n)) ∧
        t.mgt.mbx.rings = s.mgt.mbx.rings.filter (fun p => decide (p.2.session ≠ some n)) ∧ t.ctl = s.ctl ∧ t.data = s.data))

/-- R415, R245, R267: a subscription's next part leaves as one datagram of the snapshot it streams; MGT evaluates a snapshot once. -/
def Sys2Proof.Claims.SnapshotsAreStreamedAndEvaluated : Prop :=
  ∀ (s : State), mgtUp s = true →
    (∀ (sub : BitVec 6) (x : ExpSub) (n : Scn) (k : Nat) (r : Nat × Nat) (q : Snapshot), netUp s = true →
      smFind s.mgt.exp.subs sub.toNat = some x → x.current = some (n, k) → (expParts x.ranges)[k]? = some r → bufferOf s n = some q →
      ∃ t, exec (.exportStreamSend sub) s = .next t ∧
        smFind t.mgt.exp.subs sub.toNat = some { x with current := some (n, k + 1), sent := x.sent + 1 } ∧
        t.mgt.exp.datagram = exportDatagram sub.toNat k x.parts q r ∧ t.mgt.exp.buf0 = s.mgt.exp.buf0 ∧
        t.mgt.exp.buf1 = s.mgt.exp.buf1 ∧ t.ctl = s.ctl ∧ t.data = s.data) ∧
    (∀ q : Snapshot, currentSnapshot s = some q →
      (s.mgt.exp.evaluated.map (·.scn) ≠ some q.scn → exec .mgtSnapshotEval s = .next (evalSnapshot q s)) ∧
      (s.mgt.exp.evaluated.map (·.scn) = some q.scn → exec .mgtSnapshotEval s = .next s))

/-! ### The commands of each class (R424 to R446) -/

/-- R424, R425: SYS_NOP echoes; SYS_REG_READ gives the registers' words; a ring is created under the lowest free number or its own and destroyed with
what is in flight from it; shutdown, start, reset and trip act as their rules say; a block reset asserts its source. -/
def Obligations.SysCommandsAct : Prop :=
  ∀ (s : State) (c : CmdHdr),
    (∀ e : W32, Accepted (.sysNop c e) s → exec (.sysNop c e) s = .next (finish c 0x0000 .ok (le4 e.toNat) [] s)) ∧
    (∀ (off : W32) (n : BitVec 16), Accepted (.sysRegRead c off n) s → off.toNat % 4 = 0 → 1 ≤ n.toNat → n.toNat ≤ 256 →
      off.toNat + 4 * n.toNat ≤ 0x4000 →
      let s' := if off.toNat ≤ 0x50 ∧ 0x50 < off.toNat + 4 * n.toNat then captureScn s else s
      let s'' := if off.toNat ≤ 0x184C ∧ 0x184C < off.toNat + 4 * n.toNat then autoRead s' else s'
      exec (.sysRegRead c off n) s = .next (finish c 0x0001 .ok []
        ((List.range n.toNat).flatMap (fun k => le4 (regRead s' (off.toNat + 4 * k)))) s'')) ∧
    (∀ (q : RingParam) (k : Nat), Accepted (.sysRingCreate c q) s → ringParamBad s c.session q = false →
      (if q.ring.toNat = 0 then freeRing s else some q.ring.toNat) = some k → ∃ t, exec (.sysRingCreate c q) s = .next t ∧
        ringOf t k = { newRing q.rtype.toNat c.session q.log2.toNat with cplRing := q.cplRing.toNat, vector := q.vector.toNat, coalEntries := q.coalEntries.toNat, coalUs := q.coalUs.toNat, eventMask := q.eventMask, entrySize := entryBytes q, base := q.base } ∧
        (∀ j, j ≠ k → ringOf t j = ringOf s j) ∧ t.mgt.mbx.finished = (finish c 0x0002 .ok (byte k) [] s).mgt.mbx.finished ∧
        t.ctl = s.ctl ∧ t.data = s.data ∧ t.power = s.power) ∧
    (∀ r : Byte, Accepted (.sysRingDestroy c r) s → r.toNat ≠ 0 → ringThere (ringOf s r.toNat) = true → (ringOf s r.toNat).session = c.session →
      ((ringOf s r.toNat).rtype = 2 → ∀ p ∈ s.mgt.mbx.rings, p.2.rtype = 1 → p.2.cplRing ≠ r.toNat) → ∃ t, exec (.sysRingDestroy c r) s = .next t ∧ t.mgt.mbx.rings = smDrop s.mgt.mbx.rings r.toNat ∧
        t.mgt.mbx.inflight = s.mgt.mbx.inflight.filter (fun f => !(decide (f.ring = r.toNat) && decide (f.session = c.session))) ∧
        t.mgt.mbx.finished = (finish c 0x0003 .ok [] [] s).mgt.mbx.finished ∧ t.ctl = s.ctl ∧ t.data = s.data) ∧
    (Accepted (.sysStart c) s → s.mgt.bist.running = false → ctlRuns s = false →
      exec (.sysStart c) s = .next (if s.mgt.start.backoffUntil.isSome then endWait (finish c 0x0005 .ok [] [] s) else finish c 0x0005 .ok [] [] s)) ∧
    (Accepted (.sysStart c) s → s.mgt.bist.running = true → ∃ t, exec (.sysStart c) s = .next t ∧
      t.power.sources.contains .sysReset = true ∧ t.mgt.start.shutdownPending = false ∧ t.mgt.bist.running = false) ∧
    (Accepted (.sysReset c) s → switchOn s 1 = true → exec (.sysReset c) s = .next (onPower (fun p => { p with
      sysResetAt := some (match p.sysResetAt with | some t => min t (s.clk.tick + msTicks 10) | none => s.clk.tick + msTicks 10) })
      (finish c 0x0006 .ok [] [] s))) ∧
    (Accepted (.sysCtrlReset c) s → ctlRuns s = true →
      exec (.sysCtrlReset c) s = .next (tripNow 5 true (noteCause 5 (finish c 0x0007 .ok (scnLe s) [] s)))) ∧
    (Accepted (.sysCtrlReset c) s → ctlRuns s = false → s.ctl.trip.inForce = false →
      exec (.sysCtrlReset c) s = .next (assertSrc .ctrlReset (sourceCause .ctrlReset) (finish c 0x0007 .ok (scnLe s) [] s))) ∧
    (Accepted (.sysTrip c) s → s.ctl.trip.inForce = true → exec (.sysTrip c) s = .next (finish c 0x0008 .ok (scnLe s) [] s)) ∧
    (Accepted (.sysTrip c) s → ctlRuns s = true → silentRun s = false →
      exec (.sysTrip c) s = .next (tripNow 0x0D true (finish c 0x0008 .ok (scnLe s) [] s))) ∧
    (∀ (b : Byte) (r : ResetSrc), Accepted (.sysBlockReset c b) s → blockTarget b = some r → blockAbsent s (some r) = false →
      blockDenied s (some r) = false →
      exec (.sysBlockReset c b) s = .next (assertSrc r 0 (reportSvc 0x0106 0 (byte b.toNat) [] (finish c 0x0009 .ok [] [] s))))

/-- R424, R504, R515: SYS_SHUTDOWN leaves the module restrictive: no output keeps its drive, the run is over and in bivouac; without its flag shutdown BIST
runs and PENDING is answered, with it the sequencer holds the module. -/
def Obligations.ShutdownLeavesTheModuleRestrictive : Prop :=
  ∀ (s : State) (c : CmdHdr) (flags : Byte), Accepted (.sysShutdown c flags) s → s.mgt.upd.mode ≠ .activating → s.mgt.upd.mode ≠ .rollback →
    ∃ t, exec (.sysShutdown c flags) s = .next t ∧ t.mgt.start.bivouac = true ∧ t.mgt.start.service = false ∧
      (∀ k, VoutDead (smGet VoutState.zero t.ctl.vio.vout k)) ∧ ctlRuns t = false ∧
      (flags.getLsbD 0 = false → t.mgt.bist.running = true ∧ t.mgt.bist.startedAt = s.clk.tick ∧ t.mgt.start.shutdownPending = true ∧
        (⟨c.ring.toNat, c.session, c.tag.toNat, 0x0004, .pending, 0, 0, false, [], [], false, 0⟩ : Completion) ∈ t.mgt.mbx.finished) ∧
      (flags.getLsbD 0 = true → t.power.shutdownHold = true ∧ t.power.sources.contains .sysReset = true)

/-- R426: a block that its checks pass is stored as the firmware migrates it and a record says so; a read returns what is stored with its FMT_VER range; a
parameter takes its value at once and answers the old one; a removed key is gone. -/
def Sys2Proof.Claims.CfgCommandsAct : Prop :=
  ∀ (s : State) (c : CmdHdr),
    (∀ (block : Byte) (data : List Byte) (k : CfgBlock), Accepted (.cfgWrite c block data) s → cfgBlock block = some k → 2 ≤ data.length →
      cfgVersion s k data = false → cfgBad s k data = false → (cfgSealed k = true → switchOn s 1 = true) → nandBusy s 0x0100 = false →
      ∃ t, exec (.cfgWrite c block data) s = .next t ∧ cfgStored t k = cfgNew s k data ∧
        (∀ (b2 : Byte) (j : CfgBlock), cfgBlock b2 = some j → j ≠ k → cfgStored t j = cfgStored s j) ∧
        t.mgt.recorder.reports.length = s.mgt.recorder.reports.length + 1 ∧
        t.mgt.mbx.finished = (finish c 0x0100 .ok [] [] s).mgt.mbx.finished ∧ t.ctl = s.ctl ∧ t.data = s.data) ∧
    (∀ (block : Byte) (k : CfgBlock), Accepted (.cfgRead c block) s → cfgBlock block = some k → (cfgStored s k).isEmpty = false →
      nandBusy s 0x0101 = false → exec (.cfgRead c block) s =
        .next (finish c 0x0101 .ok (le4 (cfgStored s k).length ++ fmtRange s k) ((cfgStored s k).take c.dataLen) s)) ∧
    (∀ (id : Byte) (v : W32), Accepted (.cfgSet c id v) s → paramKnown id = true → paramOk id.toNat v.toNat = true → nandBusy s 0x0102 = false →
      ∃ t, exec (.cfgSet c id v) s = .next t ∧ param t id.toNat = v.toNat ∧
        (∀ j, j ≠ id.toNat → 1 ≤ j → j ≤ 4 → param t j = param s j) ∧
        t.mgt.mbx.finished = (finish c 0x0102 .ok (le4 (param s id.toNat)) [] s).mgt.mbx.finished ∧ t.data = s.data ∧ t.ctl.vio = s.ctl.vio) ∧
    (∀ id : Byte, Accepted (.cfgGet c id) s → paramKnown id = true → nandBusy s 0x0103 = false →
      exec (.cfgGet c id) s = .next (finish c 0x0103 .ok (le4 (param s id.toNat)) [] s)) ∧
    (∀ i : Byte, Accepted (.cfgKeyRemove c i) s → i.toNat < 4 →
      (inService s && !s.mgt.store.image.isEmpty && decide (signingKey s = i.toNat)) = false →
      switchOn s 1 = true → nandBusy s 0x0104 = false → ∃ t, exec (.cfgKeyRemove c i) s = .next t ∧
        t.mgt.store.keys = smDrop s.mgt.store.keys i.toNat ∧ t.mgt.recorder.reports.length = s.mgt.recorder.reports.length + 1 ∧
        t.mgt.mbx.finished = (finish c 0x0104 .ok [] [] s).mgt.mbx.finished ∧ t.ctl = s.ctl ∧ t.data = s.data)

/-- R427: TIM_LATCH captures the time bases and returns the latch, TIM_MAP returns the time map, TIM_PTP the two domains. -/
def Sys2Proof.Claims.TimCommandsAct : Prop :=
  ∀ (s : State) (c : CmdHdr),
    (Accepted (.timLatch c) s → let t := captureTime s
      exec (.timLatch c) s = .next (finish c 0x0200 .ok (le2 t.mgt.mbx.latch.seq.toNat)
        ((List.range 12).flatMap (fun k => le4 (latchWord t.mgt.mbx.latch (4 * k)))) t)) ∧
    (∀ m : TimeMap, Accepted (.timMap c) s → s.data.time.map = some m → exec (.timMap c) s = .next (finish c 0x0201 .ok []
      (leBytes 8 m.tb2 ++ leBytes 8 (m.sec % 2 ^ 48) ++ le4 m.ns ++ le2 m.frac ++ le2 m.state) s)) ∧
    (Accepted (.timPtp c) s → domRun s 2 = true → exec (.timPtp c) s = .next (finish c 0x0202 .ok [] (ptpBlock s false ++ ptpBlock s true) s))

/-- R428, R472 to R475: reads of the recorder, its freeze and thaw, a cleared ring whose clearing is itself recorded, a stream that starts at its record, and
the health, cycle and belay reports. -/
def Obligations.LogCommandsAct : Prop :=
  ∀ (s : State) (c : CmdHdr),
    (∀ (r : Byte) (from_ : W32) (n : BitVec 16), Accepted (.logRead c r from_ n) s → r.toNat < 2 → 1 ≤ n.toNat → n.toNat ≤ 16384 →
      nandBusy s 0x0300 = false →
      let start := readStart s (ringArg r) from_
      let rs := recordsFrom s (ringArg r) n.toNat start
      exec (.logRead c r from_ n) s = .next (finish c 0x0300 (if start = from_ then .ok else .stale)
        (le4 (start.toNat + rs.length) ++ le2 rs.length ++ le2 0 ++ le4 (wraps (recRing s.mgt.recorder (ringArg r)))) rs.flatten s)) ∧
    (Accepted (.logFreeze c) s → s.mgt.recorder.frozen = false → ∃ t, exec (.logFreeze c) s = .next t ∧ t.mgt.recorder.frozen = true ∧
      t.mgt.recorder.frozenUntil = s.clk.tick + 25000000 * s.mgt.store.freezeS ∧ t.mgt.recorder.vitalIn = [] ∧ t.mgt.recorder.generalIn = [] ∧
      t.mgt.mbx.finished = (finish c 0x0301 .ok (le4 s.mgt.store.freezeS) [] s).mgt.mbx.finished ∧ t.ctl = s.ctl ∧ t.data = s.data) ∧
    (Accepted (.logUnfreeze c) s → s.mgt.recorder.frozen = true → exec (.logUnfreeze c) s =
      .next (finish c 0x0302 .ok (le4 s.mgt.recorder.freeze.length) [] (onRec (endFreeze s.clk.tick) s))) ∧
    (∀ r : Byte, Accepted (.logClear c r) s → s.mgt.recorder.frozen = false → r.toNat < 2 → switchOn s 1 = true →
      (r = 0 → switchOn s 6 = true) → nandBusy s 0x0303 = false →
      exec (.logClear c r) s = .next (finish c 0x0303 .ok (le4 (recRing s.mgt.recorder (ringArg r)).count) [] (clearRing r s))) ∧
    (∀ (sr r : Byte) (from_ : W32), Accepted (.logStream c sr r from_) s → (ringOf s sr.toNat).stream = none → r.toNat < 2 → sr ≠ 0 →
      (ringOf s sr.toNat).rtype = 4 → (ringOf s sr.toNat).entrySize = 64 → (ringOf s sr.toNat).session = c.session →
      let start := readStart s (ringArg r) from_
      exec (.logStream c sr r from_) s = .next (streamsPump (onRing sr.toNat (fun x => { x with stream := some (r.toNat, start.toNat) })
        (finish c 0x0304 .ok (le4 start.toNat) [] s)))) ∧
    (∀ (l : Byte) (x : Lane), Accepted (.logHealth c l) s → laneArg s l = some x →
      exec (.logHealth c l) s = .next (finish c 0x0305 .ok [] (healthBytes s x) s)) ∧
    (∀ first n : BitVec 16, Accepted (.logCycles c first n) s → 1 ≤ n.toNat → first.toNat + n.toNat ≤ 4096 →
      exec (.logCycles c first n) s = .next (finish c 0x0306 .ok (le4 s.mgt.cycles.persistedOph)
        ((List.range n.toNat).flatMap (fun i => le4 (smGet 0#32 s.mgt.cycles.counts (first.toNat + i)).toNat)) s)) ∧
    (∀ r : BelayReport, Accepted (.logBelay c) s → s.mgt.bist.belayReport = some r →
      exec (.logBelay c) s = .next (finish c 0x0307 .ok [] (belayBytes r) s))

/-- R429, R430, R450, R457: a unit is set and started, read, acknowledged with its sequence number or answered STALE, triggered under software and
disabled. -/
def Sys2Proof.Claims.CvuCommandsAct : Prop :=
  ∀ (s : State) (c : CmdHdr),
    (∀ q : CvuParam, Accepted (.cvuConfig c q) s → cvuParamBad q = false → ∃ t, exec (.cvuConfig c q) s = .next t ∧
      (cvuOf t q.unit.toNat).enable = true ∧ (cvuOf t q.unit.toNat).cfgErr = false ∧ (cvuOf t q.unit.toNat).poly = q.poly ∧
      (cvuOf t q.unit.toNat).valid = false ∧ (∀ u, u ≠ q.unit.toNat → cvuOf t u = cvuOf s u) ∧
      t.mgt.mbx.finished = (finish c 0x0400 .ok [] [] s).mgt.mbx.finished ∧ t.ctl = s.ctl ∧ t.data = s.data) ∧
    (∀ u : Byte, u.toNat < 16 →
      (Accepted (.cvuRead c u) s → let x := cvuOf s u.toNat
        exec (.cvuRead c u) s = .next (finish c 0x0401 .ok [] (leBytes 8 x.result.toNat ++ le4 x.seq.toNat ++
          le4 (b2n x.valid + 2 * b2n x.winOpen + x.overrun.toNat * 65536)) (onCvu u.toNat cvuTouched s))) ∧
      (∀ seq : W32, Accepted (.cvuReadAck c u seq) s → ∃ t, exec (.cvuReadAck c u seq) s = .next t ∧
        ((cvuOf s u.toNat).seq = seq → (cvuOf t u.toNat).valid = false ∧
          t.mgt.mbx.finished = (finish c 0x0402 .ok [] [] s).mgt.mbx.finished) ∧
        ((cvuOf s u.toNat).seq ≠ seq → (cvuOf t u.toNat).valid = (cvuOf s u.toNat).valid ∧
          t.mgt.mbx.finished = (finish c 0x0402 .stale [] [] s).mgt.mbx.finished) ∧
        (cvuOf t u.toNat).result = (cvuOf s u.toNat).result ∧ t.ctl = s.ctl ∧ t.data = s.data) ∧
      (∀ bytes : List Byte, softUnit (cvuOf s u.toNat) = true →
        (Accepted (.cvuTrigger c u 1#8 bytes) s → ∃ t, exec (.cvuTrigger c u 1#8 bytes) s = .next t ∧ (cvuOf t u.toNat).winOpen = true ∧
          (cvuOf t u.toNat).seq = (cvuOf s u.toNat).seq ∧ t.ctl = s.ctl ∧ t.data = s.data) ∧
        (Accepted (.cvuTrigger c u 2#8 bytes) s → (cvuOf s u.toNat).winOpen = true →
          ∃ t, exec (.cvuTrigger c u 2#8 bytes) s = .next t ∧ (cvuOf t u.toNat).winOpen = false ∧ (cvuOf t u.toNat).valid = true ∧
            (cvuOf t u.toNat).seq = (cvuOf s u.toNat).seq + 1 ∧ (cvuOf t u.toNat).result = cvuResult (cvuOf s u.toNat) (softBytes s u.toNat bytes) ∧
            t.ctl = s.ctl ∧ t.data = s.data)) ∧
      (Accepted (.cvuDisable c u) s →
        exec (.cvuDisable c u) s = .next (finish c 0x0404 .ok [] [] (onCvu u.toNat (fun x => cvuStop (cvuTouched x)) s))))

/-- R241, R242, R252, R431: a force that every row allows waits for a slot, a restrictive one being stored first; a clear of a variable that has no force and no
request answers at once; FRC_LIST shows the table of the current snapshot. -/
def Sys2Proof.Claims.FrcCommandsAct : Prop :=
  ∀ (s : State) (c : CmdHdr),
    (∀ (id : W32) (v : BitVec 16), Accepted (.frcSet c id v) s → notRunning s = false →
      judgeForce s (runImage s) (forceTable s) id.toNat v = none →
      exec (.frcSet c id v) s = .next (enqueueForce (refOf c 0x0500) 1 id.toNat v
        (if (forceOf s id.toNat v).any then s else storeForce id.toNat v s))) ∧
    (∀ id : W32, Accepted (.frcClear c id) s → notRunning s = false →
      let asked := s.ctl.force.pending.any (fun q => q.varId = id.toNat ∨ q.fop = 3)
      (smFind (forceTable s) id.toNat = none → asked = false → exec (.frcClear c id) s = .next (finish c 0x0501 .ok (scnLe s) [] s)) ∧
      (smFind (forceTable s) id.toNat ≠ none ∨ asked = true →
        exec (.frcClear c id) s = .next (enqueueForce (refOf c 0x0501) 2 id.toNat 0 s))) ∧
    (Accepted (.frcClearAll c) s → notRunning s = false →
      exec (.frcClearAll c) s = .next (enqueueForce (refOf c 0x0502) 3 0 0 s)) ∧
    (∀ q : Snapshot, Accepted (.frcList c) s → currentSnapshot s = some q →
      exec (.frcList c) s = .next (finish c 0x0503 .ok (le4 q.scn.toNat ++ le2 q.forces.length) (snapBytes q 0x1000 0x2000) s))

/-- R433, R263, R264, R269: an image load begins, takes pieces and ends in its checks; a swap or a cancellation is written into the request block; a staged image
is discarded; the state is reported. -/
def Sys2Proof.Claims.OlcCommandsAct : Prop :=
  ∀ (s : State) (c : CmdHdr),
    (∀ (tg : Byte) (len crc : W32), Accepted (.olcLoadBegin c tg len crc) s → s.ctl.olc.mode ≠ .swapping → tg.toNat ≤ 1 →
      len.toNat ≤ 16777216 + 65536 → (tg = 0 → notRunning s = false ∧ switchOn s 3 = true) → (tg = 1 → inService s = false) →
      exec (.olcLoadBegin c tg len crc) s = .next (finish c 0x0600 .ok [] []
        (onOlc (fun o => { o with load := some ⟨tg.toNat, len.toNat, crc, []⟩ }) (dropLoad s)))) ∧
    (∀ (l : OlcLoad) (off : W32) (data : List Byte), s.ctl.olc.load = some l → Accepted (.olcLoadData c off data) s →
      off.toNat % 8 = 0 → off.toNat + data.length ≤ l.len → (data.length % 8 = 0 ∨ off.toNat + data.length = l.len) →
      let ps := if data.isEmpty then l.pieces else putPiece off.toNat data l.pieces
      exec (.olcLoadData c off data) s = .next (finish c 0x0601 .ok (le4 (heldBytes ps)) []
        (onOlc (fun o => { o with load := some { l with pieces := ps } }) s))) ∧
    (∀ l : OlcLoad, s.ctl.olc.load = some l → Accepted (.olcLoadEnd c) s → nandBusy s 0x0602 = false →
      let b := (l.pieces.map (·.2)).flatten
      ((heldBytes l.pieces ≠ l.len ∨ b.length < 256 ∨ leAt b 0xFC 4 ≠ l.crc.toNat) →
        exec (.olcLoadEnd c) s = .next (finish c 0x0602 .checkFail [] [] s)) ∧
      (∀ im : Image, l.target = 1 → heldBytes l.pieces = l.len → 256 ≤ b.length → leAt b 0xFC 4 = l.crc.toNat →
        checkImage s.mgt.upd.active.lane s.variant s.mgt.store.keys none b = .ok im →
        exec (.olcLoadEnd c) s = .next (finish c 0x0602 .ok (leBytes 12 0) []
          (onStore (fun x => { x with image := b }) (onOlc (fun o => { o with load := none, certItem := none }) s)))) ∧
      (∀ im : Image, l.target = 0 → heldBytes l.pieces = l.len → 256 ≤ b.length → leAt b 0xFC 4 = l.crc.toNat →
        (changeCheck (onOlc (fun o => { o with load := none }) s) b).2 = .ok im → notRunning s = false →
        ∃ t, exec (.olcLoadEnd c) s = .next t ∧ t.ctl.olc.image = some im ∧ t.ctl.olc.loadCmd = some (refOf c 0x0602) ∧
          t.ctl.olc.load = none ∧ t.mgt.store.staged = b ∧ t.mgt.mbx.finished = s.mgt.mbx.finished ∧ t.data = s.data)) ∧
    (∀ w : W32, Accepted (.olcSwap c w) s → notRunning s = false → s.ctl.olc.mode = .staged → s.ctl.olc.restage = false →
      s.ctl.olc.swapCmd = none → switchOn s 3 = true → schedAnnounced s = false → debugAttached s = false →
      exec (.olcSwap c w) s = .next (onOlc (fun o => { o with swapCmd := some (refOf c 0x0603) })
        (writeOseq 1 (if w = 0 then nextCarried s + 32 else w) s))) ∧
    (Accepted (.olcCancel c) s → s.ctl.olc.mode = .swapping → s.ctl.olc.cancelCmd = none →
      (scnBefore (nextCarried s) s.ctl.olc.w = true → s.ctl.olc.swapped = false →
        exec (.olcCancel c) s = .next (onOlc (fun o => { o with cancelCmd := some (refOf c 0x0604) }) (writeOseq 2 s.ctl.olc.w s))) ∧
      (scnBefore (nextCarried s) s.ctl.olc.w = false → exec (.olcCancel c) s = .next (finish c 0x0604 .stale [] [] s))) ∧
    (Accepted (.olcDiscard c) s → s.ctl.olc.mode = .staged →
      exec (.olcDiscard c) s = .next (finish c 0x0605 .ok [] [] (olcIdle (olcRecord 9 0 0 (stagedCrc s) s)))) ∧
    (Accepted (.olcStatus c) s → s.ctl.olc.mode = .idle → exec (.olcStatus c) s = .next (finish c 0x0606 .ok (leBytes 4 0 ++ le4 0 ++ le4 0) [] s)) ∧
    (Accepted (.olcStatus c) s → s.ctl.olc.mode = .staged →
      exec (.olcStatus c) s = .next (finish c 0x0606 .ok (leBytes 4 1 ++ le4 0 ++ le4 (stagedCrc s).toNat) [] s)) ∧
    (Accepted (.olcStatus c) s → s.ctl.olc.mode = .swapping →
      exec (.olcStatus c) s = .next (finish c 0x0606 .ok (leBytes 4 2 ++ le4 s.ctl.olc.w.toNat ++ le4 (stagedCrc s).toNat) [] s))

/-- R434, R531 to R536, R545, R546: a package begins, takes blocks with a good CRC, shows what it holds, is verified, activated, aborted, committed or
reverted, and reported. -/
def Obligations.UpdCommandsAct : Prop :=
  ∀ (s : State) (c : CmdHdr),
    (∀ (pkg : W64) (n : W32), Accepted (.updBegin c pkg n) s → updBusy s = false → 2 ≤ n.toNat → n.toNat ≤ 65536 →
      ∃ t, exec (.updBegin c pkg n) s = .next t ∧ t.mgt.upd.mode = .receiving ∧ t.mgt.upd.pkgId = pkg ∧ t.mgt.upd.blocks = n.toNat ∧
        t.mgt.upd.held = (if s.mgt.upd.mode ≠ .idle ∧ s.mgt.upd.pkgId = pkg ∧ s.mgt.upd.blocks = n.toNat then s.mgt.upd.held else []) ∧
        t.mgt.mbx.finished = (finish c 0x0700 .ok (le4 t.mgt.upd.held.length) [] s).mgt.mbx.finished ∧ t.ctl = s.ctl ∧ t.data = s.data) ∧
    (∀ (i crc : W32) (data : List Byte), Accepted (.updBlock c i crc data) s → pkgBegun s = true → i.toNat < s.mgt.upd.blocks →
      nandBusy s 0x0701 = false →
      (crc32c data = crc.toNat → ∃ t, exec (.updBlock c i crc data) s = .next t ∧ smFind t.mgt.upd.held i.toNat = some data ∧
        (∀ k, k ≠ i.toNat → smFind t.mgt.upd.held k = smFind s.mgt.upd.held k) ∧ t.mgt.upd.mode = .receiving ∧ t.ctl = s.ctl ∧ t.data = s.data) ∧
      (crc32c data ≠ crc.toNat → ∃ t, exec (.updBlock c i crc data) s = .next t ∧ t.mgt.upd = s.mgt.upd ∧
        t.mgt.mbx.finished = (finish c 0x0701 .checkFail [] [] s).mgt.mbx.finished ∧ t.ctl = s.ctl ∧ t.data = s.data)) ∧
    (∀ first n : W32, Accepted (.updBitmap c first n) s → pkgBegun s = true → n.toNat % 8 = 0 → 8 ≤ n.toNat → n.toNat ≤ 65536 →
      exec (.updBitmap c first n) s = .next (finish c 0x0702 .ok [] (heldBitmap s first.toNat n.toNat) s)) ∧
    (∀ m : Manifest, Accepted (.updVerify c) s → pkgBegun s = true → nandBusy s 0x0703 = false →
      verifyPackage s s.mgt.upd.pkgId s.mgt.upd.blocks true = .ok m →
      exec (.updVerify c) s = .next (finish c 0x0703 .ok (le4 m.components) [] (onUpd (fun u => { u with mode := .staged, manifest := some m }) s))) ∧
    (∀ st : Status, Accepted (.updVerify c) s → pkgBegun s = true → nandBusy s 0x0703 = false →
      verifyPackage s s.mgt.upd.pkgId s.mgt.upd.blocks true = .error st → exec (.updVerify c) s = .next (finish c 0x0703 st [] [] s)) ∧
    (Accepted (.updActivate c) s → s.mgt.upd.mode = .staged → s.mgt.upd.manifest.isSome = true → shutdownRequested s = false →
      switchOn s 4 = true → ∃ t, exec (.updActivate c) s = .next t ∧ t.mgt.upd.mode = .activating ∧ t.mgt.upd.step = 1 ∧ t.mgt.upd.begun = true ∧
        t.mgt.upd.bankQ = s.mgt.upd.bankP ∧ t.mgt.upd.previous = s.mgt.upd.bankP ∧ t.mgt.upd.originals = some (storedBlocks s) ∧
        t.mgt.mbx.finished = (finish c 0x0704 .pending [] [] s).mgt.mbx.finished ∧ t.ctl = s.ctl ∧ t.data = s.data) ∧
    (Accepted (.updAbort c) s → pkgBegun s = true → exec (.updAbort c) s = .next (finish c 0x0705 .ok [] []
      (onUpd (fun u => { u with mode := .idle, held := [], pkgId := 0, blocks := 0, manifest := none }) s))) ∧
    (∀ (m : Manifest) (fuseOk : Bool), Accepted (.updCommit c fuseOk) s → s.mgt.upd.mode = .awaitCommit → s.mgt.upd.manifest = some m →
      (s.mgt.upd.fuseSecVer < m.secVer → fuseOk = true) → ∃ t, exec (.updCommit c fuseOk) s = .next t ∧ t.mgt.upd.mode = .idle ∧
        t.mgt.upd.fuseSecVer = max s.mgt.upd.fuseSecVer m.secVer ∧ t.mgt.upd.bankQ = s.mgt.upd.bankP ∧ t.mgt.upd.bankP = s.mgt.upd.bankP ∧
        t.ctl = s.ctl ∧ t.data = s.data) ∧
    (∀ m : Manifest, Accepted (.updCommit c false) s → s.mgt.upd.mode = .awaitCommit → s.mgt.upd.manifest = some m →
      s.mgt.upd.fuseSecVer < m.secVer → exec (.updCommit c false) s = .next (finish c 0x0706 .checkFail [] [] s)) ∧
    (Accepted (.updRevert c) s → s.mgt.upd.mode = .awaitCommit → ∃ t, exec (.updRevert c) s = .next t ∧ t.mgt.upd.mode = .idle ∧
      t.mgt.upd.bankP = s.mgt.upd.bankQ ∧ t.mgt.upd.fuseSecVer = s.mgt.upd.fuseSecVer ∧
      t.mgt.mbx.finished = (finish c 0x0707 .ok [] [] s).mgt.mbx.finished ∧ t.ctl = s.ctl ∧ t.data = s.data) ∧
    (Accepted (.updStatus c) s → exec (.updStatus c) s = .next (drawn (finish c 0x0708 .ok (byte (updCode s.mgt.upd.mode)) (updStatusData s) s)))

/-- R435 to R439: targets that R436 allows are written whole into the staging copy between two snapshots and end the pulses they touch; a pulse is counted; without
SNAP the command completes at once, with it after the snapshot that carries it; REQ_READ returns the staging copy. -/
def Sys2Proof.Claims.ReqCommandsAct : Prop :=
  ∀ (s : State) (c : CmdHdr) (flags : Byte), s.mgt.start.bivouac = false → s.ctl.trip.inForce = false →
    (∀ (a : W32) (n : Byte) (v : BitVec 16), let t : ReqTarget := ⟨a.toNat, n.toNat, v.toNat⟩
      reqTargetOk s t = true →
      (Accepted (.reqWrite c a n flags v) s →
        exec (.reqWrite c a n flags v) s = .next (reqFinish c 0x0800 (flags.getLsbD 0) (pulsesEnd [t] (reqPut [t] s)))) ∧
      (∀ hold : Byte, hold ≠ 0 → Accepted (.reqPulse c a n flags v hold) s →
        exec (.reqPulse c a n flags v hold) s = .next (reqFinish c 0x0801 (flags.getLsbD 0) (pulseStart t hold.toNat (reqPut [t] s))))) ∧
    (∀ es : List (W32 × Byte × BitVec 16), let ts := es.map (fun e => (⟨e.1.toNat, e.2.1.toNat, e.2.2.toNat⟩ : ReqTarget))
      Accepted (.reqWriteMulti c flags es) s → 1 ≤ es.length → es.length ≤ 512 → ts.all (reqTargetOk s) = true → reqOverlap ts = false →
      exec (.reqWriteMulti c flags es) s = .next (reqFinish c 0x0802 (flags.getLsbD 0) (pulsesEnd ts (reqPut ts s)))) ∧
    (∀ a n : W32, Accepted (.reqRead c a n) s → a.toNat % 8 = 0 → n.toNat % 8 = 0 → n.toNat ≤ 32768 → reqInArea a.toNat n.toNat = true →
      exec (.reqRead c a n) s = .next (finish c 0x0803 .ok (le4 (lastSnapshot s).toNat)
        ((List.range (n.toNat / 8)).map (fun i => BitVec.ofNat 8 (admRead 8 (a.toNat + 8 * i) s.ctl.adm.staging))) s))

/-- R440, R326, R337, R346, R355: the link blocks are stored and read, a schedule change is announced with no acknowledgement yet, ports and channels change power, a
locked port is unlocked, PORT_STATUS is returned and a cycle-point subscription stands or is gone. -/
def Obligations.LnkCommandsAct : Prop :=
  ∀ (s : State) (c : CmdHdr),
    (∀ (block : Byte) (data : List Byte) (k : CfgBlock), Accepted (.lnkCfgWrite c block data) s → lnkBlock block = some k → 2 ≤ data.length →
      cfgVersion s k data = false → cfgBad s k data = false → nandBusy s 0x0B00 = false →
      ∃ t, exec (.lnkCfgWrite c block data) s = .next t ∧ cfgStored t k = cfgNew s k data ∧
        t.mgt.mbx.finished = (finish c 0x0B00 .ok [] [] s).mgt.mbx.finished ∧ t.ctl = s.ctl ∧ t.data = s.data) ∧
    (∀ (block : Byte) (k : CfgBlock), Accepted (.lnkCfgRead c block) s → lnkBlock block = some k → (cfgStored s k).isEmpty = false →
      nandBusy s 0x0B01 = false → exec (.lnkCfgRead c block) s =
        .next (finish c 0x0B01 .ok (le4 (cfgStored s k).length ++ fmtRange s k) ((cfgStored s k).take c.dataLen) s)) ∧
    (∀ t : Byte, Accepted (.lnkSchedChange c t) s → judge (schedRows s t.toNat) = none →
      exec (.lnkSchedChange c t) s = .next (onSched (fun x => { x with change := some ⟨refOf c 0x0B02, t.toNat, none, none⟩ }) (clearAcks s))) ∧
    (∀ (ch p : Byte) (k : Chan), chanArg ch = some k → portArgBad s ch p = false →
      (∀ on : Byte, on.toNat ≤ 1 → Accepted (.lnkPortPower c ch p on) s → exec (.lnkPortPower c ch p on) s =
        .next (finish c 0x0B03 .ok [] [] (portPower k p.toNat (decide (on ≠ 0)) (linkRecord 0x0B03 k p.toNat s)))) ∧
      (Accepted (.lnkPortUnlock c ch p) s → (port s k p.toNat).mode = .locked → ∃ t, exec (.lnkPortUnlock c ch p) s = .next t ∧
        (port t k p.toNat).mode ≠ .locked ∧ t.mgt.store.lockList.contains (portKey k p.toNat) = false) ∧
      (Accepted (.lnkPortUnlock c ch p) s → (port s k p.toNat).mode ≠ .locked → exec (.lnkPortUnlock c ch p) s =
        .next (finish c 0x0B04 .ok (byte (portCode (port s k p.toNat).mode)) [] (linkRecord 0x0B04 k p.toNat s)))) ∧
    (∀ (ch : Byte) (k : Chan) (first n : Byte), chanArg ch = some k → 1 ≤ n.toNat → first.toNat + n.toNat ≤ 64 →
      Accepted (.lnkPortStatus c ch first n) s → exec (.lnkPortStatus c ch first n) s = .next (finish c 0x0B05 .ok []
        ((List.range n.toNat).flatMap (fun i => leBytes 8 (portWord s k (first.toNat + i)))) s)) ∧
    (∀ (ch on : Byte) (k : Chan), chanArg ch = some k → on.toNat ≤ 1 → (on = 0 → domRun s (starDom k.other) = true) →
      Accepted (.lnkChannelPower c ch on) s → exec (.lnkChannelPower c ch on) s =
        .next (finish c 0x0B06 .ok [] [] (channelPower k (decide (on ≠ 0)) (linkRecord 0x0B06 k 0 s)))) ∧
    (∀ (sub en v : Byte) (off div : W32), cpSubBad s sub en v off div = false → c.session = none → Accepted (.lnkCpSub c sub en v off div) s →
      ∃ t, exec (.lnkCpSub c sub en v off div) s = .next t ∧
        smFind t.data.sched.cpSubs sub.toNat = (if en = 0 then none else some (off.toNat, v.toNat, div.toNat)) ∧
        smFind t.data.sched.cpSent sub.toNat = none ∧ t.ctl = s.ctl ∧ t.mgt.recorder = s.mgt.recorder)

/-- R441 to R444: a subscription takes the lowest free number or its own, ends with the number of its datagrams, is listed, and EXP_READ returns bytes of one snapshot. -/
def Sys2Proof.Claims.ExpCommandsAct : Prop :=
  ∀ (s : State) (c : CmdHdr),
    (∀ (q : SubParam) (k : Nat), Accepted (.expSubscribe c q) s → subscribeBad s q = false → freeSub s q.sub.toNat = some k →
      let n := (expParts q.ranges).length
      exec (.expSubscribe c q) s = .next (finish c 0x0900 .ok (byte k ++ leBytes 3 0 ++ byte n) [] (onExp (fun e => { e with
        subs := smPut e.subs k ⟨q.dstIp, q.dstUdp.toNat, q.netPort.toNat, q.ranges, q.divide.toNat, n, 0, 0, none⟩ }) s))) ∧
    (∀ (sub : Byte) (x : ExpSub), smFind s.mgt.exp.subs sub.toNat = some x → Accepted (.expUnsubscribe c sub) s →
      exec (.expUnsubscribe c sub) s = .next (finish c 0x0901 .ok (le4 x.sent) [] (onExp (fun e => { e with subs := smDrop e.subs sub.toNat }) s))) ∧
    (Accepted (.expList c) s → exec (.expList c) s = .next (finish c 0x0902 .ok (byte s.mgt.exp.subs.length)
      (padTo 1024 (s.mgt.exp.subs.flatMap (fun p => subEntry p.1 p.2))) s)) ∧
    (∀ (q : Snapshot) (off len : W32), Accepted (.expRead c off len) s → currentSnapshot s = some q → off.toNat + len.toNat ≤ 0x80000 →
      exec (.expRead c off len) s = .next (finish c 0x0903 .ok (le4 q.scn.toNat) (snapBytes q off.toNat len.toNat) s))

/-- R445, R516, R522, R524: a rotation of the named lanes is queued and answered PENDING; the self-test status is returned; the soft repairs of a lane without a seat go to
its fuses; the shutdown record is returned. -/
def Sys2Proof.Claims.TstCommandsAct : Prop :=
  ∀ (s : State) (c : CmdHdr),
    (∀ (l : Byte) (ls : List Lane), rotateLanes l = some ls → s.ctl.rot.active = none → s.ctl.rot.queue = [] → s.variant = .f →
      laneCfg s ≠ 1 → laneCfg s ≠ 2 → Accepted (.tstRotate c l) s → exec (.tstRotate c l) s = .next (finish c 0x0A00 .pending [] []
        (onRot (fun r => { r with queue := ls, requested := some l.toNat }) s))) ∧
    (Accepted (.tstStatus c) s → ∃ t, exec (.tstStatus c) s = .next t ∧ t.ctl = s.ctl ∧ t.data = s.data ∧ t.mgt.bist = s.mgt.bist ∧
      t.mgt.mbx.finished = (finish c 0x0A01 .ok (byte (selfTestCode s)) (tstData s) s).mgt.mbx.finished) ∧
    (∀ (l : Byte) (x : Lane), laneArg s l = some x → s.mgt.bist.fuseBurn = none → fuseBusy s x = false → switchOn s 1 = true →
      Accepted (.tstFuseRepair c l) s → exec (.tstFuseRepair c l) s = .next (onBist (fun b => { b with fuseBurn := some (x, refOf c 0x0A02) }) s)) ∧
    (∀ r : BistRecord, s.mgt.bist.record = some r → nandBusy s 0x0A03 = false → Accepted (.tstShutdownRecord c) s →
      exec (.tstShutdownRecord c) s = .next (finish c 0x0A03 .ok [] (bistRecordBytes r) s))

/-- R446, R560 to R564: a debugger attaches in ENGINEERING to the lane that its mode allows, detaches, halts with the next release, resumes by resynchronisation, reads the
attached lane and writes over the voter in pieces: to every lane, or to a halted lane alone, at once where the halt has tripped the module. -/
def Sys2Proof.Claims.DbgCommandsAct : Prop :=
  ∀ (s : State) (c : CmdHdr),
    (∀ (l : Byte) (x : Lane), laneArg s l = some x → (threeVote s = true → holder s .s1 = some x) → notRunning s = false →
      debugAttached s = false → inService s = false → engSwitchOn s 2 = true → Accepted (.dbgAttach c l) s →
      exec (.dbgAttach c l) s = .next (finish c 0x0F00 .ok [] [] (onDbg (fun d => { d with attached := some x, before := lane s x }) s))) ∧
    (Accepted (.dbgDetach c) s → debugAttached s = true → ∃ t, exec (.dbgDetach c) s = .next t ∧ t.ctl.dbg.attached = none ∧
      t.ctl.dbg.pieces = [] ∧ t.ctl.dbg.haltCmd = none) ∧
    (Accepted (.dbgHalt c) s → debugAttached s = true → notRunning s = false → s.ctl.dbg.haltCmd = none → threeVote s = false →
      exec (.dbgHalt c) s = .next (onDbg (fun d => { d with haltCmd := some (refOf c 0x0F02) }) s)) ∧
    (∀ l : Lane, Accepted (.dbgResume c) s → s.ctl.dbg.halted = some l → s.ctl.dbg.trippedByHalt = false → domRun s (laneDom l) = true →
      ∃ t, exec (.dbgResume c) s = .next t ∧ t.ctl.dbg.halted = none ∧ t.ctl.voter.laneVote.get l = .resync ∧
        t.mgt.mbx.finished = (finish c 0x0F03 .ok [] [] s).mgt.mbx.finished ∧ t.data = s.data) ∧
    (∀ (sp : Byte) (a len : W32), Accepted (.dbgRead c sp a len) s → debugAttached s = true → debugRangeBad sp.toNat a.toNat len.toNat = false →
      exec (.dbgRead c sp a len) s = .next (finish c 0x0F04 .ok (le4 (debugView s).2.toNat)
        ((List.range len.toNat).map (fun k => debugByte (debugView s).1 sp.toNat (a.toNat + k))) s)) ∧
    (∀ (sp : Byte) (a : W32) (data : List Byte) (l : Lane), Accepted (.dbgWrite c sp a data) s → s.ctl.dbg.attached = some l →
      debugRangeBad sp.toNat a.toNat data.length = false → (threeVote s && (sp == 1 || sp == 4)) = false →
      (s.ctl.dbg.trippedByHalt = false → exec (.dbgWrite c sp a data) s =
        .next (onDbg (fun d => { d with pieces := d.pieces ++ debugPieces s.ctl.dbg.halted sp.toNat (refOf c 0x0F05) data.length a.toNat data }) s)) ∧
      (∀ h : Lane, s.ctl.dbg.trippedByHalt = true → s.ctl.dbg.halted = some h →
        exec (.dbgWrite c sp a data) s = .next (finish c 0x0F05 .ok (scnLe s) [] (onLane h (debugPutAll sp.toNat a.toNat data) s))))

/-- R228, R424 to R446: a command that a sealing switch guards answers DENIED_SEAL while the switch does not read on, and changes nothing else. -/
def Obligations.SealedCommandsNeedTheirSwitch : Prop :=
  ∀ (s : State) (c : CmdHdr),
    (switchOn s 1 = false → Accepted (.sysReset c) s → exec (.sysReset c) s = .next (finish c 0x0006 .deniedSeal [] [] s)) ∧
    (∀ r : Byte, switchOn s 1 = false → Accepted (.logClear c r) s → s.mgt.recorder.frozen = false → r.toNat < 2 →
      exec (.logClear c r) s = .next (finish c 0x0303 .deniedSeal [] [] s)) ∧
    (switchOn s 6 = false → Accepted (.logClear c 0#8) s → s.mgt.recorder.frozen = false →
      exec (.logClear c 0#8) s = .next (finish c 0x0303 .deniedSeal [] [] s)) ∧
    (∀ i : Byte, switchOn s 1 = false → Accepted (.cfgKeyRemove c i) s → i.toNat < 4 → inService s = false →
      exec (.cfgKeyRemove c i) s = .next (finish c 0x0104 .deniedSeal [] [] s)) ∧
    (∀ (id : W32) (v : BitVec 16) (im : Image) (d : VarDecl), pAny s = false → Accepted (.frcSet c id v) s → notRunning s = false →
      runImage s = some im → varById im id.toNat = some d → forceableVar d = true → v.toNat < 2 ^ d.width → anyValue d v = true →
      s.mgt.start.service = false → exec (.frcSet c id v) s = .next (finish c 0x0500 .deniedSeal [] [] s)) ∧
    (∀ len crc : W32, switchOn s 3 = false → Accepted (.olcLoadBegin c 0#8 len crc) s → s.ctl.olc.mode ≠ .swapping → notRunning s = false →
      len.toNat ≤ 16777216 + 65536 → exec (.olcLoadBegin c 0#8 len crc) s = .next (finish c 0x0600 .deniedSeal [] [] s)) ∧
    (∀ w : W32, switchOn s 3 = false → Accepted (.olcSwap c w) s → notRunning s = false → s.ctl.olc.mode = .staged →
      s.ctl.olc.restage = false → s.ctl.olc.swapCmd = none → exec (.olcSwap c w) s = .next (finish c 0x0603 .deniedSeal [] [] s)) ∧
    (switchOn s 4 = false → Accepted (.updActivate c) s → s.mgt.upd.mode = .staged → s.mgt.upd.manifest.isSome = true →
      shutdownRequested s = false → exec (.updActivate c) s = .next (finish c 0x0704 .deniedSeal [] [] s)) ∧
    (∀ (l : Byte) (x : Lane), switchOn s 1 = false → Accepted (.tstFuseRepair c l) s → laneArg s l = some x → s.mgt.bist.fuseBurn = none →
      fuseBusy s x = false → exec (.tstFuseRepair c l) s = .next (finish c 0x0A02 .deniedSeal [] [] s)) ∧
    (∀ (l : Byte) (x : Lane), engSwitchOn s 2 = false → Accepted (.dbgAttach c l) s → laneArg s l = some x →
      (threeVote s = true → holder s .s1 = some x) → notRunning s = false → debugAttached s = false → inService s = false →
      exec (.dbgAttach c l) s = .next (finish c 0x0F00 .deniedSeal [] [] s))

/-! ### The recorder, the check-value units, forces and online change under way (R237 to R269, R449 to R475) -/

/-- R461, R465, R467: MGT takes the oldest reported event: one identical to its ring's open tail inside the window counts there, any other opens a record with the ring's next SEQ;
a window that has elapsed closes its tail. -/
def Sys2Proof.Claims.RecordsAreTakenInAndCoalesced : Prop :=
  ∀ (s : State) (e : Report) (rest : List Report), let m := s.mgt.recorder
    mgtUp s = true → m.reports = e :: rest → m.lost = 0 → m.vitalLossCount = 0 → m.frozen = false →
    let x := recRing m e.ring
    (∀ r : Rec, openTail m e.ring = some r → identical s e r = true → r.rept + 1 < 65535 → ∃ t, exec .recordIntake s = .next t ∧
      t.mgt.recorder.reports = rest ∧ (recRing t.mgt.recorder e.ring) = x ∧ (intake t.mgt.recorder e.ring).length = (intake m e.ring).length ∧
      (∃ q ∈ intake t.mgt.recorder e.ring, q.seq = r.seq ∧ q.rept = r.rept + 1 ∧ q.ev.detail = e.detail ∧ q.isOpen = true) ∧
      t.ctl = s.ctl ∧ t.data = s.data ∧ t.mgt.mbx = s.mgt.mbx) ∧
    ((∀ r : Rec, openTail m e.ring = some r → identical s e r = false) → (e.ring = .vital → m.vitalIn.length < 256) →
      (e.ring = .general → generalUsed m < 1024) → ∃ t q, exec .recordIntake s = .next t ∧ t.mgt.recorder.reports = rest ∧
      (intake t.mgt.recorder e.ring).getLast? = some q ∧ q.seq = x.next ∧ q.ev = e ∧ q.rept = 1 ∧ q.isOpen = decide (s.mgt.store.coalMs ≠ 0) ∧
      (intake t.mgt.recorder e.ring).length = (intake m e.ring).length + 1 ∧ (recRing t.mgt.recorder e.ring).next = x.next + 1 ∧
      t.ctl = s.ctl ∧ t.data = s.data ∧ t.mgt.mbx = s.mgt.mbx) ∧
    (∀ (ring : RecRing) (r : Rec), openTail m ring = some r → windowOver s r = true →
      ∃ t, exec (.coalesceWindowExpiry ring) s = .next t ∧ openTail t.mgt.recorder ring = none ∧ t.mgt.recorder.reports = m.reports ∧
        (intake t.mgt.recorder ring).length = (intake m ring).length ∧ t.ctl = s.ctl ∧ t.data = s.data ∧ t.mgt.mbx = s.mgt.mbx)

/-- R465, R466, R468, R472: a page writes its records to their slots and takes them from the holding memory; a freeze ends at its time or by its bit and begins by its bit. -/
def Sys2Proof.Claims.PagesAreCommittedAndFreezesEnd : Prop :=
  ∀ s : State,
    (∀ ring : RecRing, pageDue s ring = true → let rs := (committable s.mgt.recorder ring).take 64
      (rs.map (fun x => x.seq.toNat % ringSlots)).Nodup → (∀ x ∈ rs, x.ev.ring = ring) → ∃ t, exec (.pageCommit ring) s = .next t ∧
        (∀ x ∈ rs, smFind (recRing t.mgt.recorder ring).committed (x.seq.toNat % ringSlots) = some x ∧
          (s.mgt.recorder.lost = 0 → s.mgt.recorder.vitalLossCount = 0 → x ∉ intake t.mgt.recorder ring)) ∧
        t.ctl = s.ctl ∧ t.data = s.data ∧ t.power = s.power) ∧
    (mgtUp s = true → s.mgt.recorder.frozen = true →
      (s.mgt.recorder.frozenUntil ≤ s.clk.tick → exec .freezeExpiry s = .next (onRec (endFreeze s.clk.tick) s)) ∧
      (barUp s = true → exec .logUnfreezeBit s = .next (onRec (endFreeze s.clk.tick) s)) ∧
      (barUp s = true → exec .logFreezeBit s = .next s)) ∧
    (mgtUp s = true → barUp s = true → s.mgt.recorder.frozen = false →
      (∃ t, exec .logFreezeBit s = .next t ∧ t.mgt.recorder.frozen = true ∧
        t.mgt.recorder.frozenUntil = s.clk.tick + 25000000 * s.mgt.store.freezeS ∧ t.mgt.recorder.vitalIn = [] ∧
        t.mgt.recorder.generalIn = [] ∧ t.mgt.recorder.reports = s.mgt.recorder.reports ∧ t.ctl = s.ctl ∧ t.data = s.data) ∧
      exec .logUnfreezeBit s = .next s)

/-- R473: a write of the cursor makes the window not ready; MGT loads the record at the cursor; with AUTO_INC the read of its last word goes on to the next; a write of LOG_CTRL
names the ring. -/
def Sys2Proof.Claims.TheWindowFollowsItsCursor : Prop :=
  ∀ s : State,
    (∀ v : W32, barUp s = true →
      (exec (.logCursorWrite false v) s = .next (onRec (fun m => { m with cursor := v, winReady := false, window := none }) s)) ∧
      (∃ t, exec (.logCursorWrite true v) s = .next t ∧ t.mgt.recorder.winRing = (if v.getLsbD 28 then .general else .vital) ∧
        t.mgt.recorder.autoInc = v.getLsbD 27 ∧ t.mgt.recorder.winReady = false ∧ t.mgt.recorder.cursor = s.mgt.recorder.cursor ∧
        (v.getLsbD 24 = true → t.mgt.recorder.vitalLost = false) ∧ t.ctl = s.ctl ∧ t.data = s.data)) ∧
    (mgtUp s = true → s.mgt.recorder.winReady = false → ∃ t, exec .logWinLoadDone s = .next t ∧ t.mgt.recorder.winReady = true ∧
      (∀ (r : Rec) (h f : Bool), curValid s.mgt.recorder = true →
        findRec s.mgt.recorder s.mgt.recorder.winRing s.mgt.recorder.cursor = some (r, h, f) → t.mgt.recorder.window = some (recBytes r h f)) ∧
      (curValid s.mgt.recorder = false → t.mgt.recorder.window = none) ∧ t.mgt.recorder.cursor = s.mgt.recorder.cursor ∧
      t.ctl = s.ctl ∧ t.data = s.data ∧ t.mgt.mbx = s.mgt.mbx) ∧
    (barUp s = true → s.mgt.recorder.autoInc = true → s.mgt.recorder.winReady = true → exec .logWinAutoRead s =
      .next (onRec (fun m => { m with cursor := m.cursor + 1, winReady := false, window := none }) s))

/-- R451 to R458: a unit that stands takes its setting and starts where the setting is valid, else shows CFG_ERR; ENABLE 0 stops it; software opens and closes a window; a window that
closes gives its check value, its length, its scan and the next sequence number, and counts an overrun where the last was not acknowledged; the acknowledgement of another number
changes nothing; a unit test leaves the registers. -/
def Sys2Proof.Claims.UnitsAreWrittenAndClose : Prop :=
  ∀ (s : State) (u : BitVec 4), let x := cvuOf s u.toNat
    (∀ v : W32, barUp s = true →
      (x.enable = false → v.getLsbD 31 = true → cvuSettingOk (cvuFields v x) = true → ∃ t, exec (.cvuEnableWrite u v) s = .next t ∧
        (cvuOf t u.toNat) = { cvuFields v x with underTest := false, enable := true, cfgErr := false } ∧
        (∀ k, k ≠ u.toNat → cvuOf t k = cvuOf s k) ∧ t.ctl = s.ctl ∧ t.data = s.data) ∧
      (x.enable = false → v.getLsbD 31 = true → cvuSettingOk (cvuFields v x) = false → ∃ t, exec (.cvuEnableWrite u v) s = .next t ∧
        (cvuOf t u.toNat).enable = false ∧ (cvuOf t u.toNat).cfgErr = true) ∧
      (v.getLsbD 31 = false → ∃ t, exec (.cvuEnableWrite u v) s = .next t ∧ (cvuOf t u.toNat).enable = false ∧ (cvuOf t u.toNat).valid = false ∧
        (cvuOf t u.toNat).overrun = 0 ∧
        (cvuOf t u.toNat).winOpen = false ∧ (cvuOf t u.toNat).window = [] ∧ (x.ended = [] → (cvuOf t u.toNat).result = x.result) ∧ t.ctl = s.ctl ∧ t.data = s.data) ∧
      (exec (.cvuResultAckWrite u v) s = .next (onCvu u.toNat (fun y => if v = y.seq then { y with underTest := false, valid := false } else { y with underTest := false }) s))) ∧
    (barUp s = true → softUnit x = true →
      (exec (.cvuOpenWrite u) s = .next (onCvu u.toNat (fun y => { y with underTest := false, winOpen := true, window := [] }) s)) ∧
      (∀ bytes : List Byte, x.winOpen = true → ∃ t, exec (.cvuCloseWrite u bytes) s = .next t ∧
        (cvuOf t u.toNat).result = cvuResult x (softBytes s u.toNat bytes) ∧ (cvuOf t u.toNat).winOpen = false ∧ (cvuOf t u.toNat).valid = true ∧
        (cvuOf t u.toNat).seq = x.seq + 1 ∧ t.ctl = s.ctl ∧ t.data = s.data)) ∧
    (∀ (bytes b : List Byte) (n : Scn) (rest : List (Scn × List Byte)), domRun s 1 = true → x.enable = true → x.ended = (n, b) :: rest →
      ∃ t, exec (.cvuWindowClose u bytes) s = .next t ∧ (cvuOf t u.toNat).result = cvuResult x b ∧ (cvuOf t u.toNat).winScn = n ∧
        (cvuOf t u.toNat).ended = rest ∧ (cvuOf t u.toNat).seq = x.seq + 1 ∧ (cvuOf t u.toNat).valid = true ∧ t.ctl = s.ctl ∧ t.data = s.data) ∧
    (∀ bytes : List Byte, domRun s 1 = true → x.enable = true → x.ended = [] → windowFits s x bytes = true → ∃ t, exec (.cvuWindowClose u bytes) s = .next t ∧
      (cvuOf t u.toNat).result = cvuResult x bytes ∧ (cvuOf t u.toNat).winBytes = BitVec.ofNat 32 bytes.length ∧
      (cvuOf t u.toNat).winScn = scn s ∧ (cvuOf t u.toNat).seq = x.seq + 1 ∧ (cvuOf t u.toNat).valid = true ∧
      (x.valid = false → (cvuOf t u.toNat).overrun = x.overrun) ∧
      (x.valid = true → (cvuOf t u.toNat).overrun.toNat = min 0xFFFF (x.overrun.toNat + 1)) ∧
      (∀ k, k ≠ u.toNat → cvuOf t k = cvuOf s k) ∧ t.ctl = s.ctl ∧ t.data = s.data) ∧
    (mgtUp s = true → x.enable = false → exec (.cvuUnitTest u) s = .next (onCvu u.toNat (fun y => { y with underTest := !y.underTest }) s))

/-- R245: a force request that no snapshot has shown by its 64th scan is withdrawn: its slot's FSEQ is cleared and its command completes with TIMEOUT. -/
def Sys2Proof.Claims.UnshownForcesTimeOut : Prop :=
  ∀ (s : State) (slot : BitVec 2) (q : ForceReq),
    s.ctl.force.pending.find? (fun q => q.slot = some slot.toNat ∧ 64 ≤ q.scans) = some q →
    (∀ r ∈ s.ctl.force.pending, r.slot.isSome = true) → ∃ t, exec (.forceTimeout slot) s = .next t ∧
      t.ctl.force.pending = s.ctl.force.pending.filter (fun r => r ≠ q) ∧ varBits 16 (slotBase slot.toNat) t.ctl.adm.staging = 0 ∧
      t.mgt.mbx.finished = (finishRef q.cmd .timeout 0 [] [] s).mgt.mbx.finished ∧ t.ctl.lanes = s.ctl.lanes ∧ t.ctl.vio = s.ctl.vio ∧ t.data = s.data

/-- R265, R266: at the release of scan W each half judges the swap: where nothing refuses it every lane of a seat and the belay lane whose shadow bank holds the image exchanges its banks,
no other lane does, and the cairn is lost; where something does, the state is STAGED again and OLC_SWAP completes with the reason; halves that differ are an X/Y disagreement. -/
def Sys2Proof.Claims.SwapsAreDecidedAtTheirBoundary : Prop :=
  ∀ (s : State) (old new : Image), let o := s.ctl.olc
    let n := BitVec.ofNat 32 s.ctl.followers.x.cycle
    let at_ := onVoter (fun v => { v with scn := n }) s
    o.mode = .swapping → o.swapped = false → scnBefore n o.w = false → n ≠ scn s → ctlRuns s = true → runImage s = some old → o.image = some new →
    (swapRefusal at_ .x old new = none → swapRefusal at_ .y old new = none → ∃ t, exec .olcSwapBoundary s = .next t ∧ t.ctl.olc.swapped = true ∧
      t.ctl.voter.cairn = none ∧ t.ctl.voter.scn = s.ctl.voter.scn ∧
      (∀ l, swaps s new l = true → (lane t l).core.active = some new ∧ (lane t l).core.shadow = some old) ∧
      (∀ l, swaps s new l = false → (lane t l).core = (lane s l).core) ∧ t.data = s.data) ∧
    (∀ st : Status, swapRefusal at_ .x old new = some st → swapRefusal at_ .y old new = some st → ∃ t, exec .olcSwapBoundary s = .next t ∧
      t.ctl.olc.mode = .staged ∧ t.ctl.olc.swapCmd = none ∧ t.ctl.lanes = s.ctl.lanes ∧ t.ctl.voter = s.ctl.voter ∧ t.data = s.data ∧
      (∀ c, o.swapCmd = some c → t.mgt.mbx.finished = (finishRef c st 0 [] [] s).mgt.mbx.finished)) ∧
    (swapRefusal at_ .x old new ≠ swapRefusal at_ .y old new → exec .olcSwapBoundary s = .next (atScan n tripXY s))

/-- R23, R256, R257, R262, R268: in the idle part of a scan a free lane takes the image into its shadow bank; the last one brings the verdict: STAGED with the map's digest where every lane's
digest agrees and scan W fits its budget, else nothing is staged and the load completes with CHECK_FAIL; after a start the image is checked again. VIO and a voter half take their
firmware into their shadow banks the same way (R18, R540, R541). -/
def Sys2Proof.Claims.StagingReachesEveryLane : Prop :=
  (∀ (s : State) (l : Lane) (i old : Image), s.ctl.olc.image = some i → stagingDue s = true → ctlRuns s = true → idlePart s = true →
    (stagingLanes s).contains l = true → ((lane s l).core.phase = .idle ∨ (lane s l).core.phase = .stopped) → (lane s l).core.shadow ≠ some i →
    runImage s = some old →
    let s1 := onCore l (fun c => { c with shadow := some i }) s
    ((stagingOpen s && allStaged s1 i) = false → exec (.stagingTransferDone (.lane l)) s = .next s1) ∧
    (stagingOpen s = true → allStaged s1 i = true → let m := transferMap old i
      (s.ctl.olc.restage = false → digestDissent s1 (mapDigest m) = 0 → i.certCycles + swapCost m ≤ Config.budget i.tscan →
        ∃ t, exec (.stagingTransferDone (.lane l)) s = .next t ∧ t.ctl.olc.mode = .staged ∧
        t.ctl.olc.map = m ∧ t.ctl.olc.digest = mapDigest m ∧ t.ctl.olc.loadCmd = none ∧ t.data = s.data ∧
        (∀ c, s.ctl.olc.loadCmd = some c → t.mgt.mbx.finished =
          (finishRef c .ok 0 (le4 m.length ++ le4 ((mapDigest m).toNat % 2 ^ 32) ++ le4 (i.certCycles + swapCost m)) [] s).mgt.mbx.finished)) ∧
      (s.ctl.olc.restage = false → (digestDissent s1 (mapDigest m) ≠ 0 ∨ Config.budget i.tscan < i.certCycles + swapCost m) →
        ∃ t, exec (.stagingTransferDone (.lane l)) s = .next t ∧ t.ctl.olc.mode = .idle ∧ t.ctl.olc.image = none ∧ t.data = s.data ∧
        (∀ c, s.ctl.olc.loadCmd = some c → t.mgt.mbx.finished = (finishRef c .checkFail 0 [] [] s).mgt.mbx.finished)) ∧
      (∀ st, s.ctl.olc.restage = true → (changeCheck s1 s.mgt.store.staged).2 = .error st →
        exec (.stagingTransferDone (.lane l)) s = .next (stagingFails st (changeCheck s1 s.mgt.store.staged).1)))) ∧
  (∀ s : State, ctlRuns s = true → idlePart s = true →
    (inStep s 5 = true → domRun s 11 = true → s.mgt.upd.shadowVio = none →
      exec (.stagingTransferDone (.vio true)) s = .next (onUpd (fun u => { u with shadowVio := some u.bankP.vio, stepScn := scn s }) s) ∧
      exec (.stagingTransferDone (.vio false)) s = .next (stepFails .checkFail s)) ∧
    (∀ h : Half, inStep s 6 = true → s.mgt.upd.shadowVoter.get h = none →
      exec (.stagingTransferDone (.half h true)) s =
        .next (onUpd (fun u => { u with shadowVoter := u.shadowVoter.set h (some u.bankP.voter), stepScn := scn s }) s) ∧
      exec (.stagingTransferDone (.half h false)) s = .next (stepFails .checkFail s)))


/-! ### Firmware update and self-test in service (R198, R207, R513 to R551) -/

/-- R537, R538, R540, R541, R544: each step of an activation ends as its own event says: the banks read back or CHECK_FAIL, MGT in its new firmware, VIO and the voter halves switched at their instant, and a
star that is not running after 30 s fails the step; a failed step rolls the package back to the set in Q. -/
def Sys2Proof.Claims.StepsEndOrRollBack : Prop :=
  ∀ (s : State),
    (∀ m : Manifest, inStep s 1 = true → s.mgt.upd.manifest = some m →
      (exec (.updBankStep true) s = .next (finishStep (onUpd (fun u => { u with bankP := withPackage u.bankP m, used := u.preferred }) s))) ∧
      (s.mgt.upd.mode = .activating → s.mgt.upd.complete = [] → ∃ t, exec (.updBankStep false) s = .next t ∧ t.mgt.upd.mode = .staged ∧
        t.mgt.upd.bankP = s.mgt.upd.bankQ ∧ t.mgt.upd.step = 0 ∧ t.mgt.upd.lastStatus = Status.checkFail.code ∧ t.data = s.data)) ∧
    (inStep s 2 = true →
      (∃ t, exec (.mgtBankSwap false) s = .next t ∧ t.mgt.start.booted = false ∧ t.mgt.mbx.ready = false ∧ t.mgt.mbx.rings = [] ∧
        t.mgt.mbx.sessions = [] ∧ t.mgt.mbx.pulses = [] ∧ t.mgt.upd.unconfirmed = s.mgt.upd.unconfirmed + 1 ∧ t.ctl.voter = s.ctl.voter ∧
        t.data = s.data) ∧
      (exec (.mgtBankSwap true) s = .next (mgtStarts (onUpd (fun u => { u with used := u.preferred }) (swapQuiesce s))))) ∧
    (∀ fw : BitVec 32, s.mgt.upd.shadowVio = some fw → inStep s 5 = true → domRun s 11 = true → ctlRuns s = true → vioInstant s = true →
      exec .vioFirmwareSwap s = .next (finishStep (onVio (fun v => { v with fwVer := fw }) s))) ∧
    (∀ x y : BitVec 32, s.mgt.upd.shadowVoter.x = some x → s.mgt.upd.shadowVoter.y = some y → inStep s 6 = true → ctlRuns s = true →
      (scn s).toNat % 64 = 0 → atRelease s = true → sixteenScans s = true →
      (microcodeRefused s = false → x = y → exec .voterMicrocodeSwap s = .next (finishStep (onVoter (fun v => { v with fwVer := ⟨x, y⟩ }) s))) ∧
      (microcodeRefused s = false → x ≠ y → exec .voterMicrocodeSwap s = .next (tripXY (onVoter (fun v => { v with fwVer := ⟨x, y⟩ }) s))) ∧
      (microcodeRefused s = true → s.mgt.upd.refusals < 63 → exec .voterMicrocodeSwap s =
        .next (onUpd (fun u => { u with refusals := u.refusals + 1, stepScn := scn s }) s)) ∧
      (microcodeRefused s = true → s.mgt.upd.refusals = 63 → s.mgt.upd.mode = .activating → ∃ t, exec .voterMicrocodeSwap s = .next t ∧
        t.mgt.upd.bankP = s.mgt.upd.bankQ ∧ t.mgt.upd.lastStatus = Status.timeout.code ∧ t.data = s.data)) ∧
    (∀ ch : Chan, stepChan s.mgt.upd.step = some ch → inStep s s.mgt.upd.step = true → domRun s (starDom ch) = true → (star s ch).mode ≠ .running →
      (star s ch).coldSince + msTicks 30000 ≤ s.clk.tick → s.mgt.upd.mode = .activating → ∃ t, exec (.starStepTimeout ch) s = .next t ∧
        t.mgt.upd.bankP = s.mgt.upd.bankQ ∧ t.mgt.upd.lastStatus = Status.timeout.code ∧ t.data = s.data)

/-- R532, R550, R551: a block with a good CRC is held and one with a bad CRC answers CHECK_FAIL and changes no block, whether it comes through BAR0 with boot source HOST or as a recovery
datagram, which is answered; once the set stands, a datagram is answered OK. -/
def Sys2Proof.Claims.TheMaskRomTakesBlocks : Prop :=
  ∀ (s : State) (crc : W32) (b : List Byte), domRun s 1 = true →
    (s.mgt.upd.romComplete = false → ∀ i : BitVec 16, s.mgt.start.booted = false → s.power.recovery = false →
      s.power.bootCfg.map bootSource = some .host →
      (exec (.romBlockGo i crc b) s = .next (romVerify (fun v u => { u with active := v }) (romTake i.toNat crc b s))) ∧
      ((b.length = 4096 ∧ crc.toNat = crc32c b) → (heldBlock (smPut s.mgt.upd.held i.toNat b) 0).isEmpty = true → exec (.romBlockGo i crc b) s =
        .next (onUpd (fun u => { u with romIndex := i.toNat, romCrc := crc, held := smPut u.held i.toNat b, romResult := 0 }) s)) ∧
      (b.length ≠ 4096 ∨ crc.toNat ≠ crc32c b → (heldBlock s.mgt.upd.held 0).isEmpty = true → exec (.romBlockGo i crc b) s =
        .next (onUpd (fun u => { u with romIndex := i.toNat, romCrc := crc, romResult := Status.checkFail.code }) s))) ∧
    (s.mgt.upd.romComplete = false → ∀ i : W32, s.power.recovery = true →
      (exec (.recoveryDatagram i crc b) s =
        .next (recoveryReply i (romVerify (fun v u => { u with bankP := v, bankQ := v }) (romTake i.toNat crc b s)))) ∧
      ((b.length = 4096 ∧ crc.toNat = crc32c b) → (heldBlock (smPut s.mgt.upd.held i.toNat b) 0).isEmpty = true → exec (.recoveryDatagram i crc b) s =
        .next (recoveryReply i
          (onUpd (fun u => { u with romIndex := i.toNat, romCrc := crc, held := smPut u.held i.toNat b, romResult := 0 }) s))) ∧
      (b.length ≠ 4096 ∨ crc.toNat ≠ crc32c b → (heldBlock s.mgt.upd.held 0).isEmpty = true → exec (.recoveryDatagram i crc b) s =
        .next (recoveryReply i (onUpd (fun u => { u with romIndex := i.toNat, romCrc := crc, romResult := Status.checkFail.code }) s)))) ∧
    (s.mgt.upd.romComplete = true → ∀ i : W32, s.power.recovery = true →
      exec (.recoveryDatagram i crc b) s = .next (recoveryReply i (onUpd (fun u => { u with romResult := 0 }) s)))

/-- R207, R510 to R514, R518, R519: a lane under test whose verdict fails, after any repair and its retest, is FAILED and takes part in no rotation; one that passes stands by again and its
repairs stand in the soft map; the belay lane's steps run partition by partition and macro by macro, with their faults and their runs; a region is scrubbed once in 24 operating
hours and is busy until its end; soft repairs whose fuses read back and whose retest finds nothing pass into the fuses. -/
def Obligations.TestsInServiceAreJudged : Prop :=
  ∀ (s : State),
    (∀ (l : Lane) (d : DieTest), laneTested s l = true → (verdict s l.idx d).passes = false → ∃ t, exec (.laneTestDone l d) s = .next t ∧
      t.ctl.voter.laneVote.get l = .failed ∧ t.ctl.rot.excluded.get l = true ∧ (∀ m, m ≠ l → lane t m = lane s m) ∧
      t.ctl.voter.seats = s.ctl.voter.seats ∧ t.data = s.data ∧ t.ctl.vio = s.ctl.vio) ∧
    (∀ (l : Lane) (d : DieTest), s.variant = .f → s.ctl.rot.forFirmware = false → laneTested s l = true → (verdict s l.idx d).passes = true →
      ∃ t, exec (.laneTestDone l d) s = .next t ∧ t.ctl.voter.laneVote.get l = .belay ∧ t.ctl.rot.excluded.get l = false ∧
      smGet [] t.mgt.bist.softMap l.idx = smGet [] s.mgt.bist.softMap l.idx ++ (verdict s l.idx d).made ∧ (lane t l).health.failedAt = none ∧
      (lane t l).core = (lane s l).core ∧ (∀ m, m ≠ l → lane t m = lane s m) ∧ t.ctl.voter.seats = s.ctl.voter.seats ∧ t.data = s.data) ∧
    (∀ l : Lane, belayLane s = some l → s.ctl.voter.join = none → let x := (lane s l).selfTest
      let p := x.steps / 256
      (∀ (misr : W64) (golden : Bool), x.steps % 256 ≠ 255 → ∃ t, exec (.belayTestStep (.logic misr golden)) s = .next t ∧
        (lane t l).selfTest = { x with steps := x.steps + 1 } ∧ (lane t l).core = (lane s l).core ∧ t.ctl.voter = s.ctl.voter ∧ t.data = s.data) ∧
      (∀ misr : W64, x.steps % 256 = 255 → partitionUsed (repairsOf s l.idx ++ x.trial) p = true →
        ∃ t, exec (.belayTestStep (.logic misr false)) s = .next t ∧ (lane t l).selfTest.lbistFail = true ∧ (lane t l).selfTest.steps = 0 ∧
          (lane t l).selfTest.lbistRuns = x.lbistRuns ∧ t.ctl.voter = s.ctl.voter ∧ t.data = s.data) ∧
      (∀ misr : W64, x.steps % 256 = 255 → p = 35 → ∃ t, exec (.belayTestStep (.logic misr true)) s = .next t ∧
        (lane t l).selfTest.lbistFail = false ∧ (lane t l).selfTest.steps = 0 ∧ (lane t l).selfTest.lbistRuns = x.lbistRuns + 1 ∧
        (lane t l).selfTest.misr = misr ∧ t.ctl.voter = s.ctl.voter ∧ t.data = s.data) ∧
      (∀ (r : TestRegion) (m : Nat) (cells : List Cell) (last : Bool),
        (belayMayTest s l r = true → cells ≠ [] → ∃ t, exec (.belayTestStep (.memory r m cells last)) s = .next t ∧
          (lane t l).selfTest.mbistFail = true ∧ (lane t l).selfTest.mbistRuns = x.mbistRuns ∧ t.ctl.voter = s.ctl.voter ∧ t.data = s.data) ∧
        (belayMayTest s l r = true → ∃ t, exec (.belayTestStep (.memory r m [] true)) s = .next t ∧ (lane t l).selfTest.mbistFail = false ∧
          (lane t l).selfTest.mbistRuns = x.mbistRuns + 1 ∧ t.ctl.voter = s.ctl.voter ∧ t.data = s.data) ∧
        (belayMayTest s l r = false → exec (.belayTestStep (.memory r m cells last)) s = .next s))) ∧
    (∀ region : Byte, mgtUp s = true →
      (s.mgt.bist.nandRegion = none → smFind s.mgt.bist.scrubbed region.toNat ≠ some (ophHours s / 24) →
        ∃ t, exec (.nandScrubRegion region false) s = .next t ∧ t.mgt.bist.nandRegion = some region.toNat ∧
        smFind t.mgt.bist.scrubbed region.toNat = some (ophHours s / 24) ∧ s.clk.tick ≤ t.mgt.bist.nandEnd ∧ t.ctl = s.ctl ∧ t.data = s.data) ∧
      (s.mgt.bist.nandRegion = some region.toNat →
        exec (.nandScrubRegion region true) s = .next (onBist (fun b => { b with nandRegion := none }) s))) ∧
    (∀ (l : Lane) (c : CmdRef) (r : DieRun), s.mgt.bist.fuseBurn = some (l, c) → mgtUp s = true → let soft := smGet [] s.mgt.bist.softMap l.idx
      (logicClean l.idx (repairsOf s l.idx) r = true → r.cells = [] → ∃ t, exec (.fuseBurnDone [] r) s = .next t ∧
        t.mgt.bist.fuseBurn = none ∧ smGet [] t.mgt.bist.softMap l.idx = [] ∧
        smGet [] t.mgt.bist.fuseMap l.idx = smGet [] s.mgt.bist.fuseMap l.idx ++ soft ∧
        t.mgt.mbx.finished = (finishRef c .ok 0 (le2 soft.length) [] s).mgt.mbx.finished ∧ t.ctl = s.ctl ∧ t.data = s.data) ∧
      (∀ unburnt : List Nat, (unburnt ≠ [] ∨ logicClean l.idx (repairsOf s l.idx) r = false ∨ r.cells ≠ []) →
        ∃ t, exec (.fuseBurnDone unburnt r) s = .next t ∧
        t.mgt.bist.fuseBurn = none ∧ t.mgt.bist.softMap = s.mgt.bist.softMap ∧ t.mgt.bist.fuseMap = s.mgt.bist.fuseMap ∧
        t.mgt.mbx.finished = (finishRef c .checkFail 0 [] [] s).mgt.mbx.finished ∧ t.ctl = s.ctl ∧ t.data = s.data))

/-- R533: bit i of data byte k that UPD_BITMAP returns is the held state of block FIRST + 8k + i, and blocks at or beyond BLOCKS read 0. -/
def Obligations.UpdBitmapShowsHeldBlocks : Prop :=
  ∀ (s : State) (c : CmdHdr) (first n : W32), Accepted (.updBitmap c first n) s → pkgBegun s = true → n.toNat % 8 = 0 → 8 ≤ n.toNat →
    n.toNat ≤ 65536 → ∃ data : List Byte, exec (.updBitmap c first n) s = .next (finish c 0x0702 .ok [] data s) ∧ data.length = n.toNat / 8 ∧
      (∀ k i : Nat, k < n.toNat / 8 → i < 8 → (data.getD k 0).getLsbD i =
        (decide (first.toNat + 8 * k + i < s.mgt.upd.blocks) && (smFind s.mgt.upd.held (first.toNat + 8 * k + i)).isSome))

/-! ### The statements made of several parts -/

/-- The bit instructions set ACC or write the one bit that OPD names, which reads back as stored; nothing else changes. -/
def Obligations.BitInstructionsReadAndWrite : Prop :=
  Sys2Proof.Claims.BitReadsSetAcc ∧ Sys2Proof.Claims.BitWritesStoreOneBit ∧ Sys2Proof.Claims.StoredBitReadsBack

/-- Timers, counters and edge detectors change as their rules say and deliver their output xor N to ACC. -/
def Obligations.UnitsRunTheirRule : Prop :=
  Sys2Proof.Claims.UnitInstructionsRun ∧ Sys2Proof.Claims.TimersFollowTheirTable ∧ Sys2Proof.Claims.CountersCountRisingEdges

/-- END moves an engine on or finishes it; all engines waiting at one barrier leave together two cycles after the last arrived. -/
def Obligations.SegmentsEndAndEnginesSync : Prop :=
  Sys2Proof.Claims.EndAndSyncMoveTheEngine ∧ Sys2Proof.Claims.BarrierReleasesAllEngines

/-- An engine fault or a scrub error stops the lane with its code and changes no variable and no other lane. -/
def Obligations.EngineFaultsWithdrawTheLane : Prop :=
  Sys2Proof.Claims.OperandFaultsWithdrawTheLane ∧ Sys2Proof.Claims.ScrubErrorWithdrawsTheLane

/-- An in-order record is placed, two equal records vote the word, and a record that is broken or stale leaves the vote alone. -/
def Obligations.RecordsAreVotedInOrder : Prop :=
  Sys2Proof.Claims.InOrderRecordIsPlaced ∧ Sys2Proof.Claims.TwoEqualRecordsVoteTheWord ∧ Sys2Proof.Claims.BadRecordsAreReportedAndDropped

/-- A closed skew window marks the missing seat late, a deadline judges the scan, and a late supervisor digest is late. -/
def Obligations.LateRecordsAndDeadlines : Prop :=
  Sys2Proof.Claims.SkewWindowAndDeadline ∧ Sys2Proof.Claims.LateSupervisorDigestIsLate

/-- A ready word in time is kept as received or as the lane sends it, and a lease that does not vote ends at its expiry with its record. -/
def Obligations.ReadyWordsAndLeases : Prop :=
  Sys2Proof.Claims.ReadyWordIsKept ∧ Sys2Proof.Claims.LeaseEndsAtItsExpiry

/-- A checked capture becomes the cairn, a failed one leaves the cairn before; a takeover loads it or is abandoned at its deadline. -/
def Obligations.CairnsAreEnteredAndLoaded : Prop :=
  Sys2Proof.Claims.CairnCaptureEntersOrIsAbandoned ∧ Sys2Proof.Claims.TakeoverLoadsTheCairn

/-- An idle part sends a lane the differing blocks that fit, the last of them completing its copy; belay reports are kept until they are stale. -/
def Obligations.ResyncAndBelayReports : Prop :=
  Sys2Proof.Claims.CompletedResyncCopiesTheSource ∧ Sys2Proof.Claims.BelayReportsAreKept

/-- The diversity flag, its allowance and the rotation interval follow their counts, and an allowance at zero trips the module. -/
def Obligations.DiversityRunsOut : Prop :=
  Sys2Proof.Claims.DiversityAndRotationRunOnTheirCounts ∧ Sys2Proof.Claims.DiversityExpiryTrips

/-- A cycle instant counts its block's cycle, the admission snapshot is taken or discarded, and the export is published. -/
def Obligations.ScansBeginAndPublish : Prop :=
  Sys2Proof.Claims.CycleInstantCounts ∧ Sys2Proof.Claims.AdmissionSnapshotIsTakenOrDiscarded ∧ Sys2Proof.Claims.SnapshotIsPublished

/-- A port integrates or is locked as its link comes up and goes down with it; its self-test is kept; a lost port degrades the module. -/
def Obligations.PortsFollowTheirLinks : Prop :=
  Sys2Proof.Claims.PortLinkMovesThePort ∧ Sys2Proof.Claims.PortSelfTestIsKept ∧ Sys2Proof.Claims.LostPortDegrades

/-- A port judges each upframe by its window, and a star with a third gate fault in a row isolates itself. -/
def Obligations.StarsJudgeFramesAndGates : Prop :=
  Sys2Proof.Claims.FramesAreJudgedAtThePort ∧ Sys2Proof.Claims.GateFaultsIsolateTheStar

/-- Cold start, the downframes that a star sends, and a change of schedule at its boundary. -/
def Obligations.StarsStartAndSend : Prop :=
  Sys2Proof.Claims.ColdStartContention ∧ Sys2Proof.Claims.StarSendsDownframes ∧ Sys2Proof.Claims.ScheduleChangeTakesForce

/-- A node's channels move with their link, a downframe is taken or ignored, and outputs follow what the channels brought. -/
def Obligations.NodesTakeFramesAndApplyOutputs : Prop :=
  Sys2Proof.Claims.NodeChannelsMove ∧ Sys2Proof.Claims.NodeTakesDownframes ∧ Sys2Proof.Claims.NodeAppliesItsOutputs

/-- A contact takes its filtered state, differing contacts are discrepant, and a test slot sets or ends a fault. -/
def Obligations.ContactsAreFilteredAndTested : Prop :=
  Sys2Proof.Claims.ContactTakesItsFilteredState ∧ Sys2Proof.Claims.DifferingContactsAreDiscrepant ∧ Sys2Proof.Claims.ContactTestJudgesItsSlot

/-- A trip-class input that falls trips a running module, and a low field supply closes every gate. -/
def Obligations.TripInputsAndLowSupply : Prop :=
  Sys2Proof.Claims.TripClassInputTrips ∧ Sys2Proof.Claims.LowFieldSupplyClosesEveryGate

/-- An output that fails a readback, over-current, test or calibration check loses its drive and is FAILED with its cause. -/
def Obligations.OutputsFailSafe : Prop :=
  Sys2Proof.Claims.OutputFaultsFailTheOutput ∧ Sys2Proof.Claims.BadCalibrationFailsEveryOutput

/-- The loop takes two readings and trips in SERVICE; switch poles are sampled and a lasting difference sets SEAL_FAULT. -/
def Obligations.LoopAndSwitchesAreSampled : Prop :=
  Sys2Proof.Claims.LoopNeedsTwoReadings ∧ Sys2Proof.Claims.OpenLoopTripsInService ∧ Sys2Proof.Claims.SwitchPolesAreSampled

/-- Reset sources hold the domains that they reach and are released in order; the reset pin is debounced. -/
def Obligations.SourcesHoldAndReleaseDomains : Prop :=
  Sys2Proof.Claims.AssertedSourceHoldsItsDomains ∧ Sys2Proof.Claims.SourcesAndDomainsAreReleased ∧ Sys2Proof.Claims.ResetPinIsDebounced

/-- Island limits, bridge parity and the events of the electrical boundary are treated and recorded. -/
def Obligations.IslandsAndElectricalEvents : Prop :=
  Sys2Proof.Claims.IslandLimitsAndBridges ∧ Sys2Proof.Claims.ElectricalEventsAreKept

/-- MGT boots and loads the control plane; a start attempt succeeds, or fails into bivouac and its backoff. -/
def Obligations.ModuleStartsOrBacksOff : Prop :=
  Sys2Proof.Claims.StartAttemptsSucceedOrFail ∧ Sys2Proof.Claims.ModuleBootsAndLoads

/-- The heartbeat and the operating hours are kept; a shutdown BIST marks each die and ends with the module held. -/
def Obligations.HeartbeatAndShutdownTests : Prop :=
  Sys2Proof.Claims.HeartbeatAndHours ∧ Sys2Proof.Claims.ShutdownTestsAndHolds

/-- Boundary telegrams are accepted and sent by their rules, and cycle points reach their subscribers. -/
def Obligations.TelegramsAndCyclePointsPass : Prop :=
  Sys2Proof.Claims.BoundaryTelegramsPass ∧ Sys2Proof.Claims.CyclePointsAndAnswers

/-- MBX_EN, resets, doorbells and register writes change the rings and registers that they name and nothing else. -/
def Obligations.RingsAndRegistersFollowTheHost : Prop :=
  Sys2Proof.Claims.RingsFollowTheirRegisters ∧ Sys2Proof.Claims.RegistersTakeWrites

/-- A descriptor is fetched in its turn and a completion is written once to the queue of its ring. -/
def Obligations.CommandsAreFetchedAndCompleted : Prop :=
  Sys2Proof.Claims.FetchTakesTheTurn ∧ Sys2Proof.Claims.CompletionsAreWritten

/-- Events reach the rings that select them or are counted as lost, and export parts leave as datagrams. -/
def Obligations.EventsAndExportsLeave : Prop :=
  Sys2Proof.Claims.EventsReachTheirRings ∧ Sys2Proof.Claims.SnapshotsAreStreamedAndEvaluated

/-- CFG commands store, read, set and remove; TIM commands return the time bases, the map and the PTP state. -/
def Obligations.CfgAndTimCommandsAct : Prop :=
  Sys2Proof.Claims.CfgCommandsAct ∧ Sys2Proof.Claims.TimCommandsAct

/-- A force that every row allows waits for a slot; one that no snapshot shows in 64 scans is withdrawn with TIMEOUT. -/
def Obligations.ForceCommandsAct : Prop :=
  Sys2Proof.Claims.FrcCommandsAct ∧ Sys2Proof.Claims.UnshownForcesTimeOut

/-- An image is loaded, staged in every lane with its map, swapped at its boundary where both halves allow it, or refused with the reason. -/
def Obligations.OnlineChangeActs : Prop :=
  Sys2Proof.Claims.OlcCommandsAct ∧ Sys2Proof.Claims.StagingReachesEveryLane ∧ Sys2Proof.Claims.SwapsAreDecidedAtTheirBoundary

/-- Activation steps end as their events say or roll back to Q; the mask ROM takes blocks with a good CRC and answers recovery datagrams. -/
def Obligations.ActivationStepsEnd : Prop :=
  Sys2Proof.Claims.StepsEndOrRollBack ∧ Sys2Proof.Claims.TheMaskRomTakesBlocks

/-- REQ commands write whole targets into the staging copy; EXP commands keep subscriptions and return snapshot bytes. -/
def Obligations.ReqAndExpCommandsAct : Prop :=
  Sys2Proof.Claims.ReqCommandsAct ∧ Sys2Proof.Claims.ExpCommandsAct

/-- TST commands queue rotations and burn repairs; DBG commands attach, halt, resume, read and write the attached lane. -/
def Obligations.TstAndDbgCommandsAct : Prop :=
  Sys2Proof.Claims.TstCommandsAct ∧ Sys2Proof.Claims.DbgCommandsAct

/-- Events are taken in or coalesced, pages are committed, freezes end and the window follows its cursor. -/
def Obligations.RecorderTakesAndCommits : Prop :=
  Sys2Proof.Claims.RecordsAreTakenInAndCoalesced ∧ Sys2Proof.Claims.PagesAreCommittedAndFreezesEnd ∧ Sys2Proof.Claims.TheWindowFollowsItsCursor

/-- A check-value unit takes its setting, opens and closes windows with their check value, and is acknowledged by its SEQ. -/
def Obligations.CheckValueUnitsRun : Prop :=
  Sys2Proof.Claims.UnitsAreWrittenAndClose ∧ Sys2Proof.Claims.CvuCommandsAct

end
end

