-- ==== Sys2Proof/Laws/Bits.lean ====
section
/-! SUPPORT. Laws of bytes, little-endian fields, check values and scan numbers: how many bytes an operation gives, how large a
check value can be, and that a field reads back as it was written. -/

namespace Sys2Proof.Laws

open Sys2Proof

theorem reflect_lt (w x : Nat) : reflect w x < 2 ^ w := by
  induction w generalizing x with
  | zero => simp [reflect]
  | succ w ih =>
    have h := ih (x / 2)
    have : x % 2 ≤ 1 := by omega
    have : x % 2 * 2 ^ w ≤ 1 * 2 ^ w := Nat.mul_le_mul_right _ this
    simp only [reflect, pow_succ]
    omega

/-- A reflected check value of width w lies below 2^w (R452). -/
theorem crcOut_lt {w x : Nat} (reg : Nat) (hx : x < 2 ^ w) : crcOut w true x reg < 2 ^ w := by
  simpa [crcOut] using Nat.xor_lt_two_pow (reflect_lt w reg) hx

theorem crc32c_lt (bs : List Byte) : crc32c bs < 2 ^ 32 := crcOut_lt _ (by norm_num)

/-- A CRC-32C fits a 32-bit field (R147, R532). -/
@[simp] theorem crc32c_toNat (bs : List Byte) : (BitVec.ofNat 32 (crc32c bs)).toNat = crc32c bs := by
  rw [BitVec.toNat_ofNat, Nat.mod_eq_of_lt (crc32c_lt bs)]

end Sys2Proof.Laws
end

