-- ==== Sys2Proof/Laws/State.lean ====
section
/-! SUPPORT. One lemma per field and named update of the state: what the update leaves of the field. All hold by rfl. -/

namespace Sys2Proof.Laws

open Sys2Proof Sys2Proof.Machine

@[simp] theorem onVoter_variant (f : Voter → Voter) (s : State) : (onVoter f s).variant = s.variant := rfl
@[simp] theorem onVoter_tscan (f : Voter → Voter) (s : State) : (onVoter f s).tscan = s.tscan := rfl
@[simp] theorem onVoter_clk (f : Voter → Voter) (s : State) : (onVoter f s).clk = s.clk := rfl
@[simp] theorem onVoter_ret (f : Voter → Voter) (s : State) : (onVoter f s).ret = s.ret := rfl
@[simp] theorem onVoter_power (f : Voter → Voter) (s : State) : (onVoter f s).power = s.power := rfl
@[simp] theorem onVoter_data (f : Voter → Voter) (s : State) : (onVoter f s).data = s.data := rfl
@[simp] theorem onVoter_mgt (f : Voter → Voter) (s : State) : (onVoter f s).mgt = s.mgt := rfl
@[simp] theorem onVoter_free (f : Voter → Voter) (s : State) : (onVoter f s).free = s.free := rfl
@[simp] theorem onVoter_pending (f : Voter → Voter) (s : State) : (onVoter f s).pending = s.pending := rfl
@[simp] theorem onVoter_ctl_lanes (f : Voter → Voter) (s : State) : (onVoter f s).ctl.lanes = s.ctl.lanes := rfl
@[simp] theorem onVoter_ctl_voter (f : Voter → Voter) (s : State) : (onVoter f s).ctl.voter = f s.ctl.voter := rfl
@[simp] theorem onVoter_ctl_rot (f : Voter → Voter) (s : State) : (onVoter f s).ctl.rot = s.ctl.rot := rfl
@[simp] theorem onVoter_ctl_adm (f : Voter → Voter) (s : State) : (onVoter f s).ctl.adm = s.ctl.adm := rfl
@[simp] theorem onVoter_ctl_followers (f : Voter → Voter) (s : State) : (onVoter f s).ctl.followers = s.ctl.followers := rfl
@[simp] theorem onVoter_ctl_island (f : Voter → Voter) (s : State) : (onVoter f s).ctl.island = s.ctl.island := rfl
@[simp] theorem onVoter_ctl_bridgeTries (f : Voter → Voter) (s : State) : (onVoter f s).ctl.bridgeTries = s.ctl.bridgeTries := rfl
@[simp] theorem onVoter_ctl_vio (f : Voter → Voter) (s : State) : (onVoter f s).ctl.vio = s.ctl.vio := rfl
@[simp] theorem onVoter_ctl_seals (f : Voter → Voter) (s : State) : (onVoter f s).ctl.seals = s.ctl.seals := rfl
@[simp] theorem onVoter_ctl_trip (f : Voter → Voter) (s : State) : (onVoter f s).ctl.trip = s.ctl.trip := rfl
@[simp] theorem onVoter_ctl_force (f : Voter → Voter) (s : State) : (onVoter f s).ctl.force = s.ctl.force := rfl
@[simp] theorem onVoter_ctl_olc (f : Voter → Voter) (s : State) : (onVoter f s).ctl.olc = s.ctl.olc := rfl
@[simp] theorem onVoter_ctl_dbg (f : Voter → Voter) (s : State) : (onVoter f s).ctl.dbg = s.ctl.dbg := rfl

@[simp] theorem onRot_variant (f : Rotation → Rotation) (s : State) : (onRot f s).variant = s.variant := rfl
@[simp] theorem onRot_tscan (f : Rotation → Rotation) (s : State) : (onRot f s).tscan = s.tscan := rfl
@[simp] theorem onRot_clk (f : Rotation → Rotation) (s : State) : (onRot f s).clk = s.clk := rfl
@[simp] theorem onRot_ret (f : Rotation → Rotation) (s : State) : (onRot f s).ret = s.ret := rfl
@[simp] theorem onRot_power (f : Rotation → Rotation) (s : State) : (onRot f s).power = s.power := rfl
@[simp] theorem onRot_data (f : Rotation → Rotation) (s : State) : (onRot f s).data = s.data := rfl
@[simp] theorem onRot_mgt (f : Rotation → Rotation) (s : State) : (onRot f s).mgt = s.mgt := rfl
@[simp] theorem onRot_free (f : Rotation → Rotation) (s : State) : (onRot f s).free = s.free := rfl
@[simp] theorem onRot_pending (f : Rotation → Rotation) (s : State) : (onRot f s).pending = s.pending := rfl
@[simp] theorem onRot_ctl_lanes (f : Rotation → Rotation) (s : State) : (onRot f s).ctl.lanes = s.ctl.lanes := rfl
@[simp] theorem onRot_ctl_voter (f : Rotation → Rotation) (s : State) : (onRot f s).ctl.voter = s.ctl.voter := rfl
@[simp] theorem onRot_ctl_rot (f : Rotation → Rotation) (s : State) : (onRot f s).ctl.rot = f s.ctl.rot := rfl
@[simp] theorem onRot_ctl_adm (f : Rotation → Rotation) (s : State) : (onRot f s).ctl.adm = s.ctl.adm := rfl
@[simp] theorem onRot_ctl_followers (f : Rotation → Rotation) (s : State) : (onRot f s).ctl.followers = s.ctl.followers := rfl
@[simp] theorem onRot_ctl_island (f : Rotation → Rotation) (s : State) : (onRot f s).ctl.island = s.ctl.island := rfl
@[simp] theorem onRot_ctl_bridgeTries (f : Rotation → Rotation) (s : State) : (onRot f s).ctl.bridgeTries = s.ctl.bridgeTries := rfl
@[simp] theorem onRot_ctl_vio (f : Rotation → Rotation) (s : State) : (onRot f s).ctl.vio = s.ctl.vio := rfl
@[simp] theorem onRot_ctl_seals (f : Rotation → Rotation) (s : State) : (onRot f s).ctl.seals = s.ctl.seals := rfl
@[simp] theorem onRot_ctl_trip (f : Rotation → Rotation) (s : State) : (onRot f s).ctl.trip = s.ctl.trip := rfl
@[simp] theorem onRot_ctl_force (f : Rotation → Rotation) (s : State) : (onRot f s).ctl.force = s.ctl.force := rfl
@[simp] theorem onRot_ctl_olc (f : Rotation → Rotation) (s : State) : (onRot f s).ctl.olc = s.ctl.olc := rfl
@[simp] theorem onRot_ctl_dbg (f : Rotation → Rotation) (s : State) : (onRot f s).ctl.dbg = s.ctl.dbg := rfl

@[simp] theorem onAdm_variant (f : Admission → Admission) (s : State) : (onAdm f s).variant = s.variant := rfl
@[simp] theorem onAdm_tscan (f : Admission → Admission) (s : State) : (onAdm f s).tscan = s.tscan := rfl
@[simp] theorem onAdm_clk (f : Admission → Admission) (s : State) : (onAdm f s).clk = s.clk := rfl
@[simp] theorem onAdm_ret (f : Admission → Admission) (s : State) : (onAdm f s).ret = s.ret := rfl
@[simp] theorem onAdm_power (f : Admission → Admission) (s : State) : (onAdm f s).power = s.power := rfl
@[simp] theorem onAdm_data (f : Admission → Admission) (s : State) : (onAdm f s).data = s.data := rfl
@[simp] theorem onAdm_mgt (f : Admission → Admission) (s : State) : (onAdm f s).mgt = s.mgt := rfl
@[simp] theorem onAdm_free (f : Admission → Admission) (s : State) : (onAdm f s).free = s.free := rfl
@[simp] theorem onAdm_pending (f : Admission → Admission) (s : State) : (onAdm f s).pending = s.pending := rfl
@[simp] theorem onAdm_ctl_lanes (f : Admission → Admission) (s : State) : (onAdm f s).ctl.lanes = s.ctl.lanes := rfl
@[simp] theorem onAdm_ctl_voter (f : Admission → Admission) (s : State) : (onAdm f s).ctl.voter = s.ctl.voter := rfl
@[simp] theorem onAdm_ctl_rot (f : Admission → Admission) (s : State) : (onAdm f s).ctl.rot = s.ctl.rot := rfl
@[simp] theorem onAdm_ctl_adm (f : Admission → Admission) (s : State) : (onAdm f s).ctl.adm = f s.ctl.adm := rfl
@[simp] theorem onAdm_ctl_followers (f : Admission → Admission) (s : State) : (onAdm f s).ctl.followers = s.ctl.followers := rfl
@[simp] theorem onAdm_ctl_island (f : Admission → Admission) (s : State) : (onAdm f s).ctl.island = s.ctl.island := rfl
@[simp] theorem onAdm_ctl_bridgeTries (f : Admission → Admission) (s : State) : (onAdm f s).ctl.bridgeTries = s.ctl.bridgeTries := rfl
@[simp] theorem onAdm_ctl_vio (f : Admission → Admission) (s : State) : (onAdm f s).ctl.vio = s.ctl.vio := rfl
@[simp] theorem onAdm_ctl_seals (f : Admission → Admission) (s : State) : (onAdm f s).ctl.seals = s.ctl.seals := rfl
@[simp] theorem onAdm_ctl_trip (f : Admission → Admission) (s : State) : (onAdm f s).ctl.trip = s.ctl.trip := rfl
@[simp] theorem onAdm_ctl_force (f : Admission → Admission) (s : State) : (onAdm f s).ctl.force = s.ctl.force := rfl
@[simp] theorem onAdm_ctl_olc (f : Admission → Admission) (s : State) : (onAdm f s).ctl.olc = s.ctl.olc := rfl
@[simp] theorem onAdm_ctl_dbg (f : Admission → Admission) (s : State) : (onAdm f s).ctl.dbg = s.ctl.dbg := rfl

@[simp] theorem onVio_variant (f : VioState → VioState) (s : State) : (onVio f s).variant = s.variant := rfl
@[simp] theorem onVio_tscan (f : VioState → VioState) (s : State) : (onVio f s).tscan = s.tscan := rfl
@[simp] theorem onVio_clk (f : VioState → VioState) (s : State) : (onVio f s).clk = s.clk := rfl
@[simp] theorem onVio_ret (f : VioState → VioState) (s : State) : (onVio f s).ret = s.ret := rfl
@[simp] theorem onVio_power (f : VioState → VioState) (s : State) : (onVio f s).power = s.power := rfl
@[simp] theorem onVio_data (f : VioState → VioState) (s : State) : (onVio f s).data = s.data := rfl
@[simp] theorem onVio_mgt (f : VioState → VioState) (s : State) : (onVio f s).mgt = s.mgt := rfl
@[simp] theorem onVio_free (f : VioState → VioState) (s : State) : (onVio f s).free = s.free := rfl
@[simp] theorem onVio_pending (f : VioState → VioState) (s : State) : (onVio f s).pending = s.pending := rfl
@[simp] theorem onVio_ctl_lanes (f : VioState → VioState) (s : State) : (onVio f s).ctl.lanes = s.ctl.lanes := rfl
@[simp] theorem onVio_ctl_voter (f : VioState → VioState) (s : State) : (onVio f s).ctl.voter = s.ctl.voter := rfl
@[simp] theorem onVio_ctl_rot (f : VioState → VioState) (s : State) : (onVio f s).ctl.rot = s.ctl.rot := rfl
@[simp] theorem onVio_ctl_adm (f : VioState → VioState) (s : State) : (onVio f s).ctl.adm = s.ctl.adm := rfl
@[simp] theorem onVio_ctl_followers (f : VioState → VioState) (s : State) : (onVio f s).ctl.followers = s.ctl.followers := rfl
@[simp] theorem onVio_ctl_island (f : VioState → VioState) (s : State) : (onVio f s).ctl.island = s.ctl.island := rfl
@[simp] theorem onVio_ctl_bridgeTries (f : VioState → VioState) (s : State) : (onVio f s).ctl.bridgeTries = s.ctl.bridgeTries := rfl
@[simp] theorem onVio_ctl_vio (f : VioState → VioState) (s : State) : (onVio f s).ctl.vio = f s.ctl.vio := rfl
@[simp] theorem onVio_ctl_seals (f : VioState → VioState) (s : State) : (onVio f s).ctl.seals = s.ctl.seals := rfl
@[simp] theorem onVio_ctl_trip (f : VioState → VioState) (s : State) : (onVio f s).ctl.trip = s.ctl.trip := rfl
@[simp] theorem onVio_ctl_force (f : VioState → VioState) (s : State) : (onVio f s).ctl.force = s.ctl.force := rfl
@[simp] theorem onVio_ctl_olc (f : VioState → VioState) (s : State) : (onVio f s).ctl.olc = s.ctl.olc := rfl
@[simp] theorem onVio_ctl_dbg (f : VioState → VioState) (s : State) : (onVio f s).ctl.dbg = s.ctl.dbg := rfl

@[simp] theorem onSeal_variant (f : SealState → SealState) (s : State) : (onSeal f s).variant = s.variant := rfl
@[simp] theorem onSeal_tscan (f : SealState → SealState) (s : State) : (onSeal f s).tscan = s.tscan := rfl
@[simp] theorem onSeal_clk (f : SealState → SealState) (s : State) : (onSeal f s).clk = s.clk := rfl
@[simp] theorem onSeal_ret (f : SealState → SealState) (s : State) : (onSeal f s).ret = s.ret := rfl
@[simp] theorem onSeal_power (f : SealState → SealState) (s : State) : (onSeal f s).power = s.power := rfl
@[simp] theorem onSeal_data (f : SealState → SealState) (s : State) : (onSeal f s).data = s.data := rfl
@[simp] theorem onSeal_mgt (f : SealState → SealState) (s : State) : (onSeal f s).mgt = s.mgt := rfl
@[simp] theorem onSeal_free (f : SealState → SealState) (s : State) : (onSeal f s).free = s.free := rfl
@[simp] theorem onSeal_pending (f : SealState → SealState) (s : State) : (onSeal f s).pending = s.pending := rfl
@[simp] theorem onSeal_ctl_lanes (f : SealState → SealState) (s : State) : (onSeal f s).ctl.lanes = s.ctl.lanes := rfl
@[simp] theorem onSeal_ctl_voter (f : SealState → SealState) (s : State) : (onSeal f s).ctl.voter = s.ctl.voter := rfl
@[simp] theorem onSeal_ctl_rot (f : SealState → SealState) (s : State) : (onSeal f s).ctl.rot = s.ctl.rot := rfl
@[simp] theorem onSeal_ctl_adm (f : SealState → SealState) (s : State) : (onSeal f s).ctl.adm = s.ctl.adm := rfl
@[simp] theorem onSeal_ctl_followers (f : SealState → SealState) (s : State) : (onSeal f s).ctl.followers = s.ctl.followers := rfl
@[simp] theorem onSeal_ctl_island (f : SealState → SealState) (s : State) : (onSeal f s).ctl.island = s.ctl.island := rfl
@[simp] theorem onSeal_ctl_bridgeTries (f : SealState → SealState) (s : State) : (onSeal f s).ctl.bridgeTries = s.ctl.bridgeTries := rfl
@[simp] theorem onSeal_ctl_vio (f : SealState → SealState) (s : State) : (onSeal f s).ctl.vio = s.ctl.vio := rfl
@[simp] theorem onSeal_ctl_seals (f : SealState → SealState) (s : State) : (onSeal f s).ctl.seals = f s.ctl.seals := rfl
@[simp] theorem onSeal_ctl_trip (f : SealState → SealState) (s : State) : (onSeal f s).ctl.trip = s.ctl.trip := rfl
@[simp] theorem onSeal_ctl_force (f : SealState → SealState) (s : State) : (onSeal f s).ctl.force = s.ctl.force := rfl
@[simp] theorem onSeal_ctl_olc (f : SealState → SealState) (s : State) : (onSeal f s).ctl.olc = s.ctl.olc := rfl
@[simp] theorem onSeal_ctl_dbg (f : SealState → SealState) (s : State) : (onSeal f s).ctl.dbg = s.ctl.dbg := rfl

@[simp] theorem onTrip_variant (f : TripState → TripState) (s : State) : (onTrip f s).variant = s.variant := rfl
@[simp] theorem onTrip_tscan (f : TripState → TripState) (s : State) : (onTrip f s).tscan = s.tscan := rfl
@[simp] theorem onTrip_clk (f : TripState → TripState) (s : State) : (onTrip f s).clk = s.clk := rfl
@[simp] theorem onTrip_ret (f : TripState → TripState) (s : State) : (onTrip f s).ret = s.ret := rfl
@[simp] theorem onTrip_power (f : TripState → TripState) (s : State) : (onTrip f s).power = s.power := rfl
@[simp] theorem onTrip_data (f : TripState → TripState) (s : State) : (onTrip f s).data = s.data := rfl
@[simp] theorem onTrip_mgt (f : TripState → TripState) (s : State) : (onTrip f s).mgt = s.mgt := rfl
@[simp] theorem onTrip_free (f : TripState → TripState) (s : State) : (onTrip f s).free = s.free := rfl
@[simp] theorem onTrip_pending (f : TripState → TripState) (s : State) : (onTrip f s).pending = s.pending := rfl
@[simp] theorem onTrip_ctl_lanes (f : TripState → TripState) (s : State) : (onTrip f s).ctl.lanes = s.ctl.lanes := rfl
@[simp] theorem onTrip_ctl_voter (f : TripState → TripState) (s : State) : (onTrip f s).ctl.voter = s.ctl.voter := rfl
@[simp] theorem onTrip_ctl_rot (f : TripState → TripState) (s : State) : (onTrip f s).ctl.rot = s.ctl.rot := rfl
@[simp] theorem onTrip_ctl_adm (f : TripState → TripState) (s : State) : (onTrip f s).ctl.adm = s.ctl.adm := rfl
@[simp] theorem onTrip_ctl_followers (f : TripState → TripState) (s : State) : (onTrip f s).ctl.followers = s.ctl.followers := rfl
@[simp] theorem onTrip_ctl_island (f : TripState → TripState) (s : State) : (onTrip f s).ctl.island = s.ctl.island := rfl
@[simp] theorem onTrip_ctl_bridgeTries (f : TripState → TripState) (s : State) : (onTrip f s).ctl.bridgeTries = s.ctl.bridgeTries := rfl
@[simp] theorem onTrip_ctl_vio (f : TripState → TripState) (s : State) : (onTrip f s).ctl.vio = s.ctl.vio := rfl
@[simp] theorem onTrip_ctl_seals (f : TripState → TripState) (s : State) : (onTrip f s).ctl.seals = s.ctl.seals := rfl
@[simp] theorem onTrip_ctl_trip (f : TripState → TripState) (s : State) : (onTrip f s).ctl.trip = f s.ctl.trip := rfl
@[simp] theorem onTrip_ctl_force (f : TripState → TripState) (s : State) : (onTrip f s).ctl.force = s.ctl.force := rfl
@[simp] theorem onTrip_ctl_olc (f : TripState → TripState) (s : State) : (onTrip f s).ctl.olc = s.ctl.olc := rfl
@[simp] theorem onTrip_ctl_dbg (f : TripState → TripState) (s : State) : (onTrip f s).ctl.dbg = s.ctl.dbg := rfl

@[simp] theorem onForce_variant (f : ForceState → ForceState) (s : State) : (onForce f s).variant = s.variant := rfl
@[simp] theorem onForce_tscan (f : ForceState → ForceState) (s : State) : (onForce f s).tscan = s.tscan := rfl
@[simp] theorem onForce_clk (f : ForceState → ForceState) (s : State) : (onForce f s).clk = s.clk := rfl
@[simp] theorem onForce_ret (f : ForceState → ForceState) (s : State) : (onForce f s).ret = s.ret := rfl
@[simp] theorem onForce_power (f : ForceState → ForceState) (s : State) : (onForce f s).power = s.power := rfl
@[simp] theorem onForce_data (f : ForceState → ForceState) (s : State) : (onForce f s).data = s.data := rfl
@[simp] theorem onForce_mgt (f : ForceState → ForceState) (s : State) : (onForce f s).mgt = s.mgt := rfl
@[simp] theorem onForce_free (f : ForceState → ForceState) (s : State) : (onForce f s).free = s.free := rfl
@[simp] theorem onForce_pending (f : ForceState → ForceState) (s : State) : (onForce f s).pending = s.pending := rfl
@[simp] theorem onForce_ctl_lanes (f : ForceState → ForceState) (s : State) : (onForce f s).ctl.lanes = s.ctl.lanes := rfl
@[simp] theorem onForce_ctl_voter (f : ForceState → ForceState) (s : State) : (onForce f s).ctl.voter = s.ctl.voter := rfl
@[simp] theorem onForce_ctl_rot (f : ForceState → ForceState) (s : State) : (onForce f s).ctl.rot = s.ctl.rot := rfl
@[simp] theorem onForce_ctl_adm (f : ForceState → ForceState) (s : State) : (onForce f s).ctl.adm = s.ctl.adm := rfl
@[simp] theorem onForce_ctl_followers (f : ForceState → ForceState) (s : State) : (onForce f s).ctl.followers = s.ctl.followers := rfl
@[simp] theorem onForce_ctl_island (f : ForceState → ForceState) (s : State) : (onForce f s).ctl.island = s.ctl.island := rfl
@[simp] theorem onForce_ctl_bridgeTries (f : ForceState → ForceState) (s : State) : (onForce f s).ctl.bridgeTries = s.ctl.bridgeTries := rfl
@[simp] theorem onForce_ctl_vio (f : ForceState → ForceState) (s : State) : (onForce f s).ctl.vio = s.ctl.vio := rfl
@[simp] theorem onForce_ctl_seals (f : ForceState → ForceState) (s : State) : (onForce f s).ctl.seals = s.ctl.seals := rfl
@[simp] theorem onForce_ctl_trip (f : ForceState → ForceState) (s : State) : (onForce f s).ctl.trip = s.ctl.trip := rfl
@[simp] theorem onForce_ctl_force (f : ForceState → ForceState) (s : State) : (onForce f s).ctl.force = f s.ctl.force := rfl
@[simp] theorem onForce_ctl_olc (f : ForceState → ForceState) (s : State) : (onForce f s).ctl.olc = s.ctl.olc := rfl
@[simp] theorem onForce_ctl_dbg (f : ForceState → ForceState) (s : State) : (onForce f s).ctl.dbg = s.ctl.dbg := rfl

@[simp] theorem onOlc_variant (f : OlcState → OlcState) (s : State) : (onOlc f s).variant = s.variant := rfl
@[simp] theorem onOlc_tscan (f : OlcState → OlcState) (s : State) : (onOlc f s).tscan = s.tscan := rfl
@[simp] theorem onOlc_clk (f : OlcState → OlcState) (s : State) : (onOlc f s).clk = s.clk := rfl
@[simp] theorem onOlc_ret (f : OlcState → OlcState) (s : State) : (onOlc f s).ret = s.ret := rfl
@[simp] theorem onOlc_power (f : OlcState → OlcState) (s : State) : (onOlc f s).power = s.power := rfl
@[simp] theorem onOlc_data (f : OlcState → OlcState) (s : State) : (onOlc f s).data = s.data := rfl
@[simp] theorem onOlc_mgt (f : OlcState → OlcState) (s : State) : (onOlc f s).mgt = s.mgt := rfl
@[simp] theorem onOlc_free (f : OlcState → OlcState) (s : State) : (onOlc f s).free = s.free := rfl
@[simp] theorem onOlc_pending (f : OlcState → OlcState) (s : State) : (onOlc f s).pending = s.pending := rfl
@[simp] theorem onOlc_ctl_lanes (f : OlcState → OlcState) (s : State) : (onOlc f s).ctl.lanes = s.ctl.lanes := rfl
@[simp] theorem onOlc_ctl_voter (f : OlcState → OlcState) (s : State) : (onOlc f s).ctl.voter = s.ctl.voter := rfl
@[simp] theorem onOlc_ctl_rot (f : OlcState → OlcState) (s : State) : (onOlc f s).ctl.rot = s.ctl.rot := rfl
@[simp] theorem onOlc_ctl_adm (f : OlcState → OlcState) (s : State) : (onOlc f s).ctl.adm = s.ctl.adm := rfl
@[simp] theorem onOlc_ctl_followers (f : OlcState → OlcState) (s : State) : (onOlc f s).ctl.followers = s.ctl.followers := rfl
@[simp] theorem onOlc_ctl_island (f : OlcState → OlcState) (s : State) : (onOlc f s).ctl.island = s.ctl.island := rfl
@[simp] theorem onOlc_ctl_bridgeTries (f : OlcState → OlcState) (s : State) : (onOlc f s).ctl.bridgeTries = s.ctl.bridgeTries := rfl
@[simp] theorem onOlc_ctl_vio (f : OlcState → OlcState) (s : State) : (onOlc f s).ctl.vio = s.ctl.vio := rfl
@[simp] theorem onOlc_ctl_seals (f : OlcState → OlcState) (s : State) : (onOlc f s).ctl.seals = s.ctl.seals := rfl
@[simp] theorem onOlc_ctl_trip (f : OlcState → OlcState) (s : State) : (onOlc f s).ctl.trip = s.ctl.trip := rfl
@[simp] theorem onOlc_ctl_force (f : OlcState → OlcState) (s : State) : (onOlc f s).ctl.force = s.ctl.force := rfl
@[simp] theorem onOlc_ctl_olc (f : OlcState → OlcState) (s : State) : (onOlc f s).ctl.olc = f s.ctl.olc := rfl
@[simp] theorem onOlc_ctl_dbg (f : OlcState → OlcState) (s : State) : (onOlc f s).ctl.dbg = s.ctl.dbg := rfl

@[simp] theorem onDbg_variant (f : DebugState → DebugState) (s : State) : (onDbg f s).variant = s.variant := rfl
@[simp] theorem onDbg_tscan (f : DebugState → DebugState) (s : State) : (onDbg f s).tscan = s.tscan := rfl
@[simp] theorem onDbg_clk (f : DebugState → DebugState) (s : State) : (onDbg f s).clk = s.clk := rfl
@[simp] theorem onDbg_ret (f : DebugState → DebugState) (s : State) : (onDbg f s).ret = s.ret := rfl
@[simp] theorem onDbg_power (f : DebugState → DebugState) (s : State) : (onDbg f s).power = s.power := rfl
@[simp] theorem onDbg_data (f : DebugState → DebugState) (s : State) : (onDbg f s).data = s.data := rfl
@[simp] theorem onDbg_mgt (f : DebugState → DebugState) (s : State) : (onDbg f s).mgt = s.mgt := rfl
@[simp] theorem onDbg_free (f : DebugState → DebugState) (s : State) : (onDbg f s).free = s.free := rfl
@[simp] theorem onDbg_pending (f : DebugState → DebugState) (s : State) : (onDbg f s).pending = s.pending := rfl
@[simp] theorem onDbg_ctl_lanes (f : DebugState → DebugState) (s : State) : (onDbg f s).ctl.lanes = s.ctl.lanes := rfl
@[simp] theorem onDbg_ctl_voter (f : DebugState → DebugState) (s : State) : (onDbg f s).ctl.voter = s.ctl.voter := rfl
@[simp] theorem onDbg_ctl_rot (f : DebugState → DebugState) (s : State) : (onDbg f s).ctl.rot = s.ctl.rot := rfl
@[simp] theorem onDbg_ctl_adm (f : DebugState → DebugState) (s : State) : (onDbg f s).ctl.adm = s.ctl.adm := rfl
@[simp] theorem onDbg_ctl_followers (f : DebugState → DebugState) (s : State) : (onDbg f s).ctl.followers = s.ctl.followers := rfl
@[simp] theorem onDbg_ctl_island (f : DebugState → DebugState) (s : State) : (onDbg f s).ctl.island = s.ctl.island := rfl
@[simp] theorem onDbg_ctl_bridgeTries (f : DebugState → DebugState) (s : State) : (onDbg f s).ctl.bridgeTries = s.ctl.bridgeTries := rfl
@[simp] theorem onDbg_ctl_vio (f : DebugState → DebugState) (s : State) : (onDbg f s).ctl.vio = s.ctl.vio := rfl
@[simp] theorem onDbg_ctl_seals (f : DebugState → DebugState) (s : State) : (onDbg f s).ctl.seals = s.ctl.seals := rfl
@[simp] theorem onDbg_ctl_trip (f : DebugState → DebugState) (s : State) : (onDbg f s).ctl.trip = s.ctl.trip := rfl
@[simp] theorem onDbg_ctl_force (f : DebugState → DebugState) (s : State) : (onDbg f s).ctl.force = s.ctl.force := rfl
@[simp] theorem onDbg_ctl_olc (f : DebugState → DebugState) (s : State) : (onDbg f s).ctl.olc = s.ctl.olc := rfl
@[simp] theorem onDbg_ctl_dbg (f : DebugState → DebugState) (s : State) : (onDbg f s).ctl.dbg = f s.ctl.dbg := rfl

@[simp] theorem onSched_variant (f : SchedState → SchedState) (s : State) : (onSched f s).variant = s.variant := rfl
@[simp] theorem onSched_tscan (f : SchedState → SchedState) (s : State) : (onSched f s).tscan = s.tscan := rfl
@[simp] theorem onSched_clk (f : SchedState → SchedState) (s : State) : (onSched f s).clk = s.clk := rfl
@[simp] theorem onSched_ret (f : SchedState → SchedState) (s : State) : (onSched f s).ret = s.ret := rfl
@[simp] theorem onSched_power (f : SchedState → SchedState) (s : State) : (onSched f s).power = s.power := rfl
@[simp] theorem onSched_ctl (f : SchedState → SchedState) (s : State) : (onSched f s).ctl = s.ctl := rfl
@[simp] theorem onSched_mgt (f : SchedState → SchedState) (s : State) : (onSched f s).mgt = s.mgt := rfl
@[simp] theorem onSched_free (f : SchedState → SchedState) (s : State) : (onSched f s).free = s.free := rfl
@[simp] theorem onSched_pending (f : SchedState → SchedState) (s : State) : (onSched f s).pending = s.pending := rfl
@[simp] theorem onSched_data_cfg (f : SchedState → SchedState) (s : State) : (onSched f s).data.cfg = s.data.cfg := rfl
@[simp] theorem onSched_data_stars (f : SchedState → SchedState) (s : State) : (onSched f s).data.stars = s.data.stars := rfl
@[simp] theorem onSched_data_aux (f : SchedState → SchedState) (s : State) : (onSched f s).data.aux = s.data.aux := rfl
@[simp] theorem onSched_data_nodes (f : SchedState → SchedState) (s : State) : (onSched f s).data.nodes = s.data.nodes := rfl
@[simp] theorem onSched_data_sched (f : SchedState → SchedState) (s : State) : (onSched f s).data.sched = f s.data.sched := rfl
@[simp] theorem onSched_data_time (f : SchedState → SchedState) (s : State) : (onSched f s).data.time = s.data.time := rfl
@[simp] theorem onSched_data_net (f : SchedState → SchedState) (s : State) : (onSched f s).data.net = s.data.net := rfl

@[simp] theorem onTime_variant (f : TimeState → TimeState) (s : State) : (onTime f s).variant = s.variant := rfl
@[simp] theorem onTime_tscan (f : TimeState → TimeState) (s : State) : (onTime f s).tscan = s.tscan := rfl
@[simp] theorem onTime_clk (f : TimeState → TimeState) (s : State) : (onTime f s).clk = s.clk := rfl
@[simp] theorem onTime_ret (f : TimeState → TimeState) (s : State) : (onTime f s).ret = s.ret := rfl
@[simp] theorem onTime_power (f : TimeState → TimeState) (s : State) : (onTime f s).power = s.power := rfl
@[simp] theorem onTime_ctl (f : TimeState → TimeState) (s : State) : (onTime f s).ctl = s.ctl := rfl
@[simp] theorem onTime_mgt (f : TimeState → TimeState) (s : State) : (onTime f s).mgt = s.mgt := rfl
@[simp] theorem onTime_free (f : TimeState → TimeState) (s : State) : (onTime f s).free = s.free := rfl
@[simp] theorem onTime_pending (f : TimeState → TimeState) (s : State) : (onTime f s).pending = s.pending := rfl
@[simp] theorem onTime_data_cfg (f : TimeState → TimeState) (s : State) : (onTime f s).data.cfg = s.data.cfg := rfl
@[simp] theorem onTime_data_stars (f : TimeState → TimeState) (s : State) : (onTime f s).data.stars = s.data.stars := rfl
@[simp] theorem onTime_data_aux (f : TimeState → TimeState) (s : State) : (onTime f s).data.aux = s.data.aux := rfl
@[simp] theorem onTime_data_nodes (f : TimeState → TimeState) (s : State) : (onTime f s).data.nodes = s.data.nodes := rfl
@[simp] theorem onTime_data_sched (f : TimeState → TimeState) (s : State) : (onTime f s).data.sched = s.data.sched := rfl
@[simp] theorem onTime_data_time (f : TimeState → TimeState) (s : State) : (onTime f s).data.time = f s.data.time := rfl
@[simp] theorem onTime_data_net (f : TimeState → TimeState) (s : State) : (onTime f s).data.net = s.data.net := rfl

@[simp] theorem onNet_variant (f : NetState → NetState) (s : State) : (onNet f s).variant = s.variant := rfl
@[simp] theorem onNet_tscan (f : NetState → NetState) (s : State) : (onNet f s).tscan = s.tscan := rfl
@[simp] theorem onNet_clk (f : NetState → NetState) (s : State) : (onNet f s).clk = s.clk := rfl
@[simp] theorem onNet_ret (f : NetState → NetState) (s : State) : (onNet f s).ret = s.ret := rfl
@[simp] theorem onNet_power (f : NetState → NetState) (s : State) : (onNet f s).power = s.power := rfl
@[simp] theorem onNet_ctl (f : NetState → NetState) (s : State) : (onNet f s).ctl = s.ctl := rfl
@[simp] theorem onNet_mgt (f : NetState → NetState) (s : State) : (onNet f s).mgt = s.mgt := rfl
@[simp] theorem onNet_free (f : NetState → NetState) (s : State) : (onNet f s).free = s.free := rfl
@[simp] theorem onNet_pending (f : NetState → NetState) (s : State) : (onNet f s).pending = s.pending := rfl
@[simp] theorem onNet_data_cfg (f : NetState → NetState) (s : State) : (onNet f s).data.cfg = s.data.cfg := rfl
@[simp] theorem onNet_data_stars (f : NetState → NetState) (s : State) : (onNet f s).data.stars = s.data.stars := rfl
@[simp] theorem onNet_data_aux (f : NetState → NetState) (s : State) : (onNet f s).data.aux = s.data.aux := rfl
@[simp] theorem onNet_data_nodes (f : NetState → NetState) (s : State) : (onNet f s).data.nodes = s.data.nodes := rfl
@[simp] theorem onNet_data_sched (f : NetState → NetState) (s : State) : (onNet f s).data.sched = s.data.sched := rfl
@[simp] theorem onNet_data_time (f : NetState → NetState) (s : State) : (onNet f s).data.time = s.data.time := rfl
@[simp] theorem onNet_data_net (f : NetState → NetState) (s : State) : (onNet f s).data.net = f s.data.net := rfl

@[simp] theorem onMbx_variant (f : MbxState → MbxState) (s : State) : (onMbx f s).variant = s.variant := rfl
@[simp] theorem onMbx_tscan (f : MbxState → MbxState) (s : State) : (onMbx f s).tscan = s.tscan := rfl
@[simp] theorem onMbx_clk (f : MbxState → MbxState) (s : State) : (onMbx f s).clk = s.clk := rfl
@[simp] theorem onMbx_ret (f : MbxState → MbxState) (s : State) : (onMbx f s).ret = s.ret := rfl
@[simp] theorem onMbx_power (f : MbxState → MbxState) (s : State) : (onMbx f s).power = s.power := rfl
@[simp] theorem onMbx_ctl (f : MbxState → MbxState) (s : State) : (onMbx f s).ctl = s.ctl := rfl
@[simp] theorem onMbx_data (f : MbxState → MbxState) (s : State) : (onMbx f s).data = s.data := rfl
@[simp] theorem onMbx_free (f : MbxState → MbxState) (s : State) : (onMbx f s).free = s.free := rfl
@[simp] theorem onMbx_pending (f : MbxState → MbxState) (s : State) : (onMbx f s).pending = s.pending := rfl
@[simp] theorem onMbx_mgt_mbx (f : MbxState → MbxState) (s : State) : (onMbx f s).mgt.mbx = f s.mgt.mbx := rfl
@[simp] theorem onMbx_mgt_exp (f : MbxState → MbxState) (s : State) : (onMbx f s).mgt.exp = s.mgt.exp := rfl
@[simp] theorem onMbx_mgt_cvu (f : MbxState → MbxState) (s : State) : (onMbx f s).mgt.cvu = s.mgt.cvu := rfl
@[simp] theorem onMbx_mgt_recorder (f : MbxState → MbxState) (s : State) : (onMbx f s).mgt.recorder = s.mgt.recorder := rfl
@[simp] theorem onMbx_mgt_cycles (f : MbxState → MbxState) (s : State) : (onMbx f s).mgt.cycles = s.mgt.cycles := rfl
@[simp] theorem onMbx_mgt_store (f : MbxState → MbxState) (s : State) : (onMbx f s).mgt.store = s.mgt.store := rfl
@[simp] theorem onMbx_mgt_start (f : MbxState → MbxState) (s : State) : (onMbx f s).mgt.start = s.mgt.start := rfl
@[simp] theorem onMbx_mgt_bist (f : MbxState → MbxState) (s : State) : (onMbx f s).mgt.bist = s.mgt.bist := rfl
@[simp] theorem onMbx_mgt_upd (f : MbxState → MbxState) (s : State) : (onMbx f s).mgt.upd = s.mgt.upd := rfl
@[simp] theorem onMbx_mgt_elec (f : MbxState → MbxState) (s : State) : (onMbx f s).mgt.elec = s.mgt.elec := rfl

@[simp] theorem onExp_variant (f : ExportState → ExportState) (s : State) : (onExp f s).variant = s.variant := rfl
@[simp] theorem onExp_tscan (f : ExportState → ExportState) (s : State) : (onExp f s).tscan = s.tscan := rfl
@[simp] theorem onExp_clk (f : ExportState → ExportState) (s : State) : (onExp f s).clk = s.clk := rfl
@[simp] theorem onExp_ret (f : ExportState → ExportState) (s : State) : (onExp f s).ret = s.ret := rfl
@[simp] theorem onExp_power (f : ExportState → ExportState) (s : State) : (onExp f s).power = s.power := rfl
@[simp] theorem onExp_ctl (f : ExportState → ExportState) (s : State) : (onExp f s).ctl = s.ctl := rfl
@[simp] theorem onExp_data (f : ExportState → ExportState) (s : State) : (onExp f s).data = s.data := rfl
@[simp] theorem onExp_free (f : ExportState → ExportState) (s : State) : (onExp f s).free = s.free := rfl
@[simp] theorem onExp_pending (f : ExportState → ExportState) (s : State) : (onExp f s).pending = s.pending := rfl
@[simp] theorem onExp_mgt_mbx (f : ExportState → ExportState) (s : State) : (onExp f s).mgt.mbx = s.mgt.mbx := rfl
@[simp] theorem onExp_mgt_exp (f : ExportState → ExportState) (s : State) : (onExp f s).mgt.exp = f s.mgt.exp := rfl
@[simp] theorem onExp_mgt_cvu (f : ExportState → ExportState) (s : State) : (onExp f s).mgt.cvu = s.mgt.cvu := rfl
@[simp] theorem onExp_mgt_recorder (f : ExportState → ExportState) (s : State) : (onExp f s).mgt.recorder = s.mgt.recorder := rfl
@[simp] theorem onExp_mgt_cycles (f : ExportState → ExportState) (s : State) : (onExp f s).mgt.cycles = s.mgt.cycles := rfl
@[simp] theorem onExp_mgt_store (f : ExportState → ExportState) (s : State) : (onExp f s).mgt.store = s.mgt.store := rfl
@[simp] theorem onExp_mgt_start (f : ExportState → ExportState) (s : State) : (onExp f s).mgt.start = s.mgt.start := rfl
@[simp] theorem onExp_mgt_bist (f : ExportState → ExportState) (s : State) : (onExp f s).mgt.bist = s.mgt.bist := rfl
@[simp] theorem onExp_mgt_upd (f : ExportState → ExportState) (s : State) : (onExp f s).mgt.upd = s.mgt.upd := rfl
@[simp] theorem onExp_mgt_elec (f : ExportState → ExportState) (s : State) : (onExp f s).mgt.elec = s.mgt.elec := rfl

@[simp] theorem onRec_variant (f : RecorderState → RecorderState) (s : State) : (onRec f s).variant = s.variant := rfl
@[simp] theorem onRec_tscan (f : RecorderState → RecorderState) (s : State) : (onRec f s).tscan = s.tscan := rfl
@[simp] theorem onRec_clk (f : RecorderState → RecorderState) (s : State) : (onRec f s).clk = s.clk := rfl
@[simp] theorem onRec_ret (f : RecorderState → RecorderState) (s : State) : (onRec f s).ret = s.ret := rfl
@[simp] theorem onRec_power (f : RecorderState → RecorderState) (s : State) : (onRec f s).power = s.power := rfl
@[simp] theorem onRec_ctl (f : RecorderState → RecorderState) (s : State) : (onRec f s).ctl = s.ctl := rfl
@[simp] theorem onRec_data (f : RecorderState → RecorderState) (s : State) : (onRec f s).data = s.data := rfl
@[simp] theorem onRec_free (f : RecorderState → RecorderState) (s : State) : (onRec f s).free = s.free := rfl
@[simp] theorem onRec_pending (f : RecorderState → RecorderState) (s : State) : (onRec f s).pending = s.pending := rfl
@[simp] theorem onRec_mgt_mbx (f : RecorderState → RecorderState) (s : State) : (onRec f s).mgt.mbx = s.mgt.mbx := rfl
@[simp] theorem onRec_mgt_exp (f : RecorderState → RecorderState) (s : State) : (onRec f s).mgt.exp = s.mgt.exp := rfl
@[simp] theorem onRec_mgt_cvu (f : RecorderState → RecorderState) (s : State) : (onRec f s).mgt.cvu = s.mgt.cvu := rfl
@[simp] theorem onRec_mgt_recorder (f : RecorderState → RecorderState) (s : State) : (onRec f s).mgt.recorder = f s.mgt.recorder := rfl
@[simp] theorem onRec_mgt_cycles (f : RecorderState → RecorderState) (s : State) : (onRec f s).mgt.cycles = s.mgt.cycles := rfl
@[simp] theorem onRec_mgt_store (f : RecorderState → RecorderState) (s : State) : (onRec f s).mgt.store = s.mgt.store := rfl
@[simp] theorem onRec_mgt_start (f : RecorderState → RecorderState) (s : State) : (onRec f s).mgt.start = s.mgt.start := rfl
@[simp] theorem onRec_mgt_bist (f : RecorderState → RecorderState) (s : State) : (onRec f s).mgt.bist = s.mgt.bist := rfl
@[simp] theorem onRec_mgt_upd (f : RecorderState → RecorderState) (s : State) : (onRec f s).mgt.upd = s.mgt.upd := rfl
@[simp] theorem onRec_mgt_elec (f : RecorderState → RecorderState) (s : State) : (onRec f s).mgt.elec = s.mgt.elec := rfl

@[simp] theorem onStore_variant (f : StoreState → StoreState) (s : State) : (onStore f s).variant = s.variant := rfl
@[simp] theorem onStore_tscan (f : StoreState → StoreState) (s : State) : (onStore f s).tscan = s.tscan := rfl
@[simp] theorem onStore_clk (f : StoreState → StoreState) (s : State) : (onStore f s).clk = s.clk := rfl
@[simp] theorem onStore_ret (f : StoreState → StoreState) (s : State) : (onStore f s).ret = s.ret := rfl
@[simp] theorem onStore_power (f : StoreState → StoreState) (s : State) : (onStore f s).power = s.power := rfl
@[simp] theorem onStore_ctl (f : StoreState → StoreState) (s : State) : (onStore f s).ctl = s.ctl := rfl
@[simp] theorem onStore_data (f : StoreState → StoreState) (s : State) : (onStore f s).data = s.data := rfl
@[simp] theorem onStore_free (f : StoreState → StoreState) (s : State) : (onStore f s).free = s.free := rfl
@[simp] theorem onStore_pending (f : StoreState → StoreState) (s : State) : (onStore f s).pending = s.pending := rfl
@[simp] theorem onStore_mgt_mbx (f : StoreState → StoreState) (s : State) : (onStore f s).mgt.mbx = s.mgt.mbx := rfl
@[simp] theorem onStore_mgt_exp (f : StoreState → StoreState) (s : State) : (onStore f s).mgt.exp = s.mgt.exp := rfl
@[simp] theorem onStore_mgt_cvu (f : StoreState → StoreState) (s : State) : (onStore f s).mgt.cvu = s.mgt.cvu := rfl
@[simp] theorem onStore_mgt_recorder (f : StoreState → StoreState) (s : State) : (onStore f s).mgt.recorder = s.mgt.recorder := rfl
@[simp] theorem onStore_mgt_cycles (f : StoreState → StoreState) (s : State) : (onStore f s).mgt.cycles = s.mgt.cycles := rfl
@[simp] theorem onStore_mgt_store (f : StoreState → StoreState) (s : State) : (onStore f s).mgt.store = f s.mgt.store := rfl
@[simp] theorem onStore_mgt_start (f : StoreState → StoreState) (s : State) : (onStore f s).mgt.start = s.mgt.start := rfl
@[simp] theorem onStore_mgt_bist (f : StoreState → StoreState) (s : State) : (onStore f s).mgt.bist = s.mgt.bist := rfl
@[simp] theorem onStore_mgt_upd (f : StoreState → StoreState) (s : State) : (onStore f s).mgt.upd = s.mgt.upd := rfl
@[simp] theorem onStore_mgt_elec (f : StoreState → StoreState) (s : State) : (onStore f s).mgt.elec = s.mgt.elec := rfl

@[simp] theorem onStart_variant (f : StartState → StartState) (s : State) : (onStart f s).variant = s.variant := rfl
@[simp] theorem onStart_tscan (f : StartState → StartState) (s : State) : (onStart f s).tscan = s.tscan := rfl
@[simp] theorem onStart_clk (f : StartState → StartState) (s : State) : (onStart f s).clk = s.clk := rfl
@[simp] theorem onStart_ret (f : StartState → StartState) (s : State) : (onStart f s).ret = s.ret := rfl
@[simp] theorem onStart_power (f : StartState → StartState) (s : State) : (onStart f s).power = s.power := rfl
@[simp] theorem onStart_ctl (f : StartState → StartState) (s : State) : (onStart f s).ctl = s.ctl := rfl
@[simp] theorem onStart_data (f : StartState → StartState) (s : State) : (onStart f s).data = s.data := rfl
@[simp] theorem onStart_free (f : StartState → StartState) (s : State) : (onStart f s).free = s.free := rfl
@[simp] theorem onStart_pending (f : StartState → StartState) (s : State) : (onStart f s).pending = s.pending := rfl
@[simp] theorem onStart_mgt_mbx (f : StartState → StartState) (s : State) : (onStart f s).mgt.mbx = s.mgt.mbx := rfl
@[simp] theorem onStart_mgt_exp (f : StartState → StartState) (s : State) : (onStart f s).mgt.exp = s.mgt.exp := rfl
@[simp] theorem onStart_mgt_cvu (f : StartState → StartState) (s : State) : (onStart f s).mgt.cvu = s.mgt.cvu := rfl
@[simp] theorem onStart_mgt_recorder (f : StartState → StartState) (s : State) : (onStart f s).mgt.recorder = s.mgt.recorder := rfl
@[simp] theorem onStart_mgt_cycles (f : StartState → StartState) (s : State) : (onStart f s).mgt.cycles = s.mgt.cycles := rfl
@[simp] theorem onStart_mgt_store (f : StartState → StartState) (s : State) : (onStart f s).mgt.store = s.mgt.store := rfl
@[simp] theorem onStart_mgt_start (f : StartState → StartState) (s : State) : (onStart f s).mgt.start = f s.mgt.start := rfl
@[simp] theorem onStart_mgt_bist (f : StartState → StartState) (s : State) : (onStart f s).mgt.bist = s.mgt.bist := rfl
@[simp] theorem onStart_mgt_upd (f : StartState → StartState) (s : State) : (onStart f s).mgt.upd = s.mgt.upd := rfl
@[simp] theorem onStart_mgt_elec (f : StartState → StartState) (s : State) : (onStart f s).mgt.elec = s.mgt.elec := rfl

@[simp] theorem onBist_variant (f : BistState → BistState) (s : State) : (onBist f s).variant = s.variant := rfl
@[simp] theorem onBist_tscan (f : BistState → BistState) (s : State) : (onBist f s).tscan = s.tscan := rfl
@[simp] theorem onBist_clk (f : BistState → BistState) (s : State) : (onBist f s).clk = s.clk := rfl
@[simp] theorem onBist_ret (f : BistState → BistState) (s : State) : (onBist f s).ret = s.ret := rfl
@[simp] theorem onBist_power (f : BistState → BistState) (s : State) : (onBist f s).power = s.power := rfl
@[simp] theorem onBist_ctl (f : BistState → BistState) (s : State) : (onBist f s).ctl = s.ctl := rfl
@[simp] theorem onBist_data (f : BistState → BistState) (s : State) : (onBist f s).data = s.data := rfl
@[simp] theorem onBist_free (f : BistState → BistState) (s : State) : (onBist f s).free = s.free := rfl
@[simp] theorem onBist_pending (f : BistState → BistState) (s : State) : (onBist f s).pending = s.pending := rfl
@[simp] theorem onBist_mgt_mbx (f : BistState → BistState) (s : State) : (onBist f s).mgt.mbx = s.mgt.mbx := rfl
@[simp] theorem onBist_mgt_exp (f : BistState → BistState) (s : State) : (onBist f s).mgt.exp = s.mgt.exp := rfl
@[simp] theorem onBist_mgt_cvu (f : BistState → BistState) (s : State) : (onBist f s).mgt.cvu = s.mgt.cvu := rfl
@[simp] theorem onBist_mgt_recorder (f : BistState → BistState) (s : State) : (onBist f s).mgt.recorder = s.mgt.recorder := rfl
@[simp] theorem onBist_mgt_cycles (f : BistState → BistState) (s : State) : (onBist f s).mgt.cycles = s.mgt.cycles := rfl
@[simp] theorem onBist_mgt_store (f : BistState → BistState) (s : State) : (onBist f s).mgt.store = s.mgt.store := rfl
@[simp] theorem onBist_mgt_start (f : BistState → BistState) (s : State) : (onBist f s).mgt.start = s.mgt.start := rfl
@[simp] theorem onBist_mgt_bist (f : BistState → BistState) (s : State) : (onBist f s).mgt.bist = f s.mgt.bist := rfl
@[simp] theorem onBist_mgt_upd (f : BistState → BistState) (s : State) : (onBist f s).mgt.upd = s.mgt.upd := rfl
@[simp] theorem onBist_mgt_elec (f : BistState → BistState) (s : State) : (onBist f s).mgt.elec = s.mgt.elec := rfl

@[simp] theorem onUpd_variant (f : UpdState → UpdState) (s : State) : (onUpd f s).variant = s.variant := rfl
@[simp] theorem onUpd_tscan (f : UpdState → UpdState) (s : State) : (onUpd f s).tscan = s.tscan := rfl
@[simp] theorem onUpd_clk (f : UpdState → UpdState) (s : State) : (onUpd f s).clk = s.clk := rfl
@[simp] theorem onUpd_ret (f : UpdState → UpdState) (s : State) : (onUpd f s).ret = s.ret := rfl
@[simp] theorem onUpd_power (f : UpdState → UpdState) (s : State) : (onUpd f s).power = s.power := rfl
@[simp] theorem onUpd_ctl (f : UpdState → UpdState) (s : State) : (onUpd f s).ctl = s.ctl := rfl
@[simp] theorem onUpd_data (f : UpdState → UpdState) (s : State) : (onUpd f s).data = s.data := rfl
@[simp] theorem onUpd_free (f : UpdState → UpdState) (s : State) : (onUpd f s).free = s.free := rfl
@[simp] theorem onUpd_pending (f : UpdState → UpdState) (s : State) : (onUpd f s).pending = s.pending := rfl
@[simp] theorem onUpd_mgt_mbx (f : UpdState → UpdState) (s : State) : (onUpd f s).mgt.mbx = s.mgt.mbx := rfl
@[simp] theorem onUpd_mgt_exp (f : UpdState → UpdState) (s : State) : (onUpd f s).mgt.exp = s.mgt.exp := rfl
@[simp] theorem onUpd_mgt_cvu (f : UpdState → UpdState) (s : State) : (onUpd f s).mgt.cvu = s.mgt.cvu := rfl
@[simp] theorem onUpd_mgt_recorder (f : UpdState → UpdState) (s : State) : (onUpd f s).mgt.recorder = s.mgt.recorder := rfl
@[simp] theorem onUpd_mgt_cycles (f : UpdState → UpdState) (s : State) : (onUpd f s).mgt.cycles = s.mgt.cycles := rfl
@[simp] theorem onUpd_mgt_store (f : UpdState → UpdState) (s : State) : (onUpd f s).mgt.store = s.mgt.store := rfl
@[simp] theorem onUpd_mgt_start (f : UpdState → UpdState) (s : State) : (onUpd f s).mgt.start = s.mgt.start := rfl
@[simp] theorem onUpd_mgt_bist (f : UpdState → UpdState) (s : State) : (onUpd f s).mgt.bist = s.mgt.bist := rfl
@[simp] theorem onUpd_mgt_upd (f : UpdState → UpdState) (s : State) : (onUpd f s).mgt.upd = f s.mgt.upd := rfl
@[simp] theorem onUpd_mgt_elec (f : UpdState → UpdState) (s : State) : (onUpd f s).mgt.elec = s.mgt.elec := rfl

@[simp] theorem onElec_variant (f : ElectricState → ElectricState) (s : State) : (onElec f s).variant = s.variant := rfl
@[simp] theorem onElec_tscan (f : ElectricState → ElectricState) (s : State) : (onElec f s).tscan = s.tscan := rfl
@[simp] theorem onElec_clk (f : ElectricState → ElectricState) (s : State) : (onElec f s).clk = s.clk := rfl
@[simp] theorem onElec_ret (f : ElectricState → ElectricState) (s : State) : (onElec f s).ret = s.ret := rfl
@[simp] theorem onElec_power (f : ElectricState → ElectricState) (s : State) : (onElec f s).power = s.power := rfl
@[simp] theorem onElec_ctl (f : ElectricState → ElectricState) (s : State) : (onElec f s).ctl = s.ctl := rfl
@[simp] theorem onElec_data (f : ElectricState → ElectricState) (s : State) : (onElec f s).data = s.data := rfl
@[simp] theorem onElec_free (f : ElectricState → ElectricState) (s : State) : (onElec f s).free = s.free := rfl
@[simp] theorem onElec_pending (f : ElectricState → ElectricState) (s : State) : (onElec f s).pending = s.pending := rfl
@[simp] theorem onElec_mgt_mbx (f : ElectricState → ElectricState) (s : State) : (onElec f s).mgt.mbx = s.mgt.mbx := rfl
@[simp] theorem onElec_mgt_exp (f : ElectricState → ElectricState) (s : State) : (onElec f s).mgt.exp = s.mgt.exp := rfl
@[simp] theorem onElec_mgt_cvu (f : ElectricState → ElectricState) (s : State) : (onElec f s).mgt.cvu = s.mgt.cvu := rfl
@[simp] theorem onElec_mgt_recorder (f : ElectricState → ElectricState) (s : State) : (onElec f s).mgt.recorder = s.mgt.recorder := rfl
@[simp] theorem onElec_mgt_cycles (f : ElectricState → ElectricState) (s : State) : (onElec f s).mgt.cycles = s.mgt.cycles := rfl
@[simp] theorem onElec_mgt_store (f : ElectricState → ElectricState) (s : State) : (onElec f s).mgt.store = s.mgt.store := rfl
@[simp] theorem onElec_mgt_start (f : ElectricState → ElectricState) (s : State) : (onElec f s).mgt.start = s.mgt.start := rfl
@[simp] theorem onElec_mgt_bist (f : ElectricState → ElectricState) (s : State) : (onElec f s).mgt.bist = s.mgt.bist := rfl
@[simp] theorem onElec_mgt_upd (f : ElectricState → ElectricState) (s : State) : (onElec f s).mgt.upd = s.mgt.upd := rfl
@[simp] theorem onElec_mgt_elec (f : ElectricState → ElectricState) (s : State) : (onElec f s).mgt.elec = f s.mgt.elec := rfl

@[simp] theorem onStaging_variant (f : SMap W64 → SMap W64) (s : State) : (onStaging f s).variant = s.variant := rfl
@[simp] theorem onStaging_tscan (f : SMap W64 → SMap W64) (s : State) : (onStaging f s).tscan = s.tscan := rfl
@[simp] theorem onStaging_clk (f : SMap W64 → SMap W64) (s : State) : (onStaging f s).clk = s.clk := rfl
@[simp] theorem onStaging_ret (f : SMap W64 → SMap W64) (s : State) : (onStaging f s).ret = s.ret := rfl
@[simp] theorem onStaging_power (f : SMap W64 → SMap W64) (s : State) : (onStaging f s).power = s.power := rfl
@[simp] theorem onStaging_data (f : SMap W64 → SMap W64) (s : State) : (onStaging f s).data = s.data := rfl
@[simp] theorem onStaging_mgt (f : SMap W64 → SMap W64) (s : State) : (onStaging f s).mgt = s.mgt := rfl
@[simp] theorem onStaging_free (f : SMap W64 → SMap W64) (s : State) : (onStaging f s).free = s.free := rfl
@[simp] theorem onStaging_pending (f : SMap W64 → SMap W64) (s : State) : (onStaging f s).pending = s.pending := rfl
@[simp] theorem onStaging_ctl_lanes (f : SMap W64 → SMap W64) (s : State) : (onStaging f s).ctl.lanes = s.ctl.lanes := rfl
@[simp] theorem onStaging_ctl_voter (f : SMap W64 → SMap W64) (s : State) : (onStaging f s).ctl.voter = s.ctl.voter := rfl
@[simp] theorem onStaging_ctl_rot (f : SMap W64 → SMap W64) (s : State) : (onStaging f s).ctl.rot = s.ctl.rot := rfl
@[simp] theorem onStaging_ctl_adm (f : SMap W64 → SMap W64) (s : State) : (onStaging f s).ctl.adm = (onStaging f s).ctl.adm := rfl
@[simp] theorem onStaging_ctl_followers (f : SMap W64 → SMap W64) (s : State) : (onStaging f s).ctl.followers = s.ctl.followers := rfl
@[simp] theorem onStaging_ctl_island (f : SMap W64 → SMap W64) (s : State) : (onStaging f s).ctl.island = s.ctl.island := rfl
@[simp] theorem onStaging_ctl_bridgeTries (f : SMap W64 → SMap W64) (s : State) : (onStaging f s).ctl.bridgeTries = s.ctl.bridgeTries := rfl
@[simp] theorem onStaging_ctl_vio (f : SMap W64 → SMap W64) (s : State) : (onStaging f s).ctl.vio = s.ctl.vio := rfl
@[simp] theorem onStaging_ctl_seals (f : SMap W64 → SMap W64) (s : State) : (onStaging f s).ctl.seals = s.ctl.seals := rfl
@[simp] theorem onStaging_ctl_trip (f : SMap W64 → SMap W64) (s : State) : (onStaging f s).ctl.trip = s.ctl.trip := rfl
@[simp] theorem onStaging_ctl_force (f : SMap W64 → SMap W64) (s : State) : (onStaging f s).ctl.force = s.ctl.force := rfl
@[simp] theorem onStaging_ctl_olc (f : SMap W64 → SMap W64) (s : State) : (onStaging f s).ctl.olc = s.ctl.olc := rfl
@[simp] theorem onStaging_ctl_dbg (f : SMap W64 → SMap W64) (s : State) : (onStaging f s).ctl.dbg = s.ctl.dbg := rfl

@[simp] theorem onLane_variant (l : Lane) (f : LaneState → LaneState) (s : State) : (onLane l f s).variant = s.variant := rfl
@[simp] theorem onLane_tscan (l : Lane) (f : LaneState → LaneState) (s : State) : (onLane l f s).tscan = s.tscan := rfl
@[simp] theorem onLane_clk (l : Lane) (f : LaneState → LaneState) (s : State) : (onLane l f s).clk = s.clk := rfl
@[simp] theorem onLane_ret (l : Lane) (f : LaneState → LaneState) (s : State) : (onLane l f s).ret = s.ret := rfl
@[simp] theorem onLane_power (l : Lane) (f : LaneState → LaneState) (s : State) : (onLane l f s).power = s.power := rfl
@[simp] theorem onLane_data (l : Lane) (f : LaneState → LaneState) (s : State) : (onLane l f s).data = s.data := rfl
@[simp] theorem onLane_mgt (l : Lane) (f : LaneState → LaneState) (s : State) : (onLane l f s).mgt = s.mgt := rfl
@[simp] theorem onLane_free (l : Lane) (f : LaneState → LaneState) (s : State) : (onLane l f s).free = s.free := rfl
@[simp] theorem onLane_pending (l : Lane) (f : LaneState → LaneState) (s : State) : (onLane l f s).pending = s.pending := rfl
@[simp] theorem onLane_ctl_lanes (l : Lane) (f : LaneState → LaneState) (s : State) : (onLane l f s).ctl.lanes = s.ctl.lanes.set l (f (s.ctl.lanes.get l)) := rfl
@[simp] theorem onLane_ctl_voter (l : Lane) (f : LaneState → LaneState) (s : State) : (onLane l f s).ctl.voter = s.ctl.voter := rfl
@[simp] theorem onLane_ctl_rot (l : Lane) (f : LaneState → LaneState) (s : State) : (onLane l f s).ctl.rot = s.ctl.rot := rfl
@[simp] theorem onLane_ctl_adm (l : Lane) (f : LaneState → LaneState) (s : State) : (onLane l f s).ctl.adm = s.ctl.adm := rfl
@[simp] theorem onLane_ctl_followers (l : Lane) (f : LaneState → LaneState) (s : State) : (onLane l f s).ctl.followers = s.ctl.followers := rfl
@[simp] theorem onLane_ctl_island (l : Lane) (f : LaneState → LaneState) (s : State) : (onLane l f s).ctl.island = s.ctl.island := rfl
@[simp] theorem onLane_ctl_bridgeTries (l : Lane) (f : LaneState → LaneState) (s : State) : (onLane l f s).ctl.bridgeTries = s.ctl.bridgeTries := rfl
@[simp] theorem onLane_ctl_vio (l : Lane) (f : LaneState → LaneState) (s : State) : (onLane l f s).ctl.vio = s.ctl.vio := rfl
@[simp] theorem onLane_ctl_seals (l : Lane) (f : LaneState → LaneState) (s : State) : (onLane l f s).ctl.seals = s.ctl.seals := rfl
@[simp] theorem onLane_ctl_trip (l : Lane) (f : LaneState → LaneState) (s : State) : (onLane l f s).ctl.trip = s.ctl.trip := rfl
@[simp] theorem onLane_ctl_force (l : Lane) (f : LaneState → LaneState) (s : State) : (onLane l f s).ctl.force = s.ctl.force := rfl
@[simp] theorem onLane_ctl_olc (l : Lane) (f : LaneState → LaneState) (s : State) : (onLane l f s).ctl.olc = s.ctl.olc := rfl
@[simp] theorem onLane_ctl_dbg (l : Lane) (f : LaneState → LaneState) (s : State) : (onLane l f s).ctl.dbg = s.ctl.dbg := rfl

@[simp] theorem onLanes_variant (f : LaneState → LaneState) (s : State) : (onLanes f s).variant = s.variant := rfl
@[simp] theorem onLanes_tscan (f : LaneState → LaneState) (s : State) : (onLanes f s).tscan = s.tscan := rfl
@[simp] theorem onLanes_clk (f : LaneState → LaneState) (s : State) : (onLanes f s).clk = s.clk := rfl
@[simp] theorem onLanes_ret (f : LaneState → LaneState) (s : State) : (onLanes f s).ret = s.ret := rfl
@[simp] theorem onLanes_power (f : LaneState → LaneState) (s : State) : (onLanes f s).power = s.power := rfl
@[simp] theorem onLanes_data (f : LaneState → LaneState) (s : State) : (onLanes f s).data = s.data := rfl
@[simp] theorem onLanes_mgt (f : LaneState → LaneState) (s : State) : (onLanes f s).mgt = s.mgt := rfl
@[simp] theorem onLanes_free (f : LaneState → LaneState) (s : State) : (onLanes f s).free = s.free := rfl
@[simp] theorem onLanes_pending (f : LaneState → LaneState) (s : State) : (onLanes f s).pending = s.pending := rfl
@[simp] theorem onLanes_ctl_lanes (f : LaneState → LaneState) (s : State) : (onLanes f s).ctl.lanes = s.ctl.lanes.map f := rfl
@[simp] theorem onLanes_ctl_voter (f : LaneState → LaneState) (s : State) : (onLanes f s).ctl.voter = s.ctl.voter := rfl
@[simp] theorem onLanes_ctl_rot (f : LaneState → LaneState) (s : State) : (onLanes f s).ctl.rot = s.ctl.rot := rfl
@[simp] theorem onLanes_ctl_adm (f : LaneState → LaneState) (s : State) : (onLanes f s).ctl.adm = s.ctl.adm := rfl
@[simp] theorem onLanes_ctl_followers (f : LaneState → LaneState) (s : State) : (onLanes f s).ctl.followers = s.ctl.followers := rfl
@[simp] theorem onLanes_ctl_island (f : LaneState → LaneState) (s : State) : (onLanes f s).ctl.island = s.ctl.island := rfl
@[simp] theorem onLanes_ctl_bridgeTries (f : LaneState → LaneState) (s : State) : (onLanes f s).ctl.bridgeTries = s.ctl.bridgeTries := rfl
@[simp] theorem onLanes_ctl_vio (f : LaneState → LaneState) (s : State) : (onLanes f s).ctl.vio = s.ctl.vio := rfl
@[simp] theorem onLanes_ctl_seals (f : LaneState → LaneState) (s : State) : (onLanes f s).ctl.seals = s.ctl.seals := rfl
@[simp] theorem onLanes_ctl_trip (f : LaneState → LaneState) (s : State) : (onLanes f s).ctl.trip = s.ctl.trip := rfl
@[simp] theorem onLanes_ctl_force (f : LaneState → LaneState) (s : State) : (onLanes f s).ctl.force = s.ctl.force := rfl
@[simp] theorem onLanes_ctl_olc (f : LaneState → LaneState) (s : State) : (onLanes f s).ctl.olc = s.ctl.olc := rfl
@[simp] theorem onLanes_ctl_dbg (f : LaneState → LaneState) (s : State) : (onLanes f s).ctl.dbg = s.ctl.dbg := rfl

@[simp] theorem onCore_variant (l : Lane) (f : LaneCore → LaneCore) (s : State) : (onCore l f s).variant = s.variant := rfl
@[simp] theorem onCore_tscan (l : Lane) (f : LaneCore → LaneCore) (s : State) : (onCore l f s).tscan = s.tscan := rfl
@[simp] theorem onCore_clk (l : Lane) (f : LaneCore → LaneCore) (s : State) : (onCore l f s).clk = s.clk := rfl
@[simp] theorem onCore_ret (l : Lane) (f : LaneCore → LaneCore) (s : State) : (onCore l f s).ret = s.ret := rfl
@[simp] theorem onCore_power (l : Lane) (f : LaneCore → LaneCore) (s : State) : (onCore l f s).power = s.power := rfl
@[simp] theorem onCore_data (l : Lane) (f : LaneCore → LaneCore) (s : State) : (onCore l f s).data = s.data := rfl
@[simp] theorem onCore_mgt (l : Lane) (f : LaneCore → LaneCore) (s : State) : (onCore l f s).mgt = s.mgt := rfl
@[simp] theorem onCore_free (l : Lane) (f : LaneCore → LaneCore) (s : State) : (onCore l f s).free = s.free := rfl
@[simp] theorem onCore_pending (l : Lane) (f : LaneCore → LaneCore) (s : State) : (onCore l f s).pending = s.pending := rfl
@[simp] theorem onCore_ctl_lanes (l : Lane) (f : LaneCore → LaneCore) (s : State) : (onCore l f s).ctl.lanes = s.ctl.lanes.set l { s.ctl.lanes.get l with core := f (s.ctl.lanes.get l).core } := rfl
@[simp] theorem onCore_ctl_voter (l : Lane) (f : LaneCore → LaneCore) (s : State) : (onCore l f s).ctl.voter = s.ctl.voter := rfl
@[simp] theorem onCore_ctl_rot (l : Lane) (f : LaneCore → LaneCore) (s : State) : (onCore l f s).ctl.rot = s.ctl.rot := rfl
@[simp] theorem onCore_ctl_adm (l : Lane) (f : LaneCore → LaneCore) (s : State) : (onCore l f s).ctl.adm = s.ctl.adm := rfl
@[simp] theorem onCore_ctl_followers (l : Lane) (f : LaneCore → LaneCore) (s : State) : (onCore l f s).ctl.followers = s.ctl.followers := rfl
@[simp] theorem onCore_ctl_island (l : Lane) (f : LaneCore → LaneCore) (s : State) : (onCore l f s).ctl.island = s.ctl.island := rfl
@[simp] theorem onCore_ctl_bridgeTries (l : Lane) (f : LaneCore → LaneCore) (s : State) : (onCore l f s).ctl.bridgeTries = s.ctl.bridgeTries := rfl
@[simp] theorem onCore_ctl_vio (l : Lane) (f : LaneCore → LaneCore) (s : State) : (onCore l f s).ctl.vio = s.ctl.vio := rfl
@[simp] theorem onCore_ctl_seals (l : Lane) (f : LaneCore → LaneCore) (s : State) : (onCore l f s).ctl.seals = s.ctl.seals := rfl
@[simp] theorem onCore_ctl_trip (l : Lane) (f : LaneCore → LaneCore) (s : State) : (onCore l f s).ctl.trip = s.ctl.trip := rfl
@[simp] theorem onCore_ctl_force (l : Lane) (f : LaneCore → LaneCore) (s : State) : (onCore l f s).ctl.force = s.ctl.force := rfl
@[simp] theorem onCore_ctl_olc (l : Lane) (f : LaneCore → LaneCore) (s : State) : (onCore l f s).ctl.olc = s.ctl.olc := rfl
@[simp] theorem onCore_ctl_dbg (l : Lane) (f : LaneCore → LaneCore) (s : State) : (onCore l f s).ctl.dbg = s.ctl.dbg := rfl

@[simp] theorem onStar_variant (c : Chan) (f : StarState → StarState) (s : State) : (onStar c f s).variant = s.variant := rfl
@[simp] theorem onStar_tscan (c : Chan) (f : StarState → StarState) (s : State) : (onStar c f s).tscan = s.tscan := rfl
@[simp] theorem onStar_clk (c : Chan) (f : StarState → StarState) (s : State) : (onStar c f s).clk = s.clk := rfl
@[simp] theorem onStar_ret (c : Chan) (f : StarState → StarState) (s : State) : (onStar c f s).ret = s.ret := rfl
@[simp] theorem onStar_power (c : Chan) (f : StarState → StarState) (s : State) : (onStar c f s).power = s.power := rfl
@[simp] theorem onStar_ctl (c : Chan) (f : StarState → StarState) (s : State) : (onStar c f s).ctl = s.ctl := rfl
@[simp] theorem onStar_mgt (c : Chan) (f : StarState → StarState) (s : State) : (onStar c f s).mgt = s.mgt := rfl
@[simp] theorem onStar_free (c : Chan) (f : StarState → StarState) (s : State) : (onStar c f s).free = s.free := rfl
@[simp] theorem onStar_pending (c : Chan) (f : StarState → StarState) (s : State) : (onStar c f s).pending = s.pending := rfl
@[simp] theorem onStar_data_cfg (c : Chan) (f : StarState → StarState) (s : State) : (onStar c f s).data.cfg = s.data.cfg := rfl
@[simp] theorem onStar_data_stars (c : Chan) (f : StarState → StarState) (s : State) : (onStar c f s).data.stars = s.data.stars.set c (f (s.data.stars.get c)) := rfl
@[simp] theorem onStar_data_aux (c : Chan) (f : StarState → StarState) (s : State) : (onStar c f s).data.aux = s.data.aux := rfl
@[simp] theorem onStar_data_nodes (c : Chan) (f : StarState → StarState) (s : State) : (onStar c f s).data.nodes = s.data.nodes := rfl
@[simp] theorem onStar_data_sched (c : Chan) (f : StarState → StarState) (s : State) : (onStar c f s).data.sched = s.data.sched := rfl
@[simp] theorem onStar_data_time (c : Chan) (f : StarState → StarState) (s : State) : (onStar c f s).data.time = s.data.time := rfl
@[simp] theorem onStar_data_net (c : Chan) (f : StarState → StarState) (s : State) : (onStar c f s).data.net = s.data.net := rfl

@[simp] theorem onAux_variant (c : Chan) (f : StarAux → StarAux) (s : State) : (onAux c f s).variant = s.variant := rfl
@[simp] theorem onAux_tscan (c : Chan) (f : StarAux → StarAux) (s : State) : (onAux c f s).tscan = s.tscan := rfl
@[simp] theorem onAux_clk (c : Chan) (f : StarAux → StarAux) (s : State) : (onAux c f s).clk = s.clk := rfl
@[simp] theorem onAux_ret (c : Chan) (f : StarAux → StarAux) (s : State) : (onAux c f s).ret = s.ret := rfl
@[simp] theorem onAux_power (c : Chan) (f : StarAux → StarAux) (s : State) : (onAux c f s).power = s.power := rfl
@[simp] theorem onAux_ctl (c : Chan) (f : StarAux → StarAux) (s : State) : (onAux c f s).ctl = s.ctl := rfl
@[simp] theorem onAux_mgt (c : Chan) (f : StarAux → StarAux) (s : State) : (onAux c f s).mgt = s.mgt := rfl
@[simp] theorem onAux_free (c : Chan) (f : StarAux → StarAux) (s : State) : (onAux c f s).free = s.free := rfl
@[simp] theorem onAux_pending (c : Chan) (f : StarAux → StarAux) (s : State) : (onAux c f s).pending = s.pending := rfl
@[simp] theorem onAux_data_cfg (c : Chan) (f : StarAux → StarAux) (s : State) : (onAux c f s).data.cfg = s.data.cfg := rfl
@[simp] theorem onAux_data_stars (c : Chan) (f : StarAux → StarAux) (s : State) : (onAux c f s).data.stars = s.data.stars := rfl
@[simp] theorem onAux_data_aux (c : Chan) (f : StarAux → StarAux) (s : State) : (onAux c f s).data.aux = s.data.aux.set c (f (s.data.aux.get c)) := rfl
@[simp] theorem onAux_data_nodes (c : Chan) (f : StarAux → StarAux) (s : State) : (onAux c f s).data.nodes = s.data.nodes := rfl
@[simp] theorem onAux_data_sched (c : Chan) (f : StarAux → StarAux) (s : State) : (onAux c f s).data.sched = s.data.sched := rfl
@[simp] theorem onAux_data_time (c : Chan) (f : StarAux → StarAux) (s : State) : (onAux c f s).data.time = s.data.time := rfl
@[simp] theorem onAux_data_net (c : Chan) (f : StarAux → StarAux) (s : State) : (onAux c f s).data.net = s.data.net := rfl

@[simp] theorem onNode_variant (k : Nat) (f : NodeState → NodeState) (s : State) : (onNode k f s).variant = s.variant := rfl
@[simp] theorem onNode_tscan (k : Nat) (f : NodeState → NodeState) (s : State) : (onNode k f s).tscan = s.tscan := rfl
@[simp] theorem onNode_clk (k : Nat) (f : NodeState → NodeState) (s : State) : (onNode k f s).clk = s.clk := rfl
@[simp] theorem onNode_ret (k : Nat) (f : NodeState → NodeState) (s : State) : (onNode k f s).ret = s.ret := rfl
@[simp] theorem onNode_power (k : Nat) (f : NodeState → NodeState) (s : State) : (onNode k f s).power = s.power := rfl
@[simp] theorem onNode_ctl (k : Nat) (f : NodeState → NodeState) (s : State) : (onNode k f s).ctl = s.ctl := rfl
@[simp] theorem onNode_mgt (k : Nat) (f : NodeState → NodeState) (s : State) : (onNode k f s).mgt = s.mgt := rfl
@[simp] theorem onNode_free (k : Nat) (f : NodeState → NodeState) (s : State) : (onNode k f s).free = s.free := rfl
@[simp] theorem onNode_pending (k : Nat) (f : NodeState → NodeState) (s : State) : (onNode k f s).pending = s.pending := rfl
@[simp] theorem onNode_data_cfg (k : Nat) (f : NodeState → NodeState) (s : State) : (onNode k f s).data.cfg = s.data.cfg := rfl
@[simp] theorem onNode_data_stars (k : Nat) (f : NodeState → NodeState) (s : State) : (onNode k f s).data.stars = s.data.stars := rfl
@[simp] theorem onNode_data_aux (k : Nat) (f : NodeState → NodeState) (s : State) : (onNode k f s).data.aux = s.data.aux := rfl
@[simp] theorem onNode_data_nodes (k : Nat) (f : NodeState → NodeState) (s : State) : (onNode k f s).data.nodes = smSet NodeState.zero s.data.nodes k (f (smGet NodeState.zero s.data.nodes k)) := rfl
@[simp] theorem onNode_data_sched (k : Nat) (f : NodeState → NodeState) (s : State) : (onNode k f s).data.sched = s.data.sched := rfl
@[simp] theorem onNode_data_time (k : Nat) (f : NodeState → NodeState) (s : State) : (onNode k f s).data.time = s.data.time := rfl
@[simp] theorem onNode_data_net (k : Nat) (f : NodeState → NodeState) (s : State) : (onNode k f s).data.net = s.data.net := rfl

@[simp] theorem onRegs_variant (f : RegFile → RegFile) (s : State) : (onRegs f s).variant = s.variant := rfl
@[simp] theorem onRegs_tscan (f : RegFile → RegFile) (s : State) : (onRegs f s).tscan = s.tscan := rfl
@[simp] theorem onRegs_clk (f : RegFile → RegFile) (s : State) : (onRegs f s).clk = s.clk := rfl
@[simp] theorem onRegs_ret (f : RegFile → RegFile) (s : State) : (onRegs f s).ret = s.ret := rfl
@[simp] theorem onRegs_power (f : RegFile → RegFile) (s : State) : (onRegs f s).power = s.power := rfl
@[simp] theorem onRegs_ctl (f : RegFile → RegFile) (s : State) : (onRegs f s).ctl = s.ctl := rfl
@[simp] theorem onRegs_data (f : RegFile → RegFile) (s : State) : (onRegs f s).data = s.data := rfl
@[simp] theorem onRegs_free (f : RegFile → RegFile) (s : State) : (onRegs f s).free = s.free := rfl
@[simp] theorem onRegs_pending (f : RegFile → RegFile) (s : State) : (onRegs f s).pending = s.pending := rfl
@[simp] theorem onRegs_mgt_mbx (f : RegFile → RegFile) (s : State) : (onRegs f s).mgt.mbx = { s.mgt.mbx with regs := f s.mgt.mbx.regs } := rfl
@[simp] theorem onRegs_mgt_exp (f : RegFile → RegFile) (s : State) : (onRegs f s).mgt.exp = s.mgt.exp := rfl
@[simp] theorem onRegs_mgt_cvu (f : RegFile → RegFile) (s : State) : (onRegs f s).mgt.cvu = s.mgt.cvu := rfl
@[simp] theorem onRegs_mgt_recorder (f : RegFile → RegFile) (s : State) : (onRegs f s).mgt.recorder = s.mgt.recorder := rfl
@[simp] theorem onRegs_mgt_cycles (f : RegFile → RegFile) (s : State) : (onRegs f s).mgt.cycles = s.mgt.cycles := rfl
@[simp] theorem onRegs_mgt_store (f : RegFile → RegFile) (s : State) : (onRegs f s).mgt.store = s.mgt.store := rfl
@[simp] theorem onRegs_mgt_start (f : RegFile → RegFile) (s : State) : (onRegs f s).mgt.start = s.mgt.start := rfl
@[simp] theorem onRegs_mgt_bist (f : RegFile → RegFile) (s : State) : (onRegs f s).mgt.bist = s.mgt.bist := rfl
@[simp] theorem onRegs_mgt_upd (f : RegFile → RegFile) (s : State) : (onRegs f s).mgt.upd = s.mgt.upd := rfl
@[simp] theorem onRegs_mgt_elec (f : RegFile → RegFile) (s : State) : (onRegs f s).mgt.elec = s.mgt.elec := rfl

@[simp] theorem onRing_variant (r : Nat) (f : RingS → RingS) (s : State) : (onRing r f s).variant = s.variant := rfl
@[simp] theorem onRing_tscan (r : Nat) (f : RingS → RingS) (s : State) : (onRing r f s).tscan = s.tscan := rfl
@[simp] theorem onRing_clk (r : Nat) (f : RingS → RingS) (s : State) : (onRing r f s).clk = s.clk := rfl
@[simp] theorem onRing_ret (r : Nat) (f : RingS → RingS) (s : State) : (onRing r f s).ret = s.ret := rfl
@[simp] theorem onRing_power (r : Nat) (f : RingS → RingS) (s : State) : (onRing r f s).power = s.power := rfl
@[simp] theorem onRing_ctl (r : Nat) (f : RingS → RingS) (s : State) : (onRing r f s).ctl = s.ctl := rfl
@[simp] theorem onRing_data (r : Nat) (f : RingS → RingS) (s : State) : (onRing r f s).data = s.data := rfl
@[simp] theorem onRing_free (r : Nat) (f : RingS → RingS) (s : State) : (onRing r f s).free = s.free := rfl
@[simp] theorem onRing_pending (r : Nat) (f : RingS → RingS) (s : State) : (onRing r f s).pending = s.pending := rfl
@[simp] theorem onRing_mgt_mbx (r : Nat) (f : RingS → RingS) (s : State) : (onRing r f s).mgt.mbx = { s.mgt.mbx with rings := smSet RingS.zero s.mgt.mbx.rings r (f (smGet RingS.zero s.mgt.mbx.rings r)) } := rfl
@[simp] theorem onRing_mgt_exp (r : Nat) (f : RingS → RingS) (s : State) : (onRing r f s).mgt.exp = s.mgt.exp := rfl
@[simp] theorem onRing_mgt_cvu (r : Nat) (f : RingS → RingS) (s : State) : (onRing r f s).mgt.cvu = s.mgt.cvu := rfl
@[simp] theorem onRing_mgt_recorder (r : Nat) (f : RingS → RingS) (s : State) : (onRing r f s).mgt.recorder = s.mgt.recorder := rfl
@[simp] theorem onRing_mgt_cycles (r : Nat) (f : RingS → RingS) (s : State) : (onRing r f s).mgt.cycles = s.mgt.cycles := rfl
@[simp] theorem onRing_mgt_store (r : Nat) (f : RingS → RingS) (s : State) : (onRing r f s).mgt.store = s.mgt.store := rfl
@[simp] theorem onRing_mgt_start (r : Nat) (f : RingS → RingS) (s : State) : (onRing r f s).mgt.start = s.mgt.start := rfl
@[simp] theorem onRing_mgt_bist (r : Nat) (f : RingS → RingS) (s : State) : (onRing r f s).mgt.bist = s.mgt.bist := rfl
@[simp] theorem onRing_mgt_upd (r : Nat) (f : RingS → RingS) (s : State) : (onRing r f s).mgt.upd = s.mgt.upd := rfl
@[simp] theorem onRing_mgt_elec (r : Nat) (f : RingS → RingS) (s : State) : (onRing r f s).mgt.elec = s.mgt.elec := rfl

@[simp] theorem onCvu_variant (u : Nat) (f : Cvu → Cvu) (s : State) : (onCvu u f s).variant = s.variant := rfl
@[simp] theorem onCvu_tscan (u : Nat) (f : Cvu → Cvu) (s : State) : (onCvu u f s).tscan = s.tscan := rfl
@[simp] theorem onCvu_clk (u : Nat) (f : Cvu → Cvu) (s : State) : (onCvu u f s).clk = s.clk := rfl
@[simp] theorem onCvu_ret (u : Nat) (f : Cvu → Cvu) (s : State) : (onCvu u f s).ret = s.ret := rfl
@[simp] theorem onCvu_power (u : Nat) (f : Cvu → Cvu) (s : State) : (onCvu u f s).power = s.power := rfl
@[simp] theorem onCvu_ctl (u : Nat) (f : Cvu → Cvu) (s : State) : (onCvu u f s).ctl = s.ctl := rfl
@[simp] theorem onCvu_data (u : Nat) (f : Cvu → Cvu) (s : State) : (onCvu u f s).data = s.data := rfl
@[simp] theorem onCvu_free (u : Nat) (f : Cvu → Cvu) (s : State) : (onCvu u f s).free = s.free := rfl
@[simp] theorem onCvu_pending (u : Nat) (f : Cvu → Cvu) (s : State) : (onCvu u f s).pending = s.pending := rfl
@[simp] theorem onCvu_mgt_mbx (u : Nat) (f : Cvu → Cvu) (s : State) : (onCvu u f s).mgt.mbx = s.mgt.mbx := rfl
@[simp] theorem onCvu_mgt_exp (u : Nat) (f : Cvu → Cvu) (s : State) : (onCvu u f s).mgt.exp = s.mgt.exp := rfl
@[simp] theorem onCvu_mgt_cvu (u : Nat) (f : Cvu → Cvu) (s : State) : (onCvu u f s).mgt.cvu = smSet Cvu.zero s.mgt.cvu u (f (smGet Cvu.zero s.mgt.cvu u)) := rfl
@[simp] theorem onCvu_mgt_recorder (u : Nat) (f : Cvu → Cvu) (s : State) : (onCvu u f s).mgt.recorder = s.mgt.recorder := rfl
@[simp] theorem onCvu_mgt_cycles (u : Nat) (f : Cvu → Cvu) (s : State) : (onCvu u f s).mgt.cycles = s.mgt.cycles := rfl
@[simp] theorem onCvu_mgt_store (u : Nat) (f : Cvu → Cvu) (s : State) : (onCvu u f s).mgt.store = s.mgt.store := rfl
@[simp] theorem onCvu_mgt_start (u : Nat) (f : Cvu → Cvu) (s : State) : (onCvu u f s).mgt.start = s.mgt.start := rfl
@[simp] theorem onCvu_mgt_bist (u : Nat) (f : Cvu → Cvu) (s : State) : (onCvu u f s).mgt.bist = s.mgt.bist := rfl
@[simp] theorem onCvu_mgt_upd (u : Nat) (f : Cvu → Cvu) (s : State) : (onCvu u f s).mgt.upd = s.mgt.upd := rfl
@[simp] theorem onCvu_mgt_elec (u : Nat) (f : Cvu → Cvu) (s : State) : (onCvu u f s).mgt.elec = s.mgt.elec := rfl

@[simp] theorem onPort_variant (c : Chan) (p : Nat) (f : PortState → PortState) (s : State) : (onPort c p f s).variant = s.variant := rfl
@[simp] theorem onPort_tscan (c : Chan) (p : Nat) (f : PortState → PortState) (s : State) : (onPort c p f s).tscan = s.tscan := rfl
@[simp] theorem onPort_clk (c : Chan) (p : Nat) (f : PortState → PortState) (s : State) : (onPort c p f s).clk = s.clk := rfl
@[simp] theorem onPort_ret (c : Chan) (p : Nat) (f : PortState → PortState) (s : State) : (onPort c p f s).ret = s.ret := rfl
@[simp] theorem onPort_power (c : Chan) (p : Nat) (f : PortState → PortState) (s : State) : (onPort c p f s).power = s.power := rfl
@[simp] theorem onPort_ctl (c : Chan) (p : Nat) (f : PortState → PortState) (s : State) : (onPort c p f s).ctl = s.ctl := rfl
@[simp] theorem onPort_mgt (c : Chan) (p : Nat) (f : PortState → PortState) (s : State) : (onPort c p f s).mgt = s.mgt := rfl
@[simp] theorem onPort_free (c : Chan) (p : Nat) (f : PortState → PortState) (s : State) : (onPort c p f s).free = s.free := rfl
@[simp] theorem onPort_pending (c : Chan) (p : Nat) (f : PortState → PortState) (s : State) : (onPort c p f s).pending = s.pending := rfl
@[simp] theorem onPort_data_cfg (c : Chan) (p : Nat) (f : PortState → PortState) (s : State) : (onPort c p f s).data.cfg = s.data.cfg := rfl
@[simp] theorem onPort_data_stars (c : Chan) (p : Nat) (f : PortState → PortState) (s : State) : (onPort c p f s).data.stars = s.data.stars.set c { s.data.stars.get c with ports := smSet PortState.zero (s.data.stars.get c).ports p (f (smGet PortState.zero (s.data.stars.get c).ports p)) } := rfl
@[simp] theorem onPort_data_aux (c : Chan) (p : Nat) (f : PortState → PortState) (s : State) : (onPort c p f s).data.aux = s.data.aux := rfl
@[simp] theorem onPort_data_nodes (c : Chan) (p : Nat) (f : PortState → PortState) (s : State) : (onPort c p f s).data.nodes = s.data.nodes := rfl
@[simp] theorem onPort_data_sched (c : Chan) (p : Nat) (f : PortState → PortState) (s : State) : (onPort c p f s).data.sched = s.data.sched := rfl
@[simp] theorem onPort_data_time (c : Chan) (p : Nat) (f : PortState → PortState) (s : State) : (onPort c p f s).data.time = s.data.time := rfl
@[simp] theorem onPort_data_net (c : Chan) (p : Nat) (f : PortState → PortState) (s : State) : (onPort c p f s).data.net = s.data.net := rfl

@[simp] theorem onCtl_variant (f : Control → Control) (s : State) : (onCtl f s).variant = s.variant := rfl
@[simp] theorem onCtl_tscan (f : Control → Control) (s : State) : (onCtl f s).tscan = s.tscan := rfl
@[simp] theorem onCtl_clk (f : Control → Control) (s : State) : (onCtl f s).clk = s.clk := rfl
@[simp] theorem onCtl_ret (f : Control → Control) (s : State) : (onCtl f s).ret = s.ret := rfl
@[simp] theorem onCtl_power (f : Control → Control) (s : State) : (onCtl f s).power = s.power := rfl
@[simp] theorem onCtl_ctl (f : Control → Control) (s : State) : (onCtl f s).ctl = f s.ctl := rfl
@[simp] theorem onCtl_data (f : Control → Control) (s : State) : (onCtl f s).data = s.data := rfl
@[simp] theorem onCtl_mgt (f : Control → Control) (s : State) : (onCtl f s).mgt = s.mgt := rfl
@[simp] theorem onCtl_free (f : Control → Control) (s : State) : (onCtl f s).free = s.free := rfl
@[simp] theorem onCtl_pending (f : Control → Control) (s : State) : (onCtl f s).pending = s.pending := rfl

@[simp] theorem onData_variant (f : DataPlane → DataPlane) (s : State) : (onData f s).variant = s.variant := rfl
@[simp] theorem onData_tscan (f : DataPlane → DataPlane) (s : State) : (onData f s).tscan = s.tscan := rfl
@[simp] theorem onData_clk (f : DataPlane → DataPlane) (s : State) : (onData f s).clk = s.clk := rfl
@[simp] theorem onData_ret (f : DataPlane → DataPlane) (s : State) : (onData f s).ret = s.ret := rfl
@[simp] theorem onData_power (f : DataPlane → DataPlane) (s : State) : (onData f s).power = s.power := rfl
@[simp] theorem onData_ctl (f : DataPlane → DataPlane) (s : State) : (onData f s).ctl = s.ctl := rfl
@[simp] theorem onData_data (f : DataPlane → DataPlane) (s : State) : (onData f s).data = f s.data := rfl
@[simp] theorem onData_mgt (f : DataPlane → DataPlane) (s : State) : (onData f s).mgt = s.mgt := rfl
@[simp] theorem onData_free (f : DataPlane → DataPlane) (s : State) : (onData f s).free = s.free := rfl
@[simp] theorem onData_pending (f : DataPlane → DataPlane) (s : State) : (onData f s).pending = s.pending := rfl

@[simp] theorem onMgt_variant (f : Manage → Manage) (s : State) : (onMgt f s).variant = s.variant := rfl
@[simp] theorem onMgt_tscan (f : Manage → Manage) (s : State) : (onMgt f s).tscan = s.tscan := rfl
@[simp] theorem onMgt_clk (f : Manage → Manage) (s : State) : (onMgt f s).clk = s.clk := rfl
@[simp] theorem onMgt_ret (f : Manage → Manage) (s : State) : (onMgt f s).ret = s.ret := rfl
@[simp] theorem onMgt_power (f : Manage → Manage) (s : State) : (onMgt f s).power = s.power := rfl
@[simp] theorem onMgt_ctl (f : Manage → Manage) (s : State) : (onMgt f s).ctl = s.ctl := rfl
@[simp] theorem onMgt_data (f : Manage → Manage) (s : State) : (onMgt f s).data = s.data := rfl
@[simp] theorem onMgt_mgt (f : Manage → Manage) (s : State) : (onMgt f s).mgt = f s.mgt := rfl
@[simp] theorem onMgt_free (f : Manage → Manage) (s : State) : (onMgt f s).free = s.free := rfl
@[simp] theorem onMgt_pending (f : Manage → Manage) (s : State) : (onMgt f s).pending = s.pending := rfl

@[simp] theorem onClk_variant (f : ClockState → ClockState) (s : State) : (onClk f s).variant = s.variant := rfl
@[simp] theorem onClk_tscan (f : ClockState → ClockState) (s : State) : (onClk f s).tscan = s.tscan := rfl
@[simp] theorem onClk_clk (f : ClockState → ClockState) (s : State) : (onClk f s).clk = f s.clk := rfl
@[simp] theorem onClk_ret (f : ClockState → ClockState) (s : State) : (onClk f s).ret = s.ret := rfl
@[simp] theorem onClk_power (f : ClockState → ClockState) (s : State) : (onClk f s).power = s.power := rfl
@[simp] theorem onClk_ctl (f : ClockState → ClockState) (s : State) : (onClk f s).ctl = s.ctl := rfl
@[simp] theorem onClk_data (f : ClockState → ClockState) (s : State) : (onClk f s).data = s.data := rfl
@[simp] theorem onClk_mgt (f : ClockState → ClockState) (s : State) : (onClk f s).mgt = s.mgt := rfl
@[simp] theorem onClk_free (f : ClockState → ClockState) (s : State) : (onClk f s).free = s.free := rfl
@[simp] theorem onClk_pending (f : ClockState → ClockState) (s : State) : (onClk f s).pending = s.pending := rfl

@[simp] theorem onRet_variant (f : RetState → RetState) (s : State) : (onRet f s).variant = s.variant := rfl
@[simp] theorem onRet_tscan (f : RetState → RetState) (s : State) : (onRet f s).tscan = s.tscan := rfl
@[simp] theorem onRet_clk (f : RetState → RetState) (s : State) : (onRet f s).clk = s.clk := rfl
@[simp] theorem onRet_ret (f : RetState → RetState) (s : State) : (onRet f s).ret = f s.ret := rfl
@[simp] theorem onRet_power (f : RetState → RetState) (s : State) : (onRet f s).power = s.power := rfl
@[simp] theorem onRet_ctl (f : RetState → RetState) (s : State) : (onRet f s).ctl = s.ctl := rfl
@[simp] theorem onRet_data (f : RetState → RetState) (s : State) : (onRet f s).data = s.data := rfl
@[simp] theorem onRet_mgt (f : RetState → RetState) (s : State) : (onRet f s).mgt = s.mgt := rfl
@[simp] theorem onRet_free (f : RetState → RetState) (s : State) : (onRet f s).free = s.free := rfl
@[simp] theorem onRet_pending (f : RetState → RetState) (s : State) : (onRet f s).pending = s.pending := rfl

@[simp] theorem onPower_variant (f : PowerState → PowerState) (s : State) : (onPower f s).variant = s.variant := rfl
@[simp] theorem onPower_tscan (f : PowerState → PowerState) (s : State) : (onPower f s).tscan = s.tscan := rfl
@[simp] theorem onPower_clk (f : PowerState → PowerState) (s : State) : (onPower f s).clk = s.clk := rfl
@[simp] theorem onPower_ret (f : PowerState → PowerState) (s : State) : (onPower f s).ret = s.ret := rfl
@[simp] theorem onPower_power (f : PowerState → PowerState) (s : State) : (onPower f s).power = f s.power := rfl
@[simp] theorem onPower_ctl (f : PowerState → PowerState) (s : State) : (onPower f s).ctl = s.ctl := rfl
@[simp] theorem onPower_data (f : PowerState → PowerState) (s : State) : (onPower f s).data = s.data := rfl
@[simp] theorem onPower_mgt (f : PowerState → PowerState) (s : State) : (onPower f s).mgt = s.mgt := rfl
@[simp] theorem onPower_free (f : PowerState → PowerState) (s : State) : (onPower f s).free = s.free := rfl
@[simp] theorem onPower_pending (f : PowerState → PowerState) (s : State) : (onPower f s).pending = s.pending := rfl

@[simp] theorem drawn_variant (s : State) : (drawn s).variant = s.variant := rfl
@[simp] theorem drawn_tscan (s : State) : (drawn s).tscan = s.tscan := rfl
@[simp] theorem drawn_clk (s : State) : (drawn s).clk = s.clk := rfl
@[simp] theorem drawn_ret (s : State) : (drawn s).ret = s.ret := rfl
@[simp] theorem drawn_power (s : State) : (drawn s).power = s.power := rfl
@[simp] theorem drawn_ctl (s : State) : (drawn s).ctl = s.ctl := rfl
@[simp] theorem drawn_data (s : State) : (drawn s).data = s.data := rfl
@[simp] theorem drawn_mgt (s : State) : (drawn s).mgt = s.mgt := rfl
@[simp] theorem drawn_free (s : State) : (drawn s).free = s.free + 1 := rfl
@[simp] theorem drawn_pending (s : State) : (drawn s).pending = s.pending := rfl

end Sys2Proof.Laws
end

