-- ==== Sys2Proof/Laws/Kept.lean ====
section
/-! SUPPORT. Every operation on the state leaves the queue of waiting commands and the product variant as they were. -/

namespace Sys2Proof.Laws

open Sys2Proof Sys2Proof.Machine

@[simp] theorem ite_pending (c : Prop) [Decidable c] (a b : State) : (if c then a else b).pending = if c then a.pending else b.pending := by split <;> rfl
@[simp] theorem ite_variant (c : Prop) [Decidable c] (a b : State) : (if c then a else b).variant = if c then a.variant else b.variant := by split <;> rfl
theorem foldl_keeps {α β : Type} (g : State → β) (f : State → α → State) (h : ∀ s a, g (f s a) = g s) : ∀ (l : List α) (s : State), g (l.foldl f s) = g s := by
  intro l; induction l with
  | nil => intro s; rfl
  | cons a r ih => intro s; rw [List.foldl_cons, ih, h]
@[simp] theorem foldl_pending {α : Type} (f : State → α → State) (h : ∀ s a, (f s a).pending = s.pending) (l : List α) (s : State) : (l.foldl f s).pending = s.pending := foldl_keeps State.pending f h l s
@[simp] theorem foldl_variant {α : Type} (f : State → α → State) (h : ∀ s a, (f s a).variant = s.variant) (l : List α) (s : State) : (l.foldl f s).variant = s.variant := foldl_keeps State.variant f h l s
@[simp] theorem cvuAtCi_kept (s : State) :
    (cvuAtCi s).pending = s.pending ∧ (cvuAtCi s).variant = s.variant := by
  unfold cvuAtCi; simp
@[simp] theorem snoop_kept (p f : Nat) (first last : Bool) (b : List Byte) (s : State) :
    (snoop p f first last b s).pending = s.pending ∧ (snoop p f first last b s).variant = s.variant := by
  unfold snoop; simp
@[simp] theorem itemStored_kept (k : Nat) (s : State) :
    (itemStored k s).pending = s.pending ∧ (itemStored k s).variant = s.variant := by
  unfold itemStored; simp
@[simp] theorem bookDiversity_kept (s : State) :
    (bookDiversity s).pending = s.pending ∧ (bookDiversity s).variant = s.variant := by
  unfold bookDiversity; simp
@[simp] theorem setDom_kept (d : Nat) (x : DomState) (s : State) :
    (setDom d x s).pending = s.pending ∧ (setDom d x s).variant = s.variant := by
  unfold setDom; simp
@[simp] theorem report_kept (r : RecRing) (code source : Nat) (key detail : List Byte) (s : State) :
    (report r code source key detail s).pending = s.pending ∧ (report r code source key detail s).variant = s.variant := by
  unfold report; simp
@[simp] theorem reportSvc_kept (code source : Nat) (key detail : List Byte) (s : State) :
    (reportSvc code source key detail s).pending = s.pending ∧ (reportSvc code source key detail s).variant = s.variant := by
  unfold reportSvc; simp
@[simp] theorem raise_kept (code : Nat) (result : List Byte) (s : State) :
    (raise code result s).pending = s.pending ∧ (raise code result s).variant = s.variant := by
  unfold raise; simp
@[simp] theorem sendVector_kept (v : Nat) (s : State) :
    (sendVector v s).pending = s.pending ∧ (sendVector v s).variant = s.variant := by
  unfold sendVector; simp
@[simp] theorem alert_kept (i : Nat) (s : State) :
    (alert i s).pending = s.pending ∧ (alert i s).variant = s.variant := by
  unfold alert; simp
@[simp] theorem finishRef_kept (c : CmdRef) (st : Status) (est : Nat) (result data : List Byte) (s : State) :
    (finishRef c st est result data s).pending = s.pending ∧ (finishRef c st est result data s).variant = s.variant := by
  unfold finishRef; simp
@[simp] theorem finish_kept (c : CmdHdr) (opcode : Nat) (st : Status) (result data : List Byte) (s : State) :
    (finish c opcode st result data s).pending = s.pending ∧ (finish c opcode st result data s).variant = s.variant := by
  unfold finish; simp
@[simp] theorem faultRecord_kept (l : Lane) (e code further : Nat) (s : State) :
    (faultRecord l e code further s).pending = s.pending ∧ (faultRecord l e code further s).variant = s.variant := by
  unfold faultRecord; simp
@[simp] theorem enginesFault_kept (l : Lane) (fs : List (Nat × Nat)) (s : State) :
    (enginesFault l fs s).pending = s.pending ∧ (enginesFault l fs s).variant = s.variant := by
  unfold enginesFault; constructor <;> (repeat' split) <;> simp
@[simp] theorem judgeBarrier_kept (l : Lane) (s : State) :
    (judgeBarrier l s).pending = s.pending ∧ (judgeBarrier l s).variant = s.variant := by
  unfold judgeBarrier; simp
@[simp] theorem engStep_kept (opc : Nat) (l : Lane) (e : Nat) (h : Hw) (x : EngArg) (s : State) :
    (engStep opc l e h x s).pending = s.pending ∧ (engStep opc l e h x s).variant = s.variant := by
  unfold engStep; dsimp only; constructor <;> (repeat' split) <;> simp [*]
@[simp] theorem allDead_kept (s : State) :
    (allDead s).pending = s.pending ∧ (allDead s).variant = s.variant := by
  unfold allDead; simp
@[simp] theorem seatChange_kept (k : Seat) (kind : Nat) (out inn : Option Lane) (idOut idIn : BitVec 16) (s : State) :
    (seatChange k kind out inn idOut idIn s).pending = s.pending ∧ (seatChange k kind out inn idOut idIn s).variant = s.variant := by
  unfold seatChange; simp
@[simp] theorem onSeat_kept (k : Seat) (f : SeatState → SeatState) (s : State) :
    (onSeat k f s).pending = s.pending ∧ (onSeat k f s).variant = s.variant := by
  unfold onSeat; simp
@[simp] theorem setVote_kept (l : Lane) (x : LaneVote) (s : State) :
    (setVote l x s).pending = s.pending ∧ (setVote l x s).variant = s.variant := by
  unfold setVote; simp
@[simp] theorem belayState_kept (state : Nat) (causes : BitVec 16) (s : State) :
    (belayState state causes s).pending = s.pending ∧ (belayState state causes s).variant = s.variant := by
  unfold belayState; constructor <;> (repeat' split) <;> simp
@[simp] theorem abandonJoin_kept (causes : BitVec 16) (s : State) :
    (abandonJoin causes s).pending = s.pending ∧ (abandonJoin causes s).variant = s.variant := by
  unfold abandonJoin; constructor <;> (repeat' split) <;> simp
@[simp] theorem joinLost_kept (l : Lane) (s : State) :
    (joinLost l s).pending = s.pending ∧ (joinLost l s).variant = s.variant := by
  unfold joinLost; constructor <;> (repeat' split) <;> simp
@[simp] theorem cairnAbandon_kept (check : Nat) (s : State) :
    (cairnAbandon check s).pending = s.pending ∧ (cairnAbandon check s).variant = s.variant := by
  unfold cairnAbandon; simp
@[simp] theorem captureSourceLost_kept (l : Lane) (s : State) :
    (captureSourceLost l s).pending = s.pending ∧ (captureSourceLost l s).variant = s.variant := by
  unfold captureSourceLost; constructor <;> (repeat' split) <;> simp
@[simp] theorem resyncFail_kept (k : Seat) (l : Lane) (code : Nat) (n : Scn) (s : State) :
    (resyncFail k l code n s).pending = s.pending ∧ (resyncFail k l code n s).variant = s.variant := by
  unfold resyncFail; simp
@[simp] theorem laneLeaves_kept (l : Lane) (s : State) :
    (laneLeaves l s).pending = s.pending ∧ (laneLeaves l s).variant = s.variant := by
  unfold laneLeaves; simp
@[simp] theorem abortRef_kept (c : Option CmdRef) (s : State) :
    (abortRef c s).pending = s.pending ∧ (abortRef c s).variant = s.variant := by
  unfold abortRef; constructor <;> (repeat' split) <;> simp
@[simp] theorem olcRecord_kept (kind status w : Nat) (crc : W32) (s : State) :
    (olcRecord kind status w crc s).pending = s.pending ∧ (olcRecord kind status w crc s).variant = s.variant := by
  unfold olcRecord; constructor <;> (repeat' split) <;> simp
@[simp] theorem olcOvertaken_kept (s : State) :
    (olcOvertaken s).pending = s.pending ∧ (olcOvertaken s).variant = s.variant := by
  unfold olcOvertaken; simp
@[simp] theorem forceRecord_kept (id addr : Nat) (old new : Option Force) (cause : Nat) (s : State) :
    (forceRecord id addr old new cause s).pending = s.pending ∧ (forceRecord id addr old new cause s).variant = s.variant := by
  unfold forceRecord; simp
@[simp] theorem forcesOvertaken_kept (s : State) :
    (forcesOvertaken s).pending = s.pending ∧ (forcesOvertaken s).variant = s.variant := by
  unfold forcesOvertaken; simp
@[simp] theorem changeEnds_kept (s : State) :
    (changeEnds s).pending = s.pending ∧ (changeEnds s).variant = s.variant := by
  unfold changeEnds; simp
@[simp] theorem schedOvertaken_kept (s : State) :
    (schedOvertaken s).pending = s.pending ∧ (schedOvertaken s).variant = s.variant := by
  unfold schedOvertaken; constructor <;> (repeat' split) <;> simp
@[simp] theorem rotationEnds_kept (l : Lane) (st : Status) (s : State) :
    (rotationEnds l st s).pending = s.pending ∧ (rotationEnds l st s).variant = s.variant := by
  unfold rotationEnds; simp
@[simp] theorem rotationsAbandoned_kept (s : State) :
    (rotationsAbandoned s).pending = s.pending ∧ (rotationsAbandoned s).variant = s.variant := by
  unfold rotationsAbandoned; constructor <;> (repeat' split) <;> simp
@[simp] theorem debugEnds_kept (s : State) :
    (debugEnds s).pending = s.pending ∧ (debugEnds s).variant = s.variant := by
  unfold debugEnds; simp
@[simp] theorem ctlDown_kept (s : State) :
    (ctlDown s).pending = s.pending ∧ (ctlDown s).variant = s.variant := by
  unfold ctlDown; simp
@[simp] theorem mgtDown_kept (s : State) :
    (mgtDown s).pending = s.pending ∧ (mgtDown s).variant = s.variant := by
  unfold mgtDown; simp
@[simp] theorem followerLost_kept (d : Nat) (s : State) :
    (followerLost d s).pending = s.pending ∧ (followerLost d s).variant = s.variant := by
  unfold followerLost; simp
@[simp] theorem domainLost_kept (d : Nat) (s : State) :
    (domainLost d s).pending = s.pending ∧ (domainLost d s).variant = s.variant := by
  unfold domainLost; constructor <;> (repeat' split) <;> simp
@[simp] theorem holdDomain_kept (d : Nat) (s : State) :
    (holdDomain d s).pending = s.pending ∧ (holdDomain d s).variant = s.variant := by
  unfold holdDomain; constructor <;> (repeat' split) <;> simp
@[simp] theorem attemptEnds_kept (st : Status) (s : State) :
    (attemptEnds st s).pending = s.pending ∧ (attemptEnds st s).variant = s.variant := by
  unfold attemptEnds; simp
@[simp] theorem noteCause_kept (c : Nat) (s : State) :
    (noteCause c s).pending = s.pending ∧ (noteCause c s).variant = s.variant := by
  unfold noteCause; simp
@[simp] theorem countRestart_kept (s : State) :
    (countRestart s).pending = s.pending ∧ (countRestart s).variant = s.variant := by
  unfold countRestart; simp
@[simp] theorem singleChannel_kept (c : Chan) (entry : Bool) (s : State) :
    (singleChannel c entry s).pending = s.pending ∧ (singleChannel c entry s).variant = s.variant := by
  unfold singleChannel; simp
@[simp] theorem singleBegins_kept (r : ResetSrc) (s : State) :
    (singleBegins r s).pending = s.pending ∧ (singleBegins r s).variant = s.variant := by
  unfold singleBegins; constructor <;> (repeat' split) <;> simp
@[simp] theorem rawAssert_kept (r : ResetSrc) (s : State) :
    (rawAssert r s).pending = s.pending ∧ (rawAssert r s).variant = s.variant := by
  unfold rawAssert; simp
@[simp] theorem endWait_kept (s : State) :
    (endWait s).pending = s.pending ∧ (endWait s).variant = s.variant := by
  unfold endWait; simp
@[simp] theorem bankAfterFail_kept (verifies : Bool) (s : State) :
    (bankAfterFail verifies s).pending = s.pending ∧ (bankAfterFail verifies s).variant = s.variant := by
  unfold bankAfterFail; simp
@[simp] theorem startFail_kept (st : Status) (s : State) :
    (startFail st s).pending = s.pending ∧ (startFail st s).variant = s.variant := by
  unfold startFail; simp
@[simp] theorem assertSrc_kept (r : ResetSrc) (cause : Nat) (s : State) :
    (assertSrc r cause s).pending = s.pending ∧ (assertSrc r cause s).variant = s.variant := by
  unfold assertSrc; simp
@[simp] theorem tripSettle_kept (s : State) :
    (tripSettle s).pending = s.pending ∧ (tripSettle s).variant = s.variant := by
  unfold tripSettle; simp
@[simp] theorem tripNow_kept (cause : Nat) (reset : Bool) (s : State) :
    (tripNow cause reset s).pending = s.pending ∧ (tripNow cause reset s).variant = s.variant := by
  unfold tripNow; simp
@[simp] theorem trip_kept (cause : Nat) (reset : Bool) (s : State) :
    (trip cause reset s).pending = s.pending ∧ (trip cause reset s).variant = s.variant := by
  unfold trip; simp
@[simp] theorem tripXY_kept (s : State) :
    (tripXY s).pending = s.pending ∧ (tripXY s).variant = s.variant := by
  unfold tripXY; simp
@[simp] theorem trip2oo2_kept (s : State) :
    (trip2oo2 s).pending = s.pending ∧ (trip2oo2 s).variant = s.variant := by
  unfold trip2oo2; simp
@[simp] theorem tripSeats_kept (s : State) :
    (tripSeats s).pending = s.pending ∧ (tripSeats s).variant = s.variant := by
  unfold tripSeats; simp
@[simp] theorem admWrite_kept (w a v : Nat) (s : State) :
    (admWrite w a v s).pending = s.pending ∧ (admWrite w a v s).variant = s.variant := by
  unfold admWrite; simp
@[simp] theorem raiseVital_kept (s : State) (r : Rec) :
    (raiseVital s r).pending = s.pending ∧ (raiseVital s r).variant = s.variant := by
  unfold raiseVital; constructor <;> (repeat' split) <;> simp
@[simp] theorem commitAll_kept (rs : List Rec) (r : RecRing) (s : State) :
    (commitAll rs r s).pending = s.pending ∧ (commitAll rs r s).variant = s.variant := by
  unfold commitAll; simp
@[simp] theorem commitPage_kept (r : RecRing) (s : State) :
    (commitPage r s).pending = s.pending ∧ (commitPage r s).variant = s.variant := by
  unfold commitPage; simp
@[simp] theorem recorderFlush_kept (s : State) :
    (recorderFlush s).pending = s.pending ∧ (recorderFlush s).variant = s.variant := by
  unfold recorderFlush; simp
@[simp] theorem startFreeze_kept (s : State) :
    (startFreeze s).pending = s.pending ∧ (startFreeze s).variant = s.variant := by
  unfold startFreeze; simp
@[simp] theorem logControl_kept (v : W32) (s : State) :
    (logControl v s).pending = s.pending ∧ (logControl v s).variant = s.variant := by
  unfold logControl; simp
@[simp] theorem ringMessage_kept (key : Nat) (s : State) :
    (ringMessage key s).pending = s.pending ∧ (ringMessage key s).variant = s.variant := by
  unfold ringMessage; dsimp only; constructor <;> (repeat' split) <;> simp [*]
@[simp] theorem onSession_kept (n : Nat) (f : Session → Session) (s : State) :
    (onSession n f s).pending = s.pending ∧ (onSession n f s).variant = s.variant := by
  unfold onSession; simp
@[simp] theorem dsend_kept (n type ring count index : Nat) (body : List Byte) (s : State) :
    (dsend n type ring count index body s).pending = s.pending ∧ (dsend n type ring count index body s).variant = s.variant := by
  unfold dsend; simp
@[simp] theorem sendEntry_kept (key n i : Nat) (s : State) :
    (sendEntry key n i s).pending = s.pending ∧ (sendEntry key n i s).variant = s.variant := by
  unfold sendEntry; dsimp only; constructor <;> (repeat' split) <;> simp [*]
@[simp] theorem writeEntry_kept (key : Nat) (e : Completion) (s : State) :
    (writeEntry key e s).pending = s.pending ∧ (writeEntry key e s).variant = s.variant := by
  unfold writeEntry; dsimp only; constructor <;> (repeat' split) <;> simp [*]
@[simp] theorem destroyRings_kept (owner : Option Nat) (s : State) :
    (destroyRings owner s).pending = s.pending ∧ (destroyRings owner s).variant = s.variant := by
  unfold destroyRings; simp
@[simp] theorem pcieReset_kept (s : State) :
    (pcieReset s).pending = s.pending ∧ (pcieReset s).variant = s.variant := by
  unfold pcieReset; simp
@[simp] theorem closeSession_kept (n cause : Nat) (s : State) :
    (closeSession n cause s).pending = s.pending ∧ (closeSession n cause s).variant = s.variant := by
  unfold closeSession; simp
@[simp] theorem bothReset_kept (s : State) :
    (bothReset s).pending = s.pending ∧ (bothReset s).variant = s.variant := by
  unfold bothReset; simp
@[simp] theorem mbxEnableWrite_kept (s : State) :
    (mbxEnableWrite s).pending = s.pending ∧ (mbxEnableWrite s).variant = s.variant := by
  unfold mbxEnableWrite; dsimp only; constructor <;> (repeat' split) <;> simp [*]
@[simp] theorem pumpOverflow_kept (key : Nat) (s : State) :
    (pumpOverflow key s).pending = s.pending ∧ (pumpOverflow key s).variant = s.variant := by
  unfold pumpOverflow; simp
@[simp] theorem streamOne_kept (key : Nat) (s : State) :
    (streamOne key s).pending = s.pending ∧ (streamOne key s).variant = s.variant := by
  unfold streamOne; dsimp only; constructor <;> (repeat' split) <;> simp [*]
@[simp] theorem streamPump_kept (n key : Nat) (s : State) :
    (streamPump n key s).pending = s.pending ∧ (streamPump n key s).variant = s.variant := by
  induction n generalizing s with
  | zero => exact ⟨rfl, rfl⟩
  | succ n ih => unfold streamPump; simp [ih]
@[simp] theorem streamsTake_kept (n : Nat) (s : State) :
    (streamsTake n s).pending = s.pending ∧ (streamsTake n s).variant = s.variant :=
  ⟨foldl_keeps State.pending _ (fun s p => (streamPump_kept n _ s).1) _ _, foldl_keeps State.variant _ (fun s p => (streamPump_kept n _ s).2) _ _⟩
@[simp] theorem streamsPump_kept (s : State) : (streamsPump s).pending = s.pending ∧ (streamsPump s).variant = s.variant := streamsTake_kept streamBatch s
@[simp] theorem consume_kept (key i : Nat) (s : State) :
    (consume key i s).pending = s.pending ∧ (consume key i s).variant = s.variant := by
  unfold consume; simp
@[simp] theorem doorbellWrite_kept (r i : Nat) (s : State) :
    (doorbellWrite r i s).pending = s.pending ∧ (doorbellWrite r i s).variant = s.variant := by
  unfold doorbellWrite; simp
@[simp] theorem snoopEntry_kept (session : Option Nat) (r : Nat) (e : Completion) (s : State) :
    (snoopEntry session r e s).pending = s.pending ∧ (snoopEntry session r e s).variant = s.variant := by
  unfold snoopEntry; simp
@[simp] theorem postEvent_kept (e : EventMsg) (s : State) (key : Nat) :
    (postEvent e s key).pending = s.pending ∧ (postEvent e s key).variant = s.variant := by
  unfold postEvent; simp
@[simp] theorem heard_kept (n : Nat) (s : State) :
    (heard n s).pending = s.pending ∧ (heard n s).variant = s.variant := by
  unfold heard; simp
theorem ite_kept (c : Prop) [Decidable c] (a b s : State) (ha : a.pending = s.pending ∧ a.variant = s.variant)
    (hb : b.pending = s.pending ∧ b.variant = s.variant) :
    (if c then a else b).pending = s.pending ∧ (if c then a else b).variant = s.variant := by split <;> assumption
@[simp] theorem giveForces_kept (l : Lane) (s : State) :
    (giveForces l s).pending = s.pending ∧ (giveForces l s).variant = s.variant :=
  ite_kept _ _ _ s ⟨rfl, rfl⟩ (tripXY_kept s)
@[simp] theorem sourceLeaves_kept (k : Seat) (s0 s : State) :
    (sourceLeaves k s0 s).pending = s.pending ∧ (sourceLeaves k s0 s).variant = s.variant := by
  unfold sourceLeaves; try dsimp only
  constructor <;> (repeat' split) <;> first | rfl | (simp; done) | exact (foldl_keeps State.pending _ (by intro s a; (try dsimp only); (repeat' split) <;> simp) _ _).trans (by simp) | exact (foldl_keeps State.variant _ (by intro s a; (try dsimp only); (repeat' split) <;> simp) _ _).trans (by simp)
@[simp] theorem revokeSeat_kept (k : Seat) (mode : SeatMode) (openFor : Option Lane) (s : State) :
    (revokeSeat k mode openFor s).pending = s.pending ∧ (revokeSeat k mode openFor s).variant = s.variant := by
  unfold revokeSeat; dsimp only
  constructor <;> (repeat' split) <;> simp
@[simp] theorem startTakeover_kept (k : Seat) (s : State) :
    (startTakeover k s).pending = s.pending ∧ (startTakeover k s).variant = s.variant := by
  unfold startTakeover; constructor <;> (repeat' split) <;> simp
@[simp] theorem seatVacated_kept (k : Seat) (s : State) :
    (seatVacated k s).pending = s.pending ∧ (seatVacated k s).variant = s.variant := by
  unfold seatVacated; constructor <;> (repeat' split) <;> simp
@[simp] theorem leaveOdd_kept (k : Seat) (l : Lane) (s : State) :
    (leaveOdd k l s).pending = s.pending ∧ (leaveOdd k l s).variant = s.variant := by
  unfold leaveOdd; simp
@[simp] theorem leaveWithdrawn_kept (k : Seat) (l : Lane) (s : State) :
    (leaveWithdrawn k l s).pending = s.pending ∧ (leaveWithdrawn k l s).variant = s.variant := by
  unfold leaveWithdrawn; simp
@[simp] theorem emitted_kept (h : Half) (l : Lane) (s : State) :
    (emitted h l s).pending = s.pending ∧ (emitted h l s).variant = s.variant := by
  unfold emitted; simp
@[simp] theorem onHalf_kept (h : Half) (f : HalfVote → HalfVote) (s : State) :
    (onHalf h f s).pending = s.pending ∧ (onHalf h f s).variant = s.variant := by
  unfold onHalf; simp
@[simp] theorem onWord_kept (h : Half) (w : Nat) (f : WordVote → WordVote) (s : State) :
    (onWord h w f s).pending = s.pending ∧ (onWord h w f s).variant = s.variant := by
  unfold onWord; simp
@[simp] theorem voteWord_kept (h : Half) (w : Nat) (s : State) :
    (voteWord h w s).pending = s.pending ∧ (voteWord h w s).variant = s.variant := by
  unfold voteWord; dsimp only; constructor <;> (repeat' split) <;> simp [*]
@[simp] theorem laneJudged_kept (l : Lane) (seat cause code word before after : Nat) (voted odd : W64) (s : State) :
    (laneJudged l seat cause code word before after voted odd s).pending = s.pending ∧ (laneJudged l seat cause code word before after voted odd s).variant = s.variant := by
  unfold laneJudged; simp
@[simp] theorem judgeOut_kept (w : Nat) (k : Seat) (j : Judgement) (s : State) :
    (judgeOut w k j s).pending = s.pending ∧ (judgeOut w k j s).variant = s.variant := by
  unfold judgeOut; constructor <;> (repeat' split) <;> simp
@[simp] theorem deliver_kept (w : Nat) (v : W64) (s : State) :
    (deliver w v s).pending = s.pending ∧ (deliver w v s).variant = s.variant := by
  unfold deliver; simp
@[simp] theorem snoopWord_kept (w : Nat) (v : W64) (s : State) :
    (snoopWord w v s).pending = s.pending ∧ (snoopWord w v s).variant = s.variant := by
  unfold snoopWord; simp
@[simp] theorem exchangeSeat_kept (w : Nat) (s : State) (k : Seat) :
    (exchangeSeat w s k).pending = s.pending ∧ (exchangeSeat w s k).variant = s.variant := by
  unfold exchangeSeat; dsimp only; constructor <;> (repeat' split) <;> simp [*]
@[simp] theorem captureStart_kept (s : State) :
    (captureStart s).pending = s.pending ∧ (captureStart s).variant = s.variant := by
  unfold captureStart; dsimp only; split
  · exact ⟨rfl, rfl⟩
  · exact ⟨foldl_keeps State.pending _ (fun s m => onLane_pending _ _ s) _ _, foldl_keeps State.variant _ (fun s m => onLane_variant _ _ s) _ _⟩
@[simp] theorem xyWord_kept (w : Nat) (s : State) :
    (xyWord w s).pending = s.pending ∧ (xyWord w s).variant = s.variant := by
  unfold xyWord; constructor <;> (repeat' split) <;> simp
@[simp] theorem settleWord_kept (h : Half) (w : Nat) (s : State) :
    (settleWord h w s).pending = s.pending ∧ (settleWord h w s).variant = s.variant := by
  unfold settleWord; simp
@[simp] theorem atComparator_kept (h : Half) (k : Seat) (w : Nat) (v : VoteVal) (s : State) :
    (atComparator h k w v s).2.pending = s.pending ∧ (atComparator h k w v s).2.variant = s.variant := by
  unfold atComparator; dsimp only; constructor <;> (repeat' split) <;> simp
@[simp] theorem placeRecord_kept (h : Half) (k : Seat) (w : Nat) (v : VoteVal) (s : State) :
    (placeRecord h k w v s).pending = s.pending ∧ (placeRecord h k w v s).variant = s.variant := by
  unfold placeRecord; simp
@[simp] theorem placeShadow_kept (h : Half) (l : Lane) (w : Nat) (ok : Bool) (v : W64) (s : State) :
    (placeShadow h l w ok v s).pending = s.pending ∧ (placeShadow h l w ok v s).variant = s.variant := by
  unfold placeShadow; simp
@[simp] theorem dueNext_kept (h : Half) (l : Lane) (s : State) :
    (dueNext h l s).pending = s.pending ∧ (dueNext h l s).variant = s.variant := by
  unfold dueNext; simp
@[simp] theorem withdrawAfter_kept (h : Half) (k : Seat) (w : Nat) (s : State) :
    (withdrawAfter h k w s).pending = s.pending ∧ (withdrawAfter h k w s).variant = s.variant := by
  unfold withdrawAfter; simp
@[simp] theorem takeRecord_kept (h : Half) (l : Lane) (r : CommitRec) (s : State) :
    (takeRecord h l r s).pending = s.pending ∧ (takeRecord h l r s).variant = s.variant := by
  unfold takeRecord; constructor <;> (repeat' split) <;> simp
@[simp] theorem acceptRecord_kept (h : Half) (l : Lane) (r : CommitRec) (parityOk : Bool) (s : State) :
    (acceptRecord h l r parityOk s).pending = s.pending ∧ (acceptRecord h l r parityOk s).variant = s.variant := by
  unfold acceptRecord; simp
@[simp] theorem snoopRecord_kept (h : Half) (l : Lane) (r : CommitRec) (s : State) :
    (snoopRecord h l r s).pending = s.pending ∧ (snoopRecord h l r s).variant = s.variant := by
  unfold snoopRecord; simp
@[simp] theorem overrunRecord_kept (coinciding : BitVec 16) (s : State) :
    (overrunRecord coinciding s).pending = s.pending ∧ (overrunRecord coinciding s).variant = s.variant := by
  unfold overrunRecord; simp
@[simp] theorem onTables_kept (f : SMap Force → SMap Force) (s : State) :
    (onTables f s).pending = s.pending ∧ (onTables f s).variant = s.variant := by
  unfold onTables; simp
@[simp] theorem removeForces_kept (sel : Nat → Force → Bool) (cause : Nat) (s : State) :
    (removeForces sel cause s).pending = s.pending ∧ (removeForces sel cause s).variant = s.variant := by
  unfold removeForces; simp
@[simp] theorem pAnyRemoval_kept (s : State) :
    (pAnyRemoval s).pending = s.pending ∧ (pAnyRemoval s).variant = s.variant := by
  unfold pAnyRemoval; simp
@[simp] theorem forceAct_kept (a b : Nat) (v : BitVec 16) (s : State) :
    (forceAct a b v s).1.pending = s.pending ∧ (forceAct a b v s).1.variant = s.variant := by
  unfold forceAct; dsimp only; constructor <;> (repeat' split) <;> simp
@[simp] theorem slotAct_kept (s : State) (j : Nat) :
    (slotAct s j).pending = s.pending ∧ (slotAct s j).variant = s.variant := by
  unfold slotAct; dsimp only
  split
  · exact ⟨by simp, by simp⟩
  · exact ⟨by simp, by simp⟩
@[simp] theorem forceLatch_kept (s : State) :
    (forceLatch s).pending = s.pending ∧ (forceLatch s).variant = s.variant := by
  unfold forceLatch; simp
@[simp] theorem fillSlot_kept (s : State) :
    (fillSlot s).pending = s.pending ∧ (fillSlot s).variant = s.variant := by
  unfold fillSlot; constructor <;> (repeat' split) <;> simp
@[simp] theorem fillSlots_kept (s : State) :
    (fillSlots s).pending = s.pending ∧ (fillSlots s).variant = s.variant := by
  unfold fillSlots; simp
@[simp] theorem enqueueForce_kept (c : CmdRef) (fop id : Nat) (v : BitVec 16) (s : State) :
    (enqueueForce c fop id v s).pending = s.pending ∧ (enqueueForce c fop id v s).variant = s.variant := by
  unfold enqueueForce; simp
@[simp] theorem storeForce_kept (id : Nat) (v : BitVec 16) (s : State) :
    (storeForce id v s).pending = s.pending ∧ (storeForce id v s).variant = s.variant := by
  unfold storeForce; constructor <;> (repeat' split) <;> simp
@[simp] theorem syncStore_kept (t : SMap Force) (s : State) :
    (syncStore t s).pending = s.pending ∧ (syncStore t s).variant = s.variant := by
  unfold syncStore; simp
@[simp] theorem completeForces_kept (shown : Scn) (s : State) :
    (completeForces shown s).pending = s.pending ∧ (completeForces shown s).variant = s.variant := by
  unfold completeForces; dsimp only; constructor <;> (repeat' split) <;> simp (disch := (intros; (repeat' split) <;> simp))
@[simp] theorem carryForces_kept (old new : Image) (s : State) :
    (carryForces old new s).pending = s.pending ∧ (carryForces old new s).variant = s.variant := by
  unfold carryForces; simp
@[simp] theorem storedSurvive_kept (i : Image) (service : Bool) (s : State) :
    (storedSurvive i service s).pending = s.pending ∧ (storedSurvive i service s).variant = s.variant := by
  unfold storedSurvive; simp
@[simp] theorem storeBack_kept (id : Nat) (s : State) :
    (storeBack id s).pending = s.pending ∧ (storeBack id s).variant = s.variant := by
  unfold storeBack; constructor <;> (repeat' split) <;> simp
@[simp] theorem finishSwap_kept (st : Status) (result : List Byte) (s : State) :
    (finishSwap st result s).pending = s.pending ∧ (finishSwap st result s).variant = s.variant := by
  unfold finishSwap; constructor <;> (repeat' split) <;> simp
@[simp] theorem finishCancel_kept (st : Status) (result : List Byte) (s : State) :
    (finishCancel st result s).pending = s.pending ∧ (finishCancel st result s).variant = s.variant := by
  unfold finishCancel; constructor <;> (repeat' split) <;> simp
@[simp] theorem finishLoad_kept (st : Status) (result : List Byte) (s : State) :
    (finishLoad st result s).pending = s.pending ∧ (finishLoad st result s).variant = s.variant := by
  unfold finishLoad; constructor <;> (repeat' split) <;> simp
@[simp] theorem olcIdle_kept (s : State) :
    (olcIdle s).pending = s.pending ∧ (olcIdle s).variant = s.variant := by
  unfold olcIdle; simp
@[simp] theorem oseqAct_kept (s : State) :
    (oseqAct s).pending = s.pending ∧ (oseqAct s).variant = s.variant := by
  unfold oseqAct; dsimp only; constructor <;> (repeat' split) <;> simp [*]
@[simp] theorem swapNow_kept (old new : Image) (s : State) :
    (swapNow old new s).pending = s.pending ∧ (swapNow old new s).variant = s.variant := by
  unfold swapNow; dsimp only
  simp only [onForce_pending, onForce_variant, onOlc_pending, onOlc_variant, onVoter_pending, onVoter_variant]
  have k : ∀ (s : State) (e : MapEntry), (match entityOf old e.id with | some x => olcRecord 8 x.cls e.id new.hdrCrc s | none => s).pending = s.pending ∧
      (match entityOf old e.id with | some x => olcRecord 8 x.cls e.id new.hdrCrc s | none => s).variant = s.variant := by
    intro s e; split <;> simp
  exact ⟨(foldl_keeps State.pending _ (fun s l => onLane_pending _ _ s) _ _).trans ((carryForces_kept _ _ _).1.trans
      (foldl_keeps State.pending _ (fun s e => (k s e).1) _ _)),
    (foldl_keeps State.variant _ (fun s l => onLane_variant _ _ s) _ _).trans ((carryForces_kept _ _ _).2.trans
      (foldl_keeps State.variant _ (fun s e => (k s e).2) _ _))⟩
@[simp] theorem swapBoundary_kept (s : State) :
    (swapBoundary s).pending = s.pending ∧ (swapBoundary s).variant = s.variant := by
  unfold swapBoundary atScan; dsimp only
  constructor <;> (repeat' split) <;> simp
@[simp] theorem dissentRecord_kept (kind mask : Nat) (st : Status) (crc : Nat) (s : State) :
    (dissentRecord kind mask st crc s).pending = s.pending ∧ (dissentRecord kind mask st crc s).variant = s.variant := by
  unfold dissentRecord; simp
@[simp] theorem noteCertificate_kept (b : List Byte) (r : Except Status Image) (s : State) :
    (noteCertificate b r s).pending = s.pending ∧ (noteCertificate b r s).variant = s.variant := by
  unfold noteCertificate; simp
@[simp] theorem stagingFails_kept (st : Status) (s : State) :
    (stagingFails st s).pending = s.pending ∧ (stagingFails st s).variant = s.variant := by
  unfold stagingFails; simp
@[simp] theorem changeCheck_kept (s : State) (b : List Byte) :
    (changeCheck s b).1.pending = s.pending ∧ (changeCheck s b).1.variant = s.variant := by
  unfold changeCheck; dsimp only; constructor <;> (repeat' split) <;> simp
@[simp] theorem stagingVerdict_kept (s : State) :
    (stagingVerdict s).pending = s.pending ∧ (stagingVerdict s).variant = s.variant := by
  unfold stagingVerdict; dsimp only; constructor <;> (repeat' split) <;> simp [*]
@[simp] theorem stageLane_kept (l : Lane) (i : Image) (s : State) :
    (stageLane l i s).pending = s.pending ∧ (stageLane l i s).variant = s.variant := by
  unfold stageLane; simp
@[simp] theorem dropLoad_kept (s : State) :
    (dropLoad s).pending = s.pending ∧ (dropLoad s).variant = s.variant := by
  unfold dropLoad; simp
@[simp] theorem notCarried_kept (i : Image) (s : State) :
    (notCarried i s).pending = s.pending ∧ (notCarried i s).variant = s.variant := by
  unfold notCarried; simp
@[simp] theorem writeOseq_kept (oop : Nat) (w : Scn) (s : State) :
    (writeOseq oop w s).pending = s.pending ∧ (writeOseq oop w s).variant = s.variant := by
  unfold writeOseq; simp
@[simp] theorem schedEvent_kept (t : Nat) (st : Status) (m : Scn) (s : State) :
    (schedEvent t st m s).pending = s.pending ∧ (schedEvent t st m s).variant = s.variant := by
  unfold schedEvent; simp
@[simp] theorem laneDecides_kept (s : State) (l : Lane) :
    (laneDecides s l).pending = s.pending ∧ (laneDecides s l).variant = s.variant := by
  unfold laneDecides; simp
@[simp] theorem schedAbort_kept (c : SchedChange) (a : Scn) (s : State) :
    (schedAbort c a s).pending = s.pending ∧ (schedAbort c a s).variant = s.variant := by
  unfold schedAbort; simp
@[simp] theorem mergeRecords_kept (l : Lane) (s : State) :
    (mergeRecords l s).pending = s.pending ∧ (mergeRecords l s).variant = s.variant := by
  unfold mergeRecords; try dsimp only
  constructor <;> (repeat' split) <;> first | rfl | (simp; done) | exact (foldl_keeps State.pending _ (by intro s a; (try dsimp only); (repeat' split) <;> simp) _ _).trans (by simp) | exact (foldl_keeps State.variant _ (by intro s a; (try dsimp only); (repeat' split) <;> simp) _ _).trans (by simp)
@[simp] theorem sealRecord_kept (kind : Nat) (s : State) :
    (sealRecord kind s).pending = s.pending ∧ (sealRecord kind s).variant = s.variant := by
  unfold sealRecord; simp
@[simp] theorem judgeBank_kept (s : State) :
    (judgeBank s).pending = s.pending ∧ (judgeBank s).variant = s.variant := by
  unfold judgeBank; simp
@[simp] theorem firstRelease_kept (s : State) :
    (firstRelease s).pending = s.pending ∧ (firstRelease s).variant = s.variant := by
  unfold firstRelease; dsimp only; constructor <;> (repeat' split) <;> simp [*]
@[simp] theorem comparatorRecord_kept (s : State) :
    (comparatorRecord s).pending = s.pending ∧ (comparatorRecord s).variant = s.variant := by
  unfold comparatorRecord; constructor <;> (repeat' split) <;> simp
@[simp] theorem grantSeat_kept (k : Seat) (l : Lane) (s : State) :
    (grantSeat k l s).pending = s.pending ∧ (grantSeat k l s).variant = s.variant := by
  unfold grantSeat; simp
@[simp] theorem endSilent_kept (s : State) :
    (endSilent s).pending = s.pending ∧ (endSilent s).variant = s.variant := by
  unfold endSilent; simp
@[simp] theorem silentRelease_kept (s : State) :
    (silentRelease s).pending = s.pending ∧ (silentRelease s).variant = s.variant := by
  unfold silentRelease; simp
@[simp] theorem starReports_kept (s : State) :
    (starReports s).pending = s.pending ∧ (starReports s).variant = s.variant := by
  unfold starReports; dsimp only; constructor <;> (repeat' split) <;> simp (disch := (intros; (repeat' split) <;> simp))
@[simp] theorem openSeat_kept (s : State) (k : Seat) :
    (openSeat s k).pending = s.pending ∧ (openSeat s k).variant = s.variant := by
  unfold openSeat; dsimp only; constructor <;> (repeat' split) <;> simp [*]
@[simp] theorem standing_kept (s : State) (k : Seat) :
    (standing s k).pending = s.pending ∧ (standing s k).variant = s.variant := by
  unfold standing; constructor <;> (repeat' split) <;> simp
@[simp] theorem debugHalt_kept (s : State) :
    (debugHalt s).pending = s.pending ∧ (debugHalt s).variant = s.variant := by
  unfold debugHalt; dsimp only; constructor <;> (repeat' split) <;> simp [*]
@[simp] theorem completeHandover_kept (k : Seat) (j : Join) (s : State) :
    (completeHandover k j s).pending = s.pending ∧ (completeHandover k j s).variant = s.variant := by
  unfold completeHandover; dsimp only; constructor <;> (repeat' split) <;> simp [*]
@[simp] theorem leaseEnds_kept (k : Seat) (s : State) :
    (leaseEnds k s).pending = s.pending ∧ (leaseEnds k s).variant = s.variant := by
  unfold leaseEnds; simp
@[simp] theorem joinBarrier_kept (j : Join) (s : State) :
    (joinBarrier j s).pending = s.pending ∧ (joinBarrier j s).variant = s.variant := by
  unfold joinBarrier; simp only [onVoter_pending, onVoter_variant]
  split
  · exact ite_kept _ _ _ s ⟨rfl, rfl⟩ (giveForces_kept _ s)
  · exact ⟨rfl, rfl⟩
@[simp] theorem joinStep_kept (s : State) :
    (joinStep s).pending = s.pending ∧ (joinStep s).variant = s.variant := by
  unfold joinStep; dsimp only; constructor <;> (repeat' split) <;> simp [*]
@[simp] theorem releaseHome_kept (s : State) :
    (releaseHome s).pending = s.pending ∧ (releaseHome s).variant = s.variant := by
  unfold releaseHome; constructor <;> (repeat' split) <;> simp
@[simp] theorem startPlanned_kept (s : State) :
    (startPlanned s).pending = s.pending ∧ (startPlanned s).variant = s.variant := by
  unfold startPlanned; constructor <;> (repeat' split) <;> simp
@[simp] theorem retryTakeover_kept (s : State) :
    (retryTakeover s).pending = s.pending ∧ (retryTakeover s).variant = s.variant := by
  unfold retryTakeover; simp
@[simp] theorem renew_kept (s : State) (k : Seat) :
    (renew s k).pending = s.pending ∧ (renew s k).variant = s.variant := by
  unfold renew; constructor <;> (repeat' split) <;> simp
@[simp] theorem diversityStep_kept (s : State) :
    (diversityStep s).pending = s.pending ∧ (diversityStep s).variant = s.variant := by
  unfold diversityStep; simp
@[simp] theorem votedRelease_kept (s : State) :
    (votedRelease s).pending = s.pending ∧ (votedRelease s).variant = s.variant := by
  unfold votedRelease; simp
@[simp] theorem changeReaches_kept (s : State) (l : Lane) :
    (changeReaches s l).pending = s.pending ∧ (changeReaches s l).variant = s.variant := by
  unfold changeReaches; constructor <;> (repeat' split) <;> simp
@[simp] theorem requests_kept (s : State) :
    (requests s).pending = s.pending ∧ (requests s).variant = s.variant := by
  unfold requests; simp
@[simp] theorem mergeNoted_kept (runners : List Lane) (s : State) :
    (mergeNoted runners s).pending = s.pending ∧ (mergeNoted runners s).variant = s.variant := by
  unfold mergeNoted; constructor <;> (repeat' split) <;> simp
@[simp] theorem latchAll_kept (cost : Nat) (runners : List Lane) (s : State) :
    (latchAll cost runners s).pending = s.pending ∧ (latchAll cost runners s).variant = s.variant :=
  ⟨foldl_keeps State.pending _ (fun s l => onLane_pending _ _ _) _ _, foldl_keeps State.variant _ (fun s l => onLane_variant _ _ _) _ _⟩
@[simp] theorem haltedPiece_kept (s : State) :
    (haltedPiece s).pending = s.pending ∧ (haltedPiece s).variant = s.variant := by
  unfold haltedPiece; constructor <;> (repeat' split) <;> simp
@[simp] theorem pieceDone_kept (s : State) :
    (pieceDone s).pending = s.pending ∧ (pieceDone s).variant = s.variant := by
  unfold pieceDone; constructor <;> (repeat' split) <;> simp
@[simp] theorem noteBefore_kept (s : State) :
    (noteBefore s).pending = s.pending ∧ (noteBefore s).variant = s.variant := by
  unfold noteBefore; simp
@[simp] theorem launch_kept (s : State) :
    (launch s).pending = s.pending ∧ (launch s).variant = s.variant := by
  unfold launch; simp
@[simp] theorem releaseScan_kept (s : State) :
    (releaseScan s).pending = s.pending ∧ (releaseScan s).variant = s.variant := by
  unfold releaseScan; dsimp only; constructor <;> (repeat' split) <;> simp [*]
@[simp] theorem debugResume_kept (s : State) :
    (debugResume s).pending = s.pending ∧ (debugResume s).variant = s.variant := by
  unfold debugResume; constructor <;> (repeat' split) <;> simp
@[simp] theorem debugDetach_kept (s : State) :
    (debugDetach s).pending = s.pending ∧ (debugDetach s).variant = s.variant := by
  unfold debugDetach; simp
@[simp] theorem debugSwitches_kept (s : State) :
    (debugSwitches s).pending = s.pending ∧ (debugSwitches s).variant = s.variant := by
  unfold debugSwitches; simp
@[simp] theorem onVout_kept (k : Nat) (f : VoutState → VoutState) (s : State) :
    (onVout k f s).pending = s.pending ∧ (onVout k f s).variant = s.variant := by
  unfold onVout; simp
@[simp] theorem vinChange_kept (c : Nat) (f : VinState → VinState) (s : State) :
    (vinChange c f s).pending = s.pending ∧ (vinChange c f s).variant = s.variant := by
  unfold vinChange; simp
@[simp] theorem vinFaultRecord_kept (c : Nat) (b entered : Bool) (s : State) :
    (vinFaultRecord c b entered s).pending = s.pending ∧ (vinFaultRecord c b entered s).variant = s.variant := by
  unfold vinFaultRecord; simp
@[simp] theorem voutFailedRecord_kept (k cause : Nat) (s : State) :
    (voutFailedRecord k cause s).pending = s.pending ∧ (voutFailedRecord k cause s).variant = s.variant := by
  unfold voutFailedRecord; simp
@[simp] theorem failVout_kept (k cause : Nat) (s : State) :
    (failVout k cause s).pending = s.pending ∧ (failVout k cause s).variant = s.variant := by
  unfold failVout; simp
@[simp] theorem loadReading_kept (s : State) (p : Nat × Nat) :
    (loadReading s p).pending = s.pending ∧ (loadReading s p).variant = s.variant := by
  unfold loadReading; simp
@[simp] theorem applyWord_kept (m : Means) (word : W64) (s : State) :
    (applyWord m word s).pending = s.pending ∧ (applyWord m word s).variant = s.variant := by
  unfold applyWord; simp
@[simp] theorem voutApply_kept (m : Means) (n : Scn) (s : State) :
    (voutApply m n s).pending = s.pending ∧ (voutApply m n s).variant = s.variant := by
  unfold voutApply; constructor <;> (repeat' split) <;> simp
@[simp] theorem trackDiff_kept (s : State) :
    (trackDiff s).pending = s.pending ∧ (trackDiff s).variant = s.variant := by
  unfold trackDiff; simp
@[simp] theorem judgeDiff_kept (s : State) :
    (judgeDiff s).pending = s.pending ∧ (judgeDiff s).variant = s.variant := by
  unfold judgeDiff; simp
@[simp] theorem vfRecord_kept (entered : Bool) (v : BitVec 16) (s : State) :
    (vfRecord entered v s).pending = s.pending ∧ (vfRecord entered v s).variant = s.variant := by
  unfold vfRecord; simp
@[simp] theorem takeReady_kept (h : Half) (l : Lane) (r : ReadyWord) (s : State) :
    (takeReady h l r s).pending = s.pending ∧ (takeReady h l r s).variant = s.variant := by
  unfold takeReady; dsimp only; constructor <;> (repeat' split) <;> simp [*]
@[simp] theorem firstShadow_kept (src l : Lane) (s : State) :
    (firstShadow src l s).pending = s.pending ∧ (firstShadow src l s).variant = s.variant := by
  unfold firstShadow; simp
@[simp] theorem takeReport_kept (r : BelayReport) (s : State) :
    (takeReport r s).pending = s.pending ∧ (takeReport r s).variant = s.variant := by
  unfold takeReport; dsimp only; constructor <;> (repeat' split) <;> simp [*]
@[simp] theorem diversityRecord_kept (kind : Nat) (s : State) :
    (diversityRecord kind s).pending = s.pending ∧ (diversityRecord kind s).variant = s.variant := by
  unfold diversityRecord; simp
@[simp] theorem diversityExpiry_kept (s : State) :
    (diversityExpiry s).pending = s.pending ∧ (diversityExpiry s).variant = s.variant := by
  unfold diversityExpiry; simp
@[simp] theorem onFollower_kept (f : Follower) (g : FollowerState → FollowerState) (s : State) :
    (onFollower f g s).pending = s.pending ∧ (onFollower f g s).variant = s.variant := by
  unfold onFollower; simp
@[simp] theorem passInstant_kept (f : Follower) (net xm : Option Int) (s : State) :
    (passInstant f net xm s).pending = s.pending ∧ (passInstant f net xm s).variant = s.variant := by
  unfold passInstant; simp
@[simp] theorem coldNotice_kept (ch : Chan) (s : State) :
    (coldNotice ch s).pending = s.pending ∧ (coldNotice ch s).variant = s.variant := by
  unfold coldNotice; try dsimp only
  constructor <;> (repeat' split) <;> first | rfl | (simp; done) | exact (foldl_keeps State.pending _ (by intro s a; (try dsimp only); (repeat' split) <;> simp) _ _).trans (by simp) | exact (foldl_keeps State.variant _ (by intro s a; (try dsimp only); (repeat' split) <;> simp) _ _).trans (by simp)
@[simp] theorem firstBeacon_kept (ch : Chan) (s : State) :
    (firstBeacon ch s).pending = s.pending ∧ (firstBeacon ch s).variant = s.variant := by
  unfold firstBeacon; constructor <;> (repeat' split) <;> simp
@[simp] theorem pulseStep_kept (s : State) :
    (pulseStep s).pending = s.pending ∧ (pulseStep s).variant = s.variant := by
  unfold pulseStep; simp
@[simp] theorem snapDone_kept (n : Scn) (s : State) :
    (snapDone n s).pending = s.pending ∧ (snapDone n s).variant = s.variant := by
  unfold snapDone; simp
@[simp] theorem reportLane_kept (ch : Chan) (code : Nat) (l : Lane) (s : State) :
    (reportLane ch code l s).pending = s.pending ∧ (reportLane ch code l s).variant = s.variant := by
  unfold reportLane; simp
@[simp] theorem leaderPasses_kept (ch : Chan) (r : SyncRec) (rs : List SyncRec) (s : State) :
    (leaderPasses ch r rs s).pending = s.pending ∧ (leaderPasses ch r rs s).variant = s.variant := by
  unfold leaderPasses; dsimp only; constructor <;> (repeat' split) <;> simp [*]
@[simp] theorem syncDisagree_kept (ch : Chan) (s : State) :
    (syncDisagree ch s).pending = s.pending ∧ (syncDisagree ch s).variant = s.variant := by
  unfold syncDisagree; simp
@[simp] theorem decideSync_kept (ch : Chan) (rs : List SyncRec) (s : State) :
    (decideSync ch rs s).pending = s.pending ∧ (decideSync ch rs s).variant = s.variant := by
  unfold decideSync; dsimp only; constructor <;> (repeat' split) <;> simp [*]
@[simp] theorem beaconDecide_kept (ch : Chan) (s : State) :
    (beaconDecide ch s).pending = s.pending ∧ (beaconDecide ch s).variant = s.variant := by
  unfold beaconDecide; dsimp only; constructor <;> (repeat' split) <;> simp [*]
@[simp] theorem codeRecordReport_kept (ch : Chan) (p row : Nat) (n : Scn) (s : State) :
    (codeRecordReport ch p row n s).pending = s.pending ∧ (codeRecordReport ch p row n s).variant = s.variant := by
  unfold codeRecordReport; simp
@[simp] theorem sendDown_kept (ch : Chan) (k : Nat) (f : DownFrame) (s : State) :
    (sendDown ch k f s).pending = s.pending ∧ (sendDown ch k f s).variant = s.variant := by
  unfold sendDown; simp
@[simp] theorem setPortMode_kept (ch : Chan) (p : Nat) (m : PortMode) (s : State) :
    (setPortMode ch p m s).pending = s.pending ∧ (setPortMode ch p m s).variant = s.variant := by
  unfold setPortMode; simp
@[simp] theorem isolationRecord_kept (ch : Chan) (p : Nat) (start cal : Bool) (s : State) :
    (isolationRecord ch p start cal s).pending = s.pending ∧ (isolationRecord ch p start cal s).variant = s.variant := by
  unfold isolationRecord; simp
@[simp] theorem lockRecord_kept (ch : Chan) (p : Nat) (lock : Bool) (s : State) :
    (lockRecord ch p lock s).pending = s.pending ∧ (lockRecord ch p lock s).variant = s.variant := by
  unfold lockRecord; simp
@[simp] theorem isolatePort_kept (ch : Chan) (p c : Nat) (cal : Bool) (s : State) :
    (isolatePort ch p c cal s).pending = s.pending ∧ (isolatePort ch p c cal s).variant = s.variant := by
  unfold isolatePort; simp
@[simp] theorem eighthViolation_kept (ch : Chan) (p c : Nat) (s : State) :
    (eighthViolation ch p c s).pending = s.pending ∧ (eighthViolation ch p c s).variant = s.variant := by
  unfold eighthViolation; simp
@[simp] theorem violation_kept (ch : Chan) (p c : Nat) (s : State) :
    (violation ch p c s).pending = s.pending ∧ (violation ch p c s).variant = s.variant := by
  unfold violation; simp
@[simp] theorem calRecord_kept (ch : Chan) (p kind : Nat) (s : State) :
    (calRecord ch p kind s).pending = s.pending ∧ (calRecord ch p kind s).variant = s.variant := by
  unfold calRecord; simp
@[simp] theorem trackSample_kept (ch : Chan) (p c d : Nat) (s : State) :
    (trackSample ch p c d s).pending = s.pending ∧ (trackSample ch p c d s).variant = s.variant := by
  unfold trackSample; simp
@[simp] theorem delaySample_kept (ch : Chan) (p c : Nat) (d : Int) (s : State) :
    (delaySample ch p c d s).pending = s.pending ∧ (delaySample ch p c d s).variant = s.variant := by
  unfold delaySample; simp
@[simp] theorem acceptFrame_kept (ch : Chan) (p start : Nat) (b : List Byte) (s : State) :
    (acceptFrame ch p start b s).pending = s.pending ∧ (acceptFrame ch p start b s).variant = s.variant := by
  unfold acceptFrame; simp
@[simp] theorem bistResult_kept (r : RecRing) (block test : Nat) (st : Status) (used : Nat) (s : State) :
    (bistResult r block test st used s).pending = s.pending ∧ (bistResult r block test st used s).variant = s.variant := by
  unfold bistResult; simp
@[simp] theorem coldRefused_kept (ch : Chan) (src : Nat) (s : State) :
    (coldRefused ch src s).pending = s.pending ∧ (coldRefused ch src s).variant = s.variant := by
  unfold coldRefused; simp
@[simp] theorem coldDecide_kept (ch : Chan) (s : State) :
    (coldDecide ch s).pending = s.pending ∧ (coldDecide ch s).variant = s.variant := by
  unfold coldDecide; dsimp only; constructor <;> (repeat' split) <;> simp [*]
@[simp] theorem dropSource_kept (r : ResetSrc) (s : State) :
    (dropSource r s).pending = s.pending ∧ (dropSource r s).variant = s.variant := by
  unfold dropSource; simp
@[simp] theorem offStars_kept (s : State) :
    (offStars s).pending = s.pending ∧ (offStars s).variant = s.variant := by
  unfold offStars; simp
@[simp] theorem wake_kept (s : State) :
    (wake s).pending = s.pending ∧ (wake s).variant = s.variant := by
  unfold wake; simp
@[simp] theorem releaseSrc_kept (r : ResetSrc) (s : State) :
    (releaseSrc r s).pending = s.pending ∧ (releaseSrc r s).variant = s.variant := by
  unfold releaseSrc; simp
@[simp] theorem bistStopped_kept (s : State) :
    (bistStopped s).pending = s.pending ∧ (bistStopped s).variant = s.variant := by
  unfold bistStopped; simp
@[simp] theorem mainPowerLost_kept (s : State) :
    (mainPowerLost s).pending = s.pending ∧ (mainPowerLost s).variant = s.variant := by
  unfold mainPowerLost; simp
@[simp] theorem retentionLost_kept (s : State) :
    (retentionLost s).pending = s.pending ∧ (retentionLost s).variant = s.variant := by
  unfold retentionLost; simp
@[simp] theorem watchdogReset_kept (s : State) :
    (watchdogReset s).pending = s.pending ∧ (watchdogReset s).variant = s.variant := by
  unfold watchdogReset; simp
@[simp] theorem sampleStrap_kept (counts : List Nat) (s : State) :
    (sampleStrap counts s).pending = s.pending ∧ (sampleStrap counts s).variant = s.variant := by
  unfold sampleStrap; simp
@[simp] theorem enterRecovery_kept (s : State) :
    (enterRecovery s).pending = s.pending ∧ (enterRecovery s).variant = s.variant := by
  unfold enterRecovery; simp
@[simp] theorem electricRecord_kept (ring : RecRing) (which : Nat) (key : List Byte) (s : State) :
    (electricRecord ring which key s).pending = s.pending ∧ (electricRecord ring which key s).variant = s.variant := by
  unfold electricRecord; simp
@[simp] theorem measureStore_kept (energyMj : Nat) (s : State) :
    (measureStore energyMj s).pending = s.pending ∧ (measureStore energyMj s).variant = s.variant := by
  unfold measureStore; simp
@[simp] theorem countPowerCycle_kept (s : State) :
    (countPowerCycle s).pending = s.pending ∧ (countPowerCycle s).variant = s.variant := by
  unfold countPowerCycle; dsimp only; constructor <;> (repeat' split) <;> simp [*]
@[simp] theorem beginAttempt_kept (viaMgt : Bool) (s : State) :
    (beginAttempt viaMgt s).pending = s.pending ∧ (beginAttempt viaMgt s).variant = s.variant := by
  unfold beginAttempt; simp
@[simp] theorem decideKind_kept (s : State) :
    (decideKind s).pending = s.pending ∧ (decideKind s).variant = s.variant := by
  unfold decideKind; simp
@[simp] theorem stagingDropped_kept (s : State) :
    (stagingDropped s).pending = s.pending ∧ (stagingDropped s).variant = s.variant := by
  unfold stagingDropped; simp
@[simp] theorem releaseMgt_kept (strap : List Nat) (energyMj : Nat) (s : State) :
    (releaseMgt strap energyMj s).pending = s.pending ∧ (releaseMgt strap energyMj s).variant = s.variant := by
  unfold releaseMgt; dsimp only; constructor <;> (repeat' split) <;> simp [*]
@[simp] theorem handNet_kept (s : State) :
    (handNet s).pending = s.pending ∧ (handNet s).variant = s.variant := by
  unfold handNet; simp
@[simp] theorem handStar_kept (ch : Chan) (s : State) :
    (handStar ch s).pending = s.pending ∧ (handStar ch s).variant = s.variant := by
  unfold handStar; split
  · exact ⟨(foldl_keeps State.pending _ (fun s p => onPort_pending _ _ _ s) _ _).trans rfl,
      (foldl_keeps State.variant _ (fun s p => onPort_variant _ _ _ s) _ _).trans rfl⟩
  · exact ⟨rfl, rfl⟩
@[simp] theorem releaseStar_kept (ch : Chan) (s : State) :
    (releaseStar ch s).pending = s.pending ∧ (releaseStar ch s).variant = s.variant := by
  unfold releaseStar; simp
@[simp] theorem releaseVoter_kept (s : State) :
    (releaseVoter s).pending = s.pending ∧ (releaseVoter s).variant = s.variant := by
  unfold releaseVoter; simp
@[simp] theorem releaseLane_kept (l : Lane) (s : State) :
    (releaseLane l s).pending = s.pending ∧ (releaseLane l s).variant = s.variant := by
  unfold releaseLane; constructor <;> (repeat' split) <;> simp
@[simp] theorem limitRecord_kept (i : Island) (q : Quantity) (entered : Bool) (v : W32) (s : State) :
    (limitRecord i q entered v s).pending = s.pending ∧ (limitRecord i q entered v s).variant = s.variant := by
  unfold limitRecord; simp
@[simp] theorem onLimit_kept (k : Nat) (f : LimitState → LimitState) (s : State) :
    (onLimit k f s).pending = s.pending ∧ (onLimit k f s).variant = s.variant := by
  unfold onLimit; simp
@[simp] theorem limitExceeded_kept (i : Island) (s : State) :
    (limitExceeded i s).pending = s.pending ∧ (limitExceeded i s).variant = s.variant := by
  unfold limitExceeded; try dsimp only
  constructor <;> (repeat' split) <;> first | rfl | (simp; done) | exact (foldl_keeps State.pending _ (by intro s a; (try dsimp only); (repeat' split) <;> simp) _ _).trans (by simp) | exact (foldl_keeps State.variant _ (by intro s a; (try dsimp only); (repeat' split) <;> simp) _ _).trans (by simp)
@[simp] theorem limitCleared_kept (k : Nat) (i : Island) (q : Quantity) (s : State) :
    (limitCleared k i q s).pending = s.pending ∧ (limitCleared k i q s).variant = s.variant := by
  unfold limitCleared; constructor <;> (repeat' split) <;> simp
@[simp] theorem takeReading_kept (q : Quantity) (r : Reading) (s : State) :
    (takeReading q r s).pending = s.pending ∧ (takeReading q r s).variant = s.variant := by
  unfold takeReading; simp
@[simp] theorem bridgeRecord_kept (rx tx : Island) (attempts : Nat) (s : State) :
    (bridgeRecord rx tx attempts s).pending = s.pending ∧ (bridgeRecord rx tx attempts s).variant = s.variant := by
  unfold bridgeRecord; simp
@[simp] theorem bridgeRetry_kept (rx tx : Island) (again : Bool) (s : State) :
    (bridgeRetry rx tx again s).pending = s.pending ∧ (bridgeRetry rx tx again s).variant = s.variant := by
  unfold bridgeRetry; simp
@[simp] theorem stepNote_kept (n : Nat) (st : Status) (percent : Nat) (s : State) :
    (stepNote n st percent s).pending = s.pending ∧ (stepNote n st percent s).variant = s.variant := by
  unfold stepNote; simp
@[simp] theorem putBlocks_kept (m : SMap (List Byte)) (s : State) :
    (putBlocks m s).pending = s.pending ∧ (putBlocks m s).variant = s.variant := by
  unfold putBlocks; simp
@[simp] theorem backToQ_kept (s : State) :
    (backToQ s).pending = s.pending ∧ (backToQ s).variant = s.variant := by
  unfold backToQ; constructor <;> (repeat' split) <;> simp
@[simp] theorem updEnds_kept (m : UpdMode) (s : State) :
    (updEnds m s).pending = s.pending ∧ (updEnds m s).variant = s.variant := by
  unfold updEnds; simp
@[simp] theorem beginStep_kept (n : Nat) (s : State) :
    (beginStep n s).pending = s.pending ∧ (beginStep n s).variant = s.variant := by
  unfold beginStep; constructor <;> (repeat' split) <;> simp
@[simp] theorem beginLanes_kept (s : State) :
    (beginLanes s).pending = s.pending ∧ (beginLanes s).variant = s.variant := by
  unfold beginLanes; simp
@[simp] theorem endLanes_kept (s : State) :
    (endLanes s).pending = s.pending ∧ (endLanes s).variant = s.variant := by
  unfold endLanes; simp
@[simp] theorem rollbackNext_kept (s : State) :
    (rollbackNext s).pending = s.pending ∧ (rollbackNext s).variant = s.variant := by
  unfold rollbackNext; constructor <;> (repeat' split) <;> simp
@[simp] theorem stepFails_kept (st : Status) (s : State) :
    (stepFails st s).pending = s.pending ∧ (stepFails st s).variant = s.variant := by
  unfold stepFails; dsimp only; constructor <;> (repeat' split) <;> simp [*]
@[simp] theorem startStep_kept (n : Nat) (s : State) :
    (startStep n s).pending = s.pending ∧ (startStep n s).variant = s.variant := by
  unfold startStep; simp
@[simp] theorem activated_kept (s : State) :
    (activated s).pending = s.pending ∧ (activated s).variant = s.variant := by
  unfold activated; simp
@[simp] theorem finishStep_kept (s : State) :
    (finishStep s).pending = s.pending ∧ (finishStep s).variant = s.variant := by
  unfold finishStep; dsimp only; constructor <;> (repeat' split) <;> simp [*]
@[simp] theorem reloadIdle_kept (s : State) (l : Lane) :
    (reloadIdle s l).pending = s.pending ∧ (reloadIdle s l).variant = s.variant := by
  unfold reloadIdle; constructor <;> (repeat' split) <;> simp
@[simp] theorem updPump_kept (s : State) :
    (updPump s).pending = s.pending ∧ (updPump s).variant = s.variant := by
  unfold updPump; dsimp only; constructor <;> (repeat' split) <;> simp [*]
@[simp] theorem mgtStarts_kept (s : State) :
    (mgtStarts s).pending = s.pending ∧ (mgtStarts s).variant = s.variant := by
  unfold mgtStarts; dsimp only; split
  · rename_i h
    unfold migrateAll at h; dsimp only at h; split at h
    · cases h; exact ⟨by simp, by simp⟩
    · cases h
  · exact ⟨by simp, by simp⟩
@[simp] theorem swapQuiesce_kept (s : State) :
    (swapQuiesce s).pending = s.pending ∧ (swapQuiesce s).variant = s.variant := by
  unfold swapQuiesce; simp
@[simp] theorem updAtBoot_kept (s : State) :
    (updAtBoot s).pending = s.pending ∧ (updAtBoot s).variant = s.variant := by
  unfold updAtBoot; simp
@[simp] theorem updAtSuccess_kept (s : State) :
    (updAtSuccess s).pending = s.pending ∧ (updAtSuccess s).variant = s.variant := by
  unfold updAtSuccess; dsimp only; constructor <;> (repeat' split) <;> simp [*]
@[simp] theorem shadowReport_kept (sound : Bool) (f : UpdState → UpdState) (s : State) :
    (shadowReport sound f s).pending = s.pending ∧ (shadowReport sound f s).variant = s.variant := by
  unfold shadowReport; simp
@[simp] theorem romTake_kept (index : Nat) (crc : W32) (b : List Byte) (s : State) :
    (romTake index crc b s).pending = s.pending ∧ (romTake index crc b s).variant = s.variant := by
  unfold romTake; simp
@[simp] theorem romVerify_kept (loaded : Versions → UpdState → UpdState) (s : State) :
    (romVerify loaded s).pending = s.pending ∧ (romVerify loaded s).variant = s.variant := by
  unfold romVerify; dsimp only; constructor <;> (repeat' split) <;> simp [*]
@[simp] theorem recoveryReply_kept (index : W32) (s : State) :
    (recoveryReply index s).pending = s.pending ∧ (recoveryReply index s).variant = s.variant := by
  unfold recoveryReply; simp
@[simp] theorem onServo_kept (sec : Bool) (f : Servo → Servo) (s : State) :
    (onServo sec f s).pending = s.pending ∧ (onServo sec f s).variant = s.variant := by
  unfold onServo; simp
@[simp] theorem switchTo_kept (sec : Bool) (s : State) :
    (switchTo sec s).pending = s.pending ∧ (switchTo sec s).variant = s.variant := by
  unfold switchTo; simp
@[simp] theorem acquire_kept (sec : Bool) (s : State) :
    (acquire sec s).pending = s.pending ∧ (acquire sec s).variant = s.variant := by
  unfold acquire; simp
@[simp] theorem anchor_kept (s : State) :
    (anchor s).pending = s.pending ∧ (anchor s).variant = s.variant := by
  unfold anchor; simp
@[simp] theorem mapNow_kept (s : State) :
    (mapNow s).pending = s.pending ∧ (mapNow s).variant = s.variant := by
  unfold mapNow; simp
@[simp] theorem enterTime_kept (m : TimeMode) (s : State) :
    (enterTime m s).pending = s.pending ∧ (enterTime m s).variant = s.variant := by
  unfold enterTime; dsimp only; constructor <;> (repeat' split) <;> simp [*]
@[simp] theorem judgeTime_kept (s : State) :
    (judgeTime s).pending = s.pending ∧ (judgeTime s).variant = s.variant := by
  unfold judgeTime; dsimp only; constructor <;> (repeat' split) <;> simp [*]
@[simp] theorem unlock_kept (sec : Bool) (s : State) :
    (unlock sec s).pending = s.pending ∧ (unlock sec s).variant = s.variant := by
  unfold unlock; simp
@[simp] theorem updateDiff_kept (sec : Bool) (s : State) :
    (updateDiff sec s).pending = s.pending ∧ (updateDiff sec s).variant = s.variant := by
  unfold updateDiff; simp
@[simp] theorem steer_kept (sec : Bool) (s : State) :
    (steer sec s).pending = s.pending ∧ (steer sec s).variant = s.variant := by
  unfold steer; simp
@[simp] theorem computeOffset_kept (sec : Bool) (off : Int) (s : State) :
    (computeOffset sec off s).pending = s.pending ∧ (computeOffset sec off s).variant = s.variant := by
  unfold computeOffset; simp
@[simp] theorem syncOffset_kept (s : State) (sec : Bool) (p : Nat) (rx t1 : Int) :
    (syncOffset s sec p rx t1).pending = s.pending ∧ (syncOffset s sec p rx t1).variant = s.variant := by
  unfold syncOffset; simp
@[simp] theorem selectMaster_kept (sec : Bool) (s : State) :
    (selectMaster sec s).pending = s.pending ∧ (selectMaster sec s).variant = s.variant := by
  unfold selectMaster; simp
@[simp] theorem delayTaken_kept (sec : Bool) (p : Nat) (d : Int) (s : State) :
    (delayTaken sec p d s).pending = s.pending ∧ (delayTaken sec p d s).variant = s.variant := by
  unfold delayTaken; simp
@[simp] theorem storeRecord_kept (abandoned : Bool) (at_ : W32) (s : State) :
    (storeRecord abandoned at_ s).pending = s.pending ∧ (storeRecord abandoned at_ s).variant = s.variant := by
  unfold storeRecord; simp
@[simp] theorem enterHold_kept (s : State) :
    (enterHold s).pending = s.pending ∧ (enterHold s).variant = s.variant := by
  unfold enterHold; simp
@[simp] theorem restoreRet_kept (s : State) :
    (restoreRet s).pending = s.pending ∧ (restoreRet s).variant = s.variant := by
  unfold restoreRet; split
  · exact ⟨rfl, rfl⟩
  · exact ⟨(onRet_pending _ _).trans (onVoter_pending _ _), (onRet_variant _ _).trans (onVoter_variant _ _)⟩
@[simp] theorem recorderBoot_kept (s : State) :
    (recorderBoot s).pending = s.pending ∧ (recorderBoot s).variant = s.variant := by
  unfold recorderBoot; simp
@[simp] theorem screeBoot_kept (s : State) :
    (screeBoot s).pending = s.pending ∧ (screeBoot s).variant = s.variant := by
  unfold screeBoot; simp
@[simp] theorem afterWatchdog_kept (s : State) :
    (afterWatchdog s).pending = s.pending ∧ (afterWatchdog s).variant = s.variant := by
  unfold afterWatchdog; dsimp only; constructor <;> (repeat' split) <;> simp [*]
@[simp] theorem afterBist_kept (at_ : W32) (s : State) :
    (afterBist at_ s).pending = s.pending ∧ (afterBist at_ s).variant = s.variant := by
  unfold afterBist; simp
@[simp] theorem bootState_kept (bankOk : Bool) (s : State) :
    (bootState bankOk s).pending = s.pending ∧ (bootState bankOk s).variant = s.variant := by
  unfold bootState; simp
@[simp] theorem hostLink_kept (s : State) :
    (hostLink s).pending = s.pending ∧ (hostLink s).variant = s.variant := by
  unfold hostLink; constructor <;> (repeat' split) <;> simp
@[simp] theorem bootMgt_kept (bankOk : Bool) (s : State) :
    (bootMgt bankOk s).pending = s.pending ∧ (bootMgt bankOk s).variant = s.variant := by
  unfold bootMgt; simp
@[simp] theorem moveEnd_kept (s : State) :
    (moveEnd s).pending = s.pending ∧ (moveEnd s).variant = s.variant := by
  unfold moveEnd; simp
@[simp] theorem dieRecords_kept (block : Nat) (v : Verdict) (s : State) :
    (dieRecords block v s).pending = s.pending ∧ (dieRecords block v s).variant = s.variant := by
  unfold dieRecords; simp
@[simp] theorem spareRecords_kept (block : Nat) (made : List Repair) (s : State) :
    (spareRecords block made s).pending = s.pending ∧ (spareRecords block made s).variant = s.variant := by
  unfold spareRecords; simp
@[simp] theorem dieMarks_kept (block : Nat) (v : Verdict) (s : State) :
    (dieMarks block v s).pending = s.pending ∧ (dieMarks block v s).variant = s.variant := by
  unfold dieMarks; constructor <;> (repeat' split) <;> simp
@[simp] theorem dieTested_kept (block : Nat) (v : Verdict) (s : State) :
    (dieTested block v s).pending = s.pending ∧ (dieTested block v s).variant = s.variant := by
  unfold dieTested; simp
@[simp] theorem bistJudged_kept (s : State) :
    (bistJudged s).pending = s.pending ∧ (bistJudged s).variant = s.variant := by
  unfold bistJudged; simp
@[simp] theorem portsHanded_kept (ch : Chan) (s : State) :
    (portsHanded ch s).pending = s.pending ∧ (portsHanded ch s).variant = s.variant := by
  unfold portsHanded; simp
@[simp] theorem startLane_kept (i : Image) (l : Lane) (s : State) :
    (startLane i l s).pending = s.pending ∧ (startLane i l s).variant = s.variant := by
  unfold startLane; simp
@[simp] theorem loadPlane_kept (i : Image) (s : State) :
    (loadPlane i s).pending = s.pending ∧ (loadPlane i s).variant = s.variant := by
  unfold loadPlane; simp
@[simp] theorem persistCycles_kept (s : State) :
    (persistCycles s).pending = s.pending ∧ (persistCycles s).variant = s.variant := by
  unfold persistCycles; simp
@[simp] theorem reopened_kept (l : Lane) (s : State) :
    (reopened l s).pending = s.pending ∧ (reopened l s).variant = s.variant := by
  unfold reopened; constructor <;> (repeat' split) <;> simp
@[simp] theorem lanePasses_kept (l : Lane) (s : State) :
    (lanePasses l s).pending = s.pending ∧ (lanePasses l s).variant = s.variant := by
  unfold lanePasses; simp
@[simp] theorem laneFails_kept (l : Lane) (s : State) :
    (laneFails l s).pending = s.pending ∧ (laneFails l s).variant = s.variant := by
  unfold laneFails; simp
@[simp] theorem onTest_kept (l : Lane) (f : LaneTest → LaneTest) (s : State) :
    (onTest l f s).pending = s.pending ∧ (onTest l f s).variant = s.variant := by
  unfold onTest; simp
@[simp] theorem trialKept_kept (l : Lane) (kind : Repair → Bool) (s : State) :
    (trialKept l kind s).pending = s.pending ∧ (trialKept l kind s).variant = s.variant := by
  unfold trialKept; simp
@[simp] theorem belayLogic_kept (l : Lane) (misr : W64) (golden : Bool) (s : State) :
    (belayLogic l misr golden s).pending = s.pending ∧ (belayLogic l misr golden s).variant = s.variant := by
  unfold belayLogic; simp
@[simp] theorem belayMemory_kept (l : Lane) (m : Nat) (cells : List Cell) (last : Bool) (s : State) :
    (belayMemory l m cells last s).pending = s.pending ∧ (belayMemory l m cells last s).variant = s.variant := by
  unfold belayMemory; simp
@[simp] theorem statusWritten_kept (dev sealW dom seat : BitVec 32) (s : State) :
    (statusWritten dev sealW dom seat s).pending = s.pending ∧ (statusWritten dev sealW dom seat s).variant = s.variant :=
  ⟨onRegs_pending _ _, onRegs_variant _ _⟩
@[simp] theorem statusTold_kept (old : RegFile) (dev sealW dom seat : BitVec 32) (s : State) :
    (statusTold old dev sealW dom seat s).pending = s.pending ∧ (statusTold old dev sealW dom seat s).variant = s.variant := by
  have k : ∀ (a b : W32) (f : State → State) (s : State), ((f s).pending = s.pending ∧ (f s).variant = s.variant) →
      (shown a b f s).pending = s.pending ∧ (shown a b f s).variant = s.variant := by
    intro a b f s h; unfold shown; split
    · exact ⟨rfl, rfl⟩
    · exact h
  have t : ∀ {x y z : State}, (x.pending = y.pending ∧ x.variant = y.variant) → (y.pending = z.pending ∧ y.variant = z.variant) →
      x.pending = z.pending ∧ x.variant = z.variant := fun h g => ⟨h.1.trans g.1, h.2.trans g.2⟩
  unfold statusTold
  exact t (k _ _ _ _ (raise_kept _ _ _)) (t (k _ _ _ _ (t (raise_kept _ _ _) (alert_kept _ _))) (t (k _ _ _ _ (t (raise_kept _ _ _) (alert_kept _ _)))
      (k _ _ _ _ (alert_kept _ _))))
@[simp] theorem refreshStatus_kept (s : State) :
    (refreshStatus s).pending = s.pending ∧ (refreshStatus s).variant = s.variant := by
  unfold refreshStatus; split
  · exact ⟨(statusTold_kept _ _ _ _ _ _).1.trans (statusWritten_kept _ _ _ _ _).1, (statusTold_kept _ _ _ _ _ _).2.trans (statusWritten_kept _ _ _ _ _).2⟩
  · exact ⟨rfl, rfl⟩
@[simp] theorem forceEvent_kept (q : Snapshot) (s : State) :
    (forceEvent q s).pending = s.pending ∧ (forceEvent q s).variant = s.variant := by
  unfold forceEvent; simp
@[simp] theorem swapShown_kept (q : Snapshot) (s : State) :
    (swapShown q s).pending = s.pending ∧ (swapShown q s).variant = s.variant := by
  unfold swapShown; dsimp only; constructor <;> (repeat' split) <;> simp [*]
@[simp] theorem schedShown_kept (q : Snapshot) (s : State) :
    (schedShown q s).pending = s.pending ∧ (schedShown q s).variant = s.variant := by
  unfold schedShown; constructor <;> (repeat' split) <;> simp
@[simp] theorem countCycles_kept (q : Snapshot) (s : State) :
    (countCycles q s).pending = s.pending ∧ (countCycles q s).variant = s.variant := by
  unfold countCycles; constructor <;> (repeat' split) <;> simp
@[simp] theorem evalSnapshot_kept (q : Snapshot) (s : State) :
    (evalSnapshot q s).pending = s.pending ∧ (evalSnapshot q s).variant = s.variant := by
  unfold evalSnapshot; simp
@[simp] theorem captureTime_kept (s : State) :
    (captureTime s).pending = s.pending ∧ (captureTime s).variant = s.variant := by
  unfold captureTime; simp
@[simp] theorem captureScn_kept (s : State) :
    (captureScn s).pending = s.pending ∧ (captureScn s).variant = s.variant := by
  unfold captureScn; simp
@[simp] theorem autoRead_kept (s : State) :
    (autoRead s).pending = s.pending ∧ (autoRead s).variant = s.variant := by
  unfold autoRead; simp
@[simp] theorem hostControl_kept (v : W32) (s : State) :
    (hostControl v s).pending = s.pending ∧ (hostControl v s).variant = s.variant := by
  unfold hostControl; simp
@[simp] theorem admWriteReg_kept (f : RegFile → RegFile) (s : State) :
    (admWriteReg f s).pending = s.pending ∧ (admWriteReg f s).variant = s.variant := by
  unfold admWriteReg; simp
@[simp] theorem controlWrite_kept (o : Nat) (v : W32) (s : State) :
    (controlWrite o v s).pending = s.pending ∧ (controlWrite o v s).variant = s.variant := by
  unfold controlWrite; constructor <;> (repeat' split) <;> simp
@[simp] theorem cvuWrite_kept (u o : Nat) (v : W32) (s : State) :
    (cvuWrite u o v s).pending = s.pending ∧ (cvuWrite u o v s).variant = s.variant := by
  unfold cvuWrite; constructor <;> (repeat' split) <;> simp
@[simp] theorem msixWrite_kept (i : Nat) (v : W32) (s : State) :
    (msixWrite i v s).pending = s.pending ∧ (msixWrite i v s).variant = s.variant := by
  unfold msixWrite; simp
@[simp] theorem logWrite_kept (o : Nat) (v : W32) (s : State) :
    (logWrite o v s).pending = s.pending ∧ (logWrite o v s).variant = s.variant := by
  unfold logWrite; constructor <;> (repeat' split) <;> simp
@[simp] theorem regWrite_kept (o : Nat) (v : W32) (s : State) :
    (regWrite o v s).pending = s.pending ∧ (regWrite o v s).variant = s.variant := by
  unfold regWrite; simp
@[simp] theorem goRestrictive_kept (s : State) :
    (goRestrictive s).pending = s.pending ∧ (goRestrictive s).variant = s.variant := by
  unfold goRestrictive; simp
@[simp] theorem beginShutdownBist_kept (s : State) :
    (beginShutdownBist s).pending = s.pending ∧ (beginShutdownBist s).variant = s.variant := by
  unfold beginShutdownBist; simp
@[simp] theorem ctrlReset_kept (s : State) :
    (ctrlReset s).pending = s.pending ∧ (ctrlReset s).variant = s.variant := by
  unfold ctrlReset; simp
@[simp] theorem cfgStore_kept (k : CfgBlock) (b : List Byte) (s : State) :
    (cfgStore k b s).pending = s.pending ∧ (cfgStore k b s).variant = s.variant := by
  unfold cfgStore; constructor <;> (repeat' split) <;> simp
@[simp] theorem configRecord_kept (code kind old new : Nat) (s : State) :
    (configRecord code kind old new s).pending = s.pending ∧ (configRecord code kind old new s).variant = s.variant := by
  unfold configRecord; simp
@[simp] theorem blockRecord_kept (code : Nat) (s : State) :
    (blockRecord code s).pending = s.pending ∧ (blockRecord code s).variant = s.variant := by
  unfold blockRecord; simp
@[simp] theorem readBlock_kept (c : CmdHdr) (op : Nat) (k : Option CfgBlock) (s : State) :
    (readBlock c op k s).pending = s.pending ∧ (readBlock c op k s).variant = s.variant := by
  unfold readBlock; constructor <;> (repeat' split) <;> simp
@[simp] theorem setParam_kept (id v : Nat) (s : State) :
    (setParam id v s).pending = s.pending ∧ (setParam id v s).variant = s.variant := by
  unfold setParam; constructor <;> (repeat' split) <;> simp
@[simp] theorem clearAcks_kept (s : State) :
    (clearAcks s).pending = s.pending ∧ (clearAcks s).variant = s.variant := by
  unfold clearAcks; simp
@[simp] theorem linkRecord_kept (op : Nat) (ch : Chan) (p : Nat) (s : State) :
    (linkRecord op ch p s).pending = s.pending ∧ (linkRecord op ch p s).variant = s.variant := by
  unfold linkRecord; simp
@[simp] theorem portPowerRecord_kept (ch : Chan) (p : Nat) (on : Bool) (s : State) :
    (portPowerRecord ch p on s).pending = s.pending ∧ (portPowerRecord ch p on s).variant = s.variant := by
  unfold portPowerRecord; simp
@[simp] theorem portPower_kept (ch : Chan) (p : Nat) (on : Bool) (s : State) :
    (portPower ch p on s).pending = s.pending ∧ (portPower ch p on s).variant = s.variant := by
  unfold portPower; simp
@[simp] theorem unlockPort_kept (ch : Chan) (p : Nat) (s : State) :
    (unlockPort ch p s).pending = s.pending ∧ (unlockPort ch p s).variant = s.variant := by
  unfold unlockPort; simp
@[simp] theorem domainOffRecord_kept (d code : Nat) (s : State) :
    (domainOffRecord d code s).pending = s.pending ∧ (domainOffRecord d code s).variant = s.variant := by
  unfold domainOffRecord; simp
@[simp] theorem channelPower_kept (ch : Chan) (on : Bool) (s : State) :
    (channelPower ch on s).pending = s.pending ∧ (channelPower ch on s).variant = s.variant := by
  unfold channelPower; simp
@[simp] theorem clearRing_kept (r : Byte) (s : State) :
    (clearRing r s).pending = s.pending ∧ (clearRing r s).variant = s.variant := by
  unfold clearRing; simp
@[simp] theorem onNodeChan_kept (k : Nat) (ch : Chan) (f : NodeChan → NodeChan) (s : State) :
    (onNodeChan k ch f s).pending = s.pending ∧ (onNodeChan k ch f s).variant = s.variant := by
  unfold onNodeChan; simp
@[simp] theorem nodeBeacon_kept (k : Nat) (ch : Chan) (f : Beacon) (payload : List Byte) (c : RxClass) (s : State) :
    (nodeBeacon k ch f payload c s).pending = s.pending ∧ (nodeBeacon k ch f payload c s).variant = s.variant := by
  unfold nodeBeacon; constructor <;> (repeat' split) <;> simp
@[simp] theorem reqPut_kept (ts : List ReqTarget) (s : State) :
    (reqPut ts s).pending = s.pending ∧ (reqPut ts s).variant = s.variant := by
  unfold reqPut; simp
@[simp] theorem pulsesEnd_kept (ts : List ReqTarget) (s : State) :
    (pulsesEnd ts s).pending = s.pending ∧ (pulsesEnd ts s).variant = s.variant := by
  unfold pulsesEnd; simp
@[simp] theorem pulseStart_kept (t : ReqTarget) (hold : Nat) (s : State) :
    (pulseStart t hold s).pending = s.pending ∧ (pulseStart t hold s).variant = s.variant := by
  unfold pulseStart; simp
@[simp] theorem reqFinish_kept (c : CmdHdr) (op : Nat) (snap : Bool) (s : State) :
    (reqFinish c op snap s).pending = s.pending ∧ (reqFinish c op snap s).variant = s.variant := by
  unfold reqFinish; simp
@[simp] theorem netMarks_kept (s : State) :
    (netMarks s).pending = s.pending ∧ (netMarks s).variant = s.variant := by
  unfold netMarks; simp
@[simp] theorem ropeTick_kept (s : State) :
    (ropeTick s).pending = s.pending ∧ (ropeTick s).variant = s.variant := by
  unfold ropeTick; simp
@[simp] theorem idleTick_kept (s : State) :
    (idleTick s).pending = s.pending ∧ (idleTick s).variant = s.variant := by
  unfold idleTick; simp
end Sys2Proof.Laws
end

