-- ==== Sys2Proof/Laws/Maps.lean ====
section
/-! SUPPORT. Laws of the sparse maps, of one value per part, and of the bits that lanes hold: a read after a write gives the value
written, a write leaves every other place alone, and every operation keeps the canonical form. -/

namespace Sys2Proof.Laws

open Sys2Proof Sys2Proof.Machine

variable {α : Type}

theorem smGet_smDrop (d : α) (m : SMap α) (k j : Nat) :
    smGet d (smDrop m k) j = if j = k then d else smGet d m j := by
  induction m with
  | nil => simp [smDrop, smGet]
  | cons p r ih =>
    obtain ⟨i, v⟩ := p
    by_cases h : i = k
    · simp only [smDrop, h, if_true, ih, smGet]
      by_cases hj : j = k
      · simp [hj]
      · simp [hj, Ne.symm hj]
    · simp only [smDrop, h, if_false, smGet, ih]
      by_cases hj : i = j
      · subst hj; simp [h]
      · simp [hj]

theorem smGet_smIns (d : α) (m : SMap α) (k j : Nat) (v : α) (h : smGet d m k = d) (hf : smFind m k = none) :
    smGet d (smIns k v m) j = if j = k then v else smGet d m j := by
  induction m with
  | nil => simp [smIns, smGet, eq_comm]
  | cons p r ih =>
    obtain ⟨i, w⟩ := p
    by_cases hik : i = k
    · simp [smFind, hik] at hf
    · simp only [smFind, hik, if_false] at hf
      have h' : smGet d r k = d := by simpa [smGet, hik] using h
      simp only [smIns]
      split
      · simp only [smGet]; by_cases hj : j = k
        · simp [hj]
        · simp [hj, Ne.symm hj]
      · simp only [smGet, ih h' hf]
        by_cases hij : i = j
        · subst hij; simp [hik]
        · simp [hij]

theorem smFind_smDrop (m : SMap α) (k j : Nat) : smFind (smDrop m k) j = if j = k then none else smFind m j := by
  induction m with
  | nil => simp [smDrop, smFind]
  | cons p r ih =>
    obtain ⟨i, v⟩ := p
    by_cases h : i = k
    · simp only [smDrop, h, if_true, ih, smFind]
      by_cases hj : j = k
      · simp [hj]
      · simp [hj, Ne.symm hj]
    · simp only [smDrop, h, if_false, smFind, ih]
      by_cases hj : i = j
      · subst hj; simp [h]
      · simp [hj]

theorem smFind_smIns (m : SMap α) (k j : Nat) (v : α) (hf : smFind m k = none) :
    smFind (smIns k v m) j = if j = k then some v else smFind m j := by
  induction m with
  | nil => simp [smIns, smFind, eq_comm]
  | cons p r ih =>
    obtain ⟨i, w⟩ := p
    by_cases hik : i = k
    · simp [smFind, hik] at hf
    · simp only [smFind, hik, if_false] at hf
      simp only [smIns]
      split
      · simp only [smFind]; by_cases hj : j = k
        · simp [hj]
        · simp [hj, Ne.symm hj]
      · simp only [smFind, ih hf]
        by_cases hij : i = j
        · subst hij; simp [hik]
        · simp [hij]

/-- What a map finds after a put. -/
theorem smFind_smPut (m : SMap α) (k j : Nat) (v : α) : smFind (smPut m k v) j = if j = k then some v else smFind m j := by
  rw [smPut, smFind_smIns _ _ _ _ (by simp [smFind_smDrop]), smFind_smDrop]
  by_cases h : j = k <;> simp [h]

/-- A read after a write: the value written at its key, and what was there at every other. -/
theorem smGet_smSet [DecidableEq α] (d : α) (m : SMap α) (k j : Nat) (v : α) :
    smGet d (smSet d m k v) j = if j = k then v else smGet d m j := by
  unfold smSet
  split
  · rename_i hv; rw [smGet_smDrop]; split <;> simp [hv]
  · rw [smGet_smIns _ _ _ _ _ (by simp [smGet_smDrop]) (by simp [smFind_smDrop]), smGet_smDrop]
    by_cases hj : j = k <;> simp [hj]

@[simp] theorem smGet_smSet_self [DecidableEq α] (d : α) (m : SMap α) (k : Nat) (v : α) : smGet d (smSet d m k v) k = v := by
  simp [smGet_smSet]

theorem smGet_smSet_ne [DecidableEq α] (d : α) (m : SMap α) {k j : Nat} (v : α) (h : j ≠ k) :
    smGet d (smSet d m k v) j = smGet d m j := by
  simp [smGet_smSet, h]

/-! ### The canonical form -/

theorem smRising_weaken {lo lo' : Option Nat} {m : SMap α} (h : smRising lo m = true)
    (hl : ∀ a, lo' = some a → ∃ b, lo = some b ∧ a ≤ b) : smRising lo' m = true := by
  cases m with
  | nil => rfl
  | cons p r =>
    obtain ⟨i, v⟩ := p
    simp only [smRising, Bool.and_eq_true] at h ⊢
    refine ⟨?_, h.2⟩
    cases lo' with
    | none => rfl
    | some a =>
      obtain ⟨b, rfl, hab⟩ := hl a rfl
      simp at h ⊢; omega

theorem smRising_smDrop {lo : Option Nat} {m : SMap α} (k : Nat) (h : smRising lo m = true) :
    smRising lo (smDrop m k) = true := by
  induction m generalizing lo with
  | nil => rfl
  | cons p r ih =>
    obtain ⟨i, v⟩ := p
    simp only [smRising, Bool.and_eq_true] at h
    simp only [smDrop]
    split
    · apply ih
      refine smRising_weaken h.2 ?_
      intro a ha; subst ha; simp at h; exact ⟨i, rfl, by omega⟩
    · simp only [smRising, Bool.and_eq_true]; exact ⟨h.1, ih h.2⟩

theorem smRising_smIns {lo : Option Nat} {m : SMap α} (k : Nat) (v : α) (h : smRising lo m = true)
    (hk : ∀ a, lo = some a → a < k) (hf : smFind m k = none) : smRising lo (smIns k v m) = true := by
  induction m generalizing lo with
  | nil => simp only [smIns, smRising, Bool.and_true]; cases lo <;> simp; exact hk _ rfl
  | cons p r ih =>
    obtain ⟨i, w⟩ := p
    by_cases hik : i = k
    · simp [smFind, hik] at hf
    · simp only [smFind, hik, if_false] at hf
      simp only [smRising, Bool.and_eq_true] at h
      simp only [smIns]
      split
      · rename_i hlt
        simp only [smRising, Bool.and_eq_true]
        refine ⟨?_, by simpa using hlt, h.2⟩
        cases lo <;> simp; exact hk _ rfl
      · rename_i hlt
        simp only [smRising, Bool.and_eq_true]
        refine ⟨h.1, ih h.2 ?_ hf⟩
        intro a ha; cases ha; omega

theorem all_smDrop (f : Nat × α → Bool) (m : SMap α) (k : Nat) (h : m.all f = true) : (smDrop m k).all f = true := by
  induction m with
  | nil => rfl
  | cons p r ih =>
    obtain ⟨i, v⟩ := p
    simp only [List.all_cons, Bool.and_eq_true] at h
    simp only [smDrop]; split
    · exact ih h.2
    · simp only [List.all_cons, Bool.and_eq_true]; exact ⟨h.1, ih h.2⟩

theorem all_smIns (f : Nat × α → Bool) (m : SMap α) (k : Nat) (v : α) (h : m.all f = true) (hv : f (k, v) = true) :
    (smIns k v m).all f = true := by
  induction m with
  | nil => simp [smIns, hv]
  | cons p r ih =>
    obtain ⟨i, w⟩ := p
    simp only [List.all_cons, Bool.and_eq_true] at h
    simp only [smIns]; split
    · simp only [List.all_cons, Bool.and_eq_true]; exact ⟨hv, h.1, h.2⟩
    · simp only [List.all_cons, Bool.and_eq_true]; exact ⟨h.1, ih h.2⟩

/-- A write keeps the canonical form. -/
theorem smWf_smSet [DecidableEq α] (d : α) (m : SMap α) (k : Nat) (v : α) (h : smWf d m = true) : smWf d (smSet d m k v) = true := by
  simp only [smWf, Bool.and_eq_true] at *
  unfold smSet
  split
  · exact ⟨smRising_smDrop k h.1, all_smDrop _ _ _ h.2⟩
  · rename_i hv
    refine ⟨smRising_smIns k v (smRising_smDrop k h.1) (by simp) (by simp [smFind_smDrop]), ?_⟩
    exact all_smIns _ _ _ _ (all_smDrop _ _ _ h.2) (by simp [hv])

theorem smWf_smDrop [DecidableEq α] (d : α) (m : SMap α) (k : Nat) (h : smWf d m = true) : smWf d (smDrop m k) = true := by
  simp only [smWf, Bool.and_eq_true] at *
  exact ⟨smRising_smDrop k h.1, all_smDrop _ _ _ h.2⟩

/-- What a map lists above a bound reads as the default at and below it. -/
theorem smGet_below (d : α) {m : SMap α} {a : Nat} (h : smRising (some a) m = true) {j : Nat} (hj : j ≤ a) :
    smGet d m j = d := by
  induction m generalizing a with
  | nil => rfl
  | cons p r ih =>
    obtain ⟨i, v⟩ := p
    simp only [smRising, Bool.and_eq_true, decide_eq_true_eq] at h
    simp only [smGet, show ¬ i = j by omega, if_false]
    exact ih h.2 (by omega)

/-- Two maps in canonical form that read alike at every key are equal data. -/
theorem smWf_ext [DecidableEq α] (d : α) {m n : SMap α} (hm : smWf d m = true) (hn : smWf d n = true)
    (h : ∀ k, smGet d m k = smGet d n k) : m = n := by
  induction m generalizing n with
  | nil =>
    cases n with
    | nil => rfl
    | cons q r =>
      obtain ⟨j, w⟩ := q
      have := h j
      simp [smGet] at this
      simp [smWf, this.symm] at hn
  | cons p r ih =>
    obtain ⟨i, v⟩ := p
    cases n with
    | nil =>
      have := h i
      simp [smGet] at this
      simp [smWf, this] at hm
    | cons q t =>
      obtain ⟨j, w⟩ := q
      simp only [smWf, smRising, List.all_cons, Bool.and_eq_true, Bool.true_and, Bool.not_eq_true', decide_eq_false_iff_not] at hm hn
      have hij : i = j := by
        rcases Nat.lt_trichotomy i j with hlt | heq | hgt
        · exfalso
          have := h i
          simp only [smGet, if_true, show ¬ j = i by omega, if_false] at this
          rw [smGet_below d hn.1 (by omega)] at this
          exact hm.2.1 this
        · exact heq
        · exfalso
          have := h j
          simp only [smGet, if_true, show ¬ i = j by omega, if_false] at this
          rw [smGet_below d hm.1 (by omega)] at this
          exact hn.2.1 this.symm
      subst hij
      have hvw : v = w := by have := h i; simpa [smGet] using this
      subst hvw
      congr 1
      apply ih
      · simp only [smWf, Bool.and_eq_true]
        exact ⟨smRising_weaken hm.1 (by simp), hm.2.2⟩
      · simp only [smWf, Bool.and_eq_true]
        exact ⟨smRising_weaken hn.1 (by simp), hn.2.2⟩
      · intro k
        rcases Nat.lt_or_ge i k with hk | hk
        · have := h k
          simpa [smGet, show ¬ i = k by omega] using this
        · rw [smGet_below d hm.1 hk, smGet_below d hn.1 hk]

/-! ### One value per part -/

@[simp] theorem Quad_get_set_self {α : Type} (q : Quad α) (l : Lane) (v : α) : (q.set l v).get l = v := by cases l <;> rfl
theorem Quad_get_set_ne {α : Type} (q : Quad α) {l m : Lane} (v : α) (h : m ≠ l) : (q.set l v).get m = q.get m := by
  cases l <;> cases m <;> first | rfl | exact absurd rfl h
@[simp] theorem Quad_set_set {α : Type} (q : Quad α) (l : Lane) (v w : α) : (q.set l v).set l w = q.set l w := by cases l <;> rfl
@[simp] theorem Quad_get_map {α β : Type} (f : α → β) (q : Quad α) (l : Lane) : (q.map f).get l = f (q.get l) := by cases l <;> rfl
@[simp] theorem Tri_get_set_self {α : Type} (q : Tri α) (k : Seat) (v : α) : (q.set k v).get k = v := by cases k <;> rfl
theorem Tri_get_set_ne {α : Type} (q : Tri α) {k j : Seat} (v : α) (h : j ≠ k) : (q.set k v).get j = q.get j := by
  cases k <;> cases j <;> first | rfl | exact absurd rfl h
@[simp] theorem Duo_get_set_self {α : Type} (q : Duo α) (c : Chan) (v : α) : (q.set c v).get c = v := by cases c <;> rfl
theorem Duo_get_set_ne {α : Type} (q : Duo α) {c e : Chan} (v : α) (h : e ≠ c) : (q.set c v).get e = q.get e := by
  cases c <;> cases e <;> first | rfl | exact absurd rfl h
@[simp] theorem Halves_get_set_self {α : Type} (q : Halves α) (h : Half) (v : α) : (q.set h v).get h = v := by cases h <;> rfl
theorem Halves_get_set_ne {α : Type} (q : Halves α) {h g : Half} (v : α) (e : g ≠ h) : (q.set h v).get g = q.get g := by
  cases h <;> cases g <;> first | rfl | exact absurd rfl e

/-! ### Bits -/

theorem getLsbD_setBit {w : Nat} (x : BitVec w) (i j : Nat) (b : Bool) (hi : i < w) :
    (setBit x i b).getLsbD j = if j = i then b else x.getLsbD j := by
  have h1 : (1#w <<< i).getLsbD j = decide (j = i) := by
    rw [BitVec.getLsbD_shiftLeft]
    rcases Nat.lt_trichotomy j i with h | h | h
    · simp [h]; omega
    · subst h; simp [hi]; omega
    · by_cases hj : j < w
      · simp [hj, Nat.not_lt.mpr (Nat.le_of_lt h), BitVec.getLsbD_one, show ¬ j - i = 0 by omega, show j ≠ i by omega]
      · simp [hj]; omega
  unfold setBit
  cases b
  · simp only [Bool.false_eq_true, if_false, BitVec.getLsbD_and, BitVec.getLsbD_not, h1]
    by_cases hj : j = i
    · simp [hj]
    · by_cases hw : j < w
      · simp [hj, hw]
      · simp [hj, BitVec.getLsbD_of_ge x j (by omega)]
  · simp only [if_true, BitVec.getLsbD_or, h1]
    by_cases hj : j = i <;> simp [hj]

/-! ### What a changed map lists -/

theorem smDrop_mem {α : Type} {m : SMap α} {k : Nat} {p : Nat × α} (h : p ∈ smDrop m k) : p ∈ m := by
  induction m with
  | nil => exact h
  | cons q r ih =>
    obtain ⟨j, v⟩ := q
    unfold smDrop at h; split at h
    · exact List.mem_cons_of_mem _ (ih h)
    · rcases List.mem_cons.mp h with h | h
      · exact h ▸ List.mem_cons_self
      · exact List.mem_cons_of_mem _ (ih h)

theorem smIns_mem {α : Type} {m : SMap α} {k : Nat} {v : α} {p : Nat × α} (h : p ∈ smIns k v m) : p = (k, v) ∨ p ∈ m := by
  induction m with
  | nil => simpa [smIns] using h
  | cons q r ih =>
    obtain ⟨j, x⟩ := q
    unfold smIns at h; split at h
    · simpa using h
    · rcases List.mem_cons.mp h with h | h
      · exact .inr (h ▸ List.mem_cons_self)
      · exact (ih h).imp id (List.mem_cons_of_mem _)

theorem smSet_mem {α : Type} [DecidableEq α] {d : α} {m : SMap α} {k : Nat} {v : α} {p : Nat × α} (h : p ∈ smSet d m k v) : p = (k, v) ∨ p ∈ m := by
  unfold smSet at h; split at h
  · exact .inr (smDrop_mem h)
  · exact (smIns_mem h).imp id smDrop_mem

theorem smGet_mem {α : Type} (d : α) (m : SMap α) (k : Nat) : smGet d m k = d ∨ (k, smGet d m k) ∈ m := by
  induction m with
  | nil => exact .inl rfl
  | cons q r ih =>
    obtain ⟨j, v⟩ := q
    by_cases e : j = k
    · subst e; right; simp [smGet]
    · simp only [smGet, if_neg e]; exact ih.imp id (List.mem_cons_of_mem _)

theorem smMap_mem {α : Type} [DecidableEq α] {d : α} {f : α → α} {m : SMap α} {p : Nat × α} (h : p ∈ smMap d f m) : ∃ v, p.2 = f v := by
  simp only [smMap, List.mem_filter, List.mem_map] at h
  obtain ⟨⟨q, _, rfl⟩, _⟩ := h; exact ⟨q.2, rfl⟩

end Sys2Proof.Laws
end

