-- ==== Sys2Proof/Laws/Safe.lean ====
section
/-! SUPPORT. Every operation on the state keeps the outputs without drive while a trip is in force (R232): most change neither the
trip nor the outputs. -/

namespace Sys2Proof.Laws

open Sys2Proof Sys2Proof.Machine

@[simp] theorem ite_safe (c : Prop) [Decidable c] (a b : State) :
    TripSafe (if c then a else b) ↔ if c then TripSafe a else TripSafe b := by
  split <;> rfl
theorem foldl_safe {α : Type} (f : State → α → State) (h : ∀ s a, TripSafe s → TripSafe (f s a)) : ∀ (l : List α) (s : State), TripSafe s → TripSafe (l.foldl f s) := by
  intro l; induction l with
  | nil => intro s k; exact k
  | cons a r ih => intro s k; rw [List.foldl_cons]; exact ih _ (h _ _ k)
theorem foldl_iff {α : Type} (f : State → α → State) (h : ∀ s a, TripSafe (f s a) ↔ TripSafe s) : ∀ (l : List α) (s : State), TripSafe (l.foldl f s) ↔ TripSafe s := by
  intro l; induction l with
  | nil => intro s; exact Iff.rfl
  | cons a r ih => intro s; rw [List.foldl_cons, ih, h]
@[simp] theorem foldl_simp {α : Type} (f : State → α → State) (h : ∀ s a, TripSafe (f s a) ↔ TripSafe s) (l : List α) (s : State) : TripSafe (l.foldl f s) ↔ TripSafe s := foldl_iff f h l s
@[simp] theorem ite_self_prop (c : Prop) [Decidable c] (p : Prop) : (if c then p else p) ↔ p := by split <;> rfl
@[simp] theorem foldl_safe_iff {α : Type} (f : State → α → State) (h : ∀ s a, TripSafe s → TripSafe (f s a)) (l : List α) (s : State) (k : TripSafe s) : TripSafe (l.foldl f s) := foldl_safe f h l s k
@[simp] theorem onVoter_safe (f : Voter → Voter) (s : State) : TripSafe (onVoter f s) ↔ TripSafe s := Iff.rfl
@[simp] theorem onRot_safe (f : Rotation → Rotation) (s : State) : TripSafe (onRot f s) ↔ TripSafe s := Iff.rfl
@[simp] theorem onAdm_safe (f : Admission → Admission) (s : State) : TripSafe (onAdm f s) ↔ TripSafe s := Iff.rfl
@[simp] theorem onSeal_safe (f : SealState → SealState) (s : State) : TripSafe (onSeal f s) ↔ TripSafe s := Iff.rfl
@[simp] theorem onForce_safe (f : ForceState → ForceState) (s : State) : TripSafe (onForce f s) ↔ TripSafe s := Iff.rfl
@[simp] theorem onOlc_safe (f : OlcState → OlcState) (s : State) : TripSafe (onOlc f s) ↔ TripSafe s := Iff.rfl
@[simp] theorem onDbg_safe (f : DebugState → DebugState) (s : State) : TripSafe (onDbg f s) ↔ TripSafe s := Iff.rfl
@[simp] theorem onSched_safe (f : SchedState → SchedState) (s : State) : TripSafe (onSched f s) ↔ TripSafe s := Iff.rfl
@[simp] theorem onTime_safe (f : TimeState → TimeState) (s : State) : TripSafe (onTime f s) ↔ TripSafe s := Iff.rfl
@[simp] theorem onNet_safe (f : NetState → NetState) (s : State) : TripSafe (onNet f s) ↔ TripSafe s := Iff.rfl
@[simp] theorem onMbx_safe (f : MbxState → MbxState) (s : State) : TripSafe (onMbx f s) ↔ TripSafe s := Iff.rfl
@[simp] theorem onExp_safe (f : ExportState → ExportState) (s : State) : TripSafe (onExp f s) ↔ TripSafe s := Iff.rfl
@[simp] theorem onRec_safe (f : RecorderState → RecorderState) (s : State) : TripSafe (onRec f s) ↔ TripSafe s := Iff.rfl
@[simp] theorem onStore_safe (f : StoreState → StoreState) (s : State) : TripSafe (onStore f s) ↔ TripSafe s := Iff.rfl
@[simp] theorem onStart_safe (f : StartState → StartState) (s : State) : TripSafe (onStart f s) ↔ TripSafe s := Iff.rfl
@[simp] theorem onBist_safe (f : BistState → BistState) (s : State) : TripSafe (onBist f s) ↔ TripSafe s := Iff.rfl
@[simp] theorem onUpd_safe (f : UpdState → UpdState) (s : State) : TripSafe (onUpd f s) ↔ TripSafe s := Iff.rfl
@[simp] theorem onElec_safe (f : ElectricState → ElectricState) (s : State) : TripSafe (onElec f s) ↔ TripSafe s := Iff.rfl
@[simp] theorem onStaging_safe (f : SMap W64 → SMap W64) (s : State) : TripSafe (onStaging f s) ↔ TripSafe s := Iff.rfl
@[simp] theorem onLane_safe (l : Lane) (f : LaneState → LaneState) (s : State) : TripSafe (onLane l f s) ↔ TripSafe s := Iff.rfl
@[simp] theorem onLanes_safe (f : LaneState → LaneState) (s : State) : TripSafe (onLanes f s) ↔ TripSafe s := Iff.rfl
@[simp] theorem onCore_safe (l : Lane) (f : LaneCore → LaneCore) (s : State) : TripSafe (onCore l f s) ↔ TripSafe s := Iff.rfl
@[simp] theorem onStar_safe (c : Chan) (f : StarState → StarState) (s : State) : TripSafe (onStar c f s) ↔ TripSafe s := Iff.rfl
@[simp] theorem onAux_safe (c : Chan) (f : StarAux → StarAux) (s : State) : TripSafe (onAux c f s) ↔ TripSafe s := Iff.rfl
@[simp] theorem onNode_safe (k : Nat) (f : NodeState → NodeState) (s : State) : TripSafe (onNode k f s) ↔ TripSafe s := Iff.rfl
@[simp] theorem onRegs_safe (f : RegFile → RegFile) (s : State) : TripSafe (onRegs f s) ↔ TripSafe s := Iff.rfl
@[simp] theorem onRing_safe (r : Nat) (f : RingS → RingS) (s : State) : TripSafe (onRing r f s) ↔ TripSafe s := Iff.rfl
@[simp] theorem onCvu_safe (u : Nat) (f : Cvu → Cvu) (s : State) : TripSafe (onCvu u f s) ↔ TripSafe s := Iff.rfl
@[simp] theorem onPort_safe (c : Chan) (p : Nat) (f : PortState → PortState) (s : State) : TripSafe (onPort c p f s) ↔ TripSafe s := Iff.rfl
@[simp] theorem onData_safe (f : DataPlane → DataPlane) (s : State) : TripSafe (onData f s) ↔ TripSafe s := Iff.rfl
@[simp] theorem onMgt_safe (f : Manage → Manage) (s : State) : TripSafe (onMgt f s) ↔ TripSafe s := Iff.rfl
@[simp] theorem onClk_safe (f : ClockState → ClockState) (s : State) : TripSafe (onClk f s) ↔ TripSafe s := Iff.rfl
@[simp] theorem onRet_safe (f : RetState → RetState) (s : State) : TripSafe (onRet f s) ↔ TripSafe s := Iff.rfl
@[simp] theorem onPower_safe (f : PowerState → PowerState) (s : State) : TripSafe (onPower f s) ↔ TripSafe s := Iff.rfl
theorem onCtl_safe (f : Control → Control) (s : State) (h1 : (f s.ctl).trip.inForce = s.ctl.trip.inForce) (h2 : (f s.ctl).vio.vout = s.ctl.vio.vout) : TripSafe (onCtl f s) ↔ TripSafe s := by
  simp only [TripSafe, onCtl, h1, h2]
theorem safe_ite {c : Prop} [Decidable c] {a b : State} (ha : TripSafe a) (hb : TripSafe b) : TripSafe (if c then a else b) := by
  split <;> assumption
@[simp] theorem cvuAtCi_safe (s : State) : TripSafe (cvuAtCi s) ↔ TripSafe s := by
  unfold cvuAtCi; exact Iff.rfl
@[simp] theorem snoop_safe (p f : Nat) (first last : Bool) (b : List Byte) (s : State) :
    TripSafe (snoop p f first last b s) ↔ TripSafe s := by
  unfold snoop; simp
@[simp] theorem itemStored_safe (k : Nat) (s : State) : TripSafe (itemStored k s) ↔ TripSafe s := by
  unfold itemStored; exact Iff.rfl
@[simp] theorem bookDiversity_safe (s : State) : TripSafe (bookDiversity s) ↔ TripSafe s := by
  unfold bookDiversity; exact Iff.rfl
@[simp] theorem setDom_safe (d : Nat) (x : DomState) (s : State) : TripSafe (setDom d x s) ↔ TripSafe s := by
  unfold setDom; exact Iff.rfl
@[simp] theorem report_safe (r : RecRing) (code source : Nat) (key detail : List Byte) (s : State) :
    TripSafe (report r code source key detail s) ↔ TripSafe s := by
  unfold report; exact Iff.rfl
@[simp] theorem reportSvc_safe (code source : Nat) (key detail : List Byte) (s : State) :
    TripSafe (reportSvc code source key detail s) ↔ TripSafe s := by
  unfold reportSvc; exact Iff.rfl
@[simp] theorem raise_safe (code : Nat) (result : List Byte) (s : State) :
    TripSafe (raise code result s) ↔ TripSafe s := by
  unfold raise; exact Iff.rfl
@[simp] theorem sendVector_safe (v : Nat) (s : State) : TripSafe (sendVector v s) ↔ TripSafe s := by
  unfold sendVector; simp
@[simp] theorem alert_safe (i : Nat) (s : State) : TripSafe (alert i s) ↔ TripSafe s := by
  unfold alert; simp
@[simp] theorem finishRef_safe (c : CmdRef) (st : Status) (est : Nat) (result data : List Byte) (s : State) :
    TripSafe (finishRef c st est result data s) ↔ TripSafe s := by
  unfold finishRef; exact Iff.rfl
@[simp] theorem finish_safe (c : CmdHdr) (opcode : Nat) (st : Status) (result data : List Byte) (s : State) :
    TripSafe (finish c opcode st result data s) ↔ TripSafe s := by
  unfold finish; exact Iff.rfl
@[simp] theorem faultRecord_safe (l : Lane) (e code further : Nat) (s : State) :
    TripSafe (faultRecord l e code further s) ↔ TripSafe s := by
  unfold faultRecord; dsimp only; split <;> exact Iff.rfl
@[simp] theorem enginesFault_safe (l : Lane) (fs : List (Nat × Nat)) (s : State) :
    TripSafe (enginesFault l fs s) ↔ TripSafe s := by
  unfold enginesFault; (try simp); (repeat' split) <;> simp
@[simp] theorem judgeBarrier_safe (l : Lane) (s : State) : TripSafe (judgeBarrier l s) ↔ TripSafe s := by
  unfold judgeBarrier; simp
@[simp] theorem engStep_safe (opc : Nat) (l : Lane) (e : Nat) (h : Hw) (x : EngArg) (s : State) :
    TripSafe (engStep opc l e h x s) ↔ TripSafe s := by
  unfold engStep; (try simp); (repeat' split) <;> simp
@[simp] theorem allDead_safe (s : State) : TripSafe (allDead s) := by
  intro _ p hp
  obtain ⟨v, e⟩ := smMap_mem hp
  rw [e]; exact ⟨rfl, rfl, rfl, rfl⟩
@[simp] theorem seatChange_safe (k : Seat) (kind : Nat) (out inn : Option Lane) (idOut idIn : BitVec 16) (s : State) :
    TripSafe (seatChange k kind out inn idOut idIn s) ↔ TripSafe s := by
  unfold seatChange; exact Iff.rfl
@[simp] theorem onSeat_safe (k : Seat) (f : SeatState → SeatState) (s : State) :
    TripSafe (onSeat k f s) ↔ TripSafe s := by
  unfold onSeat; exact Iff.rfl
@[simp] theorem setVote_safe (l : Lane) (x : LaneVote) (s : State) : TripSafe (setVote l x s) ↔ TripSafe s := by
  unfold setVote; simp
@[simp] theorem belayState_safe (state : Nat) (causes : BitVec 16) (s : State) :
    TripSafe (belayState state causes s) ↔ TripSafe s := by
  unfold belayState; (try simp); (repeat' split) <;> simp
@[simp] theorem abandonJoin_safe (causes : BitVec 16) (s : State) : TripSafe (abandonJoin causes s) ↔ TripSafe s := by
  unfold abandonJoin; (try simp); (repeat' split) <;> simp
@[simp] theorem joinLost_safe (l : Lane) (s : State) : TripSafe (joinLost l s) ↔ TripSafe s := by
  unfold joinLost; (try simp); (repeat' split) <;> simp
@[simp] theorem cairnAbandon_safe (check : Nat) (s : State) : TripSafe (cairnAbandon check s) ↔ TripSafe s := by
  unfold cairnAbandon; exact Iff.rfl
@[simp] theorem captureSourceLost_safe (l : Lane) (s : State) : TripSafe (captureSourceLost l s) ↔ TripSafe s := by
  unfold captureSourceLost; (try simp); (repeat' split) <;> simp
@[simp] theorem resyncFail_safe (k : Seat) (l : Lane) (code : Nat) (n : Scn) (s : State) :
    TripSafe (resyncFail k l code n s) ↔ TripSafe s := by
  unfold resyncFail; simp
@[simp] theorem laneLeaves_safe (l : Lane) (s : State) : TripSafe (laneLeaves l s) ↔ TripSafe s := by
  unfold laneLeaves; simp
@[simp] theorem abortRef_safe (c : Option CmdRef) (s : State) : TripSafe (abortRef c s) ↔ TripSafe s := by
  unfold abortRef; (try simp); (repeat' split) <;> simp
@[simp] theorem olcRecord_safe (kind status w : Nat) (crc : W32) (s : State) :
    TripSafe (olcRecord kind status w crc s) ↔ TripSafe s := by
  unfold olcRecord; (try simp); (repeat' split) <;> simp
@[simp] theorem olcOvertaken_safe (s : State) : TripSafe (olcOvertaken s) ↔ TripSafe s := by
  unfold olcOvertaken; simp
@[simp] theorem forceRecord_safe (id addr : Nat) (old new : Option Force) (cause : Nat) (s : State) :
    TripSafe (forceRecord id addr old new cause s) ↔ TripSafe s := by
  unfold forceRecord; exact Iff.rfl
@[simp] theorem forcesOvertaken_safe (s : State) : TripSafe (forcesOvertaken s) ↔ TripSafe s := by
  unfold forcesOvertaken; simp
@[simp] theorem changeEnds_safe (s : State) : TripSafe (changeEnds s) ↔ TripSafe s := Iff.rfl
@[simp] theorem schedOvertaken_safe (s : State) : TripSafe (schedOvertaken s) ↔ TripSafe s := by
  unfold schedOvertaken; (try simp); (repeat' split) <;> simp
@[simp] theorem rotationEnds_safe (l : Lane) (st : Status) (s : State) :
    TripSafe (rotationEnds l st s) ↔ TripSafe s := by
  unfold rotationEnds; exact Iff.rfl
@[simp] theorem rotationsAbandoned_safe (s : State) : TripSafe (rotationsAbandoned s) ↔ TripSafe s := by
  unfold rotationsAbandoned; (try simp); (repeat' split) <;> simp
@[simp] theorem debugEnds_safe (s : State) : TripSafe (debugEnds s) ↔ TripSafe s := by
  unfold debugEnds; simp
@[simp] theorem ctlDown_safe (s : State) : TripSafe (ctlDown s) ↔ TripSafe s := by
  unfold ctlDown; simp
@[simp] theorem mgtDown_safe (s : State) (hs : TripSafe s) : TripSafe (mgtDown s) := by
  unfold mgtDown; simp [hs]
@[simp] theorem followerLost_safe (d : Nat) (s : State) : TripSafe (followerLost d s) ↔ TripSafe s := by
  unfold followerLost; exact Iff.rfl
@[simp] theorem domainLost_safe (d : Nat) (s : State) (hs : TripSafe s) : TripSafe (domainLost d s) := by
  have h : TripSafe (followerLost d s) := by simp [hs]
  unfold domainLost; dsimp only
  generalize followerLost d s = q at h
  split <;> first | (simp [h]; done) | skip
  intro _ p hp
  have hp : p ∈ smMap VoutState.zero (fun o => { VoutState.zero with failed := o.failed, retest := o.failed.isSome }) q.ctl.vio.vout := hp
  obtain ⟨v, e⟩ := smMap_mem hp
  rw [e]; exact ⟨rfl, rfl, rfl, rfl⟩
@[simp] theorem holdDomain_safe (d : Nat) (s : State) (hs : TripSafe s) : TripSafe (holdDomain d s) := by
  unfold holdDomain; (try simp [hs]); (repeat' split) <;> simp [hs]
@[simp] theorem attemptEnds_safe (st : Status) (s : State) : TripSafe (attemptEnds st s) ↔ TripSafe s := by
  unfold attemptEnds; exact Iff.rfl
@[simp] theorem noteCause_safe (c : Nat) (s : State) : TripSafe (noteCause c s) ↔ TripSafe s := by
  unfold noteCause; simp
@[simp] theorem countRestart_safe (s : State) : TripSafe (countRestart s) ↔ TripSafe s := by
  unfold countRestart; exact Iff.rfl
@[simp] theorem singleChannel_safe (c : Chan) (entry : Bool) (s : State) :
    TripSafe (singleChannel c entry s) ↔ TripSafe s := by
  unfold singleChannel; simp
@[simp] theorem singleBegins_safe (r : ResetSrc) (s : State) : TripSafe (singleBegins r s) ↔ TripSafe s := by
  unfold singleBegins; (try simp); (repeat' split) <;> simp
@[simp] theorem rawAssert_safe (r : ResetSrc) (s : State) (hs : TripSafe s) : TripSafe (rawAssert r s) := by
  unfold rawAssert; (try dsimp only); (repeat' split) <;> first | exact hs | (simp [hs]; done) | (apply foldl_safe; (intro s a hs; (try dsimp only); (repeat' split) <;> (first | exact hs | simp [hs])); simp [hs])
@[simp] theorem endWait_safe (s : State) : TripSafe (endWait s) ↔ TripSafe s := by
  unfold endWait; exact Iff.rfl
@[simp] theorem bankAfterFail_safe (verifies : Bool) (s : State) (hs : TripSafe s) :
    TripSafe (bankAfterFail verifies s) := by
  unfold bankAfterFail; simp [hs]
@[simp] theorem startFail_safe (st : Status) (s : State) (hs : TripSafe s) : TripSafe (startFail st s) := by
  unfold startFail; simp [hs]
@[simp] theorem assertSrc_safe (r : ResetSrc) (cause : Nat) (s : State) (hs : TripSafe s) :
    TripSafe (assertSrc r cause s) := by
  unfold assertSrc; simp [hs]
@[simp] theorem tripSettle_safe (s : State) (hs : TripSafe s) : TripSafe (tripSettle s) := by
  have k : ∀ (c : Prop) [Decidable c] (r : ResetSrc) (q : State), TripSafe q → TripSafe (if c then rawAssert r q else q) :=
    fun c _ r q h => safe_ite (by simp [h]) h
  have m : ∀ (c : Bool) (r : ResetSrc) (n : Nat) (q : State), TripSafe q → TripSafe (if c then assertSrc r n q else q) :=
    fun c r n q h => safe_ite (by simp [h]) h
  unfold tripSettle
  exact safe_ite (m _ _ _ _ (k _ _ _ (k _ _ _ hs))) hs
@[simp] theorem tripNow_safe (cause : Nat) (reset : Bool) (s : State) : TripSafe (tripNow cause reset s) := by
  unfold tripNow; dsimp only
  have h : ∀ q, TripSafe (onLanes (fun x => { x with core := { x.core with phase := .stopped } }) (allDead q)) := fun q => allDead_safe q
  apply tripSettle_safe
  simp only [schedOvertaken_safe, olcOvertaken_safe]
  split <;> simp [h]
@[simp] theorem trip_safe (cause : Nat) (reset : Bool) (s : State) (hs : TripSafe s) :
    TripSafe (trip cause reset s) := by
  unfold trip
  exact safe_ite hs (safe_ite (by simp [hs]) (safe_ite (tripNow_safe _ _ _) hs))
@[simp] theorem tripXY_safe (s : State) (hs : TripSafe s) : TripSafe (tripXY s) := by
  unfold tripXY; simp [hs]
@[simp] theorem trip2oo2_safe (s : State) (hs : TripSafe s) : TripSafe (trip2oo2 s) := by
  unfold trip2oo2; simp [hs]
@[simp] theorem tripSeats_safe (s : State) (hs : TripSafe s) : TripSafe (tripSeats s) := by
  unfold tripSeats; simp [hs]
@[simp] theorem admWrite_safe (w a v : Nat) (s : State) : TripSafe (admWrite w a v s) ↔ TripSafe s := by
  unfold admWrite; exact Iff.rfl
@[simp] theorem raiseVital_safe (s : State) (r : Rec) : TripSafe (raiseVital s r) ↔ TripSafe s := by
  unfold raiseVital; (try simp); (repeat' split) <;> simp
@[simp] theorem commitAll_safe (rs : List Rec) (r : RecRing) (s : State) :
    TripSafe (commitAll rs r s) ↔ TripSafe s := by
  unfold commitAll; simp
@[simp] theorem commitPage_safe (r : RecRing) (s : State) : TripSafe (commitPage r s) ↔ TripSafe s := by
  unfold commitPage; simp
@[simp] theorem recorderFlush_safe (s : State) : TripSafe (recorderFlush s) ↔ TripSafe s := by
  unfold recorderFlush; simp
@[simp] theorem startFreeze_safe (s : State) : TripSafe (startFreeze s) ↔ TripSafe s := by
  unfold startFreeze; simp
@[simp] theorem logControl_safe (v : W32) (s : State) : TripSafe (logControl v s) ↔ TripSafe s := by
  unfold logControl; simp
@[simp] theorem ringMessage_safe (key : Nat) (s : State) : TripSafe (ringMessage key s) ↔ TripSafe s := by
  unfold ringMessage; dsimp only; (repeat' split) <;> simp
@[simp] theorem onSession_safe (n : Nat) (f : Session → Session) (s : State) :
    TripSafe (onSession n f s) ↔ TripSafe s := by
  unfold onSession; exact Iff.rfl
@[simp] theorem dsend_safe (n type ring count index : Nat) (body : List Byte) (s : State) :
    TripSafe (dsend n type ring count index body s) ↔ TripSafe s := by
  unfold dsend; exact Iff.rfl
@[simp] theorem sendEntry_safe (key n i : Nat) (s : State) : TripSafe (sendEntry key n i s) ↔ TripSafe s := by
  unfold sendEntry; (try simp); (repeat' split) <;> simp
@[simp] theorem writeEntry_safe (key : Nat) (e : Completion) (s : State) :
    TripSafe (writeEntry key e s) ↔ TripSafe s := by
  unfold writeEntry; (try simp); (repeat' split) <;> simp
@[simp] theorem destroyRings_safe (owner : Option Nat) (s : State) : TripSafe (destroyRings owner s) ↔ TripSafe s := by
  unfold destroyRings; exact Iff.rfl
@[simp] theorem pcieReset_safe (s : State) : TripSafe (pcieReset s) ↔ TripSafe s := by
  unfold pcieReset; exact Iff.rfl
@[simp] theorem closeSession_safe (n cause : Nat) (s : State) : TripSafe (closeSession n cause s) ↔ TripSafe s := by
  unfold closeSession; simp
@[simp] theorem bothReset_safe (s : State) : TripSafe (bothReset s) ↔ TripSafe s := by
  unfold bothReset; exact Iff.rfl
@[simp] theorem mbxEnableWrite_safe (s : State) : TripSafe (mbxEnableWrite s) ↔ TripSafe s := by
  unfold mbxEnableWrite; (try simp); (repeat' split) <;> simp
@[simp] theorem pumpOverflow_safe (key : Nat) (s : State) : TripSafe (pumpOverflow key s) ↔ TripSafe s := by
  unfold pumpOverflow; simp
@[simp] theorem streamOne_safe (key : Nat) (s : State) : TripSafe (streamOne key s) ↔ TripSafe s := by
  unfold streamOne; (try simp); (repeat' split) <;> simp
@[simp] theorem streamPump_safe (n key : Nat) (s : State) : TripSafe (streamPump n key s) ↔ TripSafe s := by
  induction n generalizing s with
  | zero => exact Iff.rfl
  | succ n ih => unfold streamPump; simp [ih]
@[simp] theorem streamsTake_safe (n : Nat) (s : State) : TripSafe (streamsTake n s) ↔ TripSafe s := by
  unfold streamsTake; simp
@[simp] theorem streamsPump_safe (s : State) : TripSafe (streamsPump s) ↔ TripSafe s := by
  unfold streamsPump; simp
@[simp] theorem consume_safe (key i : Nat) (s : State) : TripSafe (consume key i s) ↔ TripSafe s := by
  unfold consume; simp
@[simp] theorem doorbellWrite_safe (r i : Nat) (s : State) : TripSafe (doorbellWrite r i s) ↔ TripSafe s := by
  unfold doorbellWrite; simp
@[simp] theorem snoopEntry_safe (session : Option Nat) (r : Nat) (e : Completion) (s : State) :
    TripSafe (snoopEntry session r e s) ↔ TripSafe s := by
  unfold snoopEntry; simp
@[simp] theorem postEvent_safe (e : EventMsg) (s : State) (key : Nat) : TripSafe (postEvent e s key) ↔ TripSafe s := by
  unfold postEvent; simp
@[simp] theorem heard_safe (n : Nat) (s : State) : TripSafe (heard n s) ↔ TripSafe s := by
  unfold heard; exact Iff.rfl
@[simp] theorem giveForces_safe (l : Lane) (s : State) (hs : TripSafe s) : TripSafe (giveForces l s) := by
  unfold giveForces; simp [hs]
@[simp] theorem revokeSeat_safe (k : Seat) (mode : SeatMode) (openFor : Option Lane) (s : State) (hs : TripSafe s) :
    TripSafe (revokeSeat k mode openFor s) := by
  unfold revokeSeat; (try dsimp only); (repeat' split) <;> first | exact hs | (simp [hs]; done) | (apply foldl_safe; (intro s a hs; (try dsimp only); (repeat' split) <;> (first | exact hs | simp [hs])); simp [hs])
@[simp] theorem startTakeover_safe (k : Seat) (s : State) : TripSafe (startTakeover k s) ↔ TripSafe s := by
  unfold startTakeover; (try simp); (repeat' split) <;> simp
@[simp] theorem seatVacated_safe (k : Seat) (s : State) : TripSafe (seatVacated k s) ↔ TripSafe s := by
  unfold seatVacated; (try simp); (repeat' split) <;> simp
@[simp] theorem leaveOdd_safe (k : Seat) (l : Lane) (s : State) (hs : TripSafe s) : TripSafe (leaveOdd k l s) := by
  unfold leaveOdd; simp [hs]
@[simp] theorem leaveWithdrawn_safe (k : Seat) (l : Lane) (s : State) (hs : TripSafe s) :
    TripSafe (leaveWithdrawn k l s) := by
  unfold leaveWithdrawn; simp [hs]
@[simp] theorem emitted_safe (h : Half) (l : Lane) (s : State) : TripSafe (emitted h l s) ↔ TripSafe s := by
  unfold emitted; exact Iff.rfl
@[simp] theorem onHalf_safe (h : Half) (f : HalfVote → HalfVote) (s : State) :
    TripSafe (onHalf h f s) ↔ TripSafe s := by
  unfold onHalf; exact Iff.rfl
@[simp] theorem onWord_safe (h : Half) (w : Nat) (f : WordVote → WordVote) (s : State) :
    TripSafe (onWord h w f s) ↔ TripSafe s := by
  unfold onWord; exact Iff.rfl
@[simp] theorem voteWord_safe (h : Half) (w : Nat) (s : State) (hs : TripSafe s) : TripSafe (voteWord h w s) := by
  unfold voteWord; (try simp [hs]); (repeat' split) <;> simp [hs]
@[simp] theorem laneJudged_safe (l : Lane) (seat cause code word before after : Nat) (voted odd : W64) (s : State) :
    TripSafe (laneJudged l seat cause code word before after voted odd s) ↔ TripSafe s := by
  unfold laneJudged; exact Iff.rfl
@[simp] theorem judgeOut_safe (w : Nat) (k : Seat) (j : Judgement) (s : State) (hs : TripSafe s) :
    TripSafe (judgeOut w k j s) := by
  unfold judgeOut; (try simp [hs]); (repeat' split) <;> simp [hs]
@[simp] theorem deliver_safe (w : Nat) (v : W64) (s : State) : TripSafe (deliver w v s) ↔ TripSafe s := by
  unfold deliver; simp
@[simp] theorem snoopWord_safe (w : Nat) (v : W64) (s : State) : TripSafe (snoopWord w v s) ↔ TripSafe s := by
  unfold snoopWord; simp
@[simp] theorem exchangeSeat_safe (w : Nat) (s : State) (k : Seat) (hs : TripSafe s) :
    TripSafe (exchangeSeat w s k) := by
  unfold exchangeSeat; (try simp [hs]); (repeat' split) <;> simp [hs]
@[simp] theorem captureStart_safe (s : State) : TripSafe (captureStart s) ↔ TripSafe s := by
  unfold captureStart; (try simp); (repeat' split) <;> simp
@[simp] theorem xyWord_safe (w : Nat) (s : State) (hs : TripSafe s) : TripSafe (xyWord w s) := by
  have f : ∀ q, TripSafe q → TripSafe (Seat.list.foldl (exchangeSeat w) q) := foldl_safe _ (fun s a h => by simp [h]) _
  have c : ∀ (p : Prop) [Decidable p] (q : State), TripSafe q → TripSafe (if p then captureStart q else q) :=
    fun p _ q h => safe_ite (by simp [h]) h
  have d : ∀ (p : Prop) [Decidable p] (g : Voter → Voter) (q : State), TripSafe q → TripSafe (if p then onVoter g q else q) :=
    fun p _ g q h => safe_ite (by simp [h]) h
  unfold xyWord
  refine safe_ite hs ?_
  split
  · exact safe_ite (by simp [hs]) (c _ _ (d _ _ _ (f _ (by simp [safe_ite, hs]))))
  · exact hs
@[simp] theorem settleWord_safe (h : Half) (w : Nat) (s : State) (hs : TripSafe s) : TripSafe (settleWord h w s) := by
  unfold settleWord; (try dsimp only); (repeat' split) <;> first | exact hs | (simp [hs]; done) | (apply foldl_safe; (intro s a hs; (try dsimp only); (repeat' split) <;> (first | exact hs | simp [hs])); simp [hs])
@[simp] theorem atComparator_safe (h : Half) (k : Seat) (w : Nat) (v : VoteVal) (s : State) :
    TripSafe (atComparator h k w v s).2 ↔ TripSafe s := by
  unfold atComparator; (try dsimp only); (repeat' split) <;> first | exact Iff.rfl | simp
@[simp] theorem placeRecord_safe (h : Half) (k : Seat) (w : Nat) (v : VoteVal) (s : State) :
    TripSafe (placeRecord h k w v s) ↔ TripSafe s := by
  unfold placeRecord; simp
@[simp] theorem placeShadow_safe (h : Half) (l : Lane) (w : Nat) (ok : Bool) (v : W64) (s : State) :
    TripSafe (placeShadow h l w ok v s) ↔ TripSafe s := by
  unfold placeShadow; exact Iff.rfl
@[simp] theorem dueNext_safe (h : Half) (l : Lane) (s : State) : TripSafe (dueNext h l s) ↔ TripSafe s := by
  unfold dueNext; exact Iff.rfl
@[simp] theorem withdrawAfter_safe (h : Half) (k : Seat) (w : Nat) (s : State) (hs : TripSafe s) :
    TripSafe (withdrawAfter h k w s) := by
  unfold withdrawAfter; simp [hs]
@[simp] theorem takeRecord_safe (h : Half) (l : Lane) (r : CommitRec) (s : State) (hs : TripSafe s) :
    TripSafe (takeRecord h l r s) := by
  unfold takeRecord; (try simp [hs]); (repeat' split) <;> simp [hs]
@[simp] theorem acceptRecord_safe (h : Half) (l : Lane) (r : CommitRec) (parityOk : Bool) (s : State) (hs : TripSafe s) :
    TripSafe (acceptRecord h l r parityOk s) := by
  unfold acceptRecord; simp [hs]
@[simp] theorem snoopRecord_safe (h : Half) (l : Lane) (r : CommitRec) (s : State) :
    TripSafe (snoopRecord h l r s) ↔ TripSafe s := by
  unfold snoopRecord; simp
@[simp] theorem overrunRecord_safe (coinciding : BitVec 16) (s : State) :
    TripSafe (overrunRecord coinciding s) ↔ TripSafe s := by
  unfold overrunRecord; exact Iff.rfl
@[simp] theorem onTables_safe (f : SMap Force → SMap Force) (s : State) : TripSafe (onTables f s) ↔ TripSafe s := by
  unfold onTables; simp
@[simp] theorem removeForces_safe (sel : Nat → Force → Bool) (cause : Nat) (s : State) :
    TripSafe (removeForces sel cause s) ↔ TripSafe s := by
  unfold removeForces; simp
@[simp] theorem pAnyRemoval_safe (s : State) : TripSafe (pAnyRemoval s) ↔ TripSafe s := by
  unfold pAnyRemoval; simp
@[simp] theorem slotAct_safe (s : State) (j : Nat) : TripSafe (slotAct s j) ↔ TripSafe s := by
  have h : ∀ a b v q, TripSafe (forceAct a b v q).1 ↔ TripSafe q := by
    intro a b v q; unfold forceAct; dsimp only
    repeat' split
    all_goals simp
  unfold slotAct; dsimp only; split
  · simp
  · rw [onForce_safe, h, onForce_safe]
@[simp] theorem forceLatch_safe (s : State) : TripSafe (forceLatch s) ↔ TripSafe s := by
  unfold forceLatch
  rw [onForce_safe]
  exact (foldl_iff _ (fun s j => slotAct_safe s j) _ _).trans (by simp)
@[simp] theorem fillSlot_safe (s : State) : TripSafe (fillSlot s) ↔ TripSafe s := by
  unfold fillSlot; (try simp); (repeat' split) <;> simp
@[simp] theorem fillSlots_safe (s : State) : TripSafe (fillSlots s) ↔ TripSafe s := by
  unfold fillSlots; simp
@[simp] theorem enqueueForce_safe (c : CmdRef) (fop id : Nat) (v : BitVec 16) (s : State) :
    TripSafe (enqueueForce c fop id v s) ↔ TripSafe s := by
  unfold enqueueForce; simp
@[simp] theorem storeForce_safe (id : Nat) (v : BitVec 16) (s : State) : TripSafe (storeForce id v s) ↔ TripSafe s := by
  unfold storeForce; (try simp); (repeat' split) <;> simp
@[simp] theorem syncStore_safe (t : SMap Force) (s : State) : TripSafe (syncStore t s) ↔ TripSafe s := by
  unfold syncStore; simp
@[simp] theorem completeForces_safe (n : Scn) (s : State) : TripSafe (completeForces n s) ↔ TripSafe s := by
  unfold completeForces
  rw [fillSlots_safe, onForce_safe]
  refine foldl_iff _ ?_ _ _
  intro s q; dsimp only; split <;> simp
@[simp] theorem carryForces_safe (old new : Image) (s : State) (hs : TripSafe s) :
    TripSafe (carryForces old new s) := by
  unfold carryForces; simp [hs]
@[simp] theorem storedSurvive_safe (i : Image) (service : Bool) (s : State) :
    TripSafe (storedSurvive i service s) ↔ TripSafe s := by
  unfold storedSurvive; simp
@[simp] theorem storeBack_safe (id : Nat) (s : State) : TripSafe (storeBack id s) ↔ TripSafe s := by
  unfold storeBack; (try simp); (repeat' split) <;> simp
@[simp] theorem finishSwap_safe (st : Status) (result : List Byte) (s : State) :
    TripSafe (finishSwap st result s) ↔ TripSafe s := by
  unfold finishSwap; (try simp); (repeat' split) <;> simp
@[simp] theorem finishCancel_safe (st : Status) (result : List Byte) (s : State) :
    TripSafe (finishCancel st result s) ↔ TripSafe s := by
  unfold finishCancel; (try simp); (repeat' split) <;> simp
@[simp] theorem finishLoad_safe (st : Status) (result : List Byte) (s : State) :
    TripSafe (finishLoad st result s) ↔ TripSafe s := by
  unfold finishLoad; (try simp); (repeat' split) <;> simp
@[simp] theorem olcIdle_safe (s : State) : TripSafe (olcIdle s) ↔ TripSafe s := by
  unfold olcIdle; exact Iff.rfl
@[simp] theorem oseqAct_safe (s : State) (hs : TripSafe s) : TripSafe (oseqAct s) := by
  unfold oseqAct; (try simp [hs]); (repeat' split) <;> simp [hs]
@[simp] theorem swapNow_safe (old new : Image) (s : State) (hs : TripSafe s) : TripSafe (swapNow old new s) := by
  have f : ∀ q, TripSafe q → TripSafe ((Lane.list.filter (swaps q new)).foldl (fun s l => onLane l (swapLane old new) s) q) :=
    fun q h => foldl_safe _ (fun s a h => (onLane_safe _ _ _).mpr h) _ _ h
  unfold swapNow
  simp only [onForce_safe, onOlc_safe, onVoter_safe]
  refine f _ (carryForces_safe _ _ _ (foldl_safe _ ?_ _ _ hs))
  intro s a h; split <;> simp [h]
@[simp] theorem swapBoundary_safe (s : State) (hs : TripSafe s) : TripSafe (swapBoundary s) := by
  unfold swapBoundary atScan
  refine safe_ite ?_ hs
  split
  · refine (onVoter_safe _ _).mpr (safe_ite (by simp [hs]) ?_)
    split <;> simp [hs]
  · exact hs
@[simp] theorem dissentRecord_safe (kind mask : Nat) (st : Status) (crc : Nat) (s : State) :
    TripSafe (dissentRecord kind mask st crc s) ↔ TripSafe s := by
  unfold dissentRecord; simp
@[simp] theorem noteCertificate_safe (b : List Byte) (r : Except Status Image) (s : State) :
    TripSafe (noteCertificate b r s) ↔ TripSafe s := by
  unfold noteCertificate; exact Iff.rfl
@[simp] theorem stagingFails_safe (st : Status) (s : State) : TripSafe (stagingFails st s) ↔ TripSafe s := by
  unfold stagingFails; simp
@[simp] theorem changeCheck_safe (s : State) (b : List Byte) : TripSafe (changeCheck s b).1 ↔ TripSafe s := by
  unfold changeCheck; (try dsimp only); (repeat' split) <;> first | exact Iff.rfl | simp
@[simp] theorem stagingVerdict_safe (s : State) : TripSafe (stagingVerdict s) ↔ TripSafe s := by
  unfold stagingVerdict; (try simp); (repeat' split) <;> simp
@[simp] theorem stageLane_safe (l : Lane) (i : Image) (s : State) : TripSafe (stageLane l i s) ↔ TripSafe s := by
  unfold stageLane; simp
@[simp] theorem dropLoad_safe (s : State) : TripSafe (dropLoad s) ↔ TripSafe s := by
  unfold dropLoad; simp
@[simp] theorem notCarried_safe (i : Image) (s : State) : TripSafe (notCarried i s) ↔ TripSafe s := by
  unfold notCarried; simp
@[simp] theorem writeOseq_safe (oop : Nat) (w : Scn) (s : State) (hs : TripSafe s) : TripSafe (writeOseq oop w s) := by
  unfold writeOseq; simp [hs]
@[simp] theorem schedEvent_safe (t : Nat) (st : Status) (m : Scn) (s : State) :
    TripSafe (schedEvent t st m s) ↔ TripSafe s := by
  unfold schedEvent; exact Iff.rfl
@[simp] theorem laneDecides_safe (s : State) (l : Lane) : TripSafe (laneDecides s l) ↔ TripSafe s := Iff.rfl
@[simp] theorem schedAbort_safe (c : SchedChange) (a : Scn) (s : State) : TripSafe (schedAbort c a s) ↔ TripSafe s := by
  unfold schedAbort; exact Iff.rfl
@[simp] theorem mergeRecords_safe (l : Lane) (s : State) : TripSafe (mergeRecords l s) ↔ TripSafe s := by
  unfold mergeRecords; (try dsimp only); (repeat' split) <;> first | exact Iff.rfl | (simp; done) | (apply foldl_iff; (intro s a; (try dsimp only); (repeat' split) <;> (first | exact Iff.rfl | simp)))
@[simp] theorem sealRecord_safe (kind : Nat) (s : State) : TripSafe (sealRecord kind s) ↔ TripSafe s := by
  unfold sealRecord; exact Iff.rfl
@[simp] theorem judgeBank_safe (s : State) : TripSafe (judgeBank s) ↔ TripSafe s := by
  unfold judgeBank; simp
@[simp] theorem firstRelease_safe (s : State) (hs : TripSafe s) : TripSafe (firstRelease s) := by
  unfold firstRelease; (try simp [hs]); (repeat' split) <;> simp [hs]
@[simp] theorem comparatorRecord_safe (s : State) : TripSafe (comparatorRecord s) ↔ TripSafe s := by
  unfold comparatorRecord; (try simp); (repeat' split) <;> simp
@[simp] theorem grantSeat_safe (k : Seat) (l : Lane) (s : State) : TripSafe (grantSeat k l s) ↔ TripSafe s := by
  unfold grantSeat; simp
@[simp] theorem endSilent_safe (s : State) (hs : TripSafe s) : TripSafe (endSilent s) := by
  unfold endSilent; simp [hs]
@[simp] theorem silentRelease_safe (s : State) (hs : TripSafe s) : TripSafe (silentRelease s) := by
  unfold silentRelease; simp [hs]
@[simp] theorem starReports_safe (s : State) (hs : TripSafe s) : TripSafe (starReports s) := by
  unfold starReports; (try dsimp only); (repeat' split) <;> first | exact hs | (simp [hs]; done) | (apply foldl_safe; (intro s a hs; (try dsimp only); (repeat' split) <;> (first | exact hs | simp [hs])); simp [hs])
@[simp] theorem openSeat_safe (s : State) (k : Seat) : TripSafe (openSeat s k) ↔ TripSafe s := by
  unfold openSeat; dsimp only; (repeat' split) <;> simp
@[simp] theorem standing_safe (s : State) (k : Seat) (hs : TripSafe s) : TripSafe (standing s k) := by
  unfold standing; (try simp [hs]); (repeat' split) <;> simp [hs]
@[simp] theorem debugHalt_safe (s : State) (hs : TripSafe s) : TripSafe (debugHalt s) := by
  unfold debugHalt; (try simp [hs]); (repeat' split) <;> simp [hs]
@[simp] theorem completeHandover_safe (k : Seat) (j : Join) (s : State) :
    TripSafe (completeHandover k j s) ↔ TripSafe s := by
  unfold completeHandover; dsimp only; (repeat' split) <;> simp
@[simp] theorem leaseEnds_safe (k : Seat) (s : State) : TripSafe (leaseEnds k s) ↔ TripSafe s := by
  unfold leaseEnds; simp
@[simp] theorem joinBarrier_safe (j : Join) (s : State) (hs : TripSafe s) : TripSafe (joinBarrier j s) := by
  unfold joinBarrier; (try simp [hs]); (repeat' split) <;> simp [hs]
@[simp] theorem joinStep_safe (s : State) (hs : TripSafe s) : TripSafe (joinStep s) := by
  unfold joinStep; (try simp [hs]); (repeat' split) <;> simp [hs]
@[simp] theorem releaseHome_safe (s : State) (hs : TripSafe s) : TripSafe (releaseHome s) := by
  unfold releaseHome; (try simp [hs]); (repeat' split) <;> simp [hs]
@[simp] theorem startPlanned_safe (s : State) (hs : TripSafe s) : TripSafe (startPlanned s) := by
  unfold startPlanned; (try simp [hs]); (repeat' split) <;> simp [hs]
@[simp] theorem retryTakeover_safe (s : State) : TripSafe (retryTakeover s) ↔ TripSafe s := by
  unfold retryTakeover; simp
@[simp] theorem renew_safe (s : State) (k : Seat) : TripSafe (renew s k) ↔ TripSafe s := by
  unfold renew; (try simp); (repeat' split) <;> simp
@[simp] theorem diversityStep_safe (s : State) : TripSafe (diversityStep s) ↔ TripSafe s := by
  unfold diversityStep; simp
@[simp] theorem votedRelease_safe (s : State) (hs : TripSafe s) : TripSafe (votedRelease s) := by
  have f : ∀ (g : State → Seat → State), (∀ q k, TripSafe q → TripSafe (g q k)) → ∀ q, TripSafe q → TripSafe (Seat.list.foldl g q) :=
    fun g hg q h => foldl_safe g (fun s a h => hg s a h) _ q h
  have h1 : TripSafe (if cairnScan (scn s) && (voter s).capture.isSome then cairnAbandon 4 s else s) := safe_ite (by simp [hs]) hs
  have h2 := debugHalt_safe _ (f standing (fun q k h => by simp [h]) _ (starReports_safe _ h1))
  have h3 : ∀ q, TripSafe q → TripSafe (retryTakeover (joinStep (Seat.list.foldl openSeat q))) := fun q h => by
    have := f openSeat (fun q k h => by simp [h]) q h
    simp [this]
  have h4 : ∀ q, TripSafe q → TripSafe (diversityStep (startPlanned (Seat.list.foldl renew q))) := fun q h => by
    have := f renew (fun q k h => by simp [h]) q h
    simp [this]
  unfold votedRelease
  exact safe_ite h2 (safe_ite (tripSeats_safe _ h2) (safe_ite (h3 _ h2) (h4 _ (h3 _ h2))))
@[simp] theorem changeReaches_safe (s : State) (l : Lane) : TripSafe (changeReaches s l) ↔ TripSafe s := by
  unfold changeReaches; (repeat' split) <;> first | exact Iff.rfl | simp
@[simp] theorem requests_safe (s : State) (hs : TripSafe s) : TripSafe (requests s) := by
  unfold requests; simp [hs]
@[simp] theorem mergeNoted_safe (runners : List Lane) (s : State) : TripSafe (mergeNoted runners s) ↔ TripSafe s := by
  unfold mergeNoted; (try simp); (repeat' split) <;> simp
@[simp] theorem latchAll_safe (cost : Nat) (runners : List Lane) (s : State) :
    TripSafe (latchAll cost runners s) ↔ TripSafe s := by
  unfold latchAll; simp
@[simp] theorem haltedPiece_safe (s : State) : TripSafe (haltedPiece s) ↔ TripSafe s := by
  unfold haltedPiece; (try simp); (repeat' split) <;> simp
@[simp] theorem pieceDone_safe (s : State) : TripSafe (pieceDone s) ↔ TripSafe s := by
  unfold pieceDone; (try simp); (repeat' split) <;> simp
@[simp] theorem noteBefore_safe (s : State) : TripSafe (noteBefore s) ↔ TripSafe s := by
  unfold noteBefore; exact Iff.rfl
@[simp] theorem launch_safe (s : State) : TripSafe (launch s) ↔ TripSafe s := by
  unfold launch; simp
@[simp] theorem releaseScan_safe (s : State) (hs : TripSafe s) : TripSafe (releaseScan s) := by
  have h1 : TripSafe (swapBoundary (if (voter s).released then s else firstRelease s)) := by
    refine swapBoundary_safe _ (safe_ite hs (by simp [hs]))
  have x : ∀ (c : Prop) [Decidable c] (q : State), TripSafe q → TripSafe (if c then tripXY q else q) :=
    fun c _ q h => safe_ite (by simp [h]) h
  have r : ∀ (c : Bool) (q : State), TripSafe q → TripSafe (if c then silentRelease q else votedRelease q) :=
    fun c q h => safe_ite (by simp [h]) (by simp [h])
  have l : ∀ (c : Bool) (q : State), TripSafe q → TripSafe (if c then launch (requests q) else q) :=
    fun c q h => safe_ite (by simp [h]) h
  unfold releaseScan
  exact safe_ite h1 (safe_ite (x _ _ ((onVoter_safe _ _).mpr h1)) (l _ _ (r _ _ (x _ _ ((onVoter_safe _ _).mpr h1)))))
@[simp] theorem debugResume_safe (s : State) (hs : TripSafe s) : TripSafe (debugResume s) := by
  unfold debugResume; (try simp [hs]); (repeat' split) <;> simp [hs]
@[simp] theorem debugDetach_safe (s : State) (hs : TripSafe s) : TripSafe (debugDetach s) := by
  unfold debugDetach; simp [hs]
@[simp] theorem debugSwitches_safe (s : State) (hs : TripSafe s) : TripSafe (debugSwitches s) := by
  unfold debugSwitches; simp [hs]
@[simp] theorem onVout_safe (k : Nat) (f : VoutState → VoutState) (s : State) (h : ∀ v, VoutDead v → VoutDead (f v)) (hs : TripSafe s) :
    TripSafe (onVout k f s) := by
  intro t p hp
  rcases smSet_mem hp with e | e
  · rw [e]; refine h _ ?_
    rcases smGet_mem VoutState.zero s.ctl.vio.vout k with z | z
    · show VoutDead (smGet VoutState.zero s.ctl.vio.vout k); rw [z]; exact ⟨rfl, rfl, rfl, rfl⟩
    · exact hs t _ z
  · exact hs t _ e

@[simp] theorem vinChange_safe (c : Nat) (f : VinState → VinState) (s : State) (hs : TripSafe s) :
    TripSafe (vinChange c f s) := by
  have h : ∀ g : VioState → VioState, (∀ v, (g v).vout = v.vout) → TripSafe (onVio g s) := by
    intro g e t p hp
    refine hs t p ?_
    have hp : p ∈ (g s.ctl.vio).vout := hp
    rwa [e] at hp
  unfold vinChange; dsimp only; split
  · exact trip_safe _ _ _ (h _ (fun _ => rfl))
  · exact h _ (fun _ => rfl)
@[simp] theorem vinFaultRecord_safe (c : Nat) (b entered : Bool) (s : State) :
    TripSafe (vinFaultRecord c b entered s) ↔ TripSafe s := by
  unfold vinFaultRecord; exact Iff.rfl
@[simp] theorem voutFailedRecord_safe (k cause : Nat) (s : State) :
    TripSafe (voutFailedRecord k cause s) ↔ TripSafe s := by
  unfold voutFailedRecord; exact Iff.rfl
@[simp] theorem failVout_safe (k : Nat) (c : Nat) (s : State) (hs : TripSafe s) : TripSafe (failVout k c s) := by
  unfold failVout
  refine onVout_safe _ _ _ (fun _ _ => ⟨rfl, rfl, rfl, rfl⟩) (by simp [hs])
@[simp] theorem loadReading_safe (s : State) (p : Nat × Nat) (hs : TripSafe s) : TripSafe (loadReading s p) := by
  unfold loadReading; dsimp only; split
  · exact hs
  · refine onVout_safe _ _ _ ?_ ?_
    · intro v ⟨a, b, c, d⟩
      by_cases e : v.learnCount < 64
      · rw [if_pos e]; exact ⟨a, b, c, d⟩
      · rw [if_neg e]; exact ⟨a, b, c, d⟩
    · split <;> simp [hs]
@[simp] theorem applyWord_safe (m : Means) (w : W64) (s : State) (ht : s.ctl.trip.inForce = false) :
    TripSafe (applyWord m w s) := by
  have h : ∀ (l : List Nat) (f : Nat → VoutState → State → VoutState) (q : State), q.ctl.trip.inForce = false →
      (l.foldl (fun s k => onVout k (fun v => f k v s) s) q).ctl.trip.inForce = false := by
    intro l f; induction l with
    | nil => intro q h; exact h
    | cons a r ih => intro q h; exact ih _ h
  intro t
  refine absurd t ?_
  unfold applyWord
  exact Bool.eq_false_iff.mp (h _ (fun k v s => applyOutput s.clk.tick m (stageDead s k) (if k = aliveKey then true else w.getLsbD k && (smGet VoutCfg.zero s.ctl.vio.voutCfg k).use) v) s ht)
@[simp] theorem voutApply_safe (m : Means) (n : Scn) (s : State) (hs : TripSafe s) : TripSafe (voutApply m n s) := by
  unfold voutApply; split
  · exact hs
  · rename_i h
    have h : s.ctl.trip.inForce = false := by
      cases e : s.ctl.trip.inForce
      · rfl
      · simp [e] at h
    split
    · exact hs
    · split
      · simp [hs]
      · split
        · exact hs
        · exact applyWord_safe _ _ _ h
@[simp] theorem trackDiff_safe (s : State) : TripSafe (trackDiff s) ↔ TripSafe s := by
  unfold trackDiff; simp
@[simp] theorem judgeDiff_safe (s : State) (hs : TripSafe s) : TripSafe (judgeDiff s) := by
  unfold judgeDiff; simp [hs]
@[simp] theorem vfRecord_safe (entered : Bool) (v : BitVec 16) (s : State) :
    TripSafe (vfRecord entered v s) ↔ TripSafe s := by
  unfold vfRecord; exact Iff.rfl
@[simp] theorem takeReady_safe (h : Half) (l : Lane) (r : ReadyWord) (s : State) :
    TripSafe (takeReady h l r s) ↔ TripSafe s := by
  unfold takeReady; (try simp); (repeat' split) <;> simp
@[simp] theorem firstShadow_safe (src l : Lane) (s : State) (hs : TripSafe s) : TripSafe (firstShadow src l s) := by
  unfold firstShadow; simp [hs]
@[simp] theorem takeReport_safe (r : BelayReport) (s : State) : TripSafe (takeReport r s) ↔ TripSafe s := by
  unfold takeReport; (try simp); (repeat' split) <;> simp
@[simp] theorem diversityRecord_safe (kind : Nat) (s : State) : TripSafe (diversityRecord kind s) ↔ TripSafe s := by
  unfold diversityRecord; exact Iff.rfl
@[simp] theorem diversityExpiry_safe (s : State) (hs : TripSafe s) : TripSafe (diversityExpiry s) := by
  unfold diversityExpiry; simp [hs]
@[simp] theorem onFollower_safe (f : Follower) (g : FollowerState → FollowerState) (s : State) :
    TripSafe (onFollower f g s) ↔ TripSafe s := by
  unfold onFollower; exact Iff.rfl
@[simp] theorem passInstant_safe (f : Follower) (net xm : Option Int) (s : State) :
    TripSafe (passInstant f net xm s) ↔ TripSafe s := by
  unfold passInstant; simp
@[simp] theorem coldNotice_safe (ch : Chan) (s : State) : TripSafe (coldNotice ch s) ↔ TripSafe s := by
  unfold coldNotice; (try simp); (repeat' split) <;> simp
@[simp] theorem firstBeacon_safe (ch : Chan) (s : State) : TripSafe (firstBeacon ch s) ↔ TripSafe s := by
  unfold firstBeacon; (try simp); (repeat' split) <;> simp
@[simp] theorem pulseStep_safe (s : State) : TripSafe (pulseStep s) ↔ TripSafe s := by
  unfold pulseStep; exact Iff.rfl
@[simp] theorem snapDone_safe (n : Scn) (s : State) : TripSafe (snapDone n s) ↔ TripSafe s := by
  unfold snapDone; simp
@[simp] theorem reportLane_safe (ch : Chan) (code : Nat) (l : Lane) (s : State) :
    TripSafe (reportLane ch code l s) ↔ TripSafe s := by
  unfold reportLane; exact Iff.rfl
@[simp] theorem leaderPasses_safe (ch : Chan) (r : SyncRec) (rs : List SyncRec) (s : State) :
    TripSafe (leaderPasses ch r rs s) ↔ TripSafe s := by
  unfold leaderPasses; (try simp); (repeat' split) <;> simp
@[simp] theorem syncDisagree_safe (ch : Chan) (s : State) (hs : TripSafe s) : TripSafe (syncDisagree ch s) := by
  unfold syncDisagree; simp [hs]
@[simp] theorem decideSync_safe (ch : Chan) (rs : List SyncRec) (s : State) (hs : TripSafe s) :
    TripSafe (decideSync ch rs s) := by
  unfold decideSync; (try simp [hs]); (repeat' split) <;> simp [hs]
@[simp] theorem beaconDecide_safe (ch : Chan) (s : State) (hs : TripSafe s) : TripSafe (beaconDecide ch s) := by
  unfold beaconDecide; (try simp [hs]); (repeat' split) <;> simp [hs]
@[simp] theorem codeRecordReport_safe (ch : Chan) (p row : Nat) (n : Scn) (s : State) :
    TripSafe (codeRecordReport ch p row n s) ↔ TripSafe s := by
  unfold codeRecordReport; exact Iff.rfl
@[simp] theorem sendDown_safe (ch : Chan) (k : Nat) (f : DownFrame) (s : State) :
    TripSafe (sendDown ch k f s) ↔ TripSafe s := by
  unfold sendDown; simp
@[simp] theorem setPortMode_safe (ch : Chan) (p : Nat) (m : PortMode) (s : State) :
    TripSafe (setPortMode ch p m s) ↔ TripSafe s := by
  unfold setPortMode; simp
@[simp] theorem isolationRecord_safe (ch : Chan) (p : Nat) (start cal : Bool) (s : State) :
    TripSafe (isolationRecord ch p start cal s) ↔ TripSafe s := by
  unfold isolationRecord; exact Iff.rfl
@[simp] theorem lockRecord_safe (ch : Chan) (p : Nat) (lock : Bool) (s : State) :
    TripSafe (lockRecord ch p lock s) ↔ TripSafe s := by
  unfold lockRecord; exact Iff.rfl
@[simp] theorem isolatePort_safe (ch : Chan) (p c : Nat) (cal : Bool) (s : State) :
    TripSafe (isolatePort ch p c cal s) ↔ TripSafe s := by
  unfold isolatePort; simp
@[simp] theorem eighthViolation_safe (ch : Chan) (p c : Nat) (s : State) :
    TripSafe (eighthViolation ch p c s) ↔ TripSafe s := by
  unfold eighthViolation; simp
@[simp] theorem violation_safe (ch : Chan) (p c : Nat) (s : State) : TripSafe (violation ch p c s) ↔ TripSafe s := by
  unfold violation; simp
@[simp] theorem calRecord_safe (ch : Chan) (p kind : Nat) (s : State) :
    TripSafe (calRecord ch p kind s) ↔ TripSafe s := by
  unfold calRecord; exact Iff.rfl
@[simp] theorem trackSample_safe (ch : Chan) (p c d : Nat) (s : State) :
    TripSafe (trackSample ch p c d s) ↔ TripSafe s := by
  unfold trackSample; simp
@[simp] theorem delaySample_safe (ch : Chan) (p c : Nat) (d : Int) (s : State) :
    TripSafe (delaySample ch p c d s) ↔ TripSafe s := by
  unfold delaySample; simp
@[simp] theorem acceptFrame_safe (ch : Chan) (p start : Nat) (b : List Byte) (s : State) :
    TripSafe (acceptFrame ch p start b s) ↔ TripSafe s := by
  unfold acceptFrame; simp
@[simp] theorem bistResult_safe (r : RecRing) (block test : Nat) (st : Status) (used : Nat) (s : State) :
    TripSafe (bistResult r block test st used s) ↔ TripSafe s := by
  unfold bistResult; exact Iff.rfl
@[simp] theorem coldRefused_safe (ch : Chan) (src : Nat) (s : State) :
    TripSafe (coldRefused ch src s) ↔ TripSafe s := by
  unfold coldRefused; exact Iff.rfl
@[simp] theorem coldDecide_safe (ch : Chan) (s : State) : TripSafe (coldDecide ch s) ↔ TripSafe s := by
  unfold coldDecide; (try simp); (repeat' split) <;> simp
@[simp] theorem dropSource_safe (r : ResetSrc) (s : State) : TripSafe (dropSource r s) ↔ TripSafe s := by
  unfold dropSource; exact Iff.rfl
@[simp] theorem offStars_safe (s : State) : TripSafe (offStars s) ↔ TripSafe s := by
  unfold offStars; simp
@[simp] theorem wake_safe (s : State) : TripSafe (wake s) ↔ TripSafe s := by
  unfold wake; simp
@[simp] theorem releaseSrc_safe (r : ResetSrc) (s : State) : TripSafe (releaseSrc r s) ↔ TripSafe s := by
  unfold releaseSrc; simp
@[simp] theorem bistStopped_safe (s : State) : TripSafe (bistStopped s) ↔ TripSafe s := by
  unfold bistStopped; exact Iff.rfl
@[simp] theorem mainPowerLost_safe (s : State) (hs : TripSafe s) : TripSafe (mainPowerLost s) := by
  unfold mainPowerLost; simp [hs]
@[simp] theorem retentionLost_safe (s : State) (hs : TripSafe s) : TripSafe (retentionLost s) := by
  have h1 : TripSafe (if asserted s .mainPor then s else mainPowerLost s) := by split <;> simp [hs]
  have h2 : TripSafe (assertSrc .retPor (sourceCause .retPor) (if asserted s .mainPor then s else mainPowerLost s)) := by simp [h1]
  exact h2
@[simp] theorem watchdogReset_safe (s : State) (hs : TripSafe s) : TripSafe (watchdogReset s) := by
  unfold watchdogReset; simp [hs]
@[simp] theorem sampleStrap_safe (counts : List Nat) (s : State) : TripSafe (sampleStrap counts s) ↔ TripSafe s := by
  unfold sampleStrap; exact Iff.rfl
@[simp] theorem enterRecovery_safe (s : State) (hs : TripSafe s) : TripSafe (enterRecovery s) := by
  have h1 : TripSafe (rawAssert .ctrlReset (onPower (fun p => { p with recovery := true }) s)) := by simp [hs]
  have h2 : TripSafe (rawAssert (.starReset .a) (rawAssert .ctrlReset (onPower (fun p => { p with recovery := true }) s))) := by simp [h1]
  unfold enterRecovery; simp [h2]
@[simp] theorem electricRecord_safe (ring : RecRing) (which : Nat) (key : List Byte) (s : State) :
    TripSafe (electricRecord ring which key s) ↔ TripSafe s := by
  unfold electricRecord; exact Iff.rfl
@[simp] theorem measureStore_safe (energyMj : Nat) (s : State) : TripSafe (measureStore energyMj s) ↔ TripSafe s := by
  unfold measureStore; simp
@[simp] theorem countPowerCycle_safe (s : State) : TripSafe (countPowerCycle s) ↔ TripSafe s := by
  unfold countPowerCycle; (try simp); (repeat' split) <;> simp
@[simp] theorem beginAttempt_safe (viaMgt : Bool) (s : State) : TripSafe (beginAttempt viaMgt s) ↔ TripSafe s := by
  unfold beginAttempt; exact Iff.rfl
@[simp] theorem decideKind_safe (s : State) : TripSafe (decideKind s) ↔ TripSafe s := by
  unfold decideKind; simp
@[simp] theorem stagingDropped_safe (s : State) : TripSafe (stagingDropped s) ↔ TripSafe s := by
  unfold stagingDropped; exact Iff.rfl
@[simp] theorem releaseMgt_safe (strap : List Nat) (energyMj : Nat) (s : State) (hs : TripSafe s) :
    TripSafe (releaseMgt strap energyMj s) := by
  unfold releaseMgt; (try simp [hs]); (repeat' split) <;> simp [hs]
@[simp] theorem handNet_safe (s : State) : TripSafe (handNet s) ↔ TripSafe s := by
  unfold handNet; simp
@[simp] theorem handStar_safe (ch : Chan) (s : State) : TripSafe (handStar ch s) ↔ TripSafe s := by
  unfold handStar; simp
@[simp] theorem releaseStar_safe (ch : Chan) (s : State) : TripSafe (releaseStar ch s) ↔ TripSafe s := by
  unfold releaseStar; simp
@[simp] theorem releaseVoter_safe (s : State) (hs : TripSafe s) : TripSafe (releaseVoter s) := by
  have h : ∀ (q : State) (f : TripState → TripState), (∀ t, (f t).inForce = false) → TripSafe (onTrip f q) := by
    intro q f h t; exact absurd t (by simp [onTrip, onCtl, h])
  unfold releaseVoter; dsimp only
  have h1 := h s (fun t => { TripState.zero with supplyLow := t.supplyLow, supplyOkSince := t.supplyOkSince }) (fun _ => rfl)
  split <;> simp [h1]
@[simp] theorem releaseLane_safe (l : Lane) (s : State) : TripSafe (releaseLane l s) ↔ TripSafe s := by
  unfold releaseLane; (try simp); (repeat' split) <;> simp
@[simp] theorem limitRecord_safe (i : Island) (q : Quantity) (entered : Bool) (v : W32) (s : State) :
    TripSafe (limitRecord i q entered v s) ↔ TripSafe s := by
  unfold limitRecord; exact Iff.rfl
@[simp] theorem onLimit_safe (k : Nat) (f : LimitState → LimitState) (s : State) :
    TripSafe (onLimit k f s) ↔ TripSafe s := by
  unfold onLimit; exact Iff.rfl
@[simp] theorem limitExceeded_safe (i : Island) (s : State) (hs : TripSafe s) : TripSafe (limitExceeded i s) := by
  unfold limitExceeded; (try dsimp only); (repeat' split) <;> first | exact hs | (simp [hs]; done) | (apply foldl_safe; (intro s a hs; (try dsimp only); (repeat' split) <;> (first | exact hs | simp [hs])); simp [hs])
@[simp] theorem limitCleared_safe (k : Nat) (i : Island) (q : Quantity) (s : State) (hs : TripSafe s) :
    TripSafe (limitCleared k i q s) := by
  unfold limitCleared; (try simp [hs]); (repeat' split) <;> simp [hs]
@[simp] theorem takeReading_safe (q : Quantity) (r : Reading) (s : State) (hs : TripSafe s) :
    TripSafe (takeReading q r s) := by
  unfold takeReading; simp [hs]
@[simp] theorem bridgeRecord_safe (rx tx : Island) (attempts : Nat) (s : State) :
    TripSafe (bridgeRecord rx tx attempts s) ↔ TripSafe s := by
  unfold bridgeRecord; exact Iff.rfl
@[simp] theorem bridgeRetry_safe (rx tx : Island) (again : Bool) (s : State) :
    TripSafe (bridgeRetry rx tx again s) ↔ TripSafe s := by
  unfold bridgeRetry; (try dsimp only); (repeat' split) <;> first | exact Iff.rfl | (simp; done) | (apply foldl_iff; (intro s a; (try dsimp only); (repeat' split) <;> (first | exact Iff.rfl | simp)))
@[simp] theorem stepNote_safe (n : Nat) (st : Status) (percent : Nat) (s : State) :
    TripSafe (stepNote n st percent s) ↔ TripSafe s := by
  unfold stepNote; exact Iff.rfl
@[simp] theorem putBlocks_safe (m : SMap (List Byte)) (s : State) : TripSafe (putBlocks m s) ↔ TripSafe s := by
  unfold putBlocks; exact Iff.rfl
@[simp] theorem backToQ_safe (s : State) : TripSafe (backToQ s) ↔ TripSafe s := by
  unfold backToQ; (try simp); (repeat' split) <;> simp
@[simp] theorem updEnds_safe (m : UpdMode) (s : State) : TripSafe (updEnds m s) ↔ TripSafe s := by
  unfold updEnds; exact Iff.rfl
@[simp] theorem beginStep_safe (n : Nat) (s : State) : TripSafe (beginStep n s) ↔ TripSafe s := by
  unfold beginStep; simp
@[simp] theorem beginLanes_safe (s : State) : TripSafe (beginLanes s) ↔ TripSafe s := by
  unfold beginLanes; exact Iff.rfl
@[simp] theorem endLanes_safe (s : State) : TripSafe (endLanes s) ↔ TripSafe s := by
  unfold endLanes; exact Iff.rfl
@[simp] theorem rollbackNext_safe (s : State) : TripSafe (rollbackNext s) ↔ TripSafe s := by
  unfold rollbackNext; (try simp); (repeat' split) <;> simp
@[simp] theorem stepFails_safe (st : Status) (s : State) : TripSafe (stepFails st s) ↔ TripSafe s := by
  unfold stepFails; (try simp); (repeat' split) <;> simp
@[simp] theorem startStep_safe (n : Nat) (s : State) : TripSafe (startStep n s) ↔ TripSafe s := by
  unfold startStep; simp
@[simp] theorem activated_safe (s : State) : TripSafe (activated s) ↔ TripSafe s := by
  unfold activated; exact Iff.rfl
@[simp] theorem finishStep_safe (s : State) : TripSafe (finishStep s) ↔ TripSafe s := by
  unfold finishStep; (try simp); (repeat' split) <;> simp
@[simp] theorem reloadIdle_safe (s : State) (l : Lane) (hs : TripSafe s) : TripSafe (reloadIdle s l) := by
  unfold reloadIdle; simp [hs]
@[simp] theorem updPump_safe (s : State) (hs : TripSafe s) : TripSafe (updPump s) := by
  have f : ∀ (v : Variant) (q : State), TripSafe q → TripSafe ((fitted v).foldl reloadIdle q) :=
    fun v q h => foldl_safe _ (fun s a h => by simp [h]) _ q h
  unfold updPump
  refine safe_ite hs ?_
  split
  · exact safe_ite (safe_ite (by simp [hs]) hs) (safe_ite (by simp [hs]) hs)
  · have h1 : TripSafe (if s.variant ≠ .e ∧ ctlRuns s then (fitted s.variant).foldl reloadIdle s else s) := safe_ite (f _ _ hs) hs
    exact safe_ite (safe_ite (by simp [hs]) hs) (safe_ite (safe_ite (by simp [h1]) (safe_ite (by simp [h1]) h1)) hs)
@[simp] theorem mgtStarts_safe (s : State) : TripSafe (mgtStarts s) ↔ TripSafe s := by
  have h : ∀ q, migrateAll (curSet s).mgt s = some q → (TripSafe q ↔ TripSafe s) := by
    intro q e; unfold migrateAll at e; dsimp only at e; split at e
    · cases e; simp
    · cases e
  unfold mgtStarts; dsimp only; split
  · rename_i q e; simp [h q e]
  · simp
@[simp] theorem swapQuiesce_safe (s : State) : TripSafe (swapQuiesce s) ↔ TripSafe s := by
  unfold swapQuiesce; exact Iff.rfl
@[simp] theorem updAtBoot_safe (s : State) : TripSafe (updAtBoot s) ↔ TripSafe s := by
  unfold updAtBoot; simp
@[simp] theorem updAtSuccess_safe (s : State) : TripSafe (updAtSuccess s) ↔ TripSafe s := by
  unfold updAtSuccess; (try simp); (repeat' split) <;> simp
@[simp] theorem shadowReport_safe (sound : Bool) (f : UpdState → UpdState) (s : State) :
    TripSafe (shadowReport sound f s) ↔ TripSafe s := by
  unfold shadowReport; simp
@[simp] theorem romTake_safe (index : Nat) (crc : W32) (b : List Byte) (s : State) :
    TripSafe (romTake index crc b s) ↔ TripSafe s := by
  unfold romTake; simp
@[simp] theorem romVerify_safe (loaded : Versions → UpdState → UpdState) (s : State) :
    TripSafe (romVerify loaded s) ↔ TripSafe s := by
  unfold romVerify; (try simp); (repeat' split) <;> simp
@[simp] theorem recoveryReply_safe (index : W32) (s : State) : TripSafe (recoveryReply index s) ↔ TripSafe s := by
  unfold recoveryReply; exact Iff.rfl
@[simp] theorem onServo_safe (sec : Bool) (f : Servo → Servo) (s : State) :
    TripSafe (onServo sec f s) ↔ TripSafe s := by
  unfold onServo; exact Iff.rfl
@[simp] theorem switchTo_safe (sec : Bool) (s : State) : TripSafe (switchTo sec s) ↔ TripSafe s := by
  unfold switchTo; simp
@[simp] theorem acquire_safe (sec : Bool) (s : State) : TripSafe (acquire sec s) ↔ TripSafe s := by
  unfold acquire; exact Iff.rfl
@[simp] theorem anchor_safe (s : State) : TripSafe (anchor s) ↔ TripSafe s := by
  unfold anchor; exact Iff.rfl
@[simp] theorem mapNow_safe (s : State) : TripSafe (mapNow s) ↔ TripSafe s := by
  unfold mapNow; exact Iff.rfl
@[simp] theorem enterTime_safe (m : TimeMode) (s : State) : TripSafe (enterTime m s) ↔ TripSafe s := by
  unfold enterTime; dsimp only; (repeat' split) <;> simp
@[simp] theorem judgeTime_safe (s : State) : TripSafe (judgeTime s) ↔ TripSafe s := by
  unfold judgeTime; (try simp); (repeat' split) <;> simp
@[simp] theorem unlock_safe (sec : Bool) (s : State) : TripSafe (unlock sec s) ↔ TripSafe s := by
  unfold unlock; simp
@[simp] theorem updateDiff_safe (sec : Bool) (s : State) : TripSafe (updateDiff sec s) ↔ TripSafe s := by
  unfold updateDiff; exact Iff.rfl
@[simp] theorem steer_safe (sec : Bool) (s : State) : TripSafe (steer sec s) ↔ TripSafe s := by
  unfold steer; simp
@[simp] theorem computeOffset_safe (sec : Bool) (off : Int) (s : State) :
    TripSafe (computeOffset sec off s) ↔ TripSafe s := by
  unfold computeOffset; simp
@[simp] theorem syncOffset_safe (s : State) (sec : Bool) (p : Nat) (rx t1 : Int) :
    TripSafe (syncOffset s sec p rx t1) ↔ TripSafe s := by
  unfold syncOffset; simp
@[simp] theorem selectMaster_safe (sec : Bool) (s : State) : TripSafe (selectMaster sec s) ↔ TripSafe s := by
  unfold selectMaster; simp
@[simp] theorem delayTaken_safe (sec : Bool) (p : Nat) (d : Int) (s : State) :
    TripSafe (delayTaken sec p d s) ↔ TripSafe s := by
  unfold delayTaken; exact Iff.rfl
@[simp] theorem storeRecord_safe (abandoned : Bool) (at_ : W32) (s : State) :
    TripSafe (storeRecord abandoned at_ s) ↔ TripSafe s := by
  unfold storeRecord; exact Iff.rfl
@[simp] theorem enterHold_safe (s : State) (hs : TripSafe s) : TripSafe (enterHold s) := by
  unfold enterHold; simp [hs]
@[simp] theorem restoreRet_safe (s : State) : TripSafe (restoreRet s) ↔ TripSafe s := by
  unfold restoreRet; split
  · exact Iff.rfl
  · exact (onRet_safe _ _).trans (onVoter_safe _ _)
@[simp] theorem recorderBoot_safe (s : State) : TripSafe (recorderBoot s) ↔ TripSafe s := by
  unfold recorderBoot; simp
@[simp] theorem screeBoot_safe (s : State) : TripSafe (screeBoot s) ↔ TripSafe s := by
  unfold screeBoot; (try dsimp only); (repeat' split) <;> first | exact Iff.rfl | (simp; done) | (apply foldl_iff; (intro s a; (try dsimp only); (repeat' split) <;> (first | exact Iff.rfl | simp)))
@[simp] theorem afterWatchdog_safe (s : State) (hs : TripSafe s) : TripSafe (afterWatchdog s) := by
  unfold afterWatchdog; dsimp only; (repeat' split) <;> simp [hs]
@[simp] theorem afterBist_safe (at_ : W32) (s : State) (hs : TripSafe s) : TripSafe (afterBist at_ s) := by
  unfold afterBist; simp [hs]
@[simp] theorem bootState_safe (bankOk : Bool) (s : State) : TripSafe (bootState bankOk s) ↔ TripSafe s := by
  unfold bootState; simp
@[simp] theorem hostLink_safe (s : State) : TripSafe (hostLink s) ↔ TripSafe s := by
  unfold hostLink; (try simp); (repeat' split) <;> simp
@[simp] theorem bootMgt_safe (bankOk : Bool) (s : State) (hs : TripSafe s) : TripSafe (bootMgt bankOk s) := by
  have h1 : TripSafe (screeBoot (recorderBoot (hostLink (bootState bankOk s)))) := by simp [hs]
  unfold bootMgt; dsimp only
  generalize screeBoot (recorderBoot (hostLink (bootState bankOk s))) = q at h1
  have h2 : TripSafe (if q.data.time.valid then anchor q else q) := by split <;> simp [h1]
  generalize (if q.data.time.valid then anchor q else q) = q at h2
  have h3 : TripSafe (afterWatchdog (afterBist s.mgt.store.pccCopy (handStar .b (handStar .a (handNet q))))) := by simp [h2]
  generalize afterWatchdog (afterBist s.mgt.store.pccCopy (handStar .b (handStar .a (handNet q)))) = q at h3
  have h4 : TripSafe (if q.mgt.start.inAttempt && q.mgt.start.viaMgt && q.mgt.start.runSince.isNone then decideKind q else q) := by
    split <;> simp [h3]
  generalize (if q.mgt.start.inAttempt && q.mgt.start.viaMgt && q.mgt.start.runSince.isNone then decideKind q else q) = q at h4
  have h5 : TripSafe (if q.mgt.start.inAttempt && q.power.strapInvalid then startFail .badArg q else q) := by split <;> simp [h4]
  generalize (if q.mgt.start.inAttempt && q.power.strapInvalid then startFail .badArg q else q) = q at h5
  split <;> simp [h5]
@[simp] theorem moveEnd_safe (s : State) : TripSafe (moveEnd s) ↔ TripSafe s := by
  unfold moveEnd; exact Iff.rfl
@[simp] theorem dieRecords_safe (block : Nat) (v : Verdict) (s : State) :
    TripSafe (dieRecords block v s) ↔ TripSafe s := by
  unfold dieRecords; simp
@[simp] theorem spareRecords_safe (block : Nat) (made : List Repair) (s : State) :
    TripSafe (spareRecords block made s) ↔ TripSafe s := by
  unfold spareRecords; simp
@[simp] theorem dieMarks_safe (block : Nat) (v : Verdict) (s : State) : TripSafe (dieMarks block v s) ↔ TripSafe s := by
  unfold dieMarks; (try simp); (repeat' split) <;> simp
@[simp] theorem dieTested_safe (block : Nat) (v : Verdict) (s : State) :
    TripSafe (dieTested block v s) ↔ TripSafe s := by
  unfold dieTested; simp
@[simp] theorem bistJudged_safe (s : State) (hs : TripSafe s) : TripSafe (bistJudged s) := by
  unfold bistJudged; simp [hs]
@[simp] theorem portsHanded_safe (ch : Chan) (s : State) : TripSafe (portsHanded ch s) ↔ TripSafe s := by
  unfold portsHanded; simp
@[simp] theorem startLane_safe (i : Image) (l : Lane) (s : State) : TripSafe (startLane i l s) ↔ TripSafe s := by
  unfold startLane; simp
@[simp] theorem loadPlane_safe (i : Image) (s : State) (hs : TripSafe s) : TripSafe (loadPlane i s) := by
  have h : ∀ (q : State) (g : VioState → VioState), TripSafe q → (∀ v, (g v).vout = v.vout) → TripSafe (onVio g q) := by
    intro q g k e t p hp
    refine k t p ?_
    have hp : p ∈ (g q.ctl.vio).vout := hp
    rwa [e] at hp
  unfold loadPlane
  simp only [onExp_safe, onVoter_safe, onUpd_safe, onStart_safe, notCarried_safe]
  refine h _ _ ?_ (fun _ => rfl)
  refine foldl_safe _ (fun s l k => by simp [k]) _ _ ?_
  simp only [onSched_safe, changeEnds_safe, portsHanded_safe, onData_safe]
  exact hs
@[simp] theorem persistCycles_safe (s : State) : TripSafe (persistCycles s) ↔ TripSafe s := by
  unfold persistCycles; exact Iff.rfl
@[simp] theorem reopened_safe (l : Lane) (s : State) : TripSafe (reopened l s) ↔ TripSafe s := by
  unfold reopened; (try simp); (repeat' split) <;> simp
@[simp] theorem lanePasses_safe (l : Lane) (s : State) : TripSafe (lanePasses l s) ↔ TripSafe s := by
  unfold lanePasses; simp
@[simp] theorem laneFails_safe (l : Lane) (s : State) : TripSafe (laneFails l s) ↔ TripSafe s := by
  unfold laneFails; simp
@[simp] theorem onTest_safe (l : Lane) (f : LaneTest → LaneTest) (s : State) :
    TripSafe (onTest l f s) ↔ TripSafe s := by
  unfold onTest; exact Iff.rfl
@[simp] theorem trialKept_safe (l : Lane) (kind : Repair → Bool) (s : State) :
    TripSafe (trialKept l kind s) ↔ TripSafe s := by
  unfold trialKept; simp
@[simp] theorem belayLogic_safe (l : Lane) (misr : W64) (golden : Bool) (s : State) :
    TripSafe (belayLogic l misr golden s) ↔ TripSafe s := by
  unfold belayLogic; simp
@[simp] theorem belayMemory_safe (l : Lane) (m : Nat) (cells : List Cell) (last : Bool) (s : State) :
    TripSafe (belayMemory l m cells last s) ↔ TripSafe s := by
  unfold belayMemory; simp
@[simp] theorem statusWritten_safe (dev sealW dom seat : BitVec 32) (s : State) :
    TripSafe (statusWritten dev sealW dom seat s) ↔ TripSafe s := by
  unfold statusWritten; exact Iff.rfl
@[simp] theorem statusTold_safe (old : RegFile) (dev sealW dom seat : BitVec 32) (s : State) :
    TripSafe (statusTold old dev sealW dom seat s) ↔ TripSafe s := by
  have k : ∀ (a b : W32) (f : State → State) (s : State), (TripSafe (f s) ↔ TripSafe s) → (TripSafe (shown a b f s) ↔ TripSafe s) := by
    intro a b f s h; unfold shown; split
    · exact Iff.rfl
    · exact h
  have r : ∀ (n : Nat) (b : List Byte) (i : Nat) (q : State), TripSafe ((fun s => raise n b (alert i s)) q) ↔ TripSafe q :=
    fun n b i q => (raise_safe _ _ _).trans (alert_safe _ _)
  unfold statusTold
  refine Iff.trans (k _ _ _ _ (raise_safe _ _ _)) ?_
  refine Iff.trans (k _ _ _ _ (r _ _ _ _)) ?_
  refine Iff.trans (k _ _ _ _ (r _ _ _ _)) ?_
  exact k _ _ _ _ (alert_safe _ _)
@[simp] theorem refreshStatus_safe (s : State) : TripSafe (refreshStatus s) ↔ TripSafe s := by
  unfold refreshStatus; simp
@[simp] theorem forceEvent_safe (q : Snapshot) (s : State) : TripSafe (forceEvent q s) ↔ TripSafe s := by
  unfold forceEvent; simp
@[simp] theorem swapShown_safe (q : Snapshot) (s : State) : TripSafe (swapShown q s) ↔ TripSafe s := by
  unfold swapShown; (try simp); (repeat' split) <;> simp
@[simp] theorem schedShown_safe (q : Snapshot) (s : State) : TripSafe (schedShown q s) ↔ TripSafe s := by
  unfold schedShown; (try simp); (repeat' split) <;> simp
@[simp] theorem countCycles_safe (q : Snapshot) (s : State) : TripSafe (countCycles q s) ↔ TripSafe s := by
  unfold countCycles; (try simp); (repeat' split) <;> simp
@[simp] theorem evalSnapshot_safe (q : Snapshot) (s : State) (hs : TripSafe s) : TripSafe (evalSnapshot q s) := by
  unfold evalSnapshot; simp [hs]
@[simp] theorem captureTime_safe (s : State) : TripSafe (captureTime s) ↔ TripSafe s := by
  unfold captureTime; exact Iff.rfl
@[simp] theorem captureScn_safe (s : State) : TripSafe (captureScn s) ↔ TripSafe s := by
  unfold captureScn; exact Iff.rfl
@[simp] theorem autoRead_safe (s : State) : TripSafe (autoRead s) ↔ TripSafe s := by
  unfold autoRead; simp
@[simp] theorem hostControl_safe (v : W32) (s : State) : TripSafe (hostControl v s) ↔ TripSafe s := by
  unfold hostControl; simp
@[simp] theorem admWriteReg_safe (f : RegFile → RegFile) (s : State) : TripSafe (admWriteReg f s) ↔ TripSafe s := by
  unfold admWriteReg; simp
@[simp] theorem controlWrite_safe (o : Nat) (v : W32) (s : State) : TripSafe (controlWrite o v s) ↔ TripSafe s := by
  unfold controlWrite; (try simp); (repeat' split) <;> simp
@[simp] theorem cvuWrite_safe (u o : Nat) (v : W32) (s : State) : TripSafe (cvuWrite u o v s) ↔ TripSafe s := by
  unfold cvuWrite; (try dsimp only); (repeat' split) <;> first | exact Iff.rfl | (simp; done) | (apply foldl_iff; (intro s a; (try dsimp only); (repeat' split) <;> (first | exact Iff.rfl | simp)))
@[simp] theorem msixWrite_safe (i : Nat) (v : W32) (s : State) : TripSafe (msixWrite i v s) ↔ TripSafe s := by
  unfold msixWrite; simp
@[simp] theorem logWrite_safe (o : Nat) (v : W32) (s : State) : TripSafe (logWrite o v s) ↔ TripSafe s := by
  unfold logWrite; (try simp); (repeat' split) <;> simp
@[simp] theorem regWrite_safe (o : Nat) (v : W32) (s : State) : TripSafe (regWrite o v s) ↔ TripSafe s := by
  unfold regWrite; simp
@[simp] theorem goRestrictive_safe (s : State) (hs : TripSafe s) : TripSafe (goRestrictive s) := by
  unfold goRestrictive; dsimp only
  have h : ∀ q, TripSafe (onTrip (fun t => { t with ctrlReset := false }) q) ↔ TripSafe q := fun _ => Iff.rfl
  simp only [h, onStart_safe, onStar_safe, onLanes_safe]
  exact allDead_safe _
@[simp] theorem beginShutdownBist_safe (s : State) : TripSafe (beginShutdownBist s) ↔ TripSafe s := by
  unfold beginShutdownBist; exact Iff.rfl
@[simp] theorem ctrlReset_safe (s : State) (hs : TripSafe s) : TripSafe (ctrlReset s) := by
  unfold ctrlReset; split
  · refine tripSettle_safe _ ?_
    have h : TripSafe (noteCause 5 s) := by simp [hs]
    exact h
  · split
    · exact tripNow_safe _ _ _
    · simp [hs]
@[simp] theorem cfgStore_safe (k : CfgBlock) (b : List Byte) (s : State) : TripSafe (cfgStore k b s) ↔ TripSafe s := by
  unfold cfgStore; (try simp); (repeat' split) <;> simp
@[simp] theorem configRecord_safe (code kind old new : Nat) (s : State) :
    TripSafe (configRecord code kind old new s) ↔ TripSafe s := by
  unfold configRecord; exact Iff.rfl
@[simp] theorem blockRecord_safe (code : Nat) (s : State) : TripSafe (blockRecord code s) ↔ TripSafe s := by
  unfold blockRecord; exact Iff.rfl
@[simp] theorem readBlock_safe (c : CmdHdr) (op : Nat) (k : Option CfgBlock) (s : State) :
    TripSafe (readBlock c op k s) ↔ TripSafe s := by
  unfold readBlock; (try simp); (repeat' split) <;> simp
@[simp] theorem setParam_safe (id v : Nat) (s : State) : TripSafe (setParam id v s) ↔ TripSafe s := by
  unfold setParam; (try simp); (repeat' split) <;> simp
@[simp] theorem clearAcks_safe (s : State) : TripSafe (clearAcks s) ↔ TripSafe s := by
  unfold clearAcks; exact Iff.rfl
@[simp] theorem linkRecord_safe (op : Nat) (ch : Chan) (p : Nat) (s : State) :
    TripSafe (linkRecord op ch p s) ↔ TripSafe s := by
  unfold linkRecord; exact Iff.rfl
@[simp] theorem portPowerRecord_safe (ch : Chan) (p : Nat) (on : Bool) (s : State) :
    TripSafe (portPowerRecord ch p on s) ↔ TripSafe s := by
  unfold portPowerRecord; exact Iff.rfl
@[simp] theorem portPower_safe (ch : Chan) (p : Nat) (on : Bool) (s : State) :
    TripSafe (portPower ch p on s) ↔ TripSafe s := by
  unfold portPower; simp
@[simp] theorem unlockPort_safe (ch : Chan) (p : Nat) (s : State) : TripSafe (unlockPort ch p s) ↔ TripSafe s := by
  unfold unlockPort; simp
@[simp] theorem domainOffRecord_safe (d code : Nat) (s : State) : TripSafe (domainOffRecord d code s) ↔ TripSafe s := by
  unfold domainOffRecord; exact Iff.rfl
@[simp] theorem channelPower_safe (ch : Chan) (on : Bool) (s : State) (hs : TripSafe s) :
    TripSafe (channelPower ch on s) := by
  unfold channelPower; simp [hs]
@[simp] theorem clearRing_safe (r : Byte) (s : State) : TripSafe (clearRing r s) ↔ TripSafe s := by
  unfold clearRing; exact Iff.rfl
@[simp] theorem onNodeChan_safe (k : Nat) (ch : Chan) (f : NodeChan → NodeChan) (s : State) :
    TripSafe (onNodeChan k ch f s) ↔ TripSafe s := by
  unfold onNodeChan; exact Iff.rfl
@[simp] theorem nodeBeacon_safe (k : Nat) (ch : Chan) (f : Beacon) (payload : List Byte) (c : RxClass) (s : State) :
    TripSafe (nodeBeacon k ch f payload c s) ↔ TripSafe s := by
  unfold nodeBeacon; (try simp); (repeat' split) <;> simp
@[simp] theorem reqPut_safe (ts : List ReqTarget) (s : State) : TripSafe (reqPut ts s) ↔ TripSafe s := by
  unfold reqPut; simp
@[simp] theorem pulsesEnd_safe (ts : List ReqTarget) (s : State) : TripSafe (pulsesEnd ts s) ↔ TripSafe s := by
  unfold pulsesEnd; exact Iff.rfl
@[simp] theorem pulseStart_safe (t : ReqTarget) (hold : Nat) (s : State) :
    TripSafe (pulseStart t hold s) ↔ TripSafe s := by
  unfold pulseStart; exact Iff.rfl
@[simp] theorem reqFinish_safe (c : CmdHdr) (op : Nat) (snap : Bool) (s : State) :
    TripSafe (reqFinish c op snap s) ↔ TripSafe s := by
  unfold reqFinish; simp
@[simp] theorem netMarks_safe (s : State) : TripSafe (netMarks s) ↔ TripSafe s := by
  unfold netMarks; exact Iff.rfl
@[simp] theorem ropeTick_safe (s : State) : TripSafe (ropeTick s) ↔ TripSafe s := by
  unfold ropeTick; simp
@[simp] theorem idleTick_safe (s : State) (hs : TripSafe s) : TripSafe (idleTick s) := by
  unfold idleTick; simp [hs]
end Sys2Proof.Laws
end

