-- ==== Sys2Proof/Laws/Ops.lean ====
section
/-! SUPPORT. One lemma per shared operation: what it can do, to be cited in place of unfolding it. -/

namespace Sys2Proof.Laws

open Sys2Proof Sys2Proof.Machine

/-! ### Lanes, engines, halves, stars, domains -/

@[simp] theorem lane_onLane (l : Lane) (f : LaneState → LaneState) (s : State) : lane (onLane l f s) l = f (lane s l) := by
  simp [lane, onLane, onCtl]

theorem lane_onLane_ne {l m : Lane} (f : LaneState → LaneState) (s : State) (h : m ≠ l) : lane (onLane l f s) m = lane s m := by
  simp [lane, onLane, onCtl, Quad_get_set_ne _ _ h]

theorem onLane_onLane (l : Lane) (f g : LaneState → LaneState) (s : State) :
    onLane l f (onLane l g s) = onLane l (fun x => f (g x)) s := by
  simp [onLane, onCtl]

@[simp] theorem engine_setEngine (c : LaneCore) (e : Nat) (g : Engine) : engine (setEngine e g c) e = g := by
  simp [engine, setEngine]

theorem engine_setEngine_ne (c : LaneCore) {e k : Nat} (g : Engine) (h : k ≠ e) : engine (setEngine e g c) k = engine c k := by
  simp [engine, setEngine, smGet_smSet_ne _ _ _ h]

@[simp] theorem halfOf_onHalf (s : State) (h : Half) (f : HalfVote → HalfVote) : halfOf (onHalf h f s) h = f (halfOf s h) := by
  simp [halfOf, onHalf, onVoter, onCtl, voter]

@[simp] theorem port_onPort (ch : Chan) (p : Nat) (f : PortState → PortState) (s : State) :
    port (onPort ch p f s) ch p = f (port s ch p) := by
  simp [port, Machine.star, onPort, onStar, onData]

theorem port_onPort_ne (ch : Chan) {p q : Nat} (f : PortState → PortState) (s : State) (h : q ≠ p) :
    port (onPort ch p f s) ch q = port s ch q := by
  simp [port, Machine.star, onPort, onStar, onData, smGet_smSet_ne _ _ _ h]

/-- A domain set to a state is in it, unless the variant lacks it (R43). -/
theorem dom_setDom (d : Nat) (x : DomState) (s : State) (h : domAbsent s.variant d = false) : dom (setDom d x s) d = x := by
  simp [dom, setDom, onPower, h]

theorem dom_setDom_ne {d e : Nat} (x : DomState) (s : State) (h : e ≠ d) : dom (setDom d x s) e = dom s e := by
  simp [dom, setDom, onPower, smGet_smSet_ne _ _ _ h]

/-! ### Records, events, alerts, completions -/

/-- A record put before MGT is the last of the reports, and nothing but the reports changes (R461). -/
@[simp] theorem report_reports (r : RecRing) (code source : Nat) (key detail : List Byte) (s : State) :
    (report r code source key detail s).mgt.recorder.reports =
      s.mgt.recorder.reports ++ [⟨r, 0, code, source, upt s, key, detail⟩] := rfl

@[simp] theorem report_mbx (r : RecRing) (code source : Nat) (key detail : List Byte) (s : State) :
    (report r code source key detail s).mgt.mbx = s.mgt.mbx := rfl

@[simp] theorem report_ctl (r : RecRing) (code source : Nat) (key detail : List Byte) (s : State) :
    (report r code source key detail s).ctl = s.ctl := rfl

@[simp] theorem report_data (r : RecRing) (code source : Nat) (key detail : List Byte) (s : State) :
    (report r code source key detail s).data = s.data := rfl

/-- An event raised is the last that waits (R447). -/
@[simp] theorem raise_events (code : Nat) (result : List Byte) (s : State) :
    (raise code result s).mgt.mbx.events = s.mgt.mbx.events ++ [⟨code, result⟩] := rfl

@[simp] theorem raise_ctl (code : Nat) (result : List Byte) (s : State) : (raise code result s).ctl = s.ctl := rfl

/-- A message leaves as an interrupt, or its pending bit stands while the vector is masked (R335, R405). -/
theorem sendVector_cases (v : Nat) (s : State) :
    (vectorMasked s v = true ∧ sendVector v s = onRegs (fun r => { r with msixPending := setBit r.msixPending v true }) s) ∨
    (vectorMasked s v = false ∧ sendVector v s = onMbx (fun m => { m with interrupts := m.interrupts ++ [v] }) s) := by
  unfold sendVector; cases h : vectorMasked s v <;> simp

/-- A command finished waits for COMPLETION_POST as the last of the finished ones (R399). -/
@[simp] theorem finishRef_finished (c : CmdRef) (st : Status) (est : Nat) (result data : List Byte) (s : State) :
    (finishRef c st est result data s).mgt.mbx.finished =
      s.mgt.mbx.finished ++ [⟨c.ring, c.session, c.tag, c.opcode, st, data.length, est, false, result, data, false, 0⟩] := rfl

@[simp] theorem finishRef_ctl (c : CmdRef) (st : Status) (est : Nat) (result data : List Byte) (s : State) :
    (finishRef c st est result data s).ctl = s.ctl := rfl

/-! ### The judgement of a mailbox command (R399, R419, R420) -/

/-- MGT is held: the command does nothing. -/
theorem cmdRun_off {c : CmdHdr} {op : Nat} {form exempt : Bool} {rows : List (Bool × Status)} {act : State → State} {s : State}
    (h : mgtUp s = false) : cmdRun c op form exempt rows act s = s := by
  simp [cmdRun, h]

/-- A form that is not the command's is answered BAD_ARG. -/
theorem cmdRun_bad {c : CmdHdr} {op : Nat} {form exempt : Bool} {rows : List (Bool × Status)} {act : State → State} {s : State}
    (h : mgtUp s = true) (hf : form = false) : cmdRun c op form exempt rows act s = finish c op .badArg [] [] s := by
  simp [cmdRun, h, hf]

/-- A command that a row of its own refuses is answered that row's status. -/
theorem cmdRun_st {c : CmdHdr} {op : Nat} {form exempt : Bool} {rows : List (Bool × Status)} {act : State → State} {s : State}
    {st : Status} (h : mgtUp s = true) (hf : form = true) (hx : exempt = true ∨ s.mgt.bist.running = false)
    (hr : judge rows = some st) (hs : st ≠ .busySelftest) : cmdRun c op form exempt rows act s = finish c op st [] [] s := by
  have hb : (s.mgt.bist.running && !exempt) = false := by rcases hx with e | e <;> simp [e]
  cases st <;> simp_all [cmdRun]

/-- A command that nothing refuses acts. -/
theorem cmdRun_go {c : CmdHdr} {op : Nat} {form exempt : Bool} {rows : List (Bool × Status)} {act : State → State} {s : State}
    (h : mgtUp s = true) (hf : form = true) (hx : exempt = true ∨ s.mgt.bist.running = false) (hr : judge rows = none) :
    cmdRun c op form exempt rows act s = act s := by
  have hb : (s.mgt.bist.running && !exempt) = false := by rcases hx with e | e <;> simp [e]
  simp [cmdRun, h, hf, hb, hr]

/-- What any command keeps, if its own act keeps it: an answer changes only the finished commands. -/
theorem cmdRun_keeps {c : CmdHdr} {op : Nat} {form exempt : Bool} {rows : List (Bool × Status)} {act : State → State} {s : State}
    (P : State → Prop) (h : P s) (hf : ∀ r st est a b, P (finishRef r st est a b s)) (ha : P (act s)) :
    P (cmdRun c op form exempt rows act s) := by
  unfold cmdRun finish; repeat' split
  all_goals first | exact h | exact hf _ _ _ _ _ | exact ha

@[simp] theorem cmdRun_safe (c : CmdHdr) (op : Nat) (form exempt : Bool) (rows : List (Bool × Status)) (act : State → State)
    (s : State) (hs : TripSafe s) (ha : ∀ s, TripSafe s → TripSafe (act s)) : TripSafe (cmdRun c op form exempt rows act s) :=
  cmdRun_keeps _ hs (fun _ _ _ _ _ => by simp [hs]) (ha s hs)

@[simp] theorem cmdRun_pending (c : CmdHdr) (op : Nat) (form exempt : Bool) (rows : List (Bool × Status)) (act : State → State)
    (s : State) (ha : ∀ s, (act s).pending = s.pending) : (cmdRun c op form exempt rows act s).pending = s.pending :=
  cmdRun_keeps (fun t => t.pending = s.pending) rfl (fun _ _ _ _ _ => by simp) (ha s)

@[simp] theorem cmdRun_variant (c : CmdHdr) (op : Nat) (form exempt : Bool) (rows : List (Bool × Status)) (act : State → State)
    (s : State) (ha : ∀ s, (act s).variant = s.variant) : (cmdRun c op form exempt rows act s).variant = s.variant :=
  cmdRun_keeps (fun t => t.variant = s.variant) rfl (fun _ _ _ _ _ => by simp) (ha s)

/-! ### A PTP message (R363) -/

@[simp] theorem ptpTake_safe (m : PtpMsg) (act : Bool → State → State) (s : State) (hs : TripSafe s)
    (ha : ∀ b s, TripSafe s → TripSafe (act b s)) : TripSafe (ptpTake m act s) := by
  unfold ptpTake; split
  · exact hs
  · split
    · exact ha _ _ hs
    · exact hs

/-! ### One word of an engine (R76, R89) -/

/-- An engine that runs and fetches the word of the command carries it out: the fault of its rule, or its next state. -/
theorem engStep_runs (opc : Nat) (l : Lane) (e : Nat) (x : EngArg) (s : State) {h : Hw} {w : W32} {last : Nat} {r : EngResult}
    (hr : engRunning s l e = true) (hf : fetchWord (lane s l).core e (engine (lane s l).core e) = .word w last)
    (ho : opcodeOf w = opc) (hx : argOf w = x) (hh : h ≠ .code)
    (ha : wordAct opc e h x (engine (lane s l).core e) last (lane s l) = some r) :
    engStep opc l e h x s = match r with
      | .error c => enginesFault l (faultsWith s l e c) s
      | .ok (g, st) => onLane l (fun _ => { st with core := setEngine e g st.core }) s := by
  cases r <;> simp [engStep, hr, hf, ho, hx, hh, ha]

/-- An engine that does not run takes no command. -/
theorem engStep_idle (opc : Nat) (l : Lane) (e : Nat) (h : Hw) (x : EngArg) (s : State) (hr : engRunning s l e = false) :
    engStep opc l e h x s = s := by
  simp [engStep, hr]

/-! ### Frames -/

theorem leBytes_length (v : Nat) : ∀ n, (leBytes n v).length = n := by
  intro n
  induction n generalizing v with
  | zero => rfl
  | succ n ih => simp [leBytes, ih]

/-- Bytes that end in their own FCS have a correct one (R280). -/
theorem fcsCorrect_append (b : List Byte) (h : 14 ≤ b.length) : fcsCorrect (b ++ fcsBytes b) = true := by
  have h4 : (fcsBytes b).length = 4 := leBytes_length _ 4
  unfold fcsCorrect
  rw [Bool.and_eq_true, decide_eq_true_iff, decide_eq_true_iff, List.length_append, h4, Nat.add_sub_cancel, List.drop_left, List.take_left]
  exact ⟨by omega, rfl⟩

/-- A frame as the module or a node forms it has a correct FCS (R280). -/
theorem fcsCorrect_macFrame (da sa data : List Byte) (hd : da.length = 6) (hs : sa.length = 6) : fcsCorrect (macFrame da sa data) = true := by
  refine fcsCorrect_append _ ?_
  have : (beBytes 2 data.length).length = 2 := by simp [beBytes, leBytes_length]
  simp only [List.length_append]
  omega

end Sys2Proof.Laws
end

