-- ==== Sys2Proof/WellFormed.lean ====
section
/-! DEFINITION. Which commands are well formed: operands that the table's widths do not already bound. -/

namespace Sys2Proof

/-- Check 1: a commit record's numbers fit their fields (R147). -/
def CommitRec.fits (r : CommitRec) : Bool := decide (r.lane < 4) && decide (r.seat < 4) && decide (r.word < 2048)

/-- Check 2: an output number names VOUT0 to VOUT15 or MODULE_ALIVE (R476). -/
def outputOk (k : BitVec 5) : Bool := decide (k.toNat ≤ 16)

/-- Check 3: a NET or BND port is one of six (R463). -/
def sixPorts (p : BitVec 3) : Bool := decide (p.toNat < 6)

/-- Check 4: DATA_LEN is a 32-bit field (R399). -/
def CmdHdr.fits (c : CmdHdr) : Bool := decide (c.dataLen < 2 ^ 32)

/-- Check 5: a package block holds 4,096 bytes (R525). -/
def blockOk (b : List Byte) : Bool := decide (b.length = 4096)

/-- The header of a mailbox command (R399); none for any other row. -/
def Instr.header : Instr → Option CmdHdr
  | .sysNop c _ | .sysRegRead c _ _ | .sysRingCreate c _ | .sysRingDestroy c _ | .sysShutdown c _ | .sysStart c | .sysReset c
  | .sysCtrlReset c | .sysTrip c | .sysBlockReset c _ | .cfgWrite c _ _ | .cfgRead c _ | .cfgSet c _ _ | .cfgGet c _
  | .cfgKeyRemove c _ | .timLatch c | .timMap c | .timPtp c | .logRead c _ _ _ | .logFreeze c | .logUnfreeze c | .logClear c _
  | .logStream c _ _ _ | .logHealth c _ | .logCycles c _ _ | .logBelay c | .cvuConfig c _ | .cvuRead c _ | .cvuReadAck c _ _
  | .cvuTrigger c _ _ _ | .cvuDisable c _ | .frcSet c _ _ | .frcClear c _ | .frcClearAll c | .frcList c | .olcLoadBegin c _ _ _
  | .olcLoadData c _ _ | .olcLoadEnd c | .olcSwap c _ | .olcCancel c | .olcDiscard c | .olcStatus c | .updBegin c _ _
  | .updBlock c _ _ _ | .updBitmap c _ _ | .updVerify c | .updActivate c | .updAbort c | .updCommit c _ | .updRevert c
  | .updStatus c | .reqWrite c _ _ _ _ | .reqPulse c _ _ _ _ _ | .reqWriteMulti c _ _ | .reqRead c _ _ | .lnkCfgWrite c _ _
  | .lnkCfgRead c _ | .lnkSchedChange c _ | .lnkPortPower c _ _ _ | .lnkPortUnlock c _ _ | .lnkPortStatus c _ _ _
  | .lnkChannelPower c _ _ | .lnkCpSub c _ _ _ _ _ | .expSubscribe c _ | .expUnsubscribe c _ | .expList c | .expRead c _ _
  | .tstRotate c _ | .tstStatus c | .tstFuseRepair c _ | .tstShutdownRecord c | .dbgAttach c _ | .dbgDetach c | .dbgHalt c
  | .dbgResume c | .dbgRead c _ _ _ | .dbgWrite c _ _ _ => some c
  | _ => none

/-- Checks 1, 2, 3 and 5, on the rows whose operands they bound. -/
def Instr.operandsOk : Instr → Bool
  | .commitRecord _ _ (.given r _) => r.fits
  | .voutReadback k _ | .voutOvercurrent k _ | .voutTestWindow k _ _ _ => outputOk k
  | .netLinkChange p _ _ _ => sixPorts p
  | .romBlockGo _ _ b | .recoveryDatagram _ _ b => blockOk b
  | _ => true

/-- The checks of every command. A mailbox command's PARAM is judged by its meaning (R419), not here. -/
def Instr.wellFormed (i : Instr) : Bool :=
  i.operandsOk && (match i.header with | some c => c.fits | none => true)

end Sys2Proof
end

