-- ==== Sys2Proof/Tests/Slice0.lean ====
section
/-! SUPPORT. Tests on small states built from State.reset: ill-formed terms that each check of WellFormed refuses, one-step tests whose
expected values stand in the spec, and for every statement that has hypotheses a state and operands that meet them (wit_…). -/

namespace Sys2Proof.Tests

open Sys2Proof Sys2Proof.Machine Sys2Proof.Claims

/-! ### Well-formedness -/

/-- A mailbox header: ring 0 over PCIe, tag 5. -/
def hdr : CmdHdr := ⟨0, none, 5, false, false, 0, 0⟩
/-- One that returns n bytes, and one that brings n. -/
def hOut (n : Nat) : CmdHdr := { hdr with dataOut := true, dataLen := n }
def hIn (n : Nat) : CmdHdr := { hdr with dataIn := true, dataLen := n }

/-- Each check refuses an ill-formed term: a word number beyond 11 bits, output 17, NET port 6, a DATA_LEN beyond 32 bits, a short block. -/
theorem test_ill_formed :
    Instr.wellFormed (.commitRecord .x .a (.given ⟨0, 0, 0, 0, 1, false, 2048, 0⟩ true)) = false ∧
    Instr.wellFormed (.voutOvercurrent 17 600) = false ∧ Instr.wellFormed (.netLinkChange 6 true 0 0) = false ∧
    Instr.wellFormed (.sysStart { hdr with dataLen := 2 ^ 32 }) = false ∧ Instr.wellFormed (.romBlockGo 0 0 [1]) = false ∧
    Instr.wellFormed (.voutOvercurrent 16 600) = true ∧ Instr.wellFormed (.sysStart hdr) = true := by decide

/-! ### States -/

/-- An image: a forceable output at 0x010000, an internal bit at 0x040000, a TON, a TOF and a TP of 1 s, two counters, two edge detectors, one barrier;
engine 0 runs one segment of 64 words at word 0, engine 1 two segments. -/
def img : Image :=
  { (default : Image) with
    tscan := 1, variants := 7, stationId := 9, hdrCrc := 0x1234, instrCount := 96,
    segments := [[(0, 64)], [(64, 8), (80, 16)]],
    vars := [⟨1, 0x010000, 2, 1, true, 0, 0⟩, ⟨2, 0x022000, 8, 1, false, 0, 0⟩, ⟨3, 0x040000, 9, 1, false, 0, 0⟩],
    timers := [⟨10, 0, 0, 0, 1000⟩, ⟨11, 1, 1, 0, 1000⟩, ⟨12, 2, 2, 0, 1000⟩],
    edges := [⟨20, 0, 0, false⟩, ⟨21, 1, 1, false⟩], counters := [⟨30, 0, 5, 7⟩], barriers := [4] }

/-- Every domain runs, MGT is booted, no link is down, and one hour of ticks has passed. -/
def up : State :=
  let s := State.reset
  let s := onPower (fun p => { p with domains := (List.range 12).map (fun d => (d, DomState.run)), sources := [], assertedAt := [], pcieDown := false }) s
  let s := onStart (fun x => { x with booted := true, loaded := true, bivouac := false }) s
  let s := onMbx (fun m => { m with ready := true }) s
  onClk (fun c => { c with tick := 90000000000 }) s

/-- A lane that has committed its scan with the image loaded. -/
def ready : LaneState := { LaneState.zero with core := { LaneCore.zero with active := some img, phase := .idle } }

/-- A follower of NET's marks whose last cycle instant, of cycle 100, was 3,000 ticks of 40 ns ago. -/
def follower : FollowerState := ⟨.net, 0, 0, 0, 40 * (90000000000 - 3000), 100, true⟩

/-- A held seat of a lane with lease number n, expiring after scan 104. -/
def held (l : Lane) (n : BitVec 16) : SeatState :=
  { SeatState.zero with mode := .held, lease := Halves.all (some ⟨l, n, 90, 104, false, false⟩), fw := some 0 }

/-- The control plane votes scan 100 with lanes A, B and C in the seats and D as the belay lane. -/
def live : State :=
  let s := onLanes (fun _ => ready) up
  let s := onVoter (fun v => { v with running := true, released := true, votedRun := true, scn := 100, laneVote := ⟨.seated, .seated, .seated, .belay⟩, seats := ⟨held .a 1, held .b 2, held .c 3⟩, now := { v.now with scn := 100, silent := false } }) s
  onCtl (fun c => { c with followers := ⟨follower, follower, follower, follower, follower⟩ }) s

/-- The control plane runs there, in TRIPLE. -/
theorem test_live : ctlRuns live = true ∧ mgtUp live = true ∧ barUp live = true ∧ laneCfg live = 3 := by decide

/-! ### The engines -/

/-- The arguments of an engine word: an address, and N. -/
def arg (a : BitVec 22) (n : Bool) : EngArg := ⟨false, 0, n, a⟩

/-- Lane A evaluates; its engine 0 runs at word 0, which holds the word of opcode `opc` and `x`, with ACC 1 and a branch stack of depth 1. -/
def fetching (opc : Nat) (x : EngArg) : State :=
  onCore .a (fun c => { setEngine 0 ⟨.running, true, 1, 1, 0, 0, none, 0⟩ c with phase := .evaluating, active := some { img with code := [(0, engWord opc x)] } }) live

/-- The word written out from R81: OPC 0x04 in bits 31 to 26, N in bit 22, OPD 0x010000. -/
theorem test_word_ld : opcodeOf 0x10410000#32 = 0x04 ∧ argOf 0x10410000#32 = arg 0x010000 true := by decide
/-- CTU on counter 1 with CMP 0b10: OPC 0x1C, CMP in bits 24 and 23. -/
theorem test_word_ctu : opcodeOf 0x71000001#32 = 0x1C ∧ argOf 0x71000001#32 = ⟨false, 2, false, 1⟩ := by decide

/-- LD of a 0 with N = 1 sets ACC; the next word is due, and one cycle has passed (R93). -/
theorem test_ld : (after (.ld .a 0 .ok (arg 0x010000 true)) (fetching 0x04 (arg 0x010000 true))).map
    (fun t => ((engine (lane t .a).core 0).acc, (engine (lane t .a).core 0).pc, (engine (lane t .a).core 0).cycles)) = some (true, 1, 1) := by decide
/-- ST of ACC 1 with N = 0 writes the bit, which its own engine reads at once and another in the next phase (R90, R93). -/
theorem test_st : (after (.st .a 0 .ok (arg 0x010000 false)) (fetching 0x08 (arg 0x010000 false))).map
    (fun t => (engBit (lane t .a).core 0 0x010000, engBit (lane t .a).core 1 0x010000, engBit (phaseEnds (lane t .a).core) 1 0x010000)) =
    some (true, false, true) := by decide
/-- An ST to a read-only address is fault 0x04: the lane stops (R89, R108). -/
theorem test_st_fault : (after (.st .a 0 .ok (arg 0x000000 false)) (fetching 0x08 (arg 0x000000 false))).map
    (fun t => ((lane t .a).commit.withdraw, (lane t .a).core.phase)) = some (some 0x04, .stopped) := by decide
/-- JC with ACC 1 goes OPD words beyond the next and takes two cycles (R96). -/
theorem test_jc : (after (.jc .a 0 .ok (arg 10 false)) (fetching 0x11 (arg 10 false))).map
    (fun t => ((engine (lane t .a).core 0).pc, (engine (lane t .a).core 0).cycles)) = some (11, 2) := by decide

/-- A fetch that meets every premise of the engine statements. -/
theorem wit_fetch (opc : Nat) (h : opc ∈ definedOpcodes) :
    Fetches (fetching opc (arg 0x010000 false)) .a 0 .ok (arg 0x010000 false) opc (engWord opc (arg 0x010000 false)) 63 := by
  simp only [definedOpcodes, List.mem_cons, List.not_mem_nil, or_false] at h
  rcases h with rfl | rfl | rfl | rfl | rfl | rfl | rfl | rfl | rfl | rfl | rfl | rfl | rfl | rfl | rfl | rfl | rfl | rfl | rfl | rfl | rfl |
    rfl | rfl | rfl <;> exact ⟨rfl, rfl, by decide, rfl, rfl, rfl, rfl⟩
theorem wit_BitInstructions : modOk (arg 0x010000 false) = true ∧ engReadable 0x010000 = true ∧ engWritable 0x010000 = true ∧
    Fetches (fetching 0x0B (arg 0 true)) .a 0 .ok (arg 0 true) 0x0B (engWord 0x0B (arg 0 true)) 63 :=
  ⟨by decide, by decide, by decide, rfl, rfl, by decide, rfl, rfl, rfl, rfl⟩
theorem wit_BranchesAndJumps :
    (engine (lane (fetching 0x0C (arg 0 false)) .a).core 0).bsd < 16 ∧ 0 < (engine (lane (fetching 0x0D (arg 0 false)) .a).core 0).bsd ∧
    Fetches (fetching 0x0C (arg 0 false)) .a 0 .ok (arg 0 false) 0x0C (engWord 0x0C (arg 0 false)) 63 ∧
    Fetches (fetching 0x0D (arg 0 true)) .a 0 .ok (arg 0 true) 0x0D (engWord 0x0D (arg 0 true)) 63 ∧
    0 + 1 + (62 : Nat) ≤ 63 ∧ Fetches (fetching 0x11 (arg 62 true)) .a 0 .ok (arg 62 true) 0x11 (engWord 0x11 (arg 62 true)) 63 :=
  ⟨by decide, by decide, ⟨rfl, rfl, by decide, rfl, rfl, rfl, rfl⟩, ⟨rfl, rfl, by decide, rfl, rfl, rfl, rfl⟩, by decide, ⟨rfl, rfl, by decide, rfl, rfl, rfl, rfl⟩⟩
theorem wit_UnitsRunTheirRule : timerDecl img 0 0 = some ⟨10, 0, 0, 0, 1000⟩ ∧ timerDecl img 1 1 = some ⟨11, 1, 1, 0, 1000⟩ ∧
    timerDecl img 2 2 = some ⟨12, 2, 2, 0, 1000⟩ ∧ counterDecl img 0 = some ⟨30, 0, 5, 7⟩ ∧ (edgeDecl img 0 0).isSome = true ∧
    (edgeDecl img 1 1).isSome = true ∧
    Fetches (fetching 0x18 (arg 0 false)) .a 0 .ok (arg 0 false) 0x18 (engWord 0x18 (arg 0 false)) 63 ∧
    Fetches (fetching 0x1C (arg 0 false)) .a 0 .ok (arg 0 false) 0x1C (engWord 0x1C (arg 0 false)) 63 ∧
    Fetches (fetching 0x20 (arg 0 false)) .a 0 .ok (arg 0 false) 0x20 (engWord 0x20 (arg 0 false)) 63 :=
  ⟨by decide, by decide, by decide, by decide, by decide, by decide, ⟨rfl, rfl, by decide, rfl, rfl, rfl, rfl⟩, ⟨rfl, rfl, by decide, rfl, rfl, rfl, rfl⟩,
   ⟨rfl, rfl, by decide, rfl, rfl, rfl, rfl⟩⟩
/-- A TON of one scan is out at the first scan and on at the second (R98). -/
theorem test_ton : (tonNext true 1 TimerState.zero).q = false ∧ (tonNext true 1 (tonNext true 1 TimerState.zero)).q = true := by decide

/-- Engine 1 of lane A at its first END with nothing on its stack, or engine 0 at its only one. -/
def ending (e : Nat) : State :=
  onCore .a (fun c => { setEngine e ⟨.running, false, 0, 0, if e = 1 then 64 else 0, 0, some 4, 0⟩ c with phase := .evaluating, active := some { img with code := [(0, engWord 0x02 (arg 0 false)), (64, engWord 0x02 (arg 0 false))] } }) live
theorem wit_EndAndSync :
    Fetches (ending 1) .a 1 .ok (arg 0 false) 0x02 (engWord 0x02 (arg 0 false)) 71 ∧ ((segList img 1).drop 1).head? = some (80, 16) ∧
    Fetches (ending 0) .a 0 .ok (arg 0 false) 0x02 (engWord 0x02 (arg 0 false)) 63 ∧ ((segList img 0).drop 1).head? = none ∧
    (engine (lane (ending 0) .a).core 0).bar = img.barriers.getLast? ∧
    (engine (lane (ending 0) .a).core 1).run = .finished :=
  ⟨⟨rfl, rfl, by decide, rfl, rfl, rfl, rfl⟩, by decide, ⟨rfl, rfl, by decide, rfl, rfl, rfl, rfl⟩, by decide, by decide, by decide⟩
/-- Engine 0 is at a SYNC of barrier 4 while engine 1 still runs. -/
def syncing : State := onCore .a (setEngine 1 ⟨.running, false, 0, 0, 64, 0, none, 0⟩) (fetching 0x03 (arg 4 false))
theorem wit_Sync : Fetches syncing .a 0 .ok (arg 4 false) 0x03 (engWord 0x03 (arg 4 false)) 63 ∧ (arg 4 false).opd.toNat < 256 ∧
    (engine (lane syncing .a).core 0).bar = none ∧ ∃ k : BitVec 5, k ≠ 0 ∧ (engine (lane syncing .a).core k.toNat).run = .running :=
  ⟨⟨rfl, rfl, by decide, rfl, rfl, rfl, rfl⟩, by decide, by decide, 1, by decide, by decide⟩
/-- Every engine of lane A waits at barrier 4. -/
def waiting : State :=
  onCore .a (fun c => { (List.range 32).foldl (fun c e => setEngine e ⟨.waiting 4, false, 0, 0, 0, 0, none, e⟩ c) c with phase := .evaluating }) live
theorem wit_Barrier : (lane waiting .a).core.phase = .evaluating ∧ waiting.clk.tick < deadlineTick waiting ∧ ∀ k : BitVec 5, (engine (lane waiting .a).core k.toNat).run = .waiting 4 := by
  decide
theorem wit_EngineFaults : engReadable 0x02A000 = false ∧ engWritable 0x000000 = false ∧ opcodeDefined 0x3F = false ∧
    Fetches (fetching 0x3F (arg 0 false)) .a 0 .ok (arg 0 false) 0x3F (engWord 0x3F (arg 0 false)) 63 ∧
    Fetches (fetching 0x04 (arg 0x02A000 false)) .a 0 .ok (arg 0x02A000 false) 0x04 (engWord 0x04 (arg 0x02A000 false)) 63 ∧
    engReadable 0x000000 = true ∧ Fetches (fetching 0x08 (arg 0 false)) .a 0 .ok (arg 0 false) 0x08 (engWord 0x08 (arg 0 false)) 63 ∧
    faultsWith (fetching 0x04 (arg 0x02A000 false)) .a 0 0x03 = [(0, 0x03)] ∧ (lane (fetching 0x3F (arg 0 false)) .a).commit.withdraw = none ∧
    (lane live .a).commit.withdraw = none ∧ (lane live .a).core.active.isSome = true ∧ (lane live .a).core.phase ≠ .stopped :=
  ⟨by decide, by decide, by decide, ⟨rfl, rfl, by decide, rfl, rfl, rfl, rfl⟩, ⟨rfl, rfl, by decide, rfl, rfl, rfl, rfl⟩, by decide,
   ⟨rfl, rfl, by decide, rfl, rfl, rfl, rfl⟩, by decide, by decide, by decide, by decide, by decide⟩

/-! ### The vote and the seats -/

/-- An intact record of lane A for seat S1 in scan 100: word 0, value `v`. -/
def rec0 (v : W64) : CommitRec :=
  let r : CommitRec := ⟨v, 100, 1, 0, 1, false, 0, 0⟩
  { r with tag := recordTag r }

/-- Word `w` of a half with some values already in. -/
def partly (h : Half) (w : Nat) (o : Option Nat) (vals : Tri VoteVal) (voted : Option W64) (s : State) : State :=
  onHalf h (fun x => { x with words := smPut x.words w { WordVote.zero with opened := o, vals := vals, voted := voted } }) s

theorem wit_InOrderRecordIsPlaced : InOrder live .x .a .s1 (rec0 7) ∧ (wordOf live .x 0).opened = none ∧
    (∀ j, (wordOf live .x 0).vals.get j = .absent) ∧ 2 ≤ (votersOf live .x 0).length :=
  ⟨⟨by decide, by decide, by decide, by decide +kernel, by decide, by decide, by decide, by decide, by decide, by decide⟩, by decide,
   fun j => by cases j <;> decide, by decide⟩

/-- Seat S2 has sent the same value, 10 ticks ago. -/
def half1 : State := partly .x 0 (some 89999999990) ⟨.absent, .value 7, .absent⟩ none live

theorem wit_TwoEqualRecordsVoteTheWord : InOrder half1 .x .a .s1 (rec0 7) ∧ Seat.s2 ≠ .s1 ∧ .s2 ∈ votersOf half1 .x 0 ∧
    (wordOf half1 .x 0).vals.get .s1 = .absent ∧ (wordOf half1 .x 0).vals.get .s2 = .value (trueValue (rec0 7)) ∧
    (wordOf half1 .x 0).judged = ⟨.open_, .open_, .open_⟩ ∧ (wordOf half1 .y 0).voted = none :=
  ⟨⟨by decide, by decide, by decide, by decide +kernel, by decide, by decide, by decide, by decide, by decide, by decide⟩, by decide, by decide,
   by decide, by decide, by decide, by decide⟩
/-- The second equal record votes the word (R158). -/
theorem test_vote : (after (.commitRecord .x .a (.given (rec0 7) true)) half1).map (fun t => (wordOf t .x 0).voted) = some (some 7) := by decide +kernel
/-- The TAG of lane 0: the CRC-32C of bytes 0x00 to 0x0F XOR 0x10000000 (R147). -/
theorem test_tag : recordTag (rec0 0) = BitVec.ofNat 32 (crc32c (leBytes 8 0 ++ le4 100 ++ le2 1 ++ le2 4096)) ^^^ 0x10000000#32 := by decide +kernel

theorem wit_BadRecordsAreReportedAndDropped : voting live = true ∧ recordBroken .a (rec0 7) false = true ∧
    recordBroken .a { rec0 7 with tag := 0 } true = true ∧
    recordBroken .b { rec0 7 with lane := 1, pol := true, tag := recordTag { rec0 7 with lane := 1, pol := true } } true = Lane.b.complemented.not ∧
    holdsLease live .d { rec0 7 with lane := 3 } = false ∧ shadowing live .d = false ∧ silentRun live = false := by decide +kernel

/-- The window of word 0 in half X opened 300 ticks ago; S3 has not sent it. -/
def skewed : State := partly .x 0 (some 89999999700) ⟨.value 7, .value 7, .absent⟩ (some 7) live
theorem wit_SkewWindow : voting skewed = true ∧ (wordOf skewed .x (0#11).toNat).opened = some 89999999700 ∧ 89999999700 + 300 ≤ skewed.clk.tick ∧
    Seat.s3 ∈ votersOf skewed .x (0#11).toNat ∧ (wordOf skewed .x (0#11).toNat).vals.get .s3 = .absent ∧
    (∀ j ∈ votersOf skewed .x (0#11).toNat, j ≠ .s3 → (wordOf skewed .x (0#11).toNat).vals.get j ≠ .absent) ∧
    (wordOf skewed .x (0#11).toNat).voted = some 7 ∧ (wordOf skewed .x (0#11).toNat).judged.get .s3 = .open_ ∧ (halfOf skewed .x).out.get .s3 = none ∧
    (wordOf skewed .y (0#11).toNat).voted = none ∧ (voter skewed).test.injection = none ∧ laterWords skewed .x (0#11).toNat = [] := by decide

/-- Every word of the scan up to the state digest is voted in both halves. -/
def voted : State :=
  onVoter (fun v => { v with halves := Halves.all { HalfVote.zero with words := (List.range 1026).map (fun w => (w, { WordVote.zero with voted := some 0, judged := ⟨.agreeing, .agreeing, .agreeing⟩, closed := true })) } }) live
/-- At CI + 225 us, 25 us before the next. -/
def atDeadline : State := onClk (fun c => { c with tick := 90000000000 - 3000 + 5625 }) voted
theorem wit_ScanDeadline : (voter atDeadline).running = true ∧ (voter atDeadline).released = true ∧ (halfOf atDeadline .y).timely = false ∧
    atDeadline.ctl.trip.inForce = false ∧ halfCi atDeadline .y + Config.tscanTicks atDeadline.tscan ≤ atDeadline.clk.tick + 625 ∧
    commitComplete atDeadline .y = true := by decide +kernel
theorem wit_VotedValueIsSharedByTwo : pairValue [.value 1, .late, .value 1] = some 1 ∧ pairValue [.value 5] = some 5 ∧
    pairValue [.value 1, .value 2] = none := by decide
/-- Scan 128, at CI + 242 us: half X has voted the supervisor digest, half Y has none of it. -/
def lateDigest : State :=
  partly .x 1026 none ⟨.absent, .absent, .absent⟩ (some 9)
    (onVoter (fun v => { v with scn := 128 }) (onClk (fun c => { c with tick := 90000000000 - 3000 + 6050 }) live))
theorem wit_LateSupervisorDigestIsLate : voting lateDigest = true ∧ cairnScan (scn lateDigest) = true ∧ mixedFirmware lateDigest = false ∧
    halfCi lateDigest .x + Config.tscanTicks lateDigest.tscan ≤ lateDigest.clk.tick + 200 ∧ (wordOf lateDigest .x 1026).voted.isSome = true ∧
    (wordOf lateDigest .y 1026).voted = none ∧ ctlRuns lateDigest = true ∧ domRun lateDigest 3 = true ∧
    (votersOf lateDigest .y 1026).length = 3 ∧ laterWords lateDigest .y 1026 = [] ∧
    (∀ k, (wordOf lateDigest .y 1026).vals.get k = .absent) ∧
    (wordOf (partly .y 1026 none ⟨.absent, .absent, .absent⟩ (some 9) lateDigest) .y 1026).voted.isSome = true :=
  ⟨by decide, by decide, by decide, by decide, by decide, by decide, by decide, by decide, by decide, by decide, fun k => by cases k <;> decide,
   by decide⟩
theorem wit_ReadyWordIsKept : (lane live .a).core.phase = .idle ∧ (voter live).copyEnd.get .a = none ∧ voting live = true ∧ domRun live (laneDom .a) = true ∧ live.clk.tick + 50 ≤ nextCi live .x ∧ (voter live).join = none := by
  decide

/-- Seat S1's lease is revoked, and the release of scan 104 is due. -/
def revoked : State :=
  onVoter (fun v => { v with scn := 104, seats := v.seats.set .s1 { held .a 1 with mode := .vacant, lease := Halves.all (some ⟨.a, 1, 90, 104, true, false⟩) } }) live
theorem wit_LeaseEndsAtItsExpiry : ctlRuns revoked = true ∧ ((voter revoked).seats.get .s1).lease.x = some ⟨.a, 1, 90, 104, true, false⟩ ∧
    SeatVotes ((voter revoked).seats.get .s1) = false ∧ scnBefore (scn revoked) 104 = false := by decide
/-- A capture of lane B's snapshot of scan 64, with a failed check or none; no block of it differs, so none is left to send. -/
def capturing (n : Nat) : State := onVoter (fun v => { v with capture := some ⟨.b, 64, LaneState.zero, [], n, [], 0⟩ }) live
theorem wit_CairnCapture : (voter (capturing 0)).capture = some ⟨.b, 64, LaneState.zero, [], 0, [], 0⟩ ∧
    (voter (capturing 2)).capture = some ⟨.b, 64, LaneState.zero, [], 2, [], 0⟩ ∧ 4096 * ([] : List Nat).length ≤ 0 ∧
    enteredOk ⟨.b, 64, LaneState.zero, [], 0, [], 0⟩ (enteredBlocks ⟨.b, 64, LaneState.zero, [], 0, [], 0⟩ []) = true :=
  ⟨rfl, rfl, by decide, rfl⟩
/-- Block 0 is announced with a digest that it has not. -/
theorem wit_CairnBlockDamaged (d : W64) (h : smGet 0#64 (blockDigests LaneState.zero) 0 ≠ d) :
    enteredOk ⟨.b, 64, LaneState.zero, [(0, d)], 0, [0], 4096⟩ (enteredBlocks ⟨.b, 64, LaneState.zero, [(0, d)], 0, [0], 4096⟩ []) = false := by
  simpa [enteredOk, enteredBlocks, smGet] using h
/-- Lane D takes over seat S1: it loads the cairn, whose bytes have all passed, 13 scans after the takeover began, in the idle part. -/
def joinD : Join := ⟨.d, .s1, .takeover, .loading, 87, 4096 * 532⟩
def takingOver : State :=
  onVoter (fun v => { v with join := some joinD, cairn := some ⟨64, LaneState.zero, []⟩ })
    (onClk (fun c => { c with tick := 90000000000 - 3000 + 6200 }) live)
theorem wit_TakeoverLoadsTheCairn : ctlRuns takingOver = true ∧ (voter takingOver).join = some joinD ∧
    (voter takingOver).cairn = some ⟨64, LaneState.zero, []⟩ ∧ loadBytes ⟨64, LaneState.zero, []⟩ (lane takingOver .d) ≤ joinD.sent ∧
    scnAhead joinD.start (scn takingOver) = 13 ∧ nextCi takingOver .x ≤ takingOver.clk.tick + 50 ∧
    13 < scnAhead joinD.start (scn (onVoter (fun v => { v with scn := 101 }) takingOver)) := by decide
/-- Lane C has lost its seat and is copied again; 2 us before the next cycle instant no block more fits. -/
def copying : State :=
  onVoter (fun v => { v with laneVote := v.laneVote.set .c .resync, seats := v.seats.set .s3 { SeatState.zero with mode := .opened, openFor := some .c } }) live
theorem wit_CompletedResync : voting copying = true ∧ domRun copying (laneDom .c) = true ∧ copySource copying .c = some .a ∧
    (voter copying).laneVote.get .c = .resync ∧ (lane copying .a).core.phase = .idle ∧ (lane copying .c).core.phase = .idle ∧
    (lane copying .a).core.fwVer = (lane copying .c).core.fwVer ∧ (voter copying).copyEnd.get .c = none ∧
    copying.clk.tick + ropeTicks 4256 + 50 ≤ nextCi copying .x ∧ blocksThatFit copying = 123 := by decide
def report0 : BelayReport := ⟨1, .d, 2, 0, 3, 4, 0, 0, 0, 0, 5, 0, 0, 0, 0, 0, 0⟩
theorem wit_BelayReportsAreKept : reportDue live .d = true ∧ (voter live).join = none ∧ parseBelay [1, 2] = none ∧ [(1 : Byte), 2].length ≠ 64 ∧
    (voter (onVoter (fun v => { v with belay := some (report0, 89000000000) }) live)).belay = some (report0, 89000000000) ∧
    89000000000 + 62500000 < live.clk.tick ∧ reportDue live .a = false := by decide
/-- The diversity flag is due, or set with nothing left of the allowance. -/
def lacking (n remain : Nat) (lost : Bool) : State := onVoter (fun v => { v with diversity := ⟨n, lost, 12, 0, none, remain⟩ }) live
/-- 24 operating hours of both polarities. -/
def diverse : State := onClk (fun c => { c with tb3Hours := 30 }) (onVoter (fun v => { v with diversity := ⟨0, false, 12, 0, some 0, 0⟩ }) live)
theorem wit_DiversityAndRotation : ctlRuns live = true ∧ (voter (lacking 64 100 false)).diversity.lost = false ∧ 64 ≤ (voter (lacking 64 100 false)).diversity.lackRun ∧
    0 < (voter (lacking 64 100 false)).diversity.remain ∧ (voter diverse).diversity.both = some 0 ∧ 0 + 24 * Config.hourTicks ≤ tb3Tick diverse ∧
    (let s := onRot (fun q => { q with intervalHours := 24, lastAt := 0, queue := [] }) diverse
     s.ctl.rot.intervalHours ≠ 0 ∧ s.ctl.rot.queue = [] ∧ s.ctl.rot.lastAt + s.ctl.rot.intervalHours * Config.hourTicks ≤ tb3Tick s) := by decide
theorem wit_DiversityExpiryTrips : ctlRuns (lacking 0 0 true) = true ∧ (voter (lacking 0 0 true)).diversity.lost = true ∧ diversityLeft (lacking 0 0 true) = 0 := by
  decide
/-- 500 ns before the instant that a mark is for; NET's mark of it is there, 500 ns late at star A. -/
def markTime : State :=
  onTime (fun t => { t with ciMark := some (65536 * (40 * (90000000000 - 3000 + 6250))) }) (onClk (fun c => { c with tick := 90000000000 - 3000 + 6250 - 13, tb2 := 100 }) live)
theorem wit_CycleInstantCounts : markDue markTime (.star .a) (netArrival markTime (.star .a) (some 500)) none = true ∧ silentRun markTime = false ∧
    countedNow markTime = false ∧ predicted markTime (.star .a) = some (40 * (90000000000 - 3000 + 6250)) ∧
    netArrival markTime (.star .a) (some 500) = some (40 * (90000000000 - 3000 + 6250) + 500) ∧ (followerOf markTime (.star .a)).source = .net ∧
    netArrival markTime .vio none = none ∧ xArrival markTime .vio none = none ∧ markDue markTime .vio none none = true ∧
    markOk (predicted markTime (.star .a)) (some (40 * (90000000000 - 3000 + 6250) + 500)) = true ∧
    markOk (predicted markTime (.star .a)) (some (40 * (90000000000 - 3000 + 6250) + 501)) = false := by decide
/-- 5 us before the next cycle instant. -/
def admTime : State := onClk (fun c => { c with tick := 90000000000 - 3000 + 6250 - 125 }) live
theorem wit_AdmissionSnapshot : (voter admTime).running = true ∧ domRun admTime 1 = true ∧ admTime.ctl.adm.taken = false ∧
    nextCi admTime .x ≤ admTime.clk.tick + 125 := by decide
/-- A check value that differs from half X's, whatever it is. -/
theorem wit_AdmissionDiscarded : ∃ y : W64, y ≠ Config.admissionCheck (admTime.ctl.adm.cut.getD admTime.ctl.adm.staging) :=
  ⟨~~~Config.admissionCheck (admTime.ctl.adm.cut.getD admTime.ctl.adm.staging), by intro h; have := congrArg (fun x => x.getLsbD 0) h; simp at this⟩
/-- 10 us before the next cycle instant of a scan voted in both halves. -/
def pubTime : State := onClk (fun c => { c with tick := 90000000000 - 3000 + 6250 - 250 }) voted
theorem wit_SnapshotIsPublished : publishable pubTime = true ∧ domRun pubTime 1 = true ∧ (digestSeats pubTime).head? = some .s1 ∧
    holder pubTime .s1 = some .a ∧ ¬ (pubTime.mgt.exp.valid = true ∧ pubTime.mgt.exp.scn = scn pubTime) ∧
    nextCi pubTime .x ≤ pubTime.clk.tick + 250 := by decide +kernel
/-- Cycle 101 has begun at half X and at VIO, whose inputs are captured. -/
def nextScan : State :=
  onCtl (fun c => { c with followers := { c.followers with x := { follower with cycle := 101, ciNs := 40 * 90000000000 }, vio := { follower with cycle := 101, ciNs := 40 * 90000000000 } } }) live
theorem wit_DueReleaseStartsTheScan : releaseDue nextScan = true ∧ (after .barrierRelease nextScan).map (fun t => ((voter t).scn, (voter t).running)) = some (101, true) := by
  decide +kernel
/-- The third silent scan of a start is over and had no injection (R177). -/
def silent3 : State :=
  onVoter (fun v => { v with votedRun := false, test := { v.test with silent := 3, injection := none }, now := { v.now with silent := true } }) nextScan
theorem wit_SilentRelease : releaseDue silent3 = true ∧ (voter silent3).released = true ∧ (voter silent3).votedRun = false ∧ (voter silent3).test.silent < 16 ∧
    injectionSeen silent3 = true ∧ silent3.ctl.force.out.x = silent3.ctl.force.out.y ∧ leasesDiffer silent3 = false := by decide

/-! ### Stars and nodes -/

/-- Channel A runs with port 5 in use in mode `m`, a 10 m cable, two elements, in schedules 0 and 1. -/
def star5 (m : PortMode) : State :=
  onData (fun d => { d with cfg := { d.cfg with linkId := 77, ports := [(5, ⟨true, 0, false, 2, 10⟩)], count := 2, sched := [(5, ⟨100000, 148, true, []⟩), (133, ⟨120000, 148, true, []⟩)] } })
    (onPort .a 5 (fun x => { x with mode := m }) (onStar .a (fun x => { x with mode := .running }) live))
theorem wit_PortLinkMovesThePort : domRun (star5 .linkDown) (starDom .a) = true ∧ (port (star5 .linkDown) .a 5).mode = .linkDown ∧
    (port (star5 .linkDown) .a 5).seeded = false ∧ onLockList (star5 .linkDown) .a 5 = false ∧ (port (star5 .integrating) .a 5).mode = .integrating ∧
    (port (star5 .locked) .a 5).mode = .locked ∧ (port (star5 .isolated) .a 5).mode = .isolated ∧ (portCfg (star5 .linkDown) .a 5).level = false := by decide
/-- The link comes up: the seed of DLY for 10 m is (50 + 380) ns at 1/16 ns (R348). -/
theorem test_dly : (after (.portLinkUp .a 5 false) (star5 .linkDown)).map (fun t => ((port t .a 5).mode, (port t .a 5).dly)) = some (.integrating, 6880) := by
  decide
/-- Node 5's upframe of cycle 100, its VCODE over header and payload; at its action point, or 4,000 or 4,001 ns beyond it. -/
def upBytes : List Byte := upFrame .a 5 (upHeader 2 true none false false .a 5 1 100 77 0 0) [1, 2, 3, 4]
def startAt (d : Nat) : Nat := 40 * (90000000000 - 3000) + 100000 + d
theorem wit_FramesAreJudgedAtThePort : (star (star5 .active) .a).mode = .running ∧ (star (star5 .active) .a).isolatedAll = false ∧ upBytes ≠ [] ∧
    (schedPort (star5 .active) (star (star5 .active) .a).applied .a 5).lMax = 148 ∧ offsetOf (star5 .active) .a 5 (startAt 4001) = 4001 ∧
    frameViolates 148 (offsetOf (star5 .active) .a 5 (startAt 4000)) upBytes = false ∧ frameViolates 148 (offsetOf (star5 .active) .a 5 (startAt 4001)) upBytes = true ∧
    fcsCorrect upBytes = true ∧ hdrField upBytes 0x0C 4 = 0 ∧ fcsCorrect (spoiled upBytes) = false ∧ (port (star5 .active) .a 5).vcount < 7 ∧
    (port (onPort .a 5 (fun x => { x with vcount := 7 }) (star5 .active)) .a 5).vcount = 7 ∧ (port (star5 .active) .a 5).isoAt = [] ∧
    (port (onPort .a 5 (fun x => { x with quiet := 83 }) (star5 .isolated)) .a 5).quiet + 17 ≤ (followerOf (star5 .isolated) (.star .a)).cycle := by
  decide +kernel
/-- The eighth violation in a row isolates the port (R344). -/
theorem test_isolated : (after (.starUpframe .a 5 (startAt 4001) (some upBytes)) (onPort .a 5 (fun x => { x with vcount := 7 }) (star5 .active))).map
    (fun t => (port t .a 5).mode) = some .isolated := by decide +kernel
/-- An untagged frame of the least length is 64 bytes and its FCS covers all before it (R280). -/
theorem test_frame : upBytes.length = 64 ∧ frameLen upBytes = 24 ∧ upBytes.take 6 = [0x02, 0x4B, 0x58, 0x0A, 0x05, 0x00] ∧ slice upBytes 6 6 = [0x02, 0x4B, 0x58, 0x0A, 0x05, 0x01] := by
  decide +kernel
/-- Star A has sent its downframe of cycle 100 to node 5, and its gate closes; its last fault was in cycle `f`, the second in a row. -/
def gateTime (f : Option Nat) (n : Nat) : State :=
  onStar .a (fun x => { x with txFaults := n, txFaultCycle := f, sent := [(5, ⟨100, 0, false, [], 0, 0, 0, 0, 0, false, [], 0⟩)] })
    (onClk (fun c => { c with tick := 90000000000 - 3000 + 5875 }) (star5 .active))
theorem wit_GateFaults : (∀ f ∈ [none, some 99, some 100], (star (gateTime f 2) .a).txFaultCycle = f ∧ domRun (gateTime f 2) (starDom .a) = true ∧
      (star (gateTime f 2) .a).isolatedAll = false ∧ downSent (gateTime f 2) .a (5#6).toNat = true ∧ gateCloses (gateTime f 2) .a = true) ∧
    (let s := onStart (fun x => { x with booted := false }) (gateTime (some 99) 2)
     domRun s (starDom .a) = true ∧ 99 + 1 = (followerOf s (.star .a)).cycle ∧ (star s .a).txFaults = 2 ∧ mgtUp s = false ∧
     downSent s .a (5#6).toNat = true ∧ gateCloses s .a = true) := by
  decide
/-- One tick before the gate closes nothing is ended; as it closes the frame in transmission is (R352). -/
theorem test_gate : after (.starTxGateFault .a 5) (onClk (fun c => { c with tick := c.tick - 1 }) (gateTime none 0)) = some (onClk (fun c => { c with tick := c.tick - 1 }) (gateTime none 0)) ∧
    (after (.starTxGateFault .a 5) (gateTime none 0)).map (fun t => ((star t .a).txFaults, (star t .a).sent.map (·.2.aborted))) = some (1, [true]) := by decide
theorem wit_PortSelfTestAndLoss : (port (star5 .off) .a (5#6).toNat).mode = .off ∧ (portCfg (star5 .off) .a (5#6).toNat).use = true ∧
    (let s := onPort .a 5 (fun x => { x with downSince := some 80000000000 }) (star5 .off)
     portLost (port s .a 5).mode = true ∧ (port s .a 5).downSince = some 80000000000 ∧ 80000000000 + 25000000 ≤ s.clk.tick ∧
     portKey .a 5 ∉ s.mgt.elec.portDown ∧ mgtUp s = true) ∧ domRun (star5 .off) (starDom .a) = true ∧
    smFind ((star5 .off).data.aux.get .a).testedIn 5 ≠ some (ophHours (star5 .off)) := by decide
/-- Channel A is in COLDSTART and lane B's listen timer has run out. -/
def cold : State := onLane .b (fun x => { x with listen := x.listen.set .a 1 }) (onStar .a (fun x => { x with mode := .coldStart }) (star5 .active))
/-- Lane B's cold-start frame of cycle 100, and one of another link. -/
def coldB (link : BitVec 16) : List Byte := coldFrame .a .b 0 100 link 1 0
theorem wit_ColdStartContention : contentionOpen cold .a = true ∧ Lane.b ∈ linkLanes cold ∧ (lane cold .b).listen.get .a ≠ 0 ∧
    (lane cold .b).listen.get .a ≤ cold.clk.tick ∧ coldOk cold .a (.lane .b) (coldB 77) = true ∧ (star cold .a).contention = [] ∧
    coldOk cold .a (.lane .b) (coldB 78) = false := by decide +kernel
/-- 2 us after CI at star A, whose lanes have committed; it is under substitution. -/
def sending : State :=
  onStar .a (fun x => { x with substitution := true, beaconOf := some 100 }) (onClk (fun c => { c with tick := 90000000000 - 3000 + 50 }) (star5 .active))
theorem wit_StarSendsDownframes : domRun (star5 .active) (starDom .a) = true ∧ (portCfg (star5 .active) .a (5#6).toNat).use = true ∧ (seatOf (star5 .active) .a).isSome = true ∧
    recordsDue (star5 .active) .a = true ∧ (parseSync (syncBytes (ownSync (star5 .active) .a))).isSome = true ∧ parseSync [] = none ∧ Lane.a ∈ linkLanes (star5 .active) ∧ downDue sending .a (5#6).toNat = true ∧
    (star sending .a).substitution = true ∧ (star sending .a).beaconOf = some (starCycle sending .a).toNat := by decide +kernel
/-- Half X and half Y have voted scan 99, in which lanes A and B sent the code of port 5, which star A sends now in cycle 100. -/
def sendNormal : State :=
  let r (l : Lane) (n : BitVec 16) : CodeRec := ⟨99, n, l, 5, downHeader 2 false false 0 .a 5 0 100 77, 9⟩
  onStar .a (fun x => { x with substitution := false, beaconOf := some 100, codes := [r .a 1, r .b 2] })
    (onVoter (fun v => { v with last := { v.last with scn := 99, silent := false, words := (List.range 16).map (fun i => (80 + i, 0)), codeLanes := [(.a, 1), (.b, 2)] } }) sending)
theorem wit_NormalDownframe : downDue sendNormal .a (5#6).toNat = true ∧
    ((decideDown .a 5 (starCycle sendNormal .a) (onPort .a 5 slewDly (beaconDecide .a sendNormal))).2.map (fun q => (q.1.vcode, q.2))) = some (9, [0, 0, 0, 0]) ∧
    (port (onPort .a 5 slewDly (beaconDecide .a sendNormal)) .a 5).mode = .active := by decide +kernel
/-- The star has passed on a record of node 5 in cycle 100. -/
def passedOn (b : List Byte) : State :=
  onAux .a (fun a => { a with passed := [(5, ⟨startAt 0, b⟩)] }) (onPort .a 5 (fun x => { x with tookAt := some 100 }) (star5 .active))
theorem wit_UpframeRecordsAreChecked : let s := passedOn (passedBytes upBytes)
    domRun s (laneDom .a) = true ∧ (lane s .a).core.active.isSome = true ∧ (port s .a 5).tookAt = some (followerOf s (.star .a)).cycle ∧
    smFind (s.data.aux.get .a).passed 5 = some ⟨startAt 0, passedBytes upBytes⟩ ∧ NodeLink.zero.seenAt ≠ some (followerOf s (.star .a)).cycle ∧
    upframeRow s .a 5 NodeLink.zero (passedBytes upBytes) = none ∧ upframeRow s .a 5 NodeLink.zero (upBytes.set 30 9) = some 3 ∧
    upframeRow s .a 5 NodeLink.zero (upBytes.set 13 22) = some 2 := by decide +kernel
/-- Node 5 with both channels in mode `m`, two elements, its action points at 100 us. -/
def nodeCfg5 : NodeCfg := ⟨77, 2, false, true, true, [(0, 100000), (1, 100000)]⟩
def node5 (m : NodeLinkMode) : State :=
  onData (fun d => { d with nodes := [(5, { NodeState.zero with cfg := nodeCfg5, deaf := false, ci := 40 * 90000000000 - 250000, ch := ⟨{ NodeChan.zero with mode := m, beacon := true }, { NodeChan.zero with mode := m, beacon := true }⟩, cycle := 100 })] }) (star5 .active)
theorem wit_NodeChannelsMove : attached (node (node5 .init) 5) .a = true ∧ ((node (node5 .init) 5).ch.get .a).mode = .init ∧
    ((node (node5 .active) 5).ch.get .a).mode = .active ∧ ((node (node5 .active) 5).ch.get .a).activeAt ≠ (node (node5 .active) 5).cycle ∧
    (node (node5 .active) 5).muted = false ∧ ((node (node5 .active) 5).ch.get .a).beacon = true ∧ ((node (node5 .active) 5).ch.get .a).sentUseq = [] ∧
    sendAt (node (node5 .active) 5) .a ≤ 40 * (node5 .active).clk.tick + 100 ∧ cycleOver (node5 .active) 5 = true := by decide
theorem wit_NodeAppliesItsOutputs : (node (node5 .active) (5#6).toNat).cfg.compat = false ∧ (node (node5 .active) 5).cfg.chanA = true ∧
    cycleOver (node5 .active) (5#6).toNat = true ∧ outputDecision (some [3]) (some [5]) = some [1] ∧
    (let q := (node (node5 .active) 5).ch.map endCycle
     outputDecision q.a.rx q.b.rx = none ∧ (timed q.a || timed q.b) = true) := by decide
/-- A normal downframe for node 5 on channel A, and one of another LINK_ID. -/
def downf (link : BitVec 16) : List Byte :=
  let hdr := downHeader 2 false false 0 .a 5 0 100 link
  downBytes .a 5 ⟨100, 0, false, hdr, 0, 0, 0, 0, 0, false, [1, 2, 3, 4], BitVec.ofNat 32 (vitalCode .a (hdr ++ [1, 2, 3, 4]))⟩
theorem wit_NodeTakesDownframes : ((node (node5 .listen) 5).ch.get .a).mode = .listen ∧ attached (node (node5 .listen) 5) .a = true ∧
    classify (node (node5 .listen) 5) 5 .a 0 (downf 77) = .normal ∧ classify (node (node5 .listen) 5) 5 .a 0 (downf 78) = .ignored ∧
    classify (node (node5 .listen) 5) 5 .b 0 (downf 77) = .ignored ∧ (beaconOf 0 (downf 77)).reint = false := by decide +kernel
/-- A change to schedule 1 announced in scan 85: every port acknowledged it, or it is confirmed and at its boundary. -/
def changing (conf : Option Bool) (m : Nat) : State :=
  onSched (fun x => { x with change := some ⟨⟨0, none, 5, 0x0B02⟩, 1, some 85, conf⟩ }) (onClk (fun c => { c with tb2 := m }) (onLanes (fun x => { x with change := some ⟨1, 85, none⟩ }) live))
theorem wit_ScheduleChangeTakesForce : (changing none 100).data.sched.change = some ⟨⟨0, none, 5, 0x0B02⟩, 1, some 85, none⟩ ∧ scn (changing none 100) = 85 + 15 ∧
    confirmedOf (changing none 100) ⟨⟨0, none, 5, 0x0B02⟩, 1, some 85, none⟩ = true ∧ ctlRuns (changing none 100) = true ∧
    scnBefore (BitVec.ofNat 32 (changing (some true) 102).clk.tb2) (boundaryOf 85) = false ∧
    scnBefore (BitVec.ofNat 32 (changing (some true) 101).clk.tb2) (boundaryOf 85) = true := by decide

/-! ### Vital inputs and outputs, power, starts -/

/-- A filtered contact. -/
def contact (closed : Bool) : Contact := ⟨closed, false, 0, closed, 0, 0, 0⟩
/-- VIN2 is dual with both contacts normally open, VIN3 single and trip-class, both closed; VOUT1 and MODULE_ALIVE are driven. -/
def io : State :=
  onVio (fun v => { v with cfgValid := true, vinCfg := [(2, ⟨2, false, 0, 500⟩), (3, ⟨1, true, 0, 0⟩)], voutCfg := [(1, ⟨true, 100⟩)], vin := [(2, ⟨contact true, contact true, true, true, true, false, none⟩), (3, ⟨contact true, contact false, true, true, false, false, none⟩)], vout := [(1, { VoutState.zero with commanded := true, gate := true, xTrain := true, yTrain := true }), (16, { VoutState.zero with commanded := true, gate := true, xTrain := true, yTrain := true })], reading := 0, loop := 0 }) live
theorem wit_ContactTakesItsFilteredState : contactUsed io (2#5).toNat true = true ∧ contactUsed io (2#5).toNat false = true ∧ (vinCfgOf io 2).trip = false ∧
    vioTick io = true ∧ (feedContact io.clk.tick 2 false (readsClosed true 70) 100 (contactOf false (vinOf io 2))).run = 100 ∧
    (feedContact io.clk.tick 2 false (readsClosed true 71) 99 (contactOf false (vinOf io 2))).run = 99 ∧ filterSamples (vinCfgOf io 2).filter = 100 ∧
    masked io.clk.tick 2 false = false := by
  decide
/-- The contacts of VIN2 have differed for 500 ms. -/
def differing : State := onVio (fun v => { v with vin := [(2, ⟨contact true, contact false, false, true, false, false, some (90000000000 - 12500000)⟩)] }) io
theorem wit_DifferingContacts : contactUsed differing (2#5).toNat true = true ∧ (vinOf differing 2).differSince = some (90000000000 - 12500000) ∧
    (vinOf differing 2).discrepant = false ∧
    permissive 2 false (contactRead 2 false (vinOf differing 2).a) ≠ permissive 2 true (contactRead 2 true (vinOf differing 2).b) ∧
    90000000000 - 12500000 + discTicks (vinCfgOf differing 2) ≤ differing.clk.tick := by decide
/-- The test slot of contact b of VIN2, which is in FAULT with seven passes. -/
def testing : State :=
  onClk (fun c => { c with tick := 12500 * (34 + 64 * 112500) + 2500 }) (onVio (fun v => { v with vin := [(2, ⟨contact true, ⟨true, true, 7, true, 0, 0, 0⟩, false, true, false, false, none⟩)] }) io)
theorem wit_ContactTest : contactUsed testing (2#5).toNat true = true ∧ testing.clk.tick / 12500 % 64 = (2#5).toNat + 32 * b2n true ∧
    (contactOf true (vinOf testing 2)).fault = true ∧ (contactOf true (vinOf testing 2)).passes = 7 ∧ 19 ≤ slotSample testing.clk.tick ∧
    (vinCfgOf testing 2).trip = false ∧ (contactOf true (vinOf testing 2)).slot ≠ testing.clk.tick / 12500 + 1 ∧ readsClosed true 240 = true ∧
    (List.replicate 20 (0#16)).length = 20 ∧ ((samplesOf true (List.replicate 20 0)).drop 17).all (fun q => !q) = true ∧
    ((samplesOf true (List.replicate 20 240)).drop 17).all (fun q => !q) = false := by decide
theorem wit_TripClassInputTrips : contactUsed io (3#5).toNat false = true ∧ (vinCfgOf io 3).trip = true ∧ vioTick io = true ∧
    (vinOf io 3).value = true ∧ masked io.clk.tick 3 false = false ∧
    (let x := feedContact io.clk.tick 3 false (readsClosed (contactOf false (vinOf io 3)).raw 0) 100 (contactOf false (vinOf io 3))
     filterSamples (vinCfgOf io 3).filter ≤ x.run ∧
     (evalVin (vinCfgOf io 3) io.clk.tick (onContact false (fun _ => { x with closed := false }) (vinOf io 3))).value = false) ∧
    ctlRuns io = true ∧ domRun io 3 = true := by decide
/-- A trip takes the drive off VOUT1 and MODULE_ALIVE (R233). -/
theorem test_trip : (after (.contactFilterChange 3 false 0 100) io).map (fun t => (t.ctl.trip.mask, (voutOf t 1).gate, (voutOf t 16).commanded)) =
    some (0x0010#16, false, false) := by decide
/-- 20 us before the next cycle instant, with the converters calibrated to 0 V and 24 V. -/
def judging : State := onClk (fun c => { c with tick := 90000000000 - 3000 + 5750 }) (onVio (fun v => { v with calZero := 0, calFull := 24000 }) io)
theorem wit_OutputFaults : (1#5).toNat ≤ 16 ∧ domRun judging 11 = true ∧ (voutOf judging (1#5).toNat).failed = none ∧ (voutOf judging 1).retest = false ∧
    (voutOf judging 1).commanded = true ∧ (voutOf judging 2).commanded = false ∧ judgementDue judging 1 = true ∧ stageDead judging 1 = false ∧
    overloadMa 1 < 651 ∧ ¬ overloadMa 1 < 650 ∧ overloadMa 16 < 131 ∧ corrected judging 19999 < 20000 ∧ corrected judging 20000 = 20000 ∧
    2000 < corrected judging 2001 ∧ corrected judging 2000 ≤ 2000 := by decide
theorem wit_TestWindow : (voter io).running = true ∧ (voter io).released = true ∧ io.ctl.trip.inForce = false ∧ (voutOf io 1).changedAt = 0 ∧
    testScan (onVoter (fun v => { v with scn := 272 }) io) 1 = true ∧ testScan (onVoter (fun v => { v with scn := 264 }) io) 16 = true ∧
    (let s := onClk (fun c => { c with tick := 90000000000 - 3000 + 500 }) io
     s.ctl.followers.vio.lastCi + 500 ≤ s.clk.tick ∧ s.clk.tick ≤ s.ctl.followers.vio.lastCi + 2000) ∧
    testCause true true false false = some 3 ∧ testCause false false true true = some 6 ∧ testCause true false false false = none := by decide
theorem wit_Calibration : io.ctl.vio.calAt = none ∧ beyondBounds 0 24000 = false ∧ beyondBounds 501 24501 = true ∧
    beyondBounds 500 24500 = false ∧ (voutOf io 1).learnCount < 64 ∧ 105 * ((22857 : Int) - 0) < 2400000 ∧ ¬ 105 * ((22858 : Int) - 0) < 2400000 :=
  by decide
/-- Over-current takes the drive off VOUT1 alone (R221). -/
theorem test_overcurrent : (after (.voutOvercurrent 1 651) io).map (fun t => ((voutOf t 1).failed, (voutOf t 1).gate, (voutOf t 16).gate)) =
    some (some 1, false, true) := by decide
/-- In SERVICE the loop has read open once. -/
def openOnce : State := onStart (fun x => { x with service := true }) (onVio (fun v => { v with reading := 1 }) io)
theorem wit_LoopReadings : io.mgt.start.service = false ∧ domRun openOnce 11 = true ∧ domRun openOnce 3 = true ∧ openOnce.mgt.start.service = true ∧
    ctlRuns openOnce = true ∧ (voter openOnce).released = true ∧ openOnce.ctl.vio.loop = 0 ∧ loopClass 501 = 1 ∧ loopClass 500 = 0 ∧
    loopClass 20 = 0 ∧ loopClass 19 = 2 ∧ openOnce.ctl.vio.reading = loopClass 501 ∧ openOnce.ctl.vio.loopAt = none := by decide
/-- The poles of S2 have differed for 200 ms and one tick. -/
def polesDiffer : State := onCtl (fun c => { c with seals := { c.seals with diffSince := [(2, 90000000000 - 5000001)], sampled := ⟨some 90000000000, some 90000000000⟩ } }) io
theorem wit_SwitchPoles : sampleDue io .x = true ∧ polesDiffer.ctl.seals.fault = false ∧ (2, 90000000000 - 5000001) ∈ polesDiffer.ctl.seals.diffSince ∧
    90000000000 - 5000001 + msTicks 200 < polesDiffer.clk.tick ∧ polesDiffer.ctl.seals.sampled.x = some polesDiffer.clk.tick ∧
    polesDiffer.ctl.seals.sampled.y = some 90000000000 ∧ polesDiffer.clk.tick < 90000000000 + 25000 := by decide
theorem wit_LowFieldSupply : io.mgt.elec.vfLow = false ∧ (169#16).toNat < 170 ∧ ¬ (170#16).toNat < 170 ∧
    (onElec (fun e => { e with vfLow := true }) io).mgt.elec.vfLow = true ∧ 180 ≤ (180#16).toNat := by decide
/-- A trip in force whose stars are asked, 500 ticks ago. -/
def tripped (confirm : Duo StarConfirm) : State :=
  onPower (fun p => { p with domains := [(1, .run), (2, .run), (5, .run)] }) (onTrip (fun t => { t with inForce := true, t0 := 90000000000 - 500, confirm := confirm }) live)
theorem wit_TripIsConfirmed : ctlRuns io = true ∧ (tripped ⟨.pending, .pending⟩).ctl.trip.confirm.get .b = .pending ∧
    (tripped ⟨.pending, .pending⟩).clk.tick ≤ (tripped ⟨.pending, .pending⟩).ctl.trip.t0 + 500 ∧
    (tripped ⟨.pending, .notRunning⟩).ctl.trip.t0 + 500 ≤ (tripped ⟨.pending, .notRunning⟩).clk.tick ∧
    (tripped ⟨.pending, .notRunning⟩).ctl.trip.recorded = false ∧ (tripped ⟨.pending, .notRunning⟩).ctl.trip.ctrlReset = false ∧
    domRun (tripped ⟨.pending, .notRunning⟩) 3 = false := by decide

theorem wit_AssertedSource : asserted live .resetN = false ∧ asserted live .mainPor = false ∧ asserted live .retPor = false ∧ live.ret.stuckReset = false ∧
    asserted live .watchdog = false ∧ domRun live 1 = true ∧ (∃ d ∈ reach .ctrlReset, domAbsent live.variant d = false) :=
  ⟨by decide, by decide, by decide, by decide, by decide, by decide, 5, by decide, by decide⟩
/-- CTRL_RESET has been asserted for 1 ms; its domains are held. -/
def ctrlHeld : State :=
  onPower (fun p => { p with domains := (List.range 5).map (fun d => (d, DomState.run)) ++ (List.range 7).map (fun d => (d + 5, DomState.held)), sources := [.ctrlReset], assertedAt := [(.ctrlReset, 90000000000 - 25000)] }) live
/-- Domain `d` is the first one held. -/
def heldFrom (d : Nat) : State :=
  onPower (fun p => { p with domains := (List.range d).map (fun k => (k, DomState.run)) ++ [(d, DomState.held)] }) live
theorem wit_SourcesAndDomains : mayRelease ctrlHeld .ctrlReset 24000 0 true = true ∧ nextDomain (heldFrom 1) = some 1 ∧ nextDomain (heldFrom 5) = some 5 ∧ nextDomain (heldFrom 7) = some (laneDom .a) ∧ nextDomain (heldFrom 6) = some 6 ∧ nextDomain (heldFrom 11) = some 11 ∧
    nextDomain (heldFrom 2) = some 2 ∧ nextDomain (heldFrom 3) = some 3 ∧ nextDomain (heldFrom 4) = some 4 := by decide
theorem wit_ResetPin : (let s := onRet (fun r => { r with resetnLevel := true }) live; s.ret.resetnLevel = true ∧ s.ret.stuckReset = false) ∧
    (let s := onRet (fun r => { r with resetnLevel := false, levelSince := 90000000000 - 1500000001 }) (onPower (fun p => { p with sources := [.resetN] }) live)
     asserted s .resetN = true ∧ asserted s .mainPor = false ∧ s.ret.levelSince + 1500000000 < s.clk.tick ∧ s.ret.resetnLevel = false ∧ s.ret.stuckReset = false) ∧
    (let s := onRet (fun r => { r with resetnLevel := true, stuckReset := true, levelSince := 90000000000 - 25000000 }) live
     s.ret.stuckReset = true ∧ s.ret.levelSince + 25000000 ≤ s.clk.tick) := by decide
/-- A condition of lane A's clock, after `n` readings in limit. -/
def limited (n : Nat) : State := onLimit (limitKey (.lane .a) .clock) (fun _ => ⟨true, n, (Island.lane .a).code, 0⟩) live
theorem wit_IslandLimits : domRun live (islandDom (.lane .a)) = true ∧
    (readingOf (.lane .a) .clock 2001).map (fun r => (r.island, r.out, (limitAt live r.key).out, (limitAt (limited 3) r.key).out)) =
      some (.lane .a, true, false, true) ∧
    (readingOf (.lane .a) .clock 2000).map (fun r => (r.out, r.clears)) = some (false, true) ∧
    (limitAt (limited 64) (limitKey (.lane .a) .clock)).out = true ∧ 64 ≤ (limitAt (limited 64) (limitKey (.lane .a) .clock)).inRun ∧
    (limitAt (limited 64) (limitKey (.lane .a) .clock)).who = (Island.lane .a).code ∧ Island.x ≠ .lane .a ∧ Island.net ≠ .lane .a ∧
    domRun live (laneDom .a) = true ∧ domRun live (islandDom .x) = true ∧ domRun live (islandDom .net) = true := by decide
/-- An attempt that began 130 s ago and has not voted, or runs for 60 s. -/
def attempt (since : Option Nat) : State := onStart (fun x => { x with inAttempt := true, began := 86750000000, bound := 3000000000, held := 0, runSince := since }) live
theorem wit_StartAttempts : (attempt none).mgt.start.inAttempt = true ∧ domRun (attempt none) 1 = true ∧ (attempt none).mgt.start.runSince = none ∧
    (attempt none).mgt.start.began + (attempt none).mgt.start.bound + (attempt none).mgt.start.held < (attempt none).clk.tick ∧
    (attempt none).ret.sram.bankFails < 3 ∧ mgtUp (attempt (some 88500000000)) = true ∧ ctlRuns (attempt (some 88500000000)) = true ∧
    88500000000 + 1500000000 ≤ (attempt (some 88500000000)).clk.tick ∧ (attempt (some 88500000000)).mgt.upd.mode = .idle ∧
    (onStart (fun x => { x with backoffUntil := some 90000000000 }) (attempt none)).mgt.start.backoffUntil = some 90000000000 := by decide
/-- MGT is in its boot loader, with boot source NV_A. -/
def booting : State := onStart (fun x => { x with booted := false }) (onPower (fun p => { p with bootCfg := some 12 }) live)
theorem wit_MgtBoots : domRun booting 1 = true ∧ booting.mgt.start.booted = false ∧ booting.power.recovery = false ∧ booting.power.bootCfg = some 12 ∧
    booting.mgt.start.inAttempt = false ∧ booting.mgt.start.wdBoot = false ∧ booting.mgt.store.shutdownRunning = false ∧ booting.mgt.upd.mode = .idle ∧
    booting.data.time.valid = false := by decide
theorem wit_HeartbeatAndHours : mgtUp live = true ∧ live.clk.beatAt + 25000 ≤ live.clk.tick ∧ live.mgt.upd.mode = .idle ∧
    (onClk (fun c => { c with hoursPending := 1 }) live).clk.hoursPending ≠ 0 := by decide
theorem wit_ElectricalEvents : asserted live .mainPor = false ∧ cellDue live = true ∧ asserted live .retPor = false ∧ (76#16).toInt > 75 ∧ domRun live 2 = true ∧ (3#3).toNat < 6 ∧
    smGet false live.data.net.linkUp 3 ≠ true := by decide
/-- A shutdown BIST runs; with `done` set its blocks have ended. -/
def selfTest (done : BitVec 16) : State := onBist (fun b => { b with running := true, done := done, startedAt := 80000000000 }) live
theorem wit_ShutdownTests : 4 ∈ bistBlocks (selfTest 0) ∧ domRun (selfTest 0) (blockDom 4) = true ∧ (selfTest 0).mgt.bist.done.getLsbD 4 = false ∧
    (selfTest 0xFF).mgt.bist.running = true ∧
    bistRows.all (fun r => (rowBlocks (selfTest 0xFF) r).all (fun b => (selfTest 0xFF).mgt.bist.done.getLsbD b)) = true ∧
    (onPower (fun p => { p with sysResetAt := some 90000000000 }) live).power.sysResetAt = some 90000000000 := by decide

/-! ### Time, boundary ports, the mailbox -/

/-- NET port 0 and boundary port 0 carry the primary domain 0, port 0 end to end, BND0 peer to peer. -/
def netCfg : NetCfg :=
  ⟨0, 1, true, true, 60, 0, [(0, ⟨0x0A000001, 0, 24, true, false, false, true, true, true, 100, 5000, 5001⟩)], [(0, ⟨11, 22, true, true, false, true, true, 7⟩)], []⟩
def master : W64 × Nat := (0xAA, 1)
/-- NET runs with it; both servos have a master, wait for its Follow_Up 9, and on ports 0 and 4 for the answer to request 9. -/
def timed : State :=
  let v : Servo := { Servo.zero with locked := true, master := some master, pending := some (9, 1000), reqAt := [(0, (9, 2000)), (4, (9, 2000))], syncAt := [(0, (1000, 1500))], foreign := [⟨master, 0, default, 1, 80000000000, none⟩] }
  onTime (fun t => { t with p := v, s := v }) (onNet (fun n => { n with cfg := some netCfg }) (onData (fun d => { d with cfg := { d.cfg with bnd := [(0, ⟨11, 22, true, true, false, true, true, 7⟩)] } }) live))
def ptp (port dom : Nat) : PtpMsg := ⟨port, dom, 9, master, 5000, 6000, 0, 0, true, 0, default⟩
theorem wit_Ptp : netUp timed = true ∧ domainOf timed (ptp 0 7) = none ∧ domainOf timed (ptp 0 0) = some false ∧ domainOf timed (ptp 4 0) = some false ∧
    timed.data.net.cfg = some netCfg ∧ (servoOf timed.data.time false).master = some master ∧ (servoOf timed.data.time false).pending = some (9, 1000) ∧
    smFind (servoOf timed.data.time false).reqAt 0 = some (9, 2000) ∧ smFind (servoOf timed.data.time false).syncAt 0 = some (1000, 1500) ∧
    smFind (servoOf timed.data.time false).reqAt 4 = some (9, 2000) ∧ portP2p netCfg 0 = false ∧ portP2p netCfg 4 = true ∧
    (ptp 0 0).twoStep = true ∧ -7 ≤ (ptp 0 0).interval ∧ (ptp 0 0).interval ≤ 1 := by decide
/-- An end-to-end delay: ((t2 - t1) + (t4 - t3)) / 2 = (500 + 5000 - 2000) / 2 (R364). -/
theorem test_delay : (after (.ptpDelayResp (ptp 0 0)) timed).map (fun t => t.data.time.p.meanDelay) = some 1750 := by decide
/-- The time state is `m`, the primary locked for 60 s, the secondary without Sync for 3 s. -/
def tmode (m : TimeMode) : State :=
  onTime (fun t => { t with mode := m, valid := true, holdSince := 88500000000, p := { t.p with lockedAt := 88500000000, lastSync := 89000000000 }, s := { t.s with lastSync := 89000000000 } }) timed
theorem wit_TimeStates : smFind timed.data.time.p.reqLast 0 = none ∧ portP2p netCfg 0 = false ∧
    (∀ f ∈ (servoOf timed.data.time true).foreign, f.last + 3 * intervalTicks f.interval ≤ timed.clk.tick) ∧ domRun timed 2 = true ∧ portP netCfg 0 = true ∧ (servoOf (tmode .free).data.time true).locked = true ∧
    (servoOf (tmode .free).data.time true).lastSync + 3 * intervalTicks (servoOf (tmode .free).data.time true).interval ≤ (tmode .free).clk.tick ∧
    (servoOf timed.data.time true).master.isSome = true ∧ netCfg.revert = true ∧ (tmode .lockedSecondary).data.time.p.locked = true ∧
    (tmode .lockedSecondary).data.time.p.lockedAt + msTicks 60000 ≤ (tmode .lockedSecondary).clk.tick ∧
    (tmode .holdover).data.time.holdSince + 25000000 * netCfg.holdoverS ≤ (tmode .holdover).clk.tick ∧
    (let s := onTime (fun t => { t with slew := some 1, tb0 := (vclock timed t.p * 65536).toNat }) (tmode .lockedPrimary)
     s.data.time.slew = some 1 ∧ selectedDomain s.data.time.mode = some false ∧ absI (stepTo s false) < fiftyNs) ∧
    mgtUp (tmode .free) = true ∧ (tmode .free).data.time.valid = true ∧ (tmode .free).data.time.map = none := by decide
/-- A telegram of the partner for this module as its frame, with its CODE or another. -/
def tg (code : W32) : List Byte :=
  telegramFrame ⟨false, false, 22, 11, 1, 5, List.replicate 48 0, code⟩
def tgCode : W32 := telegramCode ⟨false, false, 22, 11, 1, 5, List.replicate 48 0, 0⟩
/-- 10 us before the next cycle instant; the images of the published snapshot are there. -/
def telTime (codes : List (Lane × BitVec 16)) : State :=
  onVoter (fun v => { v with now := { v.now with codeLanes := codes } })
    (onNet (fun n => { n with outgoing := some (100, []) }) (onClk (fun c => { c with tick := 90000000000 - 3000 + 6000 }) timed))
theorem wit_TelegramPasses : netPasses timed .bnd0 (tg tgCode) = true := by
  have h : fcsCorrect (tg tgCode) = true := Laws.fcsCorrect_macFrame _ _ _ rfl rfl
  have hd : frameDa (tg tgCode) = bndAddr 11 ∧ frameSa (tg tgCode) = bndAddr 22 ∧ frameLen (tg tgCode) = 64 ∧ (tg tgCode).length = 82 := by
    decide +kernel
  have hc : timed.data.net.cfg = some netCfg := rfl
  have hb : smGet BndCfg.zero netCfg.bnd (bndIdx .bnd0) = ⟨11, 22, true, true, false, true, true, 7⟩ := rfl
  simp only [netPasses, hc, hb, h, hd, decide_true, Bool.and_self]
theorem wit_Telegrams : bndEnabled timed .bnd0 = true ∧ (voter timed).running = true ∧ telegramRows timed .bnd0 (tg tgCode) = true ∧ telegramRows timed .bnd0 (tg (tgCode + 1)) = false ∧
    ctlRuns (telTime []) = true ∧ telegramSent (telTime []) .bnd0 = false ∧ telegramLeaves (telTime []) = true ∧ telegramLeaves (telTime [(.a, 0), (.b, 0)]) = true ∧
    nextCi (telTime []) .x ≤ (telTime []).clk.tick + 250 ∧ (telTime [(.a, 0), (.b, 0)]).data.net.outgoing = some (scn (telTime [(.a, 0), (.b, 0)]), []) ∧
    identitiesAgree (telTime [(.a, 0), (.b, 0)]) .bnd0 = true ∧ (agreedTelegram (telTime [(.a, 0), (.b, 0)]) .bnd0).isSome = true ∧
    agreedTelegram (telTime []) .bnd0 = none := by decide +kernel
/-- Cycle-point subscription 2: 10 us into every second cycle, vector 4. -/
def cpTime : State :=
  onClk (fun c => { c with tick := 90000000000 - 3000 + 250, tb2 := 100 }) (onSched (fun x => { x with cpSubs := [(2, (250, 4, 2))] })
    (onRegs (fun r => { r with msixTable := [(19, 1#32)] }) timed))
theorem wit_CyclePoints : smFind cpTime.data.sched.cpSubs (2#3).toNat = some (250, 4, 2) ∧ mgtUp cpTime = true ∧ cpTime.power.pcieDown = false ∧
    cpTime.clk.tb2 % 2 = 0 ∧ cpTime.ctl.followers.x.lastCi + 250 ≤ cpTime.clk.tick ∧ cpTime.clk.tick ≤ cpTime.ctl.followers.x.lastCi + 250 + 75 ∧
    smGet 0 cpTime.data.sched.cpSent 2 ≠ cpTime.clk.tb2 + 1 ∧ vectorMasked cpTime 4 = false ∧
    (smGet NetPortCfg.zero netCfg.net (0#2).toNat).ip ≠ 0 ∧
    arpRequest 0x0A000001 (List.replicate 12 0 ++ [8, 6] ++ List.replicate 6 0 ++ [0, 1] ++ List.replicate 16 0 ++ [0x0A, 0, 0, 1]) = true ∧
    arpRequest 0x0A000001 [] = false ∧ echoRequest 0x0A000001 [] = false := by decide

/-- MBX_EN is 0 and the admin registers are good. -/
def admin0 : State := onRegs (fun r => { r with mbxEn := false, admEntries := 0x00400040, admCmd := 0x10000, admCpl := 0x20000 }) live
/-- Rings of the PCIe host: admin queues, command ring 1 with completion ring 2, event ring 3. -/
def rings0 : SMap RingS :=
  [(0, { newRing 1 none 6 with prod := 1, cplRing := 256 }), (1, { newRing 1 none 6 with prod := 1, cplRing := 2 }), (2, { newRing 2 none 6 with prod := 3, cons := 1, firstAt := some 1 }),
   (3, { newRing 3 none 6 with eventMask := 1, firstAt := some 1 }), (256, newRing 2 none 6)]
def ringed : State :=
  onMbx (fun m => { m with rings := rings0, finished := [⟨1, none, 5, 0, .ok, 0, 0, false, [], [], false, 0⟩], inflight := [⟨1, none, 5, 0, false⟩], events := [⟨1, []⟩] })
    (onRegs (fun r => { r with mbxEn := true }) live)
theorem wit_RingsFollow : admin0.mgt.mbx.regs.mbxEn = false ∧ admin0.mgt.mbx.regs.mbxReset = false ∧ adminLog2 (admin0.mgt.mbx.regs.admEntries.toNat % 65536) = some 6 ∧
    adminLog2 (admin0.mgt.mbx.regs.admEntries.toNat / 65536) = some 6 ∧ admin0.mgt.mbx.regs.admCmd.toNat % 64 = 0 ∧ admin0.mgt.mbx.regs.admCpl.toNat % 32 = 0 ∧
    adminLog2 8 = none ∧ (onRegs (fun r => { r with mbxReset := true }) live).mgt.mbx.regs.mbxReset = true ∧
    barUp ringed = true ∧ (ringOf ringed (1#8).toNat).session = none ∧ (ringOf ringed 1).rtype = 1 ∧ (ringOf ringed 1).state ≠ 3 ∧
    (63#12).toNat < ringSize (ringOf ringed 1) ∧ ringSize (ringOf ringed 1) ≤ (64#12).toNat ∧ ringed.mgt.mbx.regs.mbxReset = false := by decide
theorem wit_FetchTakesTheTurn : (let s := onMbx (fun m => { m with turn := 0, inflight := [] }) ringed
    mgtUp s = true ∧ s.mgt.mbx.ready = true ∧ s.mgt.mbx.inflight.length < 256 ∧ (ringOf s (cmdKey none (1#8).toNat)).session = none ∧
    nextFetch s = some (cmdKey none (1#8).toNat)) ∧ opcodeKnown 0x000A = false ∧ opcodeKnown 0x0009 = true ∧ opcodeKnown 0x0F05 = true ∧
    opcodeKnown 0x0F06 = false ∧ opcodeKnown 0x0C00 = false := by decide
theorem wit_CompletionsAreWritten : mgtUp ringed = true ∧ ringed.mgt.mbx.finished.head? = some ⟨1, none, 5, 0, .ok, 0, 0, false, [], [], false, 0⟩ ∧
    awaited ringed ⟨1, none, 5, 0, .ok, 0, 0, false, [], [], false, 0⟩ = true ∧ ringThere (ringOf ringed (cplKey ringed none 1)) = true ∧
    ringHasRoom (cplKey ringed none 1) (ringOf ringed (cplKey ringed none 1)) = true := by decide
/-- The host's event ring alone, or full. -/
def oneRing (prod : Nat) : State :=
  onMbx (fun m => { m with rings := [(3, { newRing 3 none 6 with eventMask := 1, prod := prod, firstAt := some 1, coalUs := 10 })], events := [⟨1, []⟩] }) live
theorem wit_EventsReachTheirRings : (oneRing 0).mgt.mbx.rings = [(3, ringOf (oneRing 0) 3)] ∧ mgtUp (oneRing 0) = true ∧
    (oneRing 0).mgt.mbx.events = [⟨1, []⟩] ∧ selects (ringOf (oneRing 0) 3) 1 = true ∧ selects (ringOf (oneRing 0) 3) 2 = false ∧
    ringFull (ringOf (oneRing 0) 3) = false ∧ ringFull (ringOf (oneRing 63) 3) = true ∧ (ringOf (oneRing 0) 3).lost = 0 ∧
    (ringOf (oneRing 0) 3).firstAt = some 1 ∧ (ringOf (oneRing 0) 3).rtype ≠ 1 ∧ 1 + 25 * (ringOf (oneRing 0) 3).coalUs ≤ (oneRing 0).clk.tick := by decide
/-- Session 0 from port 0, with its admin pair and one unacknowledged entry. -/
def session0 : State :=
  onMbx (fun m => { m with sessions := [⟨0, 0, 9, 80000000000, [], 0, []⟩], rings := [(512, { newRing 1 (some 0) 6 with cplRing := 513 }), (513, { newRing 2 (some 0) 6 with prod := 1, firstAt := some 1 })] }) timed
theorem wit_SessionsLiveAndEnd : dtlsPort timed (0#2).toNat = true ∧
    (List.range 32).find? (fun n => !(timed.mgt.mbx.sessions.map (·.id)).contains n) = some 0 ∧ dtlsUp session0 0 = true ∧
    (onMbx (fun m => { m with trustAnchor := [1] }) timed).mgt.mbx.trustAnchor.isEmpty = false ∧
    (ringOf session0 (cmdKey (some 0) 0)).rtype = 1 ∧ (ringOf session0 (cmdKey (some 0) 0)).session = some 0 ∧
    ringUsed (ringOf session0 512) + newDescriptors (ringOf session0 512) 0 2 < ringSize (ringOf session0 512) ∧
    hostRing session0 0 (0#8).toNat = some 513 ∧ (ringOf session0 513).lost = 0 ∧ (ringOf session0 513).stream = none ∧
    smWf RingS.zero session0.mgt.mbx.rings = true ∧
    (1 + ringSize (ringOf session0 513) - (ringOf session0 513).cons) % ringSize (ringOf session0 513) ≤ ringUsed (ringOf session0 513) ∧
    (sessionOf session0 0).isSome = true ∧ 0 < ringUsed (ringOf session0 513) ∧ 1 + msTicks 100 ≤ session0.clk.tick ∧
    80000000000 + msTicks 60000 ≤ session0.clk.tick := by decide
/-- A current snapshot of scan 99, and a subscription that streams it. -/
def snap99 : Snapshot := ⟨99, 0, 0, [], [], 0, 0, [], [], []⟩
def exporting : State :=
  onExp (fun e => { e with valid := true, cur := true, scn := 99, buf1 := some snap99, subs := [(4, ⟨0x0A000002, 5001, 0, [(0, 64)], 1, 1, 0, 0, some (99, 0)⟩)] }) timed
theorem wit_SnapshotsAreStreamed : netUp exporting = true ∧ mgtUp exporting = true ∧ (smFind exporting.mgt.exp.subs (4#6).toNat).isSome = true ∧
    (expParts [(0, 64)])[0]? = some (0, 64) ∧ bufferOf exporting 99 = some snap99 ∧ currentSnapshot exporting = some snap99 ∧
    exporting.mgt.exp.evaluated.map (·.scn) ≠ some 99 := by decide

/-! ### Mailbox commands -/

/-- Rows 3 and 4 of R419 as a test. -/
def acc (i : Instr) (s : State) : Bool :=
  match mailbox i with
  | some (_, _, f, e) => mgtUp s && f && (e || !s.mgt.bist.running)
  | none => false
theorem acc_accepted {i : Instr} {s : State} (h : acc i s = true) : Accepted i s := by
  unfold acc at h
  unfold Accepted
  split at h <;> simp_all

/-- Every switch in `is` reads on. -/
def sealsOn (is : List Nat) (s : State) : State :=
  onCtl (fun c => { c with seals := { c.seals with poles := Halves.all (is.map (fun i => (i, ⟨some true, true, 20⟩))) } }) s
/-- The control plane votes in a state from which every command is tried: all switches on, engineering. -/
def desk : State := sealsOn [1, 2, 3, 4, 5, 6, 7, 8] live

theorem wit_MailboxCommandsAreJudgedFirst : mgtUp (onStart (fun x => { x with booted := false }) live) = false ∧ mgtUp live = true ∧
    (mailbox (.sysReset (hIn 4))).map (fun q => q.2.2.1) = some false ∧ (mailbox (.sysReset hdr)).map (fun q => (q.2.2.1, q.2.2.2)) = some (true, false) ∧
    (selfTest 0).mgt.bist.running = true := by decide
/-- SYS_RESET with data is BAD_ARG; while a shutdown BIST runs it is BUSY_SELFTEST (R419, R420). -/
theorem test_judged : (after (.sysReset (hIn 4)) live).map (fun t => t.mgt.mbx.finished.map (·.status)) = some [.badArg] ∧
    (after (.sysReset hdr) (selfTest 0)).map (fun t => t.mgt.mbx.finished.map (·.status)) = some [.busySelftest] := by decide

theorem wit_SysNop : Accepted (.sysNop hdr 7) live := acc_accepted (by decide)
theorem wit_SysRegRead : Accepted (.sysRegRead (hOut 4) 0x4C 1) live ∧ (0x4C#32).toNat % 4 = 0 ∧ (0x4C#32).toNat + 4 ≤ 0x4000 :=
  ⟨acc_accepted (by decide), by decide, by decide⟩
def ringParam : RingParam := ⟨4, 3, 6, 0, 0, 1, 1, 0, 1, 0x10000⟩
theorem wit_SysRingCreate : Accepted (.sysRingCreate hdr ringParam) live ∧ ringParamBad live none ringParam = false ∧
    (if ringParam.ring.toNat = 0 then freeRing live else some ringParam.ring.toNat) = some 4 := ⟨acc_accepted (by decide), by decide, by decide⟩
theorem wit_SysRingDestroy : Accepted (.sysRingDestroy hdr 3) ringed ∧ ringThere (ringOf ringed (3#8).toNat) = true ∧
    (ringOf ringed (3#8).toNat).session = hdr.session ∧ (ringOf ringed (3#8).toNat).rtype ≠ 2 := ⟨acc_accepted (by decide), by decide, by decide, by decide⟩
theorem wit_SysStart : Accepted (.sysStart hdr) up ∧ up.mgt.bist.running = false ∧ ctlRuns up = false ∧ Accepted (.sysStart hdr) (selfTest 0) :=
  ⟨acc_accepted (by decide), by decide, by decide, acc_accepted (by decide)⟩
/-- SYS_START ends a shutdown BIST and asserts SYS_RESET (R424, R515). -/
theorem test_start_ends_bist : (after (.sysStart hdr) (selfTest 0)).map (fun t =>
    (t.power.sources.contains .sysReset, t.mgt.start.shutdownPending, t.mgt.bist.running)) = some (true, false, false) := by decide +kernel
theorem wit_SysResets : Accepted (.sysReset hdr) desk ∧ switchOn desk 1 = true ∧ Accepted (.sysCtrlReset hdr) live ∧ ctlRuns live = true ∧
    Accepted (.sysCtrlReset hdr) up ∧ ctlRuns up = false ∧ up.ctl.trip.inForce = false ∧ Accepted (.sysTrip hdr) live ∧ silentRun live = false ∧
    Accepted (.sysTrip hdr) (onTrip (fun t => { t with inForce := true }) up) ∧ Accepted (.sysBlockReset hdr 1) live ∧
    blockTarget 1 = some .netReset ∧ blockAbsent live (some .netReset) = false ∧ blockDenied live (some .netReset) = false :=
  ⟨acc_accepted (by decide), by decide, acc_accepted (by decide), by decide, acc_accepted (by decide), by decide, by decide, acc_accepted (by decide),
   by decide, acc_accepted (by decide), acc_accepted (by decide), by decide, by decide, by decide⟩
theorem wit_ShutdownLeavesTheModuleRestrictive : Accepted (.sysShutdown hdr 0) live ∧ Accepted (.sysShutdown hdr 1) live ∧
    live.mgt.upd.mode ≠ .activating ∧ live.mgt.upd.mode ≠ .rollback := ⟨acc_accepted (by decide), acc_accepted (by decide), by decide, by decide⟩

/-- A public key as CFG_WRITE takes it: uncompressed, 97 bytes. -/
def key97 : List Byte := 4 :: List.replicate 96 1
theorem wit_CfgWrite : Accepted (.cfgWrite (hIn 97) 0x11 key97) desk ∧ cfgBlock 0x11 = some (.key 1) ∧ 2 ≤ key97.length ∧
    cfgVersion desk (.key 1) key97 = false ∧ cfgBad desk (.key 1) key97 = false ∧ cfgSealed (.key 1) = true ∧ switchOn desk 1 = true ∧
    nandBusy desk 0x0100 = false := ⟨acc_accepted (by decide), by decide, by decide, by decide, by decide, by decide, by decide, by decide⟩
/-- A key and a trust anchor are stored. -/
def keyed : State := onStore (fun x => { x with keys := [(1, key97)] }) desk
theorem wit_CfgReads : Accepted (.cfgRead (hOut 97) 0x11) keyed ∧ (cfgStored keyed (.key 1)).isEmpty = false ∧ nandBusy keyed 0x0101 = false ∧
    Accepted (.cfgSet hdr 2 168) live ∧ paramKnown 2 = true ∧ paramOk 2 168 = true ∧ paramOk 2 169 = false ∧ nandBusy live 0x0102 = false ∧
    Accepted (.cfgGet hdr 2) live ∧ Accepted (.cfgKeyRemove hdr 1) keyed ∧ inService keyed = false :=
  ⟨acc_accepted (by decide), by decide, by decide, acc_accepted (by decide), by decide, by decide, by decide, by decide, acc_accepted (by decide),
   acc_accepted (by decide), by decide⟩
theorem wit_TimCommands : Accepted (.timLatch (hOut 48)) live ∧ Accepted (.timMap (hOut 24)) (onTime (fun t => { t with map := some ⟨1, 2, 3, 4, 5⟩ }) live) ∧
    Accepted (.timPtp (hOut 64)) live ∧ domRun live 2 = true :=
  ⟨acc_accepted (by decide), acc_accepted (by decide), acc_accepted (by decide), by decide⟩
/-- The recorder is frozen; a stream ring of 64-byte entries exists; MGT holds a belay report. -/
def logged : State :=
  onBist (fun b => { b with belayReport := some report0 }) (onRec (fun m => { m with frozen := true })
    (onMbx (fun m => { m with rings := [(5, { newRing 4 none 6 with entrySize := 64 })] }) desk))
theorem wit_LogCommands : Accepted (.logRead (hOut 128) 1 0 2) desk ∧ nandBusy desk 0x0300 = false ∧ Accepted (.logFreeze hdr) desk ∧
    desk.mgt.recorder.frozen = false ∧ Accepted (.logUnfreeze hdr) logged ∧ logged.mgt.recorder.frozen = true ∧ Accepted (.logClear hdr 0) desk ∧
    switchOn desk 1 = true ∧ switchOn desk 6 = true ∧ nandBusy desk 0x0303 = false ∧ Accepted (.logStream hdr 5 1 0) logged ∧
    (ringOf logged 5).stream = none ∧ (ringOf logged 5).rtype = 4 ∧ (ringOf logged 5).entrySize = 64 ∧ (ringOf logged 5).session = hdr.session ∧
    Accepted (.logHealth (hOut 64) 3) desk ∧ laneArg desk 3 = some .d ∧ Accepted (.logCycles (hOut 8) 4094 2) desk ∧
    Accepted (.logBelay (hOut 64)) logged ∧ logged.mgt.bist.belayReport = some report0 :=
  ⟨acc_accepted (by decide), by decide, acc_accepted (by decide), by decide, acc_accepted (by decide), by decide, acc_accepted (by decide), by decide,
   by decide, by decide, acc_accepted (by decide), by decide, by decide, by decide, by decide, acc_accepted (by decide), by decide,
   acc_accepted (by decide), acc_accepted (by decide), by decide⟩
/-- CRC-32C over point 0, under software. -/
def cvuQ : CvuParam := ⟨3, 32, 0, true, true, 0, 0x1EDC6F41, 0xFFFFFFFF, 0xFFFFFFFF, 3, 0, 0⟩
/-- Unit 3 runs it with its window open; unit 4 waits for 4 bytes at point 12; unit 6 has a window ended. -/
def cvuOn : State :=
  let x := { cvuSetting cvuQ Cvu.zero with enable := true }
  onMgt (fun m => { m with cvu := [(3, { x with winOpen := true }), (4, { x with trigger := 2, count := 4, point := 12 }), (6, { x with trigger := 2, count := 4, ended := [(99, [1])] })] }) desk
theorem wit_Cvu : Accepted (.cvuConfig hdr cvuQ) desk ∧ cvuParamBad cvuQ = false ∧ Accepted (.cvuRead (hOut 16) 3) cvuOn ∧ Accepted (.cvuReadAck hdr 3 0) cvuOn ∧
    (cvuOf cvuOn (3#8).toNat).seq = 0 ∧ softUnit (cvuOf cvuOn (3#8).toNat) = true ∧ Accepted (.cvuTrigger hdr 3 1 []) cvuOn ∧
    Accepted (.cvuTrigger hdr 3 2 [1]) cvuOn ∧ (cvuOf cvuOn 3).winOpen = true ∧
    Accepted (.cvuDisable hdr 3) cvuOn :=
  ⟨acc_accepted (by decide), by decide, acc_accepted (by decide), acc_accepted (by decide), by decide, by decide, acc_accepted (by decide),
   acc_accepted (by decide), by decide, acc_accepted (by decide)⟩
theorem wit_CheckValueUnitsRun : barUp cvuOn = true ∧ (cvuOf cvuOn (5#4).toNat).enable = false ∧ (0x80000000#32).getLsbD 31 = true ∧
    cvuSettingOk (cvuFields 0x80000000#32 (cvuOf (onCvu 5 (cvuSetting cvuQ) cvuOn) 5)) = false ∧
    cvuSettingOk (cvuFields 0x80F02000#32 (cvuOf (onCvu 5 (cvuSetting cvuQ) cvuOn) 5)) = true ∧ softUnit (cvuOf cvuOn (3#4).toNat) = true ∧
    (cvuOf cvuOn (3#4).toNat).winOpen = true ∧ domRun cvuOn 1 = true ∧ (cvuOf cvuOn (4#4).toNat).enable = true ∧
    (cvuOf cvuOn (4#4).toNat).ended = [] ∧ (cvuOf cvuOn (4#4).toNat).valid = false ∧
    (cvuOf cvuOn (6#4).toNat).enable = true ∧ (cvuOf cvuOn (6#4).toNat).ended = [(99, [1])] ∧
    windowFits cvuOn (cvuOf cvuOn (4#4).toNat) [1, 2, 3, 4] = true ∧ windowFits cvuOn (cvuOf cvuOn (4#4).toNat) [1, 2, 3] = false ∧ mgtUp cvuOn = true := by
  decide
/-- The CRC-32C of the digits 1 to 9 is 0xE3069283 (R286, R452: reflected, all ones in and out). -/
theorem test_crc32c : crc32c [0x31, 0x32, 0x33, 0x34, 0x35, 0x36, 0x37, 0x38, 0x39] = 0xE3069283 := by decide +kernel

/-- FRC: variable 1 is forceable with RESTR 0; variable 3 is a marker. -/
theorem wit_FrcCommands : Accepted (.frcSet hdr 1 1) desk ∧ notRunning desk = false ∧ judgeForce desk (runImage desk) (forceTable desk) 1 1 = none ∧
    (forceOf desk 1 1).any = true ∧ (forceOf desk 1 0).any = false ∧ Accepted (.frcClear hdr 1) desk ∧ smFind (forceTable desk) 1 = none ∧
    desk.ctl.force.pending = [] ∧ smFind (forceTable (onForce (fun f => { f with out := Halves.all [(1, ⟨1, true⟩)] }) desk)) 1 ≠ none ∧
    Accepted (.frcClearAll hdr) desk ∧ Accepted (.frcList (hOut 8192)) exporting ∧ currentSnapshot exporting = some snap99 :=
  ⟨acc_accepted (by decide), by decide, by decide, by decide, by decide, acc_accepted (by decide), by decide, by decide, by decide,
   acc_accepted (by decide), acc_accepted (by decide), by decide⟩
/-- A request in slot 1 that 64 scans have not shown. -/
def slotReq : ForceReq := ⟨⟨0, none, 5, 0x0500⟩, some 1, 3, 1, 1, 1, 64, none⟩
theorem wit_UnshownForces : let s := onForce (fun f => { f with pending := [slotReq] }) desk
    s.ctl.force.pending.find? (fun q => q.slot = some (1#2).toNat ∧ 64 ≤ q.scans) = some slotReq ∧
    (∀ r ∈ s.ctl.force.pending, r.slot.isSome = true) := by decide

/-- An image load of 16 bytes to the staging path, of which none or all is held; online change in state `m` with `img` staged for scan w. -/
def loading (ps : List (Nat × List Byte)) : State := onOlc (fun o => { o with load := some ⟨0, 16, 0, ps⟩ }) desk
def olcIn (m : OlcMode) (w : Scn) : State := onOlc (fun o => { o with mode := m, image := some img, w := w }) desk
theorem wit_OlcCommands : Accepted (.olcLoadBegin hdr 0 16842752 0) desk ∧ desk.ctl.olc.mode ≠ .swapping ∧ (16842752#32).toNat ≤ 16777216 + 65536 ∧
    ¬ (16842753#32).toNat ≤ 16777216 + 65536 ∧ switchOn desk 3 = true ∧ inService desk = false ∧
    Accepted (.olcLoadData (hIn 8) 8 (List.replicate 8 1)) (loading []) ∧ (8#32).toNat + 8 ≤ 16 ∧ Accepted (.olcLoadEnd hdr) (loading []) ∧
    nandBusy (loading []) 0x0602 = false ∧ heldBytes [] ≠ 16 ∧ Accepted (.olcSwap hdr 0) (olcIn .staged 0) ∧ (olcIn .staged 0).ctl.olc.restage = false ∧
    (olcIn .staged 0).ctl.olc.swapCmd = none ∧ (olcIn .staged 0).data.sched.change = none ∧ debugAttached (olcIn .staged 0) = false ∧
    Accepted (.olcCancel hdr) (olcIn .swapping 102) ∧ (olcIn .swapping 102).ctl.olc.cancelCmd = none ∧ scnBefore (nextCarried (olcIn .swapping 102)) 102 = true ∧
    (olcIn .swapping 102).ctl.olc.swapped = false ∧ scnBefore (nextCarried (olcIn .swapping 101)) 101 = false ∧ Accepted (.olcDiscard hdr) (olcIn .staged 0) ∧
    Accepted (.olcStatus hdr) desk ∧ desk.ctl.olc.mode = .idle :=
  ⟨acc_accepted (by decide), by decide, by decide, by decide, by decide, by decide, acc_accepted (by decide), by decide, acc_accepted (by decide),
   by decide, by decide, acc_accepted (by decide), by decide, by decide, by decide, by decide, acc_accepted (by decide), by decide, by decide, by decide,
   by decide, acc_accepted (by decide), acc_accepted (by decide), by decide⟩
/-- Scan 101 begins, which is W; every lane's shadow bank and ready word carry the staged image; or half Y has no ready word of lane A. -/
def swapTime : State :=
  onLanes (fun x => { x with core := { x.core with shadow := some img } }) (onCtl (fun c => { c with followers := { c.followers with x := { follower with cycle := 101 } } })
    (onVoter (fun v => { v with ready := Halves.all ⟨some ⟨1, true, 0x1234⟩, some ⟨2, true, 0x1234⟩, some ⟨3, true, 0x1234⟩, none⟩ }) (olcIn .swapping 101)))
def swapOdd : State := onVoter (fun v => { v with scn := 101, ready := { v.ready with y := v.ready.y.set .a none } }) swapTime
theorem wit_SwapsAreDecided : swapTime.ctl.olc.mode = .swapping ∧ swapTime.ctl.olc.swapped = false ∧
    scnBefore (BitVec.ofNat 32 swapTime.ctl.followers.x.cycle) swapTime.ctl.olc.w = false ∧ BitVec.ofNat 32 swapTime.ctl.followers.x.cycle ≠ scn swapTime ∧
    ctlRuns swapTime = true ∧ runImage swapTime = some img ∧ swapTime.ctl.olc.image = some img ∧
    (∀ h : Half, h = .x ∨ h = .y → swapRefusal (onVoter (fun v => { v with scn := 101 }) swapTime) h img img = none) ∧
    (∀ h : Half, h = .x ∨ h = .y → swapRefusal (sealsOn [] swapTime) h img img = some .deniedSeal) ∧
    swaps swapTime img .a = true ∧ swapRefusal swapOdd .x img img = none ∧ swapRefusal swapOdd .y img img = some .checkFail := by
  refine ⟨by decide, by decide, by decide, by decide, by decide, by decide, by decide, ?_, ?_, by decide, by decide, by decide⟩ <;>
    (rintro h (rfl | rfl) <;> decide)
/-- The image is on its way to the shadow banks: lane A is the last, or the first. -/
def staging (others : Option Image) (certCycles : Nat) : State :=
  onCore .a (fun c => { c with shadow := none }) (onLanes (fun x => { x with core := { x.core with shadow := others } })
    (onOlc (fun o => { o with image := some { img with certCycles := certCycles }, loadCmd := some ⟨0, none, 5, 0x0602⟩ }) desk))
theorem wit_StagingReachesEveryLane : let i := { img with certCycles := 10 }
    let s := staging (some i) 10
    let s1 := onCore .a (fun c => { c with shadow := some i }) s
    s.ctl.olc.image = some i ∧ stagingDue s = true ∧ stagingOpen s = true ∧ ctlRuns s = true ∧ idlePart s = true ∧
    (stagingLanes s).contains .a = true ∧ (lane s .a).core.phase = .idle ∧ (lane s .a).core.shadow ≠ some i ∧ runImage s = some img ∧
    allStaged s1 i = true ∧ s.ctl.olc.restage = false ∧ digestDissent s1 (mapDigest (transferMap img i)) = 0 ∧
    allStaged (onCore .a (fun c => { c with shadow := some i }) (staging none 10)) i = false ∧
    i.certCycles + swapCost (transferMap img i) ≤ Config.budget i.tscan ∧ Config.budget img.tscan < 10000000 + swapCost (transferMap img img) := by
  decide +kernel
/-- After a start a stored image that no longer parses is refused. -/
theorem wit_Restaging : let s := onOlc (fun o => { o with restage := true }) (onStore (fun x => { x with staged := [1] }) (staging (some { img with certCycles := 10 }) 10))
    s.ctl.olc.restage = true ∧ stagingDue s = true ∧ (changeCheck (onCore .a (fun c => { c with shadow := some { img with certCycles := 10 } }) s) s.mgt.store.staged).2.toOption = none := by
  decide +kernel

/-- A package of two blocks is received, staged, in activation step `n`, or awaits its commit. -/
def manifest0 : Manifest := ⟨5, 7, [], 0, 0, 0⟩
def upd (m : UpdMode) (n : Nat) : State :=
  onUpd (fun u => { u with mode := m, pkgId := 9, blocks := 2, manifest := some manifest0, step := n, begun := true, fuseSecVer := 4 }) desk
theorem wit_UpdCommands : Accepted (.updBegin hdr 9 2) desk ∧ updBusy desk = false ∧ Accepted (.updBlock (hIn 4096) 1 0 (List.replicate 4096 0)) (upd .receiving 0) ∧
    pkgBegun (upd .receiving 0) = true ∧ (1#32).toNat < (upd .receiving 0).mgt.upd.blocks ∧ nandBusy (upd .receiving 0) 0x0701 = false ∧
    Accepted (.updBitmap (hOut 1) 0 8) (upd .receiving 0) ∧ Accepted (.updVerify hdr) (upd .receiving 0) ∧
    verifyPackage (upd .receiving 0) 9 2 true = .error .checkFail ∧ Accepted (.updActivate hdr) (upd .staged 0) ∧
    (upd .staged 0).mgt.upd.manifest.isSome = true ∧ shutdownRequested (upd .staged 0) = false ∧ switchOn (upd .staged 0) 4 = true ∧
    Accepted (.updAbort hdr) (upd .staged 0) ∧ Accepted (.updCommit hdr true) (upd .awaitCommit 0) ∧ Accepted (.updCommit hdr false) (upd .awaitCommit 0) ∧
    (upd .awaitCommit 0).mgt.upd.fuseSecVer < manifest0.secVer ∧ Accepted (.updRevert hdr) (upd .awaitCommit 0) ∧ Accepted (.updStatus (hOut 64)) (upd .idle 0) :=
  ⟨acc_accepted (by decide), by decide, acc_accepted (by decide +kernel), by decide, by decide, by decide, acc_accepted (by decide), acc_accepted (by decide),
   by rfl, acc_accepted (by decide), by decide, by decide, by decide, acc_accepted (by decide), acc_accepted (by decide), acc_accepted (by decide),
   by decide, acc_accepted (by decide), acc_accepted (by decide)⟩
/-- A block of one byte is not held, and one whose CRC is wrong (R532, R550). -/
theorem wit_TheMaskRom : let s := onPower (fun p => { p with bootCfg := some 4 }) booting
    domRun s 1 = true ∧ s.mgt.upd.romComplete = false ∧ s.mgt.start.booted = false ∧ s.power.recovery = false ∧ s.power.bootCfg.map bootSource = some .host ∧
    (heldBlock (smPut s.mgt.upd.held 1 (List.replicate 4096 0)) 0).isEmpty = true ∧ (heldBlock s.mgt.upd.held 0).isEmpty = true := by decide
theorem wit_RecoveryBlock : (onPower (fun p => { p with recovery := true }) live).power.recovery = true ∧
    (onUpd (fun u => { u with romComplete := true }) live).mgt.upd.romComplete = true ∧ (List.replicate 4096 0#8).length = 4096 := by
  decide +kernel
/-- An all-zero block with its CRC. -/
theorem wit_BlockCrc : ∃ crc : W32, crc.toNat = crc32c (List.replicate 4096 0) := ⟨_, Laws.crc32c_toNat _⟩
theorem wit_ActivationSteps : inStep (upd .activating 1) 1 = true ∧ (upd .activating 1).mgt.upd.manifest = some manifest0 ∧ (upd .activating 1).mgt.upd.complete = [] ∧
    inStep (upd .activating 2) 2 = true ∧ inStep (upd .activating 5) 5 = true ∧ domRun (upd .activating 5) 11 = true ∧ ctlRuns (upd .activating 5) = true ∧
    (let s := onUpd (fun u => { u with shadowVio := some 5, stepScn := 80 }) (upd .activating 5)
     s.mgt.upd.shadowVio = some 5 ∧ inStep s 5 = true ∧ vioInstant s = true) ∧ (upd .activating 5).mgt.upd.shadowVio = none ∧ idlePart (upd .activating 5) = true ∧
    (let s := onVoter (fun v => { v with scn := 128, released := true, now := { v.now with words := [] } })
       (onUpd (fun u => { u with shadowVoter := ⟨some 5, some 5⟩ }) (upd .activating 6))
     s.mgt.upd.shadowVoter.x = some 5 ∧ s.mgt.upd.shadowVoter.y = some 5 ∧ inStep s 6 = true ∧ ctlRuns s = true ∧ (scn s).toNat % 64 = 0 ∧ atRelease s = true ∧
     sixteenScans s = true ∧ microcodeRefused s = false ∧
     microcodeRefused (onOlc (fun o => { o with mode := .swapping }) s) = true) ∧
    (onUpd (fun u => { u with refusals := 63 }) (upd .activating 6)).mgt.upd.refusals = 63 ∧ stepChan (upd .activating 3).mgt.upd.step = some .a ∧
    domRun (upd .activating 3) (starDom .a) = true ∧ (star (upd .activating 3) .a).mode ≠ .running ∧
    (star (upd .activating 3) .a).coldSince + msTicks 30000 ≤ (upd .activating 3).clk.tick := by decide

theorem wit_ReqCommands : desk.mgt.start.bivouac = false ∧ desk.ctl.trip.inForce = false ∧ reqTargetOk desk ⟨(0x022000#32).toNat, (1#8).toNat, (1#16).toNat⟩ = true ∧
    reqTargetOk desk ⟨0x022001, 1, 1⟩ = false ∧ Accepted (.reqWrite hdr 0x022000 1 0 1) desk ∧ Accepted (.reqWrite hdr 0x022000 1 1 1) desk ∧
    Accepted (.reqPulse hdr 0x022000 1 0 1 10) desk ∧ (10#8 : Byte) ≠ 0 ∧ Accepted (.reqWriteMulti (hIn 8) 0 [(0x022000, 1, 1)]) desk ∧
    reqOverlap [⟨0x022000, 1, 1⟩] = false ∧ Accepted (.reqRead (hOut 1) 0x022000 8) desk ∧ reqInArea 0x022000 8 = true ∧ reqInArea 0x029BF8 8 = true ∧
    reqInArea 0x029BF8 9 = false :=
  ⟨by decide, by decide, by decide, by decide, acc_accepted (by decide), acc_accepted (by decide), acc_accepted (by decide), by decide,
   acc_accepted (by decide), by decide, acc_accepted (by decide), by decide, by decide, by decide⟩
/-- Channel A's port 5 is in use; two schedules. -/
def linked (m : PortMode) : State := onData (fun d => { d with cfg := (star5 m).data.cfg }) (onPort .a 5 (fun x => { x with mode := m }) desk)
theorem wit_LnkCommands : Accepted (.lnkSchedChange hdr 1) (linked .active) ∧ judge (schedRows (linked .active) (1#8).toNat) = none ∧
    judge (schedRows (linked .active) 2) = some .badArg ∧ chanArg 0 = some .a ∧ portArgBad (linked .active) 0 5 = false ∧ portArgBad (linked .active) 0 6 = true ∧
    Accepted (.lnkPortPower hdr 0 5 1) (linked .active) ∧ Accepted (.lnkPortUnlock hdr 0 5) (linked .locked) ∧ (port (linked .locked) .a 5).mode = .locked ∧
    Accepted (.lnkPortUnlock hdr 0 5) (linked .active) ∧ Accepted (.lnkPortStatus (hOut 8) 0 63 1) desk ∧ (63#8).toNat + 1 ≤ 64 ∧
    Accepted (.lnkChannelPower hdr 0 0) desk ∧ domRun desk (starDom Chan.a.other) = true ∧ Accepted (.lnkCpSub hdr 7 1 63 6249 65536) desk ∧
    cpSubBad desk 7 1 63 6249 65536 = false ∧ cpSubBad desk 7 1 63 6250 65536 = true ∧ hdr.session = none :=
  ⟨acc_accepted (by decide), by decide, by decide, by decide, by decide, by decide, acc_accepted (by decide), acc_accepted (by decide), by decide,
   acc_accepted (by decide), acc_accepted (by decide), by decide, acc_accepted (by decide), by decide, acc_accepted (by decide), by decide, by decide,
   by decide⟩
theorem wit_LnkCfgRead : let s := onStore (fun x => { x with linkBlock := [1, 0] }) desk
    Accepted (.lnkCfgRead (hOut 2) 1) s ∧ lnkBlock 1 = some (.formatted linkBlk) ∧ (cfgStored s (.formatted linkBlk)).isEmpty = false ∧
    nandBusy s 0x0B01 = false := ⟨acc_accepted (by decide), by decide, by decide, by decide⟩
def subQ : SubParam := ⟨0x0A000002, 5001, 0, 1, 0xFF, [(0, 64)]⟩
theorem wit_ExpCommands : Accepted (.expSubscribe (hIn 8) subQ) exporting ∧ subscribeBad exporting subQ = false ∧ freeSub exporting 0xFF = some 0 ∧
    Accepted (.expUnsubscribe hdr 4) exporting ∧ (smFind exporting.mgt.exp.subs (4#8).toNat).isSome = true ∧ Accepted (.expList (hOut 1024)) exporting ∧
    Accepted (.expRead (hOut 8) 0x7FFF8 8) exporting ∧ (0x7FFF8#32).toNat + 8 ≤ 0x80000 :=
  ⟨acc_accepted (by decide), by decide, by decide, acc_accepted (by decide), by decide, acc_accepted (by decide), acc_accepted (by decide), by decide⟩
/-- Lane D has soft repairs; a shutdown record is held. -/
def bistRec : BistRecord := ⟨true, true, false, 0, 0, 0, 0xFF, 0, 0, 0, 0, 0⟩
def repaired : State := onBist (fun b => { b with softMap := [(3, [.engine 4 32, .engine 9 33])], record := some bistRec }) desk
theorem wit_TstCommands : rotateLanes 0 = some [.a] ∧ rotateLanes 0xFF = some [.a, .b, .c] ∧ desk.ctl.rot.active = none ∧ desk.ctl.rot.queue = [] ∧ desk.variant = .f ∧
    laneCfg desk ≠ 1 ∧ laneCfg desk ≠ 2 ∧ Accepted (.tstRotate hdr 0) desk ∧ Accepted (.tstStatus (hOut 64)) desk ∧ laneArg repaired 3 = some .d ∧
    repaired.mgt.bist.fuseBurn = none ∧ fuseBusy repaired .d = false ∧ switchOn repaired 1 = true ∧ Accepted (.tstFuseRepair hdr 3) repaired ∧
    repaired.mgt.bist.record = some bistRec ∧ nandBusy repaired 0x0A03 = false ∧ Accepted (.tstShutdownRecord (hOut 64)) repaired :=
  ⟨by decide, by decide, by decide, by decide, by decide, by decide, by decide, acc_accepted (by decide), acc_accepted (by decide), by decide, by decide,
   by decide, by decide, acc_accepted (by decide), by decide, by decide, acc_accepted (by decide)⟩
/-- A debugger is attached to lane A, which votes in DUAL with lane B; or it holds the halted lane A. -/
def attached : State :=
  onDbg (fun d => { d with attached := some .a }) (onVoter (fun v => { v with seats := v.seats.set .s3 SeatState.zero }) desk)
def halted : State := onDbg (fun d => { d with halted := some .a }) attached
theorem wit_DbgCommands : laneArg desk 0 = some .a ∧ threeVote desk = true ∧ holder desk .s1 = some .a ∧ notRunning desk = false ∧ debugAttached desk = false ∧
    inService desk = false ∧ engSwitchOn desk 2 = true ∧ Accepted (.dbgAttach hdr 0) desk ∧ Accepted (.dbgDetach hdr) attached ∧ debugAttached attached = true ∧
    Accepted (.dbgHalt hdr) attached ∧ attached.ctl.dbg.haltCmd = none ∧ threeVote attached = false ∧ Accepted (.dbgResume hdr) halted ∧
    halted.ctl.dbg.halted = some .a ∧ halted.ctl.dbg.trippedByHalt = false ∧ Accepted (.dbgRead (hOut 4) 0 0x7FFFC 4) attached ∧
    debugRangeBad 0 0x7FFFC 4 = false ∧ debugRangeBad 0 0x7FFFD 4 = true ∧ Accepted (.dbgWrite (hIn 1) 0 0 [1]) halted ∧ halted.ctl.dbg.attached = some .a ∧
    Accepted (.dbgWrite (hIn 1) 0 0 [1]) attached ∧ (onDbg (fun d => { d with trippedByHalt := true }) halted).ctl.dbg.halted = some .a ∧ (threeVote attached && ((1#8 : Byte) == 1)) = false :=
  ⟨by decide, by decide, by decide, by decide, by decide, by decide, by decide, acc_accepted (by decide), acc_accepted (by decide), by decide,
   acc_accepted (by decide), by decide, by decide, acc_accepted (by decide), by decide, by decide, acc_accepted (by decide), by decide, by decide,
   acc_accepted (by decide), by decide, acc_accepted (by decide), by decide, by decide⟩
/-- With every switch off each sealed command is accepted in form and meets its switch off. -/
theorem wit_SealedCommands : switchOn live 1 = false ∧ switchOn live 6 = false ∧ switchOn live 3 = false ∧ switchOn live 4 = false ∧ engSwitchOn live 2 = false ∧
    pAny live = false ∧ Accepted (.sysReset hdr) live ∧ Accepted (.logClear hdr 0) live ∧ Accepted (.cfgKeyRemove hdr 3) live ∧ inService live = false ∧
    Accepted (.frcSet hdr 1 1) live ∧ (varById img 1).isSome = true ∧ Accepted (.olcLoadBegin hdr 0 16 0) live ∧ Accepted (.olcSwap hdr 0) (sealsOn [] (olcIn .staged 0)) ∧
    Accepted (.updActivate hdr) (sealsOn [] (upd .staged 0)) ∧ Accepted (.tstFuseRepair hdr 3) (sealsOn [] repaired) ∧ Accepted (.dbgAttach hdr 0) live :=
  ⟨by decide, by decide, by decide, by decide, by decide, by decide, acc_accepted (by decide), acc_accepted (by decide), acc_accepted (by decide), by decide,
   acc_accepted (by decide), by decide, acc_accepted (by decide), acc_accepted (by decide), acc_accepted (by decide), acc_accepted (by decide),
   acc_accepted (by decide)⟩

/-! ### The recorder, tests in service -/

/-- A reported event, and a general record of it, open with its window just begun. -/
def ev0 : Report := ⟨.general, 0, 0x020A, 0, 90000000000 / 25, [1], []⟩
def rec1 (isOpen : Bool) : Rec := ⟨7, 0, 0, 0, ev0, 1, 0, isOpen, false, 89000000000⟩
def reported (rs : List Rec) : State := onRec (fun m => { m with reports := [ev0], generalIn := rs, frozen := false }) (onStore (fun x => { x with coalMs := 1000 }) live)
theorem wit_RecordsAreTakenIn : mgtUp (reported []) = true ∧ (reported []).mgt.recorder.reports = [ev0] ∧ (reported []).mgt.recorder.lost = 0 ∧
    (reported []).mgt.recorder.vitalLossCount = 0 ∧ (reported []).mgt.recorder.frozen = false ∧ openTail (reported []).mgt.recorder .general = none ∧
    generalUsed (reported []).mgt.recorder < 1024 ∧ openTail (reported [rec1 true]).mgt.recorder .general = some (rec1 true) ∧
    identical (reported [rec1 true]) ev0 (rec1 true) = true ∧ (rec1 true).rept + 1 < 65535 ∧
    windowOver (onStore (fun x => { x with coalMs := 0 }) (reported [rec1 true])) (rec1 true) = true := by decide
theorem wit_PagesAndFreezes : pageDue (reported [rec1 false]) .general = true ∧
    (((committable (reported [rec1 false]).mgt.recorder .general).take 64).map (fun x => x.seq.toNat % ringSlots)).Nodup ∧
    (∀ x ∈ (committable (reported [rec1 false]).mgt.recorder .general).take 64, x.ev.ring = .general) ∧ logged.mgt.recorder.frozen = true ∧
    logged.mgt.recorder.frozenUntil ≤ logged.clk.tick ∧ barUp logged = true ∧ live.mgt.recorder.frozen = false := by decide
theorem wit_TheWindow : barUp live = true ∧ mgtUp live = true ∧
    (let s := onRec (fun m => { m with winReady := true, autoInc := true, window := some [] }) live
     s.mgt.recorder.autoInc = true ∧ s.mgt.recorder.winReady = true) ∧
    (let s := onRec (fun m => { m with winReady := false, winRing := .general, cursor := 7, general := { m.general with next := 8, count := 1, committed := [(7, rec1 false)] } }) live
     s.mgt.recorder.winReady = false ∧ curValid s.mgt.recorder = true ∧
     findRec s.mgt.recorder s.mgt.recorder.winRing s.mgt.recorder.cursor = some (rec1 false, false, false)) := by decide
/-- Lane C is VACATED without a seat: it is under test. -/
def underTest : State :=
  onVoter (fun v => { v with laneVote := v.laneVote.set .c .vacated, seats := v.seats.set .s3 SeatState.zero }) live
/-- A die whose test finds nothing, and one whose three failing engines have only two spares. -/
def clean : DieTest := ⟨⟨[], []⟩, [], [], ⟨[], []⟩⟩
def faulty : DieTest := ⟨⟨[0, 1, 2], []⟩, [], [], ⟨[], []⟩⟩
/-- Lane D, the belay lane, has run `n` steps of its logic test. -/
def belayAt (n : Nat) : State := onLane .d (fun x => { x with selfTest := { x.selfTest with steps := n } }) live
theorem wit_TestsInService : laneTested underTest .c = true ∧ underTest.variant = .f ∧ underTest.ctl.rot.forFirmware = false ∧ belayLane live = some .d ∧
    (verdict underTest Lane.c.idx clean).passes = true ∧ (verdict underTest Lane.c.idx faulty).passes = false ∧
    live.ctl.voter.join = none ∧ (lane (belayAt 255) .d).selfTest.steps % 256 = 255 ∧ (lane (belayAt 9215) .d).selfTest.steps / 256 = 35 ∧
    (lane (belayAt 9215) .d).selfTest.steps % 256 = 255 ∧ partitionUsed (repairsOf live Lane.d.idx ++ (lane live .d).selfTest.trial) 0 = true ∧
    belayLane (belayAt 9215) = some .d ∧ (lane live .d).selfTest.steps % 256 ≠ 255 ∧ belayMayTest live .d .other = true ∧
    (let i := { img with certCycles := 10 }
     belayMayTest (onOlc (fun o => { o with image := some i }) (onCore .d (fun c => { c with shadow := some i }) live)) .d (.codeBank true) = false) ∧
    live.mgt.bist.nandRegion = none ∧ smFind live.mgt.bist.scrubbed 4 ≠ some (ophHours live / 24) ∧
    (onBist (fun b => { b with nandRegion := some 4 }) live).mgt.bist.nandRegion = some (4#8).toNat ∧
    (onBist (fun b => { b with fuseBurn := some (.d, ⟨0, none, 5, 0x0A02⟩) }) live).mgt.bist.fuseBurn = some (.d, ⟨0, none, 5, 0x0A02⟩) ∧
    logicClean Lane.d.idx (repairsOf live Lane.d.idx) ⟨[], []⟩ = true := by decide +kernel
theorem wit_UpdBitmap : Accepted (.updBitmap (hOut 8192) 0 65536) (upd .receiving 0) ∧ pkgBegun (upd .receiving 0) = true ∧ (65536#32).toNat % 8 = 0 ∧
    8 ≤ (65536#32).toNat ∧ (65536#32).toNat ≤ 65536 := ⟨acc_accepted (by decide), by decide, by decide, by decide, by decide⟩

/-! ### The whole module -/

/-- A state in which a trip is in force and nothing is driven, and one in which no trip is. -/
theorem wit_TripSafe : TripSafe (tripped ⟨.pending, .pending⟩) ∧ (tripped ⟨.pending, .pending⟩).ctl.trip.inForce = true ∧ TripSafe State.reset :=
  ⟨fun _ p hp => by simp [tripped, onPower, onTrip, onCtl, live, onVoter, onLanes, up, onClk, onMbx, onStart, onMgt, State.reset, Control.zero, VioState.zero] at hp,
   by decide, fun h => by simp [State.reset, Control.zero, TripState.zero] at h⟩
theorem wit_IdleStep : State.reset.pending = [] ∧ counting live = true ∧ counting State.reset = false ∧ domRun live 2 = true ∧ live.clk.hoursPending < 15 ∧
    live.clk.tb3Ticks < Config.hourTicks ∧ live.ctl.trip.inForce = false ∧ (voter live).join = none ∧ (voter live).capture = none := by decide
/-- A step takes the command at the front (R96), and on an empty queue one tick of 40 ns passes (R360). -/
theorem test_step : (match step { live with pending := [.timeLatch, .timeLatch] } with | .next t => some (t.pending, t.mgt.mbx.latch.seq) | _ => none) =
    some ([.timeLatch], live.mgt.mbx.latch.seq + 1) ∧
    (match step live with | .next t => some (tb1 t) | _ => none) = some (tb1 live + 40) := by decide

end Sys2Proof.Tests
end

section
/-! Cycle instants, the admission snapshot and its publication (O21), and a damaged word at a lane (O34): first what the shared operations leave of
the clock, the followers and the trip, then one equation per command, then the two obligations. -/

namespace Sys2Proof.Proofs.Planes

open Sys2Proof Sys2Proof.Machine Sys2Proof.Claims Sys2Proof.Laws

/-! ### The clock, the followers and the trip -/

/-- What the cycle instants and the settling of a trip rest on: the clock, the followers and the trip. -/
def timing (s : State) : ClockState × Followers × TripState := (s.clk, s.ctl.followers, s.ctl.trip)

theorem followerOf_congr {s t : State} (h : t.ctl.followers = s.ctl.followers) (f : Follower) : followerOf t f = followerOf s f := by
  match f with
  | .x | .y | .vio | .star .a | .star .b => simp [followerOf, h]

theorem clk_of_timing {s t : State} (h : timing t = timing s) : t.clk = s.clk := congrArg Prod.fst h

theorem followers_of_timing {s t : State} (h : timing t = timing s) : t.ctl.followers = s.ctl.followers :=
  congrArg (fun q => q.2.1) h

theorem trip_of_timing {s t : State} (h : timing t = timing s) : t.ctl.trip = s.ctl.trip := congrArg (fun q => q.2.2) h

theorem timing_sendVector (v : Nat) (s : State) : timing (sendVector v s) = timing s := by
  obtain ⟨-, h⟩ | ⟨-, h⟩ := sendVector_cases v s <;> rw [h] <;> rfl

@[simp] theorem timing_alert (i : Nat) (s : State) : timing (alert i s) = timing s := by
  unfold alert
  dsimp only
  split
  · exact timing_sendVector _ _
  · rfl

@[simp] theorem timing_abortRef (c : Option CmdRef) (s : State) : timing (abortRef c s) = timing s := by
  cases c <;> rfl

@[simp] theorem timing_olcRecord (kind status w : Nat) (crc : W32) (s : State) : timing (olcRecord kind status w crc s) = timing s := by
  unfold olcRecord
  split <;> rfl

@[simp] theorem timing_onOlc (f : OlcState → OlcState) (s : State) : timing (onOlc f s) = timing s := rfl

@[simp] theorem timing_olcOvertaken (s : State) : timing (olcOvertaken s) = timing s := by
  unfold olcOvertaken
  dsimp only
  split
  · simp
  · split <;> simp

@[simp] theorem timing_schedOvertaken (s : State) : timing (schedOvertaken s) = timing s := by
  unfold schedOvertaken
  split <;> rfl

@[simp] theorem timing_debugEnds (s : State) : timing (debugEnds s) = timing s := by
  have h : timing (s.ctl.dbg.pieces.foldl (fun s p => abortRef p.last s) (abortRef s.ctl.dbg.haltCmd s)) = timing s :=
    (foldl_keeps timing _ (fun _ _ => timing_abortRef _ _) _ _).trans (timing_abortRef _ _)
  exact h

theorem timing_onVout (k : Nat) (f : VoutState → VoutState) (s : State) : timing (onVout k f s) = timing s := rfl

@[simp] theorem timing_applyWord (m : Means) (word : W64) (s : State) : timing (applyWord m word s) = timing s :=
  foldl_keeps timing _ (fun s k => timing_onVout k _ s) _ _

theorem timing_firstBeacon (ch : Chan) (s : State) : timing (firstBeacon ch s) = timing s := by
  unfold firstBeacon
  split
  · split
    · split <;> rfl
    · rfl
  · rfl

theorem timing_coldNotice (ch : Chan) (s : State) : timing (coldNotice ch s) = timing s := by
  unfold coldNotice
  split
  case h_3 => rfl
  all_goals
    split
    · rfl
    · apply foldl_keeps timing
      intros; rfl

/-! ### A trip outside the silent scans (R232, R233) -/

/-- A trip does not settle before 12 us after t0 (R233). -/
theorem tripSettle_early {s : State} (h : s.clk.tick < s.ctl.trip.t0 + 300) : tripSettle s = s := by
  have hs : tripSettles s = false := by simp [tripSettles, h]
  simp [tripSettle, hs]

/-- The trip that comes into force at this tick, before any removal means acts (R233). -/
def tripBegun (cause : Nat) (reset : Bool) (s : State) : State :=
  let conf := fun c => if domRun s (starDom c) then StarConfirm.pending else StarConfirm.notRunning
  onTrip (fun t => { t with inForce := true, mask := trigBit cause, t0 := s.clk.tick, scn := scn s,
                            ctrlReset := reset, confirm := ⟨conf .a, conf .b⟩, recorded := false }) s

/-- The removal means, the alert and the TRIP event leave clock, followers and trip as they are, and t0 is the tick of the trip itself, so it
does not settle in the same step. -/
theorem timing_tripNow (cause : Nat) (reset : Bool) (s : State) : timing (tripNow cause reset s) = timing (tripBegun cause reset s) := by
  have settle : ∀ u, timing u = timing (tripBegun cause reset s) → timing (tripSettle u) = timing (tripBegun cause reset s) := by
    intro u hu
    rw [tripSettle_early, hu]
    rw [clk_of_timing hu, trip_of_timing hu]
    exact Nat.lt_add_of_pos_right (by decide)
  have stop : ∀ u : State, timing (onLanes (fun x => { x with core := { x.core with phase := .stopped } }) (allDead u)) = timing u :=
    fun _ => rfl
  have event : ∀ code res f u, timing (raise code res (onExp f u)) = timing u := fun _ _ _ _ => rfl
  have debug : ∀ u : State, timing (if u.ctl.dbg.trippedByHalt then u else debugEnds u) = timing u := by
    intro u
    split
    · rfl
    · exact timing_debugEnds u
  refine settle _ ?_
  rw [timing_schedOvertaken, timing_olcOvertaken, debug, event, timing_alert, stop]
  rfl

/-- What a trigger does where it cannot fail a start: nothing, or a trip is in force, and clock and followers go on. -/
theorem trip_cases {s : State} (h : silentRun s = false) (cause : Nat) (reset : Bool) :
    trip cause reset s = s ∨ ((trip cause reset s).clk = s.clk ∧ (trip cause reset s).ctl.followers = s.ctl.followers ∧
      (trip cause reset s).ctl.trip.inForce = true) := by
  by_cases hf : s.ctl.trip.inForce = true
  · exact .inr (by simp [trip, hf])
  · by_cases hr : ctlRuns s = true
    · have ht := timing_tripNow cause reset s
      have e : trip cause reset s = tripNow cause reset s := by simp [trip, hf, h, hr]
      rw [e]
      exact .inr ⟨(clk_of_timing ht :), (followers_of_timing ht :), by rw [trip_of_timing ht]; rfl⟩
    · exact .inl (by simp [trip, hf, h, hr])

/-! ### The outputs at a cycle instant (R220) -/

/-- With a trip in force no output is applied. -/
theorem voutApply_of_inForce (m : Means) (n : Scn) {s : State} (h : s.ctl.trip.inForce = true) : voutApply m n s = s := by
  simp [voutApply, h]

/-- Outside the silent scans the outputs are applied, or the X/Y disagreement trips: clock and followers go on. -/
theorem voutApply_keeps {s : State} (h : silentRun s = false) (m : Means) (n : Scn) :
    (voutApply m n s).clk = s.clk ∧ (voutApply m n s).ctl.followers = s.ctl.followers := by
  have word : ∀ v, (applyWord m v s).clk = s.clk ∧ (applyWord m v s).ctl.followers = s.ctl.followers := fun v =>
    ⟨clk_of_timing (timing_applyWord m v s), followers_of_timing (timing_applyWord m v s)⟩
  have apart : (tripXY s).clk = s.clk ∧ (tripXY s).ctl.followers = s.ctl.followers := by
    obtain e | ⟨hclk, hfol, -⟩ := trip_cases h 0x07 true
    · exact ⟨congrArg State.clk e, congrArg (fun t => t.ctl.followers) e⟩
    · exact ⟨hclk, hfol⟩
  unfold voutApply
  split
  · exact ⟨rfl, rfl⟩
  split
  · exact ⟨rfl, rfl⟩
  split
  · exact apart
  split
  · exact ⟨rfl, rfl⟩
  · exact word _

/-- Voter half Y trips before it applies its outputs where the halves have parted (R33). -/
theorem voutApply_afterCheck {s : State} (h : silentRun s = false) (apart : Bool) (m : Means) (n : Scn) :
    (voutApply m n (if apart then tripXY s else s)).clk = s.clk ∧
      (voutApply m n (if apart then tripXY s else s)).ctl.followers = s.ctl.followers := by
  cases apart with
  | false => exact voutApply_keeps h m n
  | true =>
    obtain e | ⟨hclk, hfol, hin⟩ := trip_cases h 0x07 true
    · have e : tripXY s = s := e
      simpa [e] using voutApply_keeps h m n
    · rw [if_pos rfl, show voutApply m n (tripXY s) = tripXY s from voutApply_of_inForce m n hin]
      exact ⟨hclk, hfol⟩

/-! ### A follower's instant (R30, R31, R49) -/

theorem followerOf_onFollower (f : Follower) (g : FollowerState → FollowerState) (s : State) :
    followerOf (onFollower f g s) f = g (followerOf s f) := by
  match f with
  | .x | .y | .vio | .star .a | .star .b => rfl

theorem followerOf_onFollower_ne {f k : Follower} (g : FollowerState → FollowerState) (s : State) (h : k ≠ f) :
    followerOf (onFollower f g s) k = followerOf s k := by
  match f, k with
  | .x, .x | .y, .y | .vio, .vio | .star .a, .star .a | .star .b, .star .b => exact absurd rfl h
  | .x, .y | .x, .vio | .x, .star .a | .x, .star .b | .y, .x | .y, .vio | .y, .star .a | .y, .star .b
  | .vio, .x | .vio, .y | .vio, .star .a | .vio, .star .b | .star .a, .x | .star .a, .y | .star .a, .vio | .star .a, .star .b
  | .star .b, .x | .star .b, .y | .star .b, .vio | .star .b, .star .a => rfl

/-- The cycle is counted once, by the first follower that passes its instant (R49). -/
theorem passInstant_tb2 (f : Follower) (a b : Option Int) (s : State) :
    (passInstant f a b s).clk.tb2 = if countedNow s = true then s.clk.tb2 else s.clk.tb2 + 1 := by
  unfold passInstant
  cases countedNow s <;> rfl

theorem passInstant_tick (f : Follower) (a b : Option Int) (s : State) : (passInstant f a b s).clk.tick = s.clk.tick := by
  unfold passInstant
  cases countedNow s <;> rfl

theorem silentRun_passInstant (f : Follower) (a b : Option Int) (s : State) : silentRun (passInstant f a b s) = silentRun s := by
  unfold passInstant
  cases countedNow s <;> rfl

/-- The follower takes its instant and the number of the cycle; its source moves as the ranking says. -/
theorem followerOf_passInstant (f : Follower) (a b : Option Int) (s : State) :
    followerOf (passInstant f a b s) f =
      { rankStep f (markOk (predicted s f) a) (markOk (predicted s f) b) (followerOf s f) with
        ciNs := instantOf s f a b, cycle := (passInstant f a b s).clk.tb2, seen := true } := by
  unfold passInstant
  cases countedNow s <;> exact followerOf_onFollower _ _ _

theorem followerOf_passInstant_ne {f k : Follower} (a b : Option Int) (s : State) (h : k ≠ f) :
    followerOf (passInstant f a b s) k = followerOf s k := by
  unfold passInstant
  cases countedNow s <;> exact followerOf_onFollower_ne _ _ h

/-- An accepted mark of NET leaves a follower that runs on NET where it is, with no miss (R31). -/
theorem rankStep_net (f : Follower) (xm : Bool) {q : FollowerState} (h : q.source = .net) :
    (rankStep f true xm q).source = .net ∧ (rankStep f true xm q).missed = 0 := by
  simp [rankStep, h]

/-- A follower other than Y on NET takes the mark of NET that it accepts (R30, R31). -/
theorem instantOf_net {s : State} {f : Follower} {p : Nat} {i : Int} (b : Option Int) (hp : predicted s f = some p)
    (hm : markOk (some p) (some i) = true) (hs : (followerOf s f).source = .net) (hf : f ≠ .y) :
    instantOf s f (some i) b = i.toNat := by
  match f with
  | .y => exact absurd rfl hf
  | .x | .vio | .star _ => simp [instantOf, hp, hm, hs]

/-- Without a mark a follower goes by its own prediction (R30). -/
theorem instantOf_own {s : State} {f : Follower} {p : Nat} (hp : predicted s f = some p) : instantOf s f none none = p := by
  match f with
  | .y => simp [instantOf, hp, markOk]
  | .x | .vio | .star _ =>
    simp only [instantOf, hp, markOk]
    split <;> rfl

/-- A due mark passes the follower's instant; what the follower does at it leaves clock and followers as they are then. -/
theorem exec_ciMark_due {s : State} {f : Follower} {net xm : Option Int}
    (hdue : markDue s f (netArrival s f net) (xArrival s f xm) = true) (hq : silentRun s = false ∨ ∃ ch, f = .star ch) :
    ∃ t, exec (.ciMark f net xm) s = .next t ∧
      t.clk = (passInstant f (netArrival s f net) (xArrival s f xm) s).clk ∧
      t.ctl.followers = (passInstant f (netArrival s f net) (xArrival s f xm) s).ctl.followers := by
  have he : exec (.ciMark f net xm) s = execCiMark f net xm s := rfl
  rw [he, execCiMark]
  refine ⟨_, rfl, ?_⟩
  rw [if_pos hdue]
  have hrun := silentRun_passInstant f (netArrival s f net) (xArrival s f xm) s
  generalize passInstant f (netArrival s f net) (xArrival s f xm) s = u at hrun
  match f with
  | .star ch =>
    have h : timing (coldNotice ch (firstBeacon ch u)) = timing u := (timing_coldNotice ch _).trans (timing_firstBeacon ch u)
    exact ⟨clk_of_timing h, followers_of_timing h⟩
  | .x =>
    have hu : silentRun (cvuAtCi u) = false := hrun.trans (hq.resolve_right (by simp))
    exact voutApply_keeps hu _ _
  | .vio =>
    have captured : ∀ g, (voutApply .gate (BitVec.ofNat 32 (followerOf u .vio).cycle) (onVio g u)).clk = u.clk ∧
        (voutApply .gate (BitVec.ofNat 32 (followerOf u .vio).cycle) (onVio g u)).ctl.followers = u.ctl.followers := fun g =>
      voutApply_keeps (s := onVio g u) (hrun.trans (hq.resolve_right (by simp))) _ _
    exact captured _
  | .y => exact voutApply_afterCheck (hrun.trans (hq.resolve_right (by simp))) _ _ _

theorem cycleInstantCounts : CycleInstantCounts := by
  intro s f net xm a b hdue hq
  obtain ⟨t, ht, hclk, hfol⟩ := exec_ciMark_due hdue hq
  have hf : ∀ k, followerOf t k = followerOf (passInstant f a b s) k := followerOf_congr hfol
  have hself := (hf f).trans (followerOf_passInstant f a b s)
  refine ⟨t, ht, ?_, ?_, ?_, ?_, ?_, ?_, ?_, ?_⟩
  · rw [hclk, passInstant_tb2]
  · rw [hself]
  · rw [hself]
  · rw [hself, hclk]
  · exact fun g hg => (hf g).trans (followerOf_passInstant_ne a b s hg)
  · rw [hclk, passInstant_tick]
  · intro p i hp ha hlo hhi hsrc hy
    have hm : markOk (some p) (some i) = true := by simp [markOk, hlo, hhi]
    obtain ⟨hnet, hmiss⟩ := rankStep_net f (markOk (some p) b) hsrc
    rw [hself, hp, ha, hm]
    exact ⟨hnet, hmiss, instantOf_net b hp hm hsrc hy⟩
  · intro p hp ha hb
    rw [hself, ha, hb]
    exact instantOf_own hp

/-! ### Check-value units only listen (R449) -/

/-- Bytes that pass a snoop point change the check-value units alone. -/
theorem snoop_eq (p f : Nat) (first last : Bool) (b : List Byte) (s : State) :
    ∃ units, snoop p f first last b s = onMgt (fun m => { m with cvu := units }) s := by
  unfold snoop
  split
  · exact ⟨_, rfl⟩
  · exact ⟨s.mgt.cvu, rfl⟩

/-! ### The admission snapshot (R19 to R21) -/

/-- The lanes whose own check fails do not take the snapshot. -/
theorem laneOk_get (ls : List Lane) (q : Quad Bool) (l : Lane) :
    (ls.foldl (fun q l => q.set l false) q).get l = (q.get l && !(ls.contains l)) := by
  induction ls generalizing q with
  | nil => simp
  | cons k ls ih =>
    rw [List.foldl_cons, ih]
    by_cases h : l = k
    · simp [h]
    · simp [h, Quad_get_set_ne _ _ h]

/-- Lanes that withdraw for a failed check of the snapshot. -/
def withdrawAll (ls : List Lane) (s : State) : State := ls.foldl (fun s l => onLane l (laneWithdraw 0x82) s) s

theorem laneWithdraw_isSome (cause : Nat) (x : LaneState) : (laneWithdraw cause x).commit.withdraw.isSome = true := by
  unfold laneWithdraw
  split
  next h => simp [h]
  · rfl

theorem lane_withdrawAll_ne {ls : List Lane} {l : Lane} (s : State) (h : l ∉ ls) : lane (withdrawAll ls s) l = lane s l := by
  induction ls generalizing s with
  | nil => rfl
  | cons k ls ih =>
    obtain ⟨hk, hls⟩ := not_or.mp (List.mem_cons.not.mp h)
    exact (ih _ hls).trans (lane_onLane_ne _ _ hk)

/-- A lane that has withdrawn stays withdrawn while others withdraw. -/
theorem withdrawAll_keeps_withdrawn (ls : List Lane) (s : State) (l : Lane) (h : (lane s l).commit.withdraw.isSome = true) :
    (lane (withdrawAll ls s) l).commit.withdraw.isSome = true := by
  induction ls generalizing s with
  | nil => exact h
  | cons k ls ih =>
    refine ih _ ?_
    by_cases hk : l = k
    · rw [hk, lane_onLane]
      exact laneWithdraw_isSome _ _
    · rwa [lane_onLane_ne _ _ hk]

theorem withdrawAll_withdraws {ls : List Lane} {l : Lane} (s : State) (h : l ∈ ls) :
    (lane (withdrawAll ls s) l).commit.withdraw.isSome = true := by
  induction ls generalizing s with
  | nil => exact absurd h (List.not_mem_nil)
  | cons k ls ih =>
    by_cases hk : l = k
    · refine withdrawAll_keeps_withdrawn ls _ l ?_
      rw [hk, lane_onLane]
      exact laneWithdraw_isSome _ _
    · exact ih _ ((List.mem_cons.mp h).resolve_left hk)

/-- A withdrawal is the lane's own: what no lane's update changes stays. -/
theorem withdrawAll_keeps {β : Type} (g : State → β) (h : ∀ l f s, g (onLane l f s) = g s) (ls : List Lane) (s : State) :
    g (withdrawAll ls s) = g s :=
  foldl_keeps g _ (fun s l => h l (laneWithdraw 0x82) s) ls s

/-- The commands that wait for a snapshot are all finished by it, and nothing of the control and data planes changes (R438). -/
theorem snapDone_finishes (n : Scn) (s : State) :
    (snapDone n s).ctl = s.ctl ∧ (snapDone n s).data = s.data ∧ (snapDone n s).mgt.mbx.snapWait = [] ∧
      (snapDone n s).mgt.mbx.finished.length = s.mgt.mbx.finished.length + s.mgt.mbx.snapWait.length := by
  have count : ∀ (ws : List (CmdRef × Option Nat)) (u : State),
      (ws.foldl (fun s p => finishRef p.1 .ok 0 (reqResult n true) [] s) u).mgt.mbx.finished.length =
        u.mgt.mbx.finished.length + ws.length := by
    intro ws
    induction ws with
    | nil => simp
    | cons w ws ih =>
      intro u
      rw [List.foldl_cons, ih]
      simp only [finishRef_finished, List.length_append, List.length_cons, List.length_nil]
      omega
  have kept : ∀ {β : Type} (g : State → β), (∀ c r u, g (finishRef c .ok 0 r [] u) = g u) →
      g (s.mgt.mbx.snapWait.foldl (fun s (p : CmdRef × Option Nat) => finishRef p.1 .ok 0 (reqResult n true) [] s) s) = g s := fun g h =>
    foldl_keeps g _ (fun u (p : CmdRef × Option Nat) => h p.1 _ u) _ _
  exact ⟨kept State.ctl (fun _ _ _ => rfl), kept State.data (fun _ _ _ => rfl), rfl, count _ _⟩

/-- The snapshot is due: its cut-off has come and it has not been taken. -/
theorem pastCutoff_of_due {s : State} (hrun : (voter s).running = true) (ht : s.ctl.adm.taken = false)
    (hci : nextCi s .x ≤ s.clk.tick + 125) : pastCutoff s = true := by
  simp [pastCutoff, hrun, ht, hci]

/-- MGT's staging copy as the snapshot takes it: as it stood at the cut-off (R54). -/
def heldCopy (s : State) : SMap W64 := s.ctl.adm.cut.getD s.ctl.adm.staging

/-- The snapshot taken in both halves; the lanes of `fail` do not use it (R20, R21). -/
def snapshotTaken (fail : List Lane) (s : State) : State :=
  onAdm (fun a => { a with taken := true, discard := false, xCheck := Config.admissionCheck (heldCopy s),
                           yCheck := Config.admissionCheck (heldCopy s), snapshot := heldCopy s, cut := none,
                           laneOk := fail.foldl (fun q l => q.set l false) (Quad.all true) })
    (snoop 10 0 true true (admissionBytes (heldCopy s)) s)

/-- A snapshot taken changes the admission gate and the check-value units alone. -/
theorem snapshotTaken_eq (fail : List Lane) (s : State) :
    ∃ units g, snapshotTaken fail s = onAdm g (onMgt (fun m => { m with cvu := units }) s) := by
  obtain ⟨units, h⟩ := snoop_eq 10 0 true true (admissionBytes (heldCopy s)) s
  exact ⟨units, _, congrArg (onAdm _) h⟩

theorem runs_snapshotTaken (fail : List Lane) (s : State) : runs (snapshotTaken fail s) = runs s := by
  obtain ⟨units, g, h⟩ := snapshotTaken_eq fail s
  rw [h]
  rfl

theorem lane_snapshotTaken (fail : List Lane) (s : State) : lane (snapshotTaken fail s) = lane s := by
  obtain ⟨units, g, h⟩ := snapshotTaken_eq fail s
  rw [h]
  rfl

/-- The snapshot taken, and the lanes that run and whose own check fails withdrawn (R20, R146). -/
def snapshotEntered (fail : List Lane) (s : State) : State := withdrawAll (fail.filter (runs s)) (snapshotTaken fail s)

theorem snapshotEntered_adm (fail : List Lane) (s : State) : (snapshotEntered fail s).ctl.adm = (snapshotTaken fail s).ctl.adm :=
  withdrawAll_keeps (fun q => q.ctl.adm) (fun _ _ _ => rfl) _ _

/-- What neither the gate, the check-value units nor a lane's withdrawal changes stays. -/
theorem snapshotEntered_keeps {β : Type} (g : State → β) (hlane : ∀ l f q, g (onLane l f q) = g q) (hadm : ∀ f q, g (onAdm f q) = g q)
    (hcvu : ∀ units q, g (onMgt (fun m => { m with cvu := units }) q) = g q) (fail : List Lane) (s : State) :
    g (snapshotEntered fail s) = g s := by
  obtain ⟨units, f, h⟩ := snapshotTaken_eq fail s
  rw [snapshotEntered, withdrawAll_keeps g hlane, h, hadm, hcvu]

theorem lane_snapshotEntered_of_passes {fail : List Lane} {l : Lane} (s : State) (h : l ∉ fail) : lane (snapshotEntered fail s) l = lane s l := by
  rw [snapshotEntered, lane_withdrawAll_ne _ (fun hm => h (List.mem_of_mem_filter hm)), lane_snapshotTaken]

theorem lane_snapshotEntered_of_fails {fail : List Lane} {l : Lane} {s : State} (h : l ∈ fail) (hr : runs s l = true) :
    (lane (snapshotEntered fail s) l).commit.withdraw.isSome = true :=
  withdrawAll_withdraws _ (List.mem_filter.mpr ⟨h, hr⟩)

/-- Where the halves agree the snapshot is taken, the lanes whose check fails withdraw, pulses count it and the commands that wait for it
end (R20, R21, R438, R439). -/
theorem exec_admissionSnapshot_agree {s : State} (hd : domRun s 1 = true) (hp : pastCutoff s = true) (fail : List Lane) :
    exec (.admissionSnapshot none fail) s =
      .next (snapDone (scn s + 1) (pulseStep (snapshotEntered fail s))) := by
  have he : exec (.admissionSnapshot none fail) s = execAdmissionSnapshot none fail s := rfl
  rw [he, execAdmissionSnapshot, snapshotEntered, ← runs_snapshotTaken fail s, if_pos (by simp [hd, hp])]
  exact congrArg _ (if_neg (fun h => h rfl))

/-- Where they differ it is discarded and reported (R21). -/
theorem exec_admissionSnapshot_differ {s : State} (hd : domRun s 1 = true) (hp : pastCutoff s = true) {y : W64}
    (hy : y ≠ Config.admissionCheck (heldCopy s)) :
    exec (.admissionSnapshot (some y) []) s =
      .next (report .general 0x020B (voterSource .x 0) []
        (le4 (scn s + 1).toNat ++ le4 ((Config.admissionCheck (heldCopy s)).toNat % 2 ^ 32) ++ le4 (y.toNat % 2 ^ 32))
        (onAdm (fun a => { a with taken := true, discard := true, xCheck := Config.admissionCheck (heldCopy s), yCheck := y, cut := none })
          (snoop 10 0 true true (admissionBytes (heldCopy s)) s))) := by
  have he : exec (.admissionSnapshot (some y) []) s = execAdmissionSnapshot (some y) [] s := rfl
  rw [he, execAdmissionSnapshot, if_pos (by simp [hd, hp])]
  exact congrArg _ (if_pos (Ne.symm hy))

theorem admissionSnapshotIsTakenOrDiscarded : AdmissionSnapshotIsTakenOrDiscarded := by
  intro s hrun hd ht hci held
  have hp := pastCutoff_of_due hrun ht hci
  constructor
  · intro fail
    obtain ⟨hctl, hdata, hwait, hfin⟩ := snapDone_finishes (scn s + 1) (pulseStep (snapshotEntered fail s))
    have hadm := snapshotEntered_adm fail s
    have hmbx : (snapshotEntered fail s).mgt.mbx = s.mgt.mbx :=
      snapshotEntered_keeps (fun q => q.mgt.mbx) (fun _ _ _ => rfl) (fun _ _ => rfl) (fun _ _ => rfl) _ _
    have hlane : ∀ l, lane (snapDone (scn s + 1) (pulseStep (snapshotEntered fail s))) l = lane (snapshotEntered fail s) l := fun l =>
      congrArg (fun c => c.lanes.get l) hctl
    refine ⟨_, exec_admissionSnapshot_agree hd hp fail, ?_, ?_, ?_, ?_, hwait, ?_, ?_, ?_, ?_, ?_⟩
    · rw [hctl]; exact congrArg Admission.snapshot hadm
    · rw [hctl]; exact congrArg Admission.taken hadm
    · rw [hctl]; exact congrArg Admission.discard hadm
    · intro l
      rw [hctl]
      refine (congrArg (fun a => a.laneOk.get l) hadm).trans ((laneOk_get fail _ l).trans ?_)
      cases l <;> rfl
    · rw [hfin]
      exact (congrArg (fun m : MbxState => m.finished.length + m.snapWait.length) hmbx :)
    · exact fun l hl => (hlane l).trans (lane_snapshotEntered_of_passes s hl)
    · intro l hl hr
      rw [hlane]
      exact lane_snapshotEntered_of_fails hl hr
    · rw [hctl]
      exact snapshotEntered_keeps (fun q => q.ctl.voter) (fun _ _ _ => rfl) (fun _ _ => rfl) (fun _ _ => rfl) _ _
    · rw [hdata]
      exact snapshotEntered_keeps State.data (fun _ _ _ => rfl) (fun _ _ => rfl) (fun _ _ => rfl) _ _
  · intro y hy
    refine ⟨_, exec_admissionSnapshot_differ hd hp hy, ?_⟩
    obtain ⟨units, hsnoop⟩ := snoop_eq 10 0 true true (admissionBytes (heldCopy s)) s
    rw [hsnoop]
    exact ⟨rfl, rfl, rfl, rfl, rfl, by simp⟩

/-! ### Publication of a scan's snapshot (R24, R25, R409) -/

/-- What MGT holds for publication once snapshot `q` of scan `n` is published: it stands in the buffer that is not
current, or in the first one where none was. -/
def publishedInto (q : Snapshot) (n : Scn) (e : ExportState) : ExportState :=
  let subs := e.subs.map (fun (p : Nat × ExpSub) => (p.1, streamAt n p.2))
  if e.valid && !e.cur then { e with buf1 := some q, cur := true, valid := true, scn := n, subs := subs }
  else { e with buf0 := some q, cur := false, valid := true, scn := n, subs := subs }

/-- The published snapshot is the current buffer's, and a snapshot that was valid is now in the other one. -/
theorem publishedInto_buffers (q : Snapshot) (n : Scn) (e : ExportState) :
    let x := publishedInto q n e
    x.valid = true ∧ x.scn = n ∧ (if x.cur then x.buf1 else x.buf0) = some q ∧
      (e.valid = true → (if x.cur then x.buf0 else x.buf1) = if e.cur then e.buf1 else e.buf0) := by
  unfold publishedInto
  by_cases hv : e.valid = true <;> by_cases hc : e.cur = true <;> simp [hv, hc]

/-- The boundary ports have the outgoing images of the scan (R122). -/
def imagesOut (s : State) (l : Lane) : State :=
  onNet (fun n => { n with outgoing := some (scn s, outgoingWords (lane s l).core.vars) }) s

/-- An assembled snapshot that is due is published: it fills its buffer, check-value units hear it, the boundary ports have their images. -/
theorem exec_exportPublication_due {s : State} {k : Seat} {l : Lane} (hp : publishable s = true) (hd : domRun s 1 = true)
    (hk : (digestSeats s).head? = some k) (hl : holder s k = some l) (hnew : ¬ (s.mgt.exp.valid = true ∧ s.mgt.exp.scn = scn s))
    (hci : nextCi s .x ≤ s.clk.tick + 250) :
    ∃ units, exec (.exportPublication true) s =
      .next (onExp (publishedInto (snapshotOf s l) (scn s)) (onMgt (fun m => { m with cvu := units }) (imagesOut s l))) := by
  have he : exec (.exportPublication true) s = execExportPublication true s := rfl
  have hseat : (digestSeats s).head?.bind (holder s) = some l := by rw [hk]; exact hl
  have hshown : (s.mgt.exp.valid && decide (s.mgt.exp.scn = scn s)) = false := Bool.eq_false_iff.mpr (by simpa using hnew)
  have hdue : (publishable s && !(s.mgt.exp.valid && decide (s.mgt.exp.scn = scn s)) && decide (nextCi s .x ≤ s.clk.tick + 250)) = true := by
    rw [hp, hshown, decide_eq_true hci]
    rfl
  obtain ⟨units, hs⟩ := snoop_eq 11 0 true true (snapBytes (snapshotOf (imagesOut s l) l) 0 0x80000) (imagesOut s l)
  have hscn := congrArg scn hs
  rw [he, execExportPublication, hseat]
  refine ⟨units, congrArg _ ((if_pos hdue).trans ((if_neg (by decide)).trans ((if_pos hd).trans ?_)))⟩
  rw [← hs]
  exact congrArg (fun n => onExp (publishedInto (snapshotOf s l) n) _) hscn

theorem snapshotIsPublished : SnapshotIsPublished := by
  intro s k l hp hd hk hl hnew hci
  obtain ⟨units, he⟩ := exec_exportPublication_due hp hd hk hl hnew hci
  obtain ⟨hvalid, hscn, hcur, hother⟩ := publishedInto_buffers (snapshotOf s l) (scn s) s.mgt.exp
  exact ⟨_, he, hvalid, hscn, hcur, hother, rfl, rfl⟩

/-- Settles O21: what a due mark does beside the follower's own instant leaves clock and followers alone, an agreed snapshot is the held copy
with the failing lanes withdrawn, and a publication fills the buffer that is not current. That a follower's first mark gives its instant
(log entry 98) and that a discarded snapshot ends no command (log entry 26) are the model's choices. -/
theorem scansBeginAndPublish : Obligations.ScansBeginAndPublish :=
  ⟨cycleInstantCounts, admissionSnapshotIsTakenOrDiscarded, snapshotIsPublished⟩

/-! ### A damaged word at a lane (R35) -/

/-- A damaged word at a lane is recorded and treated by the lane (R35). -/
theorem exec_bridgeParityFault_lane {s : State} {l : Lane} {tx : Island} (again : Bool) (hne : tx ≠ .lane l)
    (hl : domRun s (laneDom l) = true) (htx : domRun s (islandDom tx) = true) :
    exec (.bridgeParityFault (.lane l) tx again) s = .next (onLane l laneBridgeFault (bridgeRecord (.lane l) tx 1 s)) := by
  have he : exec (.bridgeParityFault (.lane l) tx again) s = execBridgeParityFault (.lane l) tx again s := rfl
  have hl : domRun s (islandDom (.lane l)) = true := hl
  rw [he, execBridgeParityFault, if_neg (by simp [hl, htx, Ne.symm hne])]

/-- A lane that takes part and has a withdrawal noted already keeps everything as it is, its renewal word included. -/
theorem laneBridgeFault_of_withdrawn {x : LaneState} (hp : x.core.phase ≠ .stopped) (ha : x.core.active.isSome = true)
    (hw : x.commit.withdraw.isSome = true) : laneBridgeFault x = x := by
  obtain ⟨cause, hc⟩ := Option.isSome_iff_exists.mp hw
  rw [laneBridgeFault, if_pos ⟨hp, ha⟩, laneWithdraw, hc]

/-- Lane A evaluates an image with a withdrawal of cause 0x81 noted and its renewal word good; its domain and voter half X's run. -/
def evaluatingWithdrawn : State :=
  onLane .a (fun x => { x with core := { x.core with active := some default, phase := .evaluating },
                               commit := { x.commit with withdraw := some 0x81 } })
    (onPower (fun p => { p with domains := [(5, .run), (7, .run)] }) State.reset)

/-- Refutes O34: its clause on R35 claims for every state that a damaged word marks the lane's renewal word bad. In `evaluatingWithdrawn` the
lane takes part while a withdrawal is noted, so `laneWithdraw` leaves it unchanged and its renewal word stays good. The clause does not assume
that a lane with a withdrawal noted has stopped, which is how `laneWithdraw` itself leaves it (R146). -/
theorem not_islandsAndElectricalEvents : ¬ Obligations.IslandsAndElectricalEvents := by
  intro h
  obtain ⟨⟨-, hisland⟩, -⟩ := h
  obtain ⟨-, -, hbridge, -⟩ := hisland evaluatingWithdrawn
  obtain ⟨t, ht, hbad, -⟩ := hbridge .a .x false (by decide) (by decide) (by decide)
  rw [exec_bridgeParityFault_lane false (by decide) (by decide) (by decide)] at ht
  obtain rfl := Host.Outcome.next.inj ht
  have hsame : laneBridgeFault (lane (bridgeRecord (.lane .a) .x 1 evaluatingWithdrawn) .a) =
      lane (bridgeRecord (.lane .a) .x 1 evaluatingWithdrawn) .a := laneBridgeFault_of_withdrawn (by decide) rfl rfl
  rw [lane_onLane, hsame] at hbad
  exact absurd hbad (by decide)

end Sys2Proof.Proofs.Planes
end

section
/-! The barrier release (O22): first what the shared operations leave of the run and of its scan, then that a release in silent or in voted scans
goes on in its scan unless it ends the run, then what the launch of the scan leaves, and the obligation. -/

namespace Sys2Proof.Proofs.Release

open Sys2Proof Sys2Proof.Machine Sys2Proof.Claims Sys2Proof.Laws Sys2Proof.Proofs.Planes

/-! ### The run and its scan -/

/-- The run as a release meets it: whether a trip is in force, whether the voter runs, and its scan. -/
def pace (s : State) : Bool × Bool × Scn := (s.ctl.trip.inForce, s.ctl.voter.running, s.ctl.voter.scn)

/-- The run has ended, or it is in scan `n`. -/
def EndedOrIn (n : Scn) (s : State) : Prop := (voter s).running = false ∨ s.ctl.trip.inForce = true ∨ scn s = n

theorem endedOrIn_of_pace {n : Scn} {s t : State} (h : pace t = pace s) (hs : EndedOrIn n s) : EndedOrIn n t := by
  obtain ⟨hin, hrun, hscn⟩ : t.ctl.trip.inForce = s.ctl.trip.inForce ∧ (voter t).running = (voter s).running ∧ scn t = scn s := by
    simpa [pace, voter, scn] using h
  simpa [EndedOrIn, hin, hrun, hscn] using hs

theorem endedOrIn_ite {n : Scn} {c : Prop} [Decidable c] {a b : State} (ha : EndedOrIn n a) (hb : EndedOrIn n b) :
    EndedOrIn n (if c then a else b) := by
  split
  · exact ha
  · exact hb

theorem endedOrIn_foldl {α : Type} {n : Scn} {f : State → α → State} (h : ∀ s a, EndedOrIn n s → EndedOrIn n (f s a)) (as : List α)
    {s : State} (hs : EndedOrIn n s) : EndedOrIn n (as.foldl f s) := by
  induction as generalizing s with
  | nil => exact hs
  | cons a as ih => exact ih (h s a hs)

@[simp] theorem pace_ite (c : Prop) [Decidable c] (a b : State) : pace (if c then a else b) = if c then pace a else pace b :=
  apply_ite pace c a b

/-- An update of the voter that touches neither its run nor its scan. -/
@[simp] theorem pace_onVoter {f : Voter → Voter} (hrun : ∀ v, (f v).running = v.running) (hscn : ∀ v, (f v).scn = v.scn) (s : State) :
    pace (onVoter f s) = pace s := by
  simp [pace, hrun, hscn]

@[simp] theorem pace_onSeat (k : Seat) (f : SeatState → SeatState) (s : State) : pace (onSeat k f s) = pace s := rfl
@[simp] theorem pace_onLane (l : Lane) (f : LaneState → LaneState) (s : State) : pace (onLane l f s) = pace s := rfl
@[simp] theorem pace_onCore (l : Lane) (f : LaneCore → LaneCore) (s : State) : pace (onCore l f s) = pace s := rfl
@[simp] theorem pace_onRot (f : Rotation → Rotation) (s : State) : pace (onRot f s) = pace s := rfl
@[simp] theorem pace_onDbg (f : DebugState → DebugState) (s : State) : pace (onDbg f s) = pace s := rfl
@[simp] theorem pace_onStart (f : StartState → StartState) (s : State) : pace (onStart f s) = pace s := rfl
@[simp] theorem pace_onBist (f : BistState → BistState) (s : State) : pace (onBist f s) = pace s := rfl
@[simp] theorem pace_onPower (f : PowerState → PowerState) (s : State) : pace (onPower f s) = pace s := rfl

@[simp] theorem pace_report (r : RecRing) (code source : Nat) (key detail : List Byte) (s : State) :
    pace (report r code source key detail s) = pace s := rfl

@[simp] theorem pace_finishRef (c : CmdRef) (st : Status) (est : Nat) (result data : List Byte) (s : State) :
    pace (finishRef c st est result data s) = pace s := rfl

@[simp] theorem pace_seatChange (k : Seat) (kind : Nat) (out inn : Option Lane) (idOut idIn : BitVec 16) (s : State) :
    pace (seatChange k kind out inn idOut idIn s) = pace s := rfl

@[simp] theorem pace_laneJudged (l : Lane) (seat cause code word before after : Nat) (voted odd : W64) (s : State) :
    pace (laneJudged l seat cause code word before after voted odd s) = pace s := rfl

@[simp] theorem pace_rotationEnds (l : Lane) (st : Status) (s : State) : pace (rotationEnds l st s) = pace s := rfl

@[simp] theorem pace_cairnAbandon (check : Nat) (s : State) : pace (cairnAbandon check s) = pace s := rfl

@[simp] theorem pace_bookDiversity (s : State) : pace (bookDiversity s) = pace s := rfl

@[simp] theorem pace_setVote (l : Lane) (x : LaneVote) (s : State) : pace (setVote l x s) = pace s := by
  simp [setVote]

@[simp] theorem pace_belayState (state : Nat) (causes : BitVec 16) (s : State) : pace (belayState state causes s) = pace s := by
  unfold belayState
  split <;> simp

@[simp] theorem pace_captureSourceLost (l : Lane) (s : State) : pace (captureSourceLost l s) = pace s := by
  unfold captureSourceLost
  split <;> simp

/-! ### Seats, joins and rotations (R169, R183 to R210) -/

@[simp] theorem pace_resyncFail (k : Seat) (l : Lane) (code : Nat) (n : Scn) (s : State) : pace (resyncFail k l code n s) = pace s := by
  simp [resyncFail]

@[simp] theorem pace_sourceLeaves (k : Seat) (s0 s : State) : pace (sourceLeaves k s0 s) = pace s := by
  refine foldl_keeps pace _ (fun s j => ?_) _ s
  dsimp only
  split
  · simp
  · rfl

@[simp] theorem pace_revokeSeat (k : Seat) (mode : SeatMode) (openFor : Option Lane) (s : State) :
    pace (revokeSeat k mode openFor s) = pace s := by
  unfold revokeSeat
  cases holder s k <;> simp

@[simp] theorem pace_abandonJoin (causes : BitVec 16) (s : State) : pace (abandonJoin causes s) = pace s := by
  unfold abandonJoin
  split
  case h_1 => rfl
  case h_2 j _ =>
    cases j.why with
    | takeover => simp
    | handback | rotation => cases j.step <;> simp

@[simp] theorem pace_joinLost (l : Lane) (s : State) : pace (joinLost l s) = pace s := by
  unfold joinLost
  split <;> simp

@[simp] theorem pace_startTakeover (k : Seat) (s : State) : pace (startTakeover k s) = pace s := by
  unfold startTakeover
  split
  · split <;> simp
  · rfl

@[simp] theorem pace_seatVacated (k : Seat) (s : State) : pace (seatVacated k s) = pace s := by
  unfold seatVacated
  split
  · split
    · split <;> simp
    · split <;> simp
  · simp

@[simp] theorem pace_leaveOdd (k : Seat) (l : Lane) (s : State) : pace (leaveOdd k l s) = pace s := by
  simp [leaveOdd]

@[simp] theorem pace_starReports (s : State) : pace (starReports s) = pace s := by
  refine foldl_keeps pace _ (fun s p => ?_) _ s
  dsimp only
  split <;> simp

@[simp] theorem pace_grantSeat (k : Seat) (l : Lane) (s : State) : pace (grantSeat k l s) = pace s := by
  simp [grantSeat]

@[simp] theorem pace_openSeat (s : State) (k : Seat) : pace (openSeat s k) = pace s := by
  unfold openSeat
  dsimp only
  split
  · simp only [pace_ite, pace_seatVacated, pace_resyncFail, pace_grantSeat, pace_rotationEnds, pace_onDbg, pace_onLane, pace_onSeat, ite_self]
  · rfl

@[simp] theorem pace_standing (s : State) (k : Seat) : pace (standing s k) = pace s := by
  unfold standing
  split
  · split <;> simp
  · rfl

@[simp] theorem pace_completeHandover (k : Seat) (j : Join) (s : State) : pace (completeHandover k j s) = pace s := by
  unfold completeHandover
  cases holder s k
  case none => simp
  case some o =>
    cases j.why <;> simp only [pace_ite, pace_onRot, pace_setVote, pace_rotationEnds, pace_onCore, pace_onLane, pace_captureSourceLost,
      pace_onVoter, pace_seatChange, pace_grantSeat, ite_self, implies_true]

@[simp] theorem pace_leaseEnds (k : Seat) (s : State) : pace (leaseEnds k s) = pace s := by
  simp [leaseEnds]

@[simp] theorem pace_releaseHome (s : State) : pace (releaseHome s) = pace s := by
  unfold releaseHome
  split
  · rfl
  · split
    · split <;> simp
    · rfl

@[simp] theorem pace_startPlanned (s : State) : pace (startPlanned s) = pace s := by
  unfold startPlanned
  dsimp only
  split
  · simp
  split
  · rfl
  split
  · simp
  split
  · rfl
  split
  · simp
  split
  · split <;> simp
  · rfl

@[simp] theorem pace_retryTakeover (s : State) : pace (retryTakeover s) = pace s :=
  foldl_keeps pace _ (fun s k => by simp) _ s

@[simp] theorem pace_renew (s : State) (k : Seat) : pace (renew s k) = pace s := by
  unfold renew
  cases holder s k <;> simp

@[simp] theorem pace_diversityStep (s : State) : pace (diversityStep s) = pace s := by
  simp [diversityStep]

/-! ### A start that fails (R500), and a trigger (R232) -/

@[simp] theorem pace_laneLeaves (l : Lane) (s : State) : pace (laneLeaves l s) = pace s := by
  have opened : ∀ (ks : List Seat) (t : State), pace (ks.foldl (fun s k =>
      if ((voter s).seats.get k).mode = .opened ∧ ((voter s).seats.get k).openFor = some l then resyncFail k l 5 (scn s) s else s) t) =
      pace t := fun ks t => foldl_keeps pace _ (fun s k => by simp) ks t
  simp [laneLeaves, opened]

@[simp] theorem pace_mgtDown (s : State) : pace (mgtDown s) = pace s := by
  unfold mgtDown onStaging
  simp [pace]

theorem running_ctlDown (s : State) : (voter (ctlDown s)).running = false := rfl

/-- A domain that is lost leaves the run and its scan, or is the voter's own and ends the run (R44). -/
theorem domainLost_endedOrIn {n : Scn} (d : Nat) {s : State} (hs : EndedOrIn n s) : EndedOrIn n (domainLost d s) := by
  unfold domainLost
  have hq : EndedOrIn n (followerLost d s) := endedOrIn_of_pace rfl hs
  dsimp only
  generalize followerLost d s = q at hq
  split
  case h_1 => exact endedOrIn_of_pace (pace_mgtDown q) hq
  case h_5 => exact .inl (running_ctlDown _)
  case h_7 | h_8 | h_9 | h_10 => exact endedOrIn_of_pace (pace_laneLeaves _ _) hq
  all_goals exact endedOrIn_of_pace rfl hq

theorem holdDomain_endedOrIn {n : Scn} (d : Nat) {s : State} (hs : EndedOrIn n s) : EndedOrIn n (holdDomain d s) := by
  unfold holdDomain
  split
  · exact endedOrIn_of_pace rfl (domainLost_endedOrIn d hs)
  · exact hs

@[simp] theorem pace_singleBegins (r : ResetSrc) (s : State) : pace (singleBegins r s) = pace s := by
  have reported : ∀ c entry, pace (singleChannel c entry s) = pace s := by
    intro c entry
    unfold singleChannel
    split <;> rfl
  unfold singleBegins
  split
  · simp [reported]
  · rfl

theorem rawAssert_endedOrIn {n : Scn} (r : ResetSrc) {s : State} (hs : EndedOrIn n s) : EndedOrIn n (rawAssert r s) := by
  have held : ∀ (q : State) (d : Nat), EndedOrIn n q → EndedOrIn n (if d = 0 then q else holdDomain d q) := by
    intro q d hq
    split
    · exact hq
    · exact holdDomain_endedOrIn d hq
  have all : ∀ q, pace q = pace s → EndedOrIn n ((reach r).foldl (fun s d => if d = 0 then s else holdDomain d s) q) :=
    fun q hq => endedOrIn_foldl held (reach r) (endedOrIn_of_pace hq hs)
  unfold rawAssert
  dsimp only
  split
  · exact endedOrIn_of_pace rfl (all _ (by simp))
  · exact all _ (by simp)

@[simp] theorem pace_noteCause (c : Nat) (s : State) : pace (noteCause c s) = pace s := by
  simp [noteCause]

theorem bankAfterFail_endedOrIn {n : Scn} (verifies : Bool) {s : State} (hs : EndedOrIn n s) : EndedOrIn n (bankAfterFail verifies s) := by
  have swapped : ∀ q, pace q = pace s → EndedOrIn n (rawAssert .sysReset (endWait (noteCause 0x0F q))) := fun q hq =>
    rawAssert_endedOrIn _ (endedOrIn_of_pace ((pace_noteCause 0x0F q).trans hq) hs)
  exact endedOrIn_ite hs (endedOrIn_ite (endedOrIn_of_pace rfl hs) (endedOrIn_ite (swapped _ rfl) (endedOrIn_of_pace rfl hs)))

/-- A start that fails ends the run with the voter's domain, or leaves it in its scan where that domain does not run. -/
theorem startFail_endedOrIn {n : Scn} (st : Status) {s : State} (hs : EndedOrIn n s) : EndedOrIn n (startFail st s) := by
  unfold startFail
  split
  · exact bankAfterFail_endedOrIn _ (rawAssert_endedOrIn _ (endedOrIn_of_pace rfl hs))
  · exact hs

/-- A trigger ends the run, or leaves it as it is (R232). -/
theorem trip_endedOrIn {n : Scn} (cause : Nat) (reset : Bool) {s : State} (hs : EndedOrIn n s) : EndedOrIn n (trip cause reset s) := by
  by_cases hq : silentRun s = true
  · have hout : s.ctl.trip.inForce = false := by
      simp only [silentRun, Bool.and_eq_true, Bool.not_eq_true'] at hq
      obtain ⟨-, hout⟩ := hq
      exact hout
    have he : trip cause reset s = startFail .aborted s := by simp [trip, hout, hq]
    rw [he]
    exact startFail_endedOrIn _ hs
  · obtain he | ⟨-, -, hin⟩ := trip_cases (Bool.eq_false_of_not_eq_true hq) cause reset
    · rw [he]
      exact hs
    · exact .inr (.inl hin)

/-! ### The release in silent and in voted scans (R177 to R188) -/

theorem endSilent_endedOrIn {n : Scn} {s : State} (hs : EndedOrIn n s) : EndedOrIn n (endSilent s) := by
  have granted : ∀ (el : List (Seat × Lane)) t, pace (el.foldl (fun s p => grantSeat p.1 p.2 s) t) = pace t :=
    fun el t => foldl_keeps pace _ (fun s p => by simp) el t
  have vacated : ∀ (cs el : List (Seat × Lane)) t, pace (cs.foldl (fun s p => if el.contains p then s else setVote p.2 .vacated s) t) = pace t :=
    fun cs el t => foldl_keeps pace _ (fun s p => by simp) cs t
  unfold endSilent
  dsimp only
  split
  · exact startFail_endedOrIn _ hs
  split
  · exact startFail_endedOrIn _ hs
  · exact endedOrIn_of_pace (by simp only [pace_onStart, pace_onVoter, granted, vacated, implies_true]) hs

@[simp] theorem pace_comparatorRecord (s : State) : pace (comparatorRecord s) = pace s := by
  unfold comparatorRecord
  split <;> rfl

/-- The scans in a row in which the trip-class channels were clear, the scan before among them (R232). -/
def runCounted (s : State) : State :=
  let t := (voter s).test
  let run := if t.silent = 0 then 0 else if t.clear then t.tripClassRun + 1 else 0
  onVoter (fun v => { v with test := { v.test with tripClassRun := run } }) s

/-- The next silent scan with its injection (R177). -/
def nextSilent (s : State) : State :=
  let t := (voter s).test
  let s := if 16 ≤ t.silent then onStart (fun x => { x with held := x.held + Config.tscanTicks s.tscan }) s else s
  let k := t.silent + 1
  onVoter (fun v => { v with test := { v.test with silent := k, injection := injectionOf s k v.test.cands,
                                                   detected := ⟨[], []⟩, clear := tripClassClear s } }) s

theorem silentRelease_eq (s : State) : silentRelease s =
    if !injectionSeen s then startFail .notReady (comparatorRecord s)
    else if silentDone (runCounted s) then endSilent (runCounted s) else nextSilent (runCounted s) := rfl

theorem silentRelease_endedOrIn {n : Scn} {s : State} (hs : EndedOrIn n s) : EndedOrIn n (silentRelease s) := by
  have counted : EndedOrIn n (runCounted s) := endedOrIn_of_pace rfl hs
  have next : EndedOrIn n (nextSilent (runCounted s)) := endedOrIn_of_pace (by simp [nextSilent]) counted
  rw [silentRelease_eq]
  exact endedOrIn_ite (startFail_endedOrIn _ (endedOrIn_of_pace (pace_comparatorRecord s) hs))
    (endedOrIn_ite (endSilent_endedOrIn counted) next)

theorem debugHalt_endedOrIn {n : Scn} {s : State} (hs : EndedOrIn n s) : EndedOrIn n (debugHalt s) := by
  unfold debugHalt
  split
  · dsimp only
    split
    · exact trip_endedOrIn _ _ (endedOrIn_of_pace rfl hs)
    · refine endedOrIn_of_pace ?_ hs
      split <;> simp
  · exact hs

theorem giveForces_endedOrIn {n : Scn} (l : Lane) {s : State} (hs : EndedOrIn n s) : EndedOrIn n (giveForces l s) := by
  unfold giveForces
  dsimp only
  split
  · exact endedOrIn_of_pace rfl hs
  · exact trip_endedOrIn _ _ hs

theorem joinBarrier_endedOrIn {n : Scn} (j : Join) {s : State} (hs : EndedOrIn n s) : EndedOrIn n (joinBarrier j s) := by
  unfold joinBarrier
  refine endedOrIn_of_pace (pace_onVoter (fun _ => rfl) (fun _ => rfl) _) ?_
  split
  · split
    · exact hs
    · exact giveForces_endedOrIn _ hs
  · exact hs

theorem joinStep_endedOrIn {n : Scn} {s : State} (hs : EndedOrIn n s) : EndedOrIn n (joinStep s) := by
  unfold joinStep
  split
  case h_1 => exact hs
  case h_2 j _ =>
    dsimp only
    split
    case h_1 => exact endedOrIn_ite hs (joinBarrier_endedOrIn _ (endedOrIn_of_pace rfl hs))
    case h_2 => exact joinBarrier_endedOrIn _ hs
    case h_3 => exact hs
    case h_4 => exact endedOrIn_of_pace (by simp) hs
    case h_5 =>
      refine endedOrIn_of_pace ?_ hs
      cases j.why <;> simp
    case h_6 =>
      refine endedOrIn_ite (endedOrIn_ite (endedOrIn_of_pace (pace_completeHandover _ _ _) hs) (endedOrIn_of_pace ?_ hs))
        (endedOrIn_ite (endedOrIn_of_pace (pace_abandonJoin _ _) hs) hs)
      simp only [pace_seatVacated, pace_onVoter, pace_onSeat, implies_true]
      split <;> simp

/-- A release of a voted scan ends the run, or goes on in its scan. -/
theorem votedRelease_endedOrIn {n : Scn} {s : State} (hs : EndedOrIn n s) : EndedOrIn n (votedRelease s) := by
  have each : ∀ {f : State → Seat → State}, (∀ q k, pace (f q k) = pace q) → ∀ q, pace (Seat.list.foldl f q) = pace q :=
    fun hf q => foldl_keeps pace _ hf _ q
  have judged : ∀ q, EndedOrIn n q → EndedOrIn n (debugHalt (Seat.list.foldl standing (starReports q))) := fun q hq =>
    debugHalt_endedOrIn (endedOrIn_of_pace ((each pace_standing _).trans (pace_starReports q)) hq)
  have joined : ∀ q, EndedOrIn n q → EndedOrIn n (retryTakeover (joinStep (Seat.list.foldl openSeat q))) := fun q hq =>
    endedOrIn_of_pace (pace_retryTakeover _) (joinStep_endedOrIn (endedOrIn_of_pace (each pace_openSeat q) hq))
  have renewed : ∀ q, EndedOrIn n q → EndedOrIn n (diversityStep (startPlanned (Seat.list.foldl renew q))) := fun q hq =>
    endedOrIn_of_pace ((pace_diversityStep _).trans ((pace_startPlanned _).trans (each pace_renew q))) hq
  have start := judged _ (endedOrIn_ite (c := (cairnScan (scn s) && (voter s).capture.isSome) = true)
    (endedOrIn_of_pace (pace_cairnAbandon 4 s) hs) hs)
  exact endedOrIn_ite start (endedOrIn_ite (trip_endedOrIn _ _ start) (endedOrIn_ite (joined _ start) (renewed _ (joined _ start))))

/-! ### The launch of the scan -/

/-- The voter and the trip. -/
def voterAndTrip (s : State) : Voter × TripState := (s.ctl.voter, s.ctl.trip)

theorem voter_of_voterAndTrip {s t : State} (h : voterAndTrip t = voterAndTrip s) : voter t = voter s := congrArg Prod.fst h

theorem trip_of_voterAndTrip {s t : State} (h : voterAndTrip t = voterAndTrip s) : t.ctl.trip = s.ctl.trip := congrArg Prod.snd h

@[simp] theorem voterAndTrip_ite (c : Prop) [Decidable c] (a b : State) :
    voterAndTrip (if c then a else b) = if c then voterAndTrip a else voterAndTrip b := apply_ite voterAndTrip c a b

@[simp] theorem voterAndTrip_onLane (l : Lane) (f : LaneState → LaneState) (s : State) : voterAndTrip (onLane l f s) = voterAndTrip s := rfl
@[simp] theorem voterAndTrip_onLanes (f : LaneState → LaneState) (s : State) : voterAndTrip (onLanes f s) = voterAndTrip s := rfl
@[simp] theorem voterAndTrip_onForce (f : ForceState → ForceState) (s : State) : voterAndTrip (onForce f s) = voterAndTrip s := rfl
@[simp] theorem voterAndTrip_onOlc (f : OlcState → OlcState) (s : State) : voterAndTrip (onOlc f s) = voterAndTrip s := rfl
@[simp] theorem voterAndTrip_onDbg (f : DebugState → DebugState) (s : State) : voterAndTrip (onDbg f s) = voterAndTrip s := rfl
@[simp] theorem voterAndTrip_onSched (f : SchedState → SchedState) (s : State) : voterAndTrip (onSched f s) = voterAndTrip s := rfl

@[simp] theorem voterAndTrip_report (r : RecRing) (code source : Nat) (key detail : List Byte) (s : State) :
    voterAndTrip (report r code source key detail s) = voterAndTrip s := rfl

@[simp] theorem voterAndTrip_forceRecord (id addr : Nat) (old new : Option Force) (cause : Nat) (s : State) :
    voterAndTrip (forceRecord id addr old new cause s) = voterAndTrip s := rfl

@[simp] theorem voterAndTrip_onTables (f : SMap Force → SMap Force) (s : State) : voterAndTrip (onTables f s) = voterAndTrip s := by
  have lanes : ∀ t, voterAndTrip (Lane.list.foldl (fun s l => if runs s l then onLane l (fun x => { x with forces := f x.forces }) s else s) t) =
      voterAndTrip t := fun t => foldl_keeps voterAndTrip _ (fun s l => by simp) _ t
  exact lanes s

@[simp] theorem voterAndTrip_removeForces (sel : Nat → Force → Bool) (cause : Nat) (s : State) :
    voterAndTrip (removeForces sel cause s) = voterAndTrip s := by
  unfold removeForces
  rw [voterAndTrip_onTables]
  exact foldl_keeps voterAndTrip _ (fun s p => voterAndTrip_forceRecord _ _ _ _ _ s) _ s

@[simp] theorem voterAndTrip_forceAct (fop id : Nat) (v : BitVec 16) (s : State) : voterAndTrip (forceAct fop id v s).1 = voterAndTrip s := by
  simp only [forceAct, apply_ite Prod.fst, voterAndTrip_ite, voterAndTrip_onTables, voterAndTrip_forceRecord, voterAndTrip_report,
    voterAndTrip_removeForces, ite_self]

@[simp] theorem voterAndTrip_slotAct (s : State) (j : Nat) : voterAndTrip (slotAct s j) = voterAndTrip s := by
  simp [slotAct]

@[simp] theorem voterAndTrip_pAnyRemoval (s : State) : voterAndTrip (pAnyRemoval s) = voterAndTrip s := by
  simp [pAnyRemoval]

@[simp] theorem voterAndTrip_forceLatch (s : State) : voterAndTrip (forceLatch s) = voterAndTrip s := by
  have slots : ∀ (js : List Nat) t, voterAndTrip (js.foldl slotAct t) = voterAndTrip t := foldl_keeps voterAndTrip _ voterAndTrip_slotAct
  simp only [forceLatch, slots, voterAndTrip_onForce, voterAndTrip_pAnyRemoval]

@[simp] theorem voterAndTrip_olcRecord (kind status w : Nat) (crc : W32) (s : State) :
    voterAndTrip (olcRecord kind status w crc s) = voterAndTrip s := by
  unfold olcRecord
  split <;> rfl

@[simp] theorem voterAndTrip_finishSwap (st : Status) (result : List Byte) (s : State) :
    voterAndTrip (finishSwap st result s) = voterAndTrip s := by
  unfold finishSwap
  split <;> rfl

@[simp] theorem voterAndTrip_finishCancel (st : Status) (result : List Byte) (s : State) :
    voterAndTrip (finishCancel st result s) = voterAndTrip s := by
  unfold finishCancel
  split <;> rfl

@[simp] theorem voterAndTrip_oseqAct (s : State) : voterAndTrip (oseqAct s) = voterAndTrip s := by
  simp only [oseqAct, voterAndTrip_ite]
  split
  · simp only [voterAndTrip_onForce]
  · split <;> simp

@[simp] theorem voterAndTrip_changeReaches (s : State) (l : Lane) : voterAndTrip (changeReaches s l) = voterAndTrip s := by
  unfold changeReaches
  split
  · split <;> rfl
  · rfl

/-- The requests of the scan change neither the voter nor a trip. -/
@[simp] theorem voterAndTrip_requests (s : State) : voterAndTrip (requests s) = voterAndTrip s := by
  have lanes : ∀ (ls : List Lane) t, voterAndTrip (ls.foldl changeReaches t) = voterAndTrip t :=
    foldl_keeps voterAndTrip _ voterAndTrip_changeReaches
  simp only [requests, lanes, voterAndTrip_onSched, voterAndTrip_oseqAct, voterAndTrip_forceLatch]

@[simp] theorem voterAndTrip_mergeNoted (runners : List Lane) (s : State) : voterAndTrip (mergeNoted runners s) = voterAndTrip s := by
  unfold mergeNoted
  split
  · refine foldl_keeps voterAndTrip _ (fun s k => ?_) _ s
    dsimp only
    split
    · split <;> rfl
    · rfl
  · rfl

@[simp] theorem voterAndTrip_latchAll (cost : Nat) (runners : List Lane) (s : State) :
    voterAndTrip (latchAll cost runners s) = voterAndTrip s :=
  foldl_keeps voterAndTrip _ (fun q l => voterAndTrip_onLane l _ q) _ s

@[simp] theorem voterAndTrip_haltedPiece (s : State) : voterAndTrip (haltedPiece s) = voterAndTrip s := by
  unfold haltedPiece
  split
  · split <;> rfl
  · rfl

@[simp] theorem voterAndTrip_pieceDone (s : State) : voterAndTrip (pieceDone s) = voterAndTrip s := by
  unfold pieceDone
  split <;> rfl

/-- The scan of a launch has begun: nothing of it has been received, no ready word is kept, and the admission gate is open. -/
def ScanBegun (t : State) : Prop :=
  (voter t).now.scn = (voter t).scn ∧ (voter t).now.words = [] ∧ (voter t).halves = ⟨HalfVote.zero, HalfVote.zero⟩ ∧
    (∀ h l, ((voter t).ready.get h).get l = none) ∧ (voter t).firstScan = false ∧ t.ctl.adm.taken = false

theorem launch_begins (s : State) : ScanBegun (launch s) := by
  refine ⟨rfl, rfl, rfl, fun h l => ?_, rfl, rfl⟩
  cases h <;> cases l <;> rfl

/-- The lanes as the launch leaves them: every one that runs has latched and started its engines. -/
def latched (s : State) : State :=
  let s := noteBefore s
  let cost := if olcFirst s then swapCost s.ctl.olc.map else 0
  let runners := Lane.list.filter (runs s)
  pieceDone (haltedPiece (onLanes (ownFence (scn s)) (latchAll cost runners (mergeNoted runners s))))

theorem voterAndTrip_latched (s : State) : voterAndTrip (latched s) = voterAndTrip s := by
  simp [latched, noteBefore]

/-- The launch leaves the run, the number of the scan, the seats, the comparator test and the trip. -/
theorem launch_frame (s : State) : (voter (launch s)).running = (voter s).running ∧ (voter (launch s)).scn = (voter s).scn ∧
    (voter (launch s)).seats = (voter s).seats ∧ (voter (launch s)).test = (voter s).test ∧ (launch s).ctl.trip = s.ctl.trip := by
  have h := voterAndTrip_latched s
  exact ⟨congrArg (fun p => p.1.running) h, congrArg (fun p => p.1.scn) h, congrArg (fun p => p.1.seats) h, congrArg (fun p => p.1.test) h,
    congrArg Prod.snd h⟩

/-! ### The release (R56, R79) -/

/-- Scan `n` has begun, or the release itself has ended the run. -/
def EndedOrBegun (n : Scn) (t : State) : Prop :=
  (voter t).running = false ∨ t.ctl.trip.inForce = true ∨ (ScanBegun t ∧ (voter t).scn = n)

/-- A run that the release leaves in scan `n` starts it. -/
theorem endedOrBegun_of_endedOrIn {n : Scn} {s : State} (hs : EndedOrIn n s) :
    EndedOrBegun n (if (voter s).running && !s.ctl.trip.inForce then launch (requests s) else s) := by
  split
  next hgo =>
    simp only [Bool.and_eq_true, Bool.not_eq_true'] at hgo
    obtain ⟨hrun, hout⟩ := hgo
    have hn : scn s = n := by simpa [EndedOrIn, hrun, hout] using hs
    have hreq : (voter (requests s)).scn = scn s := congrArg Voter.scn (voter_of_voterAndTrip (voterAndTrip_requests s))
    obtain ⟨-, hlaunch, -⟩ := launch_frame (requests s)
    exact .inr (.inr ⟨launch_begins _, hlaunch.trans (hreq.trans hn)⟩)
  next hgo =>
    simp only [Bool.and_eq_true, Bool.not_eq_true', not_and, Bool.not_eq_false] at hgo
    by_cases hrun : (voter s).running = true
    · exact .inr (.inl (hgo hrun))
    · exact .inl (Bool.eq_false_of_not_eq_true hrun)

/-- The voter enters scan `n`. -/
def inScan (n : Scn) (s : State) : State := onVoter (fun v => { v with scn := n }) s

/-- The release of the scan that the voter is in: the halves' force tables and leases are compared, then the silent or the voted scan goes on. -/
def releaseIn (s : State) : State :=
  let s := if s.ctl.force.out.x ≠ s.ctl.force.out.y ∨ leasesDiffer s = true then tripXY s else s
  if s.ctl.trip.inForce then s
  else
    let s := if silentRun s then silentRelease s else votedRelease s
    if (voter s).running && !s.ctl.trip.inForce then launch (requests s) else s

theorem releaseScan_eq (s : State) : releaseScan s =
    let a := swapBoundary (if (voter s).released then s else firstRelease s)
    if !(voter a).running then a else releaseIn (inScan (BitVec.ofNat 32 s.ctl.followers.x.cycle) a) := rfl

theorem exec_barrierRelease_due {s : State} (h : releaseDue s = true) : exec .barrierRelease s = .next (releaseScan s) := by
  have he : exec .barrierRelease s = execBarrierRelease s := rfl
  rw [he, execBarrierRelease, if_pos h]

theorem releaseIn_endedOrBegun {n : Scn} {s : State} (hs : EndedOrIn n s) : EndedOrBegun n (releaseIn s) := by
  have hx : EndedOrIn n (if s.ctl.force.out.x ≠ s.ctl.force.out.y ∨ leasesDiffer s = true then tripXY s else s) :=
    endedOrIn_ite (trip_endedOrIn 0x07 true hs) hs
  unfold releaseIn
  dsimp only
  generalize (if s.ctl.force.out.x ≠ s.ctl.force.out.y ∨ leasesDiffer s = true then tripXY s else s) = x at hx
  by_cases hin : x.ctl.trip.inForce = true
  · rw [if_pos hin]
    exact .inr (.inl hin)
  · rw [if_neg hin]
    exact endedOrBegun_of_endedOrIn (endedOrIn_ite (silentRelease_endedOrIn hx) (votedRelease_endedOrIn hx))

/-- A release starts the scan that half X has counted, or ends the run. -/
theorem releaseScan_endedOrBegun (s : State) : EndedOrBegun (BitVec.ofNat 32 s.ctl.followers.x.cycle) (releaseScan s) := by
  rw [releaseScan_eq]
  dsimp only
  generalize swapBoundary (if (voter s).released then s else firstRelease s) = a
  cases hrun : (voter a).running with
  | false => exact .inl hrun
  | true => exact releaseIn_endedOrBegun (s := inScan _ a) (.inr (.inr rfl))

/-! ### A silent scan before the sixteenth (R177, R178) -/

/-- No online change swaps before the first voted scan. -/
theorem swapBoundary_of_silent {s : State} (h : (voter s).votedRun = false) : swapBoundary s = s := by
  have hc : ctlRuns s = false := by simp [ctlRuns, h]
  simp [swapBoundary, hc]

/-- What a silent scan before the sixteenth leaves at its release: the run goes on, one more silent scan is counted, and the seats stay. -/
theorem silentRelease_counts {s : State} (hinj : injectionSeen s = true) (hk : (voter s).test.silent < 16) :
    (voter (silentRelease s)).running = (voter s).running ∧ (silentRelease s).ctl.trip = s.ctl.trip ∧
      (voter (silentRelease s)).scn = (voter s).scn ∧ (voter (silentRelease s)).seats = (voter s).seats ∧
      (voter (silentRelease s)).test.silent = (voter s).test.silent + 1 := by
  have hk' : (voter (runCounted s)).test.silent < 16 := hk
  have hdone : silentDone (runCounted s) = false := by simp [silentDone, Nat.not_le.mpr hk']
  rw [silentRelease_eq, hinj, hdone, if_neg (by decide), if_neg (by decide), nextSilent, if_neg (Nat.not_le.mpr hk')]
  exact ⟨rfl, rfl, rfl, rfl, rfl⟩

theorem releaseDue_running {s : State} (h : releaseDue s = true) : (voter s).running = true ∧ s.ctl.trip.inForce = false := by
  simp only [releaseDue, Bool.and_eq_true, Bool.not_eq_true'] at h
  obtain ⟨⟨⟨hrun, -⟩, -⟩, -⟩ := h
  exact hrun

/-- Where nothing differs between the halves, a silent scan before the sixteenth is launched. -/
theorem releaseIn_silent {s : State} (hrun : (voter s).running = true) (hin : s.ctl.trip.inForce = false) (hsil : (voter s).votedRun = false)
    (hk : (voter s).test.silent < 16) (hinj : injectionSeen s = true) (hout : s.ctl.force.out.x = s.ctl.force.out.y)
    (hlease : leasesDiffer s = false) : releaseIn s = launch (requests (silentRelease s)) := by
  have hq : silentRun s = true := by simp [silentRun, hrun, hsil, hin]
  obtain ⟨hrun', htrip, -⟩ := silentRelease_counts hinj hk
  unfold releaseIn
  simp [hout, hlease, hin, hq, hrun', htrip, hrun]

/-- The release of a silent scan before the sixteenth starts and counts it, and leaves the seats. -/
theorem releaseScan_silent {s : State} (hdue : releaseDue s = true) (hrel : (voter s).released = true) (hsil : (voter s).votedRun = false)
    (hk : (voter s).test.silent < 16) (hinj : injectionSeen s = true) (hout : s.ctl.force.out.x = s.ctl.force.out.y)
    (hlease : leasesDiffer s = false) :
    ScanBegun (releaseScan s) ∧ (voter (releaseScan s)).running = true ∧ (releaseScan s).ctl.trip.inForce = false ∧
      (voter (releaseScan s)).scn = BitVec.ofNat 32 s.ctl.followers.x.cycle ∧ (voter (releaseScan s)).seats = (voter s).seats ∧
      (voter (releaseScan s)).test.silent = (voter s).test.silent + 1 := by
  obtain ⟨hrun, hin⟩ := releaseDue_running hdue
  have he : releaseScan s = launch (requests (silentRelease (inScan (BitVec.ofNat 32 s.ctl.followers.x.cycle) s))) := by
    rw [releaseScan_eq, if_pos hrel, swapBoundary_of_silent hsil]
    simp only [hrun]
    exact releaseIn_silent (s := inScan _ s) hrun hin hsil hk hinj hout hlease
  rw [he]
  generalize BitVec.ofNat 32 s.ctl.followers.x.cycle = n
  obtain ⟨hrun', htrip, hscn, hseats, hsilent⟩ := silentRelease_counts (s := inScan n s) hinj hk
  generalize silentRelease (inScan n s) = u at *
  have hreq := voterAndTrip_requests u
  have hv := voter_of_voterAndTrip hreq
  obtain ⟨frun, fscn, fseats, ftest, ftrip⟩ := launch_frame (requests u)
  refine ⟨launch_begins _, ?_, ?_, ?_, ?_, ?_⟩
  · rw [frun, hv, hrun']
    exact hrun
  · rw [ftrip, trip_of_voterAndTrip hreq, htrip]
    exact hin
  · rw [fscn, hv, hscn]
    rfl
  · rw [fseats, hv, hseats]
    rfl
  · rw [ftest, hv, hsilent]
    rfl

/-- Settles O22: every operation of a release keeps the run in the scan it has entered, or ends the run with a trip or a failed start, and the
launch leaves a begun scan. In a silent scan before the sixteenth nothing of the release trips or fails the start. -/
theorem dueReleaseStartsTheScan : Obligations.DueReleaseStartsTheScan := by
  refine ⟨fun s hdue => ?_, fun s hdue hrel hsil hk hinj hout hlease => ?_⟩
  · refine ⟨_, exec_barrierRelease_due hdue, ?_⟩
    obtain hend | hin | ⟨⟨hnow, hwords, hhalves, hready, hfirst, hgate⟩, hscn⟩ := releaseScan_endedOrBegun s
    · exact .inl hend
    · exact .inr (.inl hin)
    · exact .inr (.inr ⟨hnow, hwords, hhalves, hready, hfirst, hgate, hscn⟩)
  · obtain ⟨⟨hnow, hwords, hhalves, hready, -, hgate⟩, hrun, hin, hscn, hseats, hsilent⟩ :=
      releaseScan_silent hdue hrel hsil hk hinj hout hlease
    exact ⟨_, exec_barrierRelease_due hdue, hrun, hin, hscn, hnow, hwords, hhalves, hready, hsilent, hseats, hgate⟩

end Sys2Proof.Proofs.Release
end

section
/-! The words of the engines (O13): each field of a word is a quotient of its number, and the number is the sum of the placed fields. -/

namespace Sys2Proof.Proofs.EngineWords

open Sys2Proof Sys2Proof.Machine

theorem b2n_eq_toNat (b : Bool) : b2n b = b.toNat := by cases b <;> rfl

theorem fields_lt (x : EngArg) : x.m3.toNat < 2 ∧ x.cmp.toNat < 2 ^ 2 ∧ x.n.toNat < 2 ∧ x.opd.toNat < 2 ^ 22 :=
  ⟨x.m3.toNat_lt, x.cmp.isLt, x.n.toNat_lt, x.opd.isLt⟩

/-- The number of a word is the sum of its fields, each at its place (R81): no sum of fields overflows the 32 bits. -/
theorem engWord_toNat {opc : Nat} (x : EngArg) (h : opc < 64) :
    (engWord opc x).toNat = opc * 2 ^ 26 + x.m3.toNat * 2 ^ 25 + x.cmp.toNat * 2 ^ 23 + x.n.toNat * 2 ^ 22 + x.opd.toNat := by
  obtain ⟨hm3, hcmp, hn, hopd⟩ := fields_lt x
  rw [engWord, b2n_eq_toNat, b2n_eq_toNat, BitVec.toNat_ofNat, Nat.mod_eq_of_lt (by omega)]

theorem opcodeOf_eq (w : W32) : opcodeOf w = w.toNat / 2 ^ 26 := by
  rw [opcodeOf, BitVec.toNat_ushiftRight, Nat.shiftRight_eq_div_pow]

/-- A one-bit field of a word, as a number. -/
theorem toNat_getLsbD (w : W32) (i : Nat) : (w.getLsbD i).toNat = w.toNat / 2 ^ i % 2 := Nat.toNat_testBit w.toNat i

theorem argOf_m3 (w : W32) : (argOf w).m3.toNat = w.toNat / 2 ^ 25 % 2 := toNat_getLsbD w 25

theorem argOf_n (w : W32) : (argOf w).n.toNat = w.toNat / 2 ^ 22 % 2 := toNat_getLsbD w 22

theorem argOf_cmp (w : W32) : (argOf w).cmp.toNat = w.toNat / 2 ^ 23 % 4 := by
  simp [argOf, field]

theorem argOf_opd (w : W32) : (argOf w).opd.toNat = w.toNat % 2 ^ 22 := by
  simp [argOf, field]

theorem toNat_injective : ∀ a b : Bool, a.toNat = b.toNat → a = b := by decide

/-- Fields are equal where the numbers they spell are. -/
theorem engArg_ext {x y : EngArg} (hm3 : x.m3.toNat = y.m3.toNat) (hcmp : x.cmp.toNat = y.cmp.toNat) (hn : x.n.toNat = y.n.toNat)
    (hopd : x.opd.toNat = y.opd.toNat) : x = y := by
  cases x
  cases y
  congr
  · exact toNat_injective _ _ hm3
  · exact BitVec.eq_of_toNat_eq hcmp
  · exact toNat_injective _ _ hn
  · exact BitVec.eq_of_toNat_eq hopd

theorem opcodeOf_engWord {opc : Nat} (x : EngArg) (h : opc < 64) : opcodeOf (engWord opc x) = opc := by
  obtain ⟨hm3, hcmp, hn, hopd⟩ := fields_lt x
  rw [opcodeOf_eq, engWord_toNat x h]
  omega

theorem argOf_engWord {opc : Nat} (x : EngArg) (h : opc < 64) : argOf (engWord opc x) = x := by
  obtain ⟨hm3, hcmp, hn, hopd⟩ := fields_lt x
  apply engArg_ext
  · rw [argOf_m3, engWord_toNat x h]; omega
  · rw [argOf_cmp, engWord_toNat x h]; omega
  · rw [argOf_n, engWord_toNat x h]; omega
  · rw [argOf_opd, engWord_toNat x h]; omega

theorem engWord_of_fields (w : W32) : engWord (opcodeOf w) (argOf w) = w := by
  have hw := w.isLt
  have hopc : opcodeOf w < 64 := by rw [opcodeOf_eq]; omega
  apply BitVec.eq_of_toNat_eq
  rw [engWord_toNat _ hopc, opcodeOf_eq, argOf_m3, argOf_cmp, argOf_n, argOf_opd]
  omega

/-- Settles O13: the number of a word is the sum of its placed fields, which quotients and remainders take apart again. -/
theorem engineWordsDecodeToTheirFields : Obligations.EngineWordsDecodeToTheirFields :=
  ⟨fun _ x h => ⟨opcodeOf_engWord x h, argOf_engWord x h⟩, engWord_of_fields⟩

end Sys2Proof.Proofs.EngineWords
end

section
/-! The engines: what a word does that an engine fetches, by the class of its opcode (O8, O9, O10, R93 to R104). One lemma carries the command to
the word's act, and one lemma a class says what the act is where nothing faults. -/

namespace Sys2Proof.Proofs.Engines

open Sys2Proof Sys2Proof.Machine Sys2Proof.Claims Sys2Proof.Laws

/-! ### Updates of a lane -/

/-- An update of a lane counts by what it makes of that lane's state. -/
theorem onLane_congr {l : Lane} {f g : LaneState → LaneState} {s : State} (h : f (lane s l) = g (lane s l)) :
    onLane l f s = onLane l g s := by
  have h' : f (s.ctl.lanes.get l) = g (s.ctl.lanes.get l) := h
  simp only [onLane, onCtl, h']

/-- An update that leaves the lane's state as it is changes nothing. -/
theorem onLane_self {l : Lane} {f : LaneState → LaneState} {s : State} (h : f (lane s l) = lane s l) : onLane l f s = s := by
  have hq : s.ctl.lanes.set l (s.ctl.lanes.get l) = s.ctl.lanes := by cases l <;> rfl
  rw [onLane_congr (g := id) h]
  simp only [onLane, onCtl, id, hq]

/-! ### From the command to the act of its word -/

theorem engRunning_of_fetches {s : State} {l : Lane} {e : BitVec 5} {h : Hw} {x : EngArg} {opc : Nat} {w : W32} {last : Nat}
    (hf : Fetches s l e h x opc w last) : engRunning s l e.toNat = true := by
  obtain ⟨hphase, hrun, htick, -⟩ := hf
  simp [engRunning, hphase, hrun, htick]

section
variable {s : State} {l : Lane} {e : BitVec 5} {h : Hw} {x : EngArg} {opc : Nat} {w : W32} {last : Nat} {c : Instr} {r : EngResult}

/-- A word whose act faults: the engines that fault in its cycle do so, whatever the memories reported of the operand. -/
theorem engStep_faults {h' : Hw} {code : Nat} (hf : Fetches s l e h x opc w last) (hh : h' ≠ .code)
    (hw : wordAct opc e.toNat h' x (engine (lane s l).core e.toNat) last (lane s l) = some r) (hr : r = .error code) :
    engStep opc l e.toNat h' x s = enginesFault l (faultsWith s l e.toNat code) s := by
  have hrun := engRunning_of_fetches hf
  obtain ⟨-, -, -, -, hword, hopc, harg⟩ := hf
  subst hr
  rw [engStep_runs opc l e.toNat x s hrun hword hopc harg hh hw]

/-- A word whose act does not fault: its engine and its lane are what the act makes of them. -/
theorem engStep_acts {g : Engine} {st : LaneState} (hf : Fetches s l e h x opc w last)
    (hw : wordAct opc e.toNat h x (engine (lane s l).core e.toNat) last (lane s l) = some r) (hr : h = .ok → r = .ok (g, st)) :
    engStep opc l e.toNat h x s = onLane l (fun _ => { st with core := setEngine e.toNat g st.core }) s := by
  have hrun := engRunning_of_fetches hf
  obtain ⟨-, -, -, hok, hword, hopc, harg⟩ := hf
  obtain rfl := hr hok
  rw [engStep_runs opc l e.toNat x s hrun hword hopc harg (by simp [hok]) hw]

/-- An act that changes the engine, and by `f` the lane's core. -/
theorem engStep_engTo {g : Engine} {f : LaneCore → LaneCore} (hf : Fetches s l e h x opc w last)
    (hw : wordAct opc e.toNat h x (engine (lane s l).core e.toNat) last (lane s l) = some r)
    (hr : h = .ok → r = .ok (g, { lane s l with core := f (lane s l).core })) :
    engStep opc l e.toNat h x s = engTo l e g f s :=
  (engStep_acts hf hw hr).trans (onLane_congr rfl)

theorem exec_engTo {g : Engine} {f : LaneCore → LaneCore} (hc : exec c s = .next (engStep opc l e.toNat h x s))
    (hf : Fetches s l e h x opc w last)
    (hw : wordAct opc e.toNat h x (engine (lane s l).core e.toNat) last (lane s l) = some r)
    (hr : h = .ok → r = .ok (g, { lane s l with core := f (lane s l).core })) :
    exec c s = .next (engTo l e g f s) :=
  hc.trans (congrArg _ (engStep_engTo hf hw hr))

/-- An act that changes the engine, by `f` the lane's core and by `k` the rest of its state. -/
theorem exec_onLane_engTo {g : Engine} {f : LaneCore → LaneCore} {k : LaneState → LaneState}
    (hc : exec c s = .next (engStep opc l e.toNat h x s)) (hf : Fetches s l e h x opc w last)
    (hw : wordAct opc e.toNat h x (engine (lane s l).core e.toNat) last (lane s l) = some r)
    (hr : h = .ok → r = .ok (g, k { lane s l with core := f (lane s l).core }))
    (hk : ∀ st q, k { st with core := q } = { k st with core := q }) :
    exec c s = .next (onLane l k (engTo l e g f s)) := by
  rw [hc, engStep_acts hf hw hr, engTo, onLane_onLane]
  refine congrArg _ (onLane_congr ?_)
  rw [hk (lane s l) (f (lane s l).core), hk (lane s l) (setEngine e.toNat g (f (lane s l).core))]

end

theorem lane_engTo (l : Lane) (e : BitVec 5) (g : Engine) (f : LaneCore → LaneCore) (s : State) :
    lane (engTo l e g f s) l = { lane s l with core := setEngine e.toNat g (f (lane s l).core) } :=
  lane_onLane l _ s

/-! ### What the act of a word is, by the class of its opcode -/

section
variable {e : Nat} {h : Hw} {x : EngArg} {g : Engine} {st : LaneState}

theorem bitRead_ok (f : Bool → Bool → Bool) (hm : modOk x = true) (hr : engReadable x.opd.toNat = true) (hh : h = .ok) :
    bitRead f e h x g st =
      .ok ({ g with acc := f g.acc (xor (engBit st.core e x.opd.toNat) x.n), pc := g.pc + 1, cycles := g.cycles + 1 }, st) := by
  simp [bitRead, reserved, orFault, readFault, engNext, hm, hr, hh]

theorem bitWrite_ok (f : Bool → Bool → Bool) (hm : modOk x = true) (hr : engReadable x.opd.toNat = true)
    (hw : engWritable x.opd.toNat = true) (hh : h = .ok) :
    bitWrite f e h x g st = .ok ({ g with pc := g.pc + 1, cycles := g.cycles + 1 },
      { st with core := putEngBit e x.opd.toNat (f (xor g.acc x.n) (engBit st.core e x.opd.toNat)) st.core }) := by
  simp [bitWrite, reserved, orFault, writeFault, engNext, hm, hr, hw, hh]

theorem constAct_ok (hm : modOk x = true) (ho : x.opd = 0#22) :
    constAct x g st = .ok ({ g with acc := x.n, pc := g.pc + 1, cycles := g.cycles + 1 }, st) := by
  simp [constAct, reserved, engNext, hm, ho]

theorem plainOk_of (hm : modOk x = true) (hn : x.n = false) (ho : x.opd = 0#22) : plainOk x = true := by
  simp [plainOk, hm, hn, ho]

theorem nopAct_ok (hp : plainOk x = true) : nopAct x g st = .ok ({ g with pc := g.pc + 1, cycles := g.cycles + 1 }, st) := by
  simp [nopAct, reserved, engNext, hp]

theorem branchOpen_ok (hp : plainOk x = true) (hb : g.bsd < 16) :
    branchOpen x g st =
      .ok ({ g with stack := setBit g.stack g.bsd g.acc, bsd := g.bsd + 1, pc := g.pc + 1, cycles := g.cycles + 1 }, st) := by
  simp [branchOpen, reserved, orFault, engNext, hp, Nat.ne_of_lt hb]

theorem branchClose_ok (f : Bool → Bool → Bool) (hm : modOk x = true) (ho : x.opd = 0#22) (hb : 0 < g.bsd) :
    branchClose f x g st = .ok ({ g with acc := f (g.stack.getLsbD (g.bsd - 1)) (xor g.acc x.n), bsd := g.bsd - 1,
                                         pc := g.pc + 1, cycles := g.cycles + 1 }, st) := by
  simp [branchClose, branchTop, reserved, orFault, engNext, hm, ho, Nat.ne_of_gt hb]

theorem jumpAct_ok (ok taken : Bool) {last : Nat} (hok : ok = true) (hl : g.pc + 1 + x.opd.toNat ≤ last) :
    jumpAct ok taken x g last st =
      .ok (if taken then { g with pc := g.pc + 1 + x.opd.toNat, cycles := g.cycles + 2 }
           else { g with pc := g.pc + 1, cycles := g.cycles + 1 }, st) := by
  simp [jumpAct, reserved, jumpOk, engNext, hok, hl]

end

/-! ### The bits that an engine stores (R90, R113) -/

theorem varBit_setVarBit (m : SMap W64) (a k : Nat) (b : Bool) : varBit (setVarBit a b m) k = if k = a then b else varBit m k := by
  unfold varBit setVarBit
  rw [smGet_smSet]
  by_cases hw : k / 64 = a / 64
  · rw [if_pos hw, getLsbD_setBit _ _ _ _ (Nat.mod_lt _ (by decide)), hw]
    exact if_congr (by omega) rfl rfl
  · rw [if_neg hw, if_neg (fun h => hw (congrArg (· / 64) h))]

theorem engBit_putEngBit_self (c : LaneCore) (e a k : Nat) (b : Bool) :
    engBit (putEngBit e a b c) e k = if k = a then b else engBit c e k := by
  simp only [engBit, putEngBit, smGet_smSet_self, smFind_smPut]
  by_cases h : k = a <;> simp [h]

theorem engBit_putEngBit_ne (c : LaneCore) {e j : Nat} (a k : Nat) (b : Bool) (h : j ≠ e) :
    engBit (putEngBit e a b c) j k = engBit c j k := by
  simp only [engBit, putEngBit, smGet_smSet_ne _ _ _ h]

/-- The one bit that was written in a phase stands in the store at its end. -/
theorem phaseEnds_putEngBit {c : LaneCore} (hw : c.writes = []) (e a : Nat) (b : Bool) :
    phaseEnds (putEngBit e a b c) = { c with vars := setVarBit a b c.vars, writes := [] } := by
  simp [phaseEnds, putEngBit, hw, smSet, smPut, smGet, smDrop, smIns]

theorem engBit_of_noWrites {c : LaneCore} (hw : c.writes = []) (e a : Nat) : engBit c e a = varBit c.vars a := by
  simp [engBit, hw, smGet, smFind]

/-! ### The obligations on bits, branches and jumps -/

theorem bitReadsSetAcc : BitReadsSetAcc := by
  intro s l e h x w last hm
  refine ⟨fun hr => ⟨fun hf => ?_, fun hf => ?_, fun hf => ?_, fun hf => ?_⟩, fun ho hf => ?_⟩
  · exact exec_engTo rfl hf rfl (bitRead_ok _ hm hr)
  · exact exec_engTo rfl hf rfl (bitRead_ok _ hm hr)
  · exact exec_engTo rfl hf rfl (bitRead_ok _ hm hr)
  · exact exec_engTo rfl hf rfl (bitRead_ok _ hm hr)
  · exact exec_engTo rfl hf rfl (fun _ => constAct_ok hm ho)

theorem bitWritesStoreOneBit : BitWritesStoreOneBit := by
  intro s l e h x w last hm hr hw
  refine ⟨fun hf => ?_, fun hf => ?_, fun hf => ?_⟩
  · exact exec_engTo rfl hf rfl (bitWrite_ok _ hm hr hw)
  · exact exec_engTo rfl hf rfl (bitWrite_ok _ hm hr hw)
  · exact exec_engTo rfl hf rfl (bitWrite_ok _ hm hr hw)

theorem storedBitReadsBack : StoredBitReadsBack := by
  refine ⟨varBit_setVarBit, fun c e j a k b => ⟨engBit_putEngBit_self c e a k b, engBit_putEngBit_ne c a k b⟩, fun c e j a b hw => ?_⟩
  rw [phaseEnds_putEngBit hw, engBit_of_noWrites rfl, varBit_setVarBit, if_pos rfl]

/-- Settles O8: a bit instruction whose operand the engine may access does its act and nothing else, and the maps of written bits read back
what was put into them. -/
theorem bitInstructionsReadAndWrite : Obligations.BitInstructionsReadAndWrite :=
  ⟨bitReadsSetAcc, bitWritesStoreOneBit, storedBitReadsBack⟩

/-- Settles O9: each branch, jump and NOP word does its act, which leaves all but its engine as it was. -/
theorem branchesAndJumps : Obligations.BranchesAndJumps := by
  intro s l e h x w last hm
  refine ⟨fun hn ho => ⟨fun hf => ?_, fun hb hf => ?_⟩, fun ho hb => ⟨fun hf => ?_, fun hf => ?_⟩, fun hl => ⟨fun hn hf => ?_, fun hf => ?_⟩⟩
  · exact exec_engTo rfl hf rfl (fun _ => nopAct_ok (plainOk_of hm hn ho))
  · exact exec_engTo rfl hf rfl (fun _ => branchOpen_ok (plainOk_of hm hn ho) hb)
  · exact exec_engTo rfl hf rfl (fun _ => branchClose_ok _ hm ho hb)
  · exact exec_engTo rfl hf rfl (fun _ => branchClose_ok _ hm ho hb)
  · exact exec_engTo rfl hf rfl (fun _ => jumpAct_ok _ true (by simp [hm, hn]) hl)
  · exact exec_engTo rfl hf rfl (fun _ => jumpAct_ok _ _ hm hl)

end Sys2Proof.Proofs.Engines
end

section
/-! Timers, counters and edge detectors (O10): the act of a word on a declared unit, and what the units compute over all inputs. -/

namespace Sys2Proof.Proofs.Units

open Sys2Proof Sys2Proof.Machine Sys2Proof.Claims Sys2Proof.Proofs.Engines

/-! ### The act of a word on a declared unit -/

section
variable {h : Hw} {x : EngArg} {g : Engine} {st : LaneState} {i : Image}

theorem modOk_of (hm : x.m3 = false) (hc : x.cmp = 0#2) : modOk x = true := by
  simp [modOk, hm, hc]

theorem timerStep_ok (kind : Nat) (f : Bool → W32 → TimerState → TimerState) {d : TimerDecl} (hi : st.core.active = some i)
    (hm : modOk x = true) (hd : timerDecl i kind x.opd.toNat = some d) (hh : h = .ok) :
    let t := f g.acc (presetOf st i d) (smGet TimerState.zero st.core.timers d.index)
    timerStep kind f h x g st = .ok ({ g with acc := xor t.q x.n, pc := g.pc + 1, cycles := g.cycles + 4 },
      { st with core := { st.core with timers := smSet TimerState.zero st.core.timers d.index t },
                presets := if t.run then st.presets else smDrop st.presets d.index }) := by
  simp [timerStep, reserved, orFault, unitFault, engNext, hm, hi, hd, hh]

theorem counterStep_ok (f : Bool → CounterDecl → CounterState → CounterState) {d : CounterDecl} (hi : st.core.active = some i)
    (hm : x.m3 = false) (hd : counterDecl i x.opd.toNat = some d) (hh : h = .ok) :
    let c := f g.acc d (counterOf st.core d.index)
    counterStep f h x g st =
      .ok ({ g with acc := xor (counterCmp x.cmp c.cv (BitVec.ofNat 32 d.pv)) x.n, pc := g.pc + 1, cycles := g.cycles + 4 },
        { st with core := { st.core with counters := smSet CounterState.zero st.core.counters d.index c } }) := by
  simp [counterStep, reserved, orFault, unitFault, engNext, hm, hi, hd, hh]

theorem edgeStep_ok (kind : Nat) (f : Bool → Bool → Bool) (hi : st.core.active = some i) (hm : modOk x = true)
    (hd : (edgeDecl i kind x.opd.toNat).isSome = true) (hh : h = .ok) :
    let prev := if st.edgeFresh.contains x.opd.toNat then g.acc else varBit st.core.edges x.opd.toNat
    edgeStep kind f h x g st = .ok ({ g with acc := xor (f g.acc prev) x.n, pc := g.pc + 1, cycles := g.cycles + 2 },
      { st with core := { st.core with edges := setVarBit x.opd.toNat g.acc st.core.edges },
                edgeFresh := st.edgeFresh.filter (fun j => j ≠ x.opd.toNat) }) := by
  obtain ⟨d, hd⟩ := Option.isSome_iff_exists.mp hd
  simp [edgeStep, edgePrev, reserved, orFault, unitFault, engNext, hm, hi, hd, hh]

end

theorem unitInstructionsRun : UnitInstructionsRun := by
  intro s l e h x w last i hi hm
  refine ⟨fun d hc => ⟨fun hd hf => ?_, fun hd hf => ?_, fun hd hf => ?_⟩,
    fun d hd => ⟨fun hf => ?_, fun hf => ?_, fun hf => ?_⟩, fun hc => ⟨fun hd hf => ?_, fun hd hf => ?_⟩⟩
  · exact exec_onLane_engTo rfl hf rfl (timerStep_ok 0 tonNext hi (modOk_of hm hc) hd) (fun _ _ => rfl)
  · exact exec_onLane_engTo rfl hf rfl (timerStep_ok 1 tofNext hi (modOk_of hm hc) hd) (fun _ _ => rfl)
  · exact exec_onLane_engTo rfl hf rfl (timerStep_ok 2 tpNext hi (modOk_of hm hc) hd) (fun _ _ => rfl)
  · exact exec_engTo rfl hf rfl (counterStep_ok _ hi hm hd)
  · exact exec_engTo rfl hf rfl (counterStep_ok _ hi hm hd)
  · exact exec_engTo rfl hf rfl (counterStep_ok _ hi hm hd)
  · exact exec_onLane_engTo rfl hf rfl (edgeStep_ok 0 edrOut hi (modOk_of hm hc) hd) (fun _ _ => rfl)
  · exact exec_onLane_engTo rfl hf rfl (edgeStep_ok 1 edfOut hi (modOk_of hm hc) hd) (fun _ _ => rfl)

/-! ### What timers compute (R98, R99) -/

/-- A count held at the preset fits the 32 bits of ET. -/
theorem heldAt_mod (n : Nat) (p : W32) : min n p.toNat % 4294967296 = min n p.toNat :=
  Nat.mod_eq_of_lt (Nat.lt_of_le_of_lt (Nat.min_le_right n p.toNat) p.isLt)

theorem tonNext_rule (p : W32) (t : TimerState) (inp : Bool) :
    (tonNext inp p t).et.toNat ≤ p.toNat ∧
    ((tonNext inp p t).q = true ↔ inp = true ∧ p.toNat ≤ (tonNext inp p t).et.toNat) ∧ (tonNext inp p t).run = inp := by
  have hzero : p = 0#32 ↔ p.toNat = 0 := BitVec.toNat_inj.symm
  cases inp with
  | false => simp [tonNext]
  | true =>
    cases hr : t.run with
    | false => simp [tonNext, hr, hzero]
    | true => simp [tonNext, hr, heldAt_mod]

theorem tofNext_rule (p : W32) (t : TimerState) (inp : Bool) (ht : t.et.toNat ≤ p.toNat) :
    (tofNext inp p t).et.toNat ≤ p.toNat ∧ (inp = true → (tofNext inp p t).q = true ∧ (tofNext inp p t).et = 0#32) ∧
    ((tofNext inp p t).run = true → (tofNext inp p t).q = true) := by
  cases inp with
  | true => simp [tofNext]
  | false =>
    cases hr : t.run with
    | true => simp [tofNext, hr, heldAt_mod]
    | false => cases hq : t.q <;> simp [tofNext, hr, hq, ht]

theorem tpNext_rule (p : W32) (t : TimerState) (inp : Bool) :
    (tpNext inp p t).inp = inp ∧ (tpNext inp p t).q = (tpNext inp p t).run ∧
    (t.run = false → (tpNext inp p t).run = true → inp = true ∧ t.inp = false ∧ (tpNext inp p t).et = 0#32) := by
  cases hr : t.run with
  | true =>
    simp only [tpNext, hr, if_true]
    split <;> simp
  | false =>
    simp only [tpNext, hr, Bool.false_eq_true, if_false]
    split
    next hstart =>
      obtain ⟨⟨hin, hedge⟩, -⟩ : (inp = true ∧ t.inp = false) ∧ p ≠ 0 := by simpa using hstart
      simp [hin, hedge]
    next => simp

/-! ### What counters compute (R102) -/

theorem ctuNext_cv (inp : Bool) (c : CounterState) :
    (ctuNext inp c).cv.toNat = if inp = true ∧ c.ciu = false then min (c.cv.toNat + 1) 0xFFFFFFFF else c.cv.toNat := by
  by_cases hedge : inp = true ∧ c.ciu = false
  · by_cases hmax : c.cv = 0xFFFFFFFF#32
    · simp [ctuNext, hedge, hmax]
    · have hne : c.cv.toNat ≠ 0xFFFFFFFF := fun h => hmax (BitVec.eq_of_toNat_eq h)
      have hadd : (c.cv + 1).toNat = min (c.cv.toNat + 1) 0xFFFFFFFF := by bv_omega
      simp only [ctuNext, hedge, Bool.not_false, Bool.and_self, if_true, if_neg hmax, and_self, hadd]
  · have hno : ¬(inp && !c.ciu) = true := by simpa using hedge
    simp only [ctuNext, if_neg hno, if_neg hedge]

theorem ctdNext_cv (inp : Bool) (c : CounterState) :
    (ctdNext inp c).cv.toNat = if inp = true ∧ c.cid = false then c.cv.toNat - 1 else c.cv.toNat := by
  by_cases hedge : inp = true ∧ c.cid = false
  · by_cases hmin : c.cv = 0
    · simp [ctdNext, hedge, hmin]
    · have hne : c.cv.toNat ≠ 0 := fun h => hmin (BitVec.eq_of_toNat_eq h)
      have hsub : (c.cv - 1).toNat = c.cv.toNat - 1 := by bv_omega
      simp only [ctdNext, hedge, Bool.not_false, Bool.and_self, if_true, if_neg hmin, and_self, hsub]
  · have hno : ¬(inp && !c.cid) = true := by simpa using hedge
    simp only [ctdNext, if_neg hno, if_neg hedge]

/-- Settles O10: a word on a declared unit does its act and nothing else, and the units' rules hold over all their states and inputs. -/
theorem unitsRunTheirRule : Obligations.UnitsRunTheirRule :=
  ⟨unitInstructionsRun, ⟨tonNext_rule, tofNext_rule, tpNext_rule⟩,
    fun c inp _ => ⟨ctuNext_cv inp c, rfl, rfl, ctdNext_cv inp c, rfl, rfl, rfl⟩⟩

end Sys2Proof.Proofs.Units
end

section
/-! END, SYNC and the barrier of all 32 engines (O11, R79, R95, R104, R106). -/

namespace Sys2Proof.Proofs.Barriers

open Sys2Proof Sys2Proof.Machine Sys2Proof.Claims Sys2Proof.Laws Sys2Proof.Proofs.Engines

/-! ### The logical engines -/

theorem toNat_mem_engineIds (k : BitVec 5) : k.toNat ∈ engineIds := List.mem_range.mpr k.isLt

/-- The logical engines are the numbers of five bits. -/
theorem mem_engineIds {n : Nat} : n ∈ engineIds ↔ ∃ k : BitVec 5, k.toNat = n := by
  constructor
  · intro h
    exact ⟨BitVec.ofNat 5 n, by simpa using Nat.mod_eq_of_lt (List.mem_range.mp h)⟩
  · rintro ⟨k, rfl⟩
    exact toNat_mem_engineIds k

theorem engineIds_all {p : Nat → Bool} : engineIds.all p = true ↔ ∀ k : BitVec 5, p k.toNat = true := by
  rw [List.all_eq_true]
  constructor
  · exact fun h k => h _ (toNat_mem_engineIds k)
  · intro h n hn
    obtain ⟨k, rfl⟩ := mem_engineIds.mp hn
    exact h k

theorem toNat_ne {j k : BitVec 5} (h : j ≠ k) : j.toNat ≠ k.toNat := fun he => h (BitVec.eq_of_toNat_eq he)

theorem core_onCore (l : Lane) (f : LaneCore → LaneCore) (s : State) : (lane (onCore l f s) l).core = f (lane s l).core := by
  rw [onCore, lane_onLane]

/-! ### The end of the scan (R79) -/

theorem engine_phaseEnds (c : LaneCore) (k : Nat) : engine (phaseEnds c) k = engine c k := rfl

/-- With an engine that has not finished the scan goes on. -/
theorem endOfScan_of_busy {c : LaneCore} {k : BitVec 5} (h : (engine c k.toNat).run ≠ .finished) : endOfScan c = c := by
  have hall : ¬ engineIds.all (fun e => (engine c e).run == .finished) = true :=
    fun ha => h (by simpa using engineIds_all.mp ha k)
  rw [endOfScan, if_neg hall]

/-- With all engines finished the lane sends its commit stream. -/
theorem endOfScan_of_finished {c : LaneCore} (h : ∀ k : BitVec 5, (engine c k.toNat).run = .finished) :
    endOfScan c = { phaseEnds c with phase := .committing } := by
  have hall : engineIds.all (fun e => (engine c e).run == .finished) = true := engineIds_all.mpr (fun k => by simp [h k])
  rw [endOfScan, if_pos hall]

/-- The end of a scan leaves the engines as they are. -/
theorem engine_endOfScan (c : LaneCore) (k : Nat) : engine (endOfScan c) k = engine c k := by
  unfold endOfScan
  split <;> rfl

/-! ### END (R79, R95, R104) -/

section
variable {s : State} {l : Lane} {e : BitVec 5} {h : Hw} {x : EngArg} {g : Engine} {st : LaneState} {i : Image}

theorem endAct_moves (hi : st.core.active = some i) (hp : plainOk x = true) (hb : g.bsd = 0) {start len : Nat}
    (hs : ((segList i e.toNat).drop (g.seg + 1)).head? = some (start, len)) :
    endAct x e.toNat g st = .ok ({ g with seg := g.seg + 1, pc := start, acc := false, bsd := 0, cycles := g.cycles + 2 }, st) := by
  simp only [endAct, reserved, hp, hb, hi, hs, if_true, ne_eq, not_true_eq_false, if_false]

theorem endAct_finishes (hi : st.core.active = some i) (hp : plainOk x = true) (hb : g.bsd = 0)
    (hs : ((segList i e.toNat).drop (g.seg + 1)).head? = none) (hbar : g.bar = i.barriers.getLast?) :
    endAct x e.toNat g st = .ok ({ g with run := .finished, cycles := g.cycles + 2 }, st) := by
  simp only [endAct, reserved, hp, hb, hi, hs, hbar, if_true, ne_eq, not_true_eq_false, if_false]

/-- END of a word that moves its engine to `g`: the lane's core is judged for the end of the scan. -/
theorem exec_endSeg (hst : engStep 0x02 l e.toNat h x s = engTo l e g (fun c => c) s) (hphase : (lane s l).core.phase = .evaluating) :
    exec (.endSeg l e h x) s = .next (onCore l endOfScan (engTo l e g (fun c => c) s)) := by
  have hc : exec (.endSeg l e h x) s =
      .next (onCore l (fun c => if c.phase = .evaluating then endOfScan c else c) (engStep 0x02 l e.toNat h x s)) := rfl
  rw [hc, hst]
  refine congrArg _ (onLane_congr ?_)
  rw [lane_engTo]
  simp [setEngine, hphase]

/-- An engine that END leaves unfinished keeps the scan going. -/
theorem onCore_endOfScan_of_busy (hr : g.run ≠ .finished) :
    onCore l endOfScan (engTo l e g (fun c => c) s) = engTo l e g (fun c => c) s := by
  refine onLane_self ?_
  rw [lane_engTo, endOfScan_of_busy (k := e) (by simpa using hr)]

/-- What a lane's core is after an END that finishes engine `e`. -/
theorem core_onCore_endOfScan :
    (lane (onCore l endOfScan (engTo l e g (fun c => c) s)) l).core = endOfScan (setEngine e.toNat g (lane s l).core) := by
  rw [core_onCore, lane_engTo]

end

/-! ### SYNC (R104, R105) -/

theorem syncAct_waits {x : EngArg} {g : Engine} {st : LaneState} (hm : modOk x = true) (hn : x.n = false) (ho : x.opd.toNat < 256)
    (hb : ∀ b, g.bar = some b → b < x.opd.toNat) : syncAct x g st = .ok ({ g with run := .waiting x.opd.toNat }, st) := by
  cases hbar : g.bar with
  | none => simp [syncAct, reserved, hm, hn, ho, hbar]
  | some b => simp [syncAct, reserved, hm, hn, ho, hbar, hb b hbar]

/-- All 32 engines wait, at whichever barriers. -/
theorem allWaiting_iff {c : LaneCore} : allWaiting c = true ↔ ∀ k : BitVec 5, ∃ b, (engine c k.toNat).run = .waiting b := by
  rw [allWaiting, engineIds_all]
  refine forall_congr' fun k => ?_
  cases (engine c k.toNat).run <;> simp

/-- With an engine that still runs a barrier is not judged. -/
theorem judgeBarrier_of_running {l : Lane} {s : State} {k : BitVec 5} (h : (engine (lane s l).core k.toNat).run = .running) :
    judgeBarrier l s = s := by
  have hall : ¬ allWaiting (lane s l).core = true := by
    intro ha
    obtain ⟨b, hb⟩ := allWaiting_iff.mp ha k
    cases h.symm.trans hb
  simp [judgeBarrier, hall]

theorem endAndSyncMoveTheEngine : EndAndSyncMoveTheEngine := by
  intro s l e h x w last i hi hm hn
  refine ⟨fun ho hb hf => ?_, fun ho hb hf hrun => ?_⟩
  · have hp := plainOk_of hm hn ho
    obtain ⟨hphase, hrun, -⟩ := id hf
    constructor
    · intro start len hs
      rw [exec_endSeg (engStep_engTo hf rfl (fun _ => endAct_moves hi hp hb hs)) hphase, onCore_endOfScan_of_busy (by simp [hrun])]
    · intro hs hbar
      refine ⟨_, exec_endSeg (engStep_engTo hf rfl (fun _ => endAct_finishes hi hp hb hs hbar)) hphase, ?_, fun hall => ?_, fun hbusy => ?_⟩
      · rw [core_onCore_endOfScan, engine_endOfScan, engine_setEngine]
      · rw [core_onCore_endOfScan, endOfScan_of_finished fun k => ?_]
        by_cases hk : k = e
        · rw [hk, engine_setEngine]
        · rw [engine_setEngine_ne _ _ (toNat_ne hk), hall k hk]
      · obtain ⟨k, hk, hkrun⟩ := hbusy
        rw [core_onCore_endOfScan, endOfScan_of_busy (k := k) (by rwa [engine_setEngine_ne _ _ (toNat_ne hk)])]
        exact hphase
  · obtain ⟨k, hk, hkrun⟩ := hrun
    have hc : exec (.sync l e h x) s = .next (judgeBarrier l (engStep 0x03 l e.toNat h x s)) := rfl
    rw [hc, engStep_engTo (f := fun c => c) hf rfl (fun _ => syncAct_waits hm hn ho hb), judgeBarrier_of_running (k := k)]
    rwa [lane_engTo, engine_setEngine_ne _ _ (toNat_ne hk)]

/-! ### All engines leave a barrier together (R106) -/

/-- The highest of a list of counts: none lies above it, and where there are any it is one of them. -/
theorem foldl_max_spec (f : Nat → Nat) (ls : List Nat) (m : Nat) :
    m ≤ ls.foldl (fun a n => max a (f n)) m ∧ (∀ n ∈ ls, f n ≤ ls.foldl (fun a n => max a (f n)) m) ∧
    (ls.foldl (fun a n => max a (f n)) m = m ∨ ∃ n ∈ ls, ls.foldl (fun a n => max a (f n)) m = f n) := by
  induction ls generalizing m with
  | nil => simp
  | cons a ls ih =>
    obtain ⟨hm, hall, hone⟩ := ih (max m (f a))
    rw [List.foldl_cons]
    refine ⟨le_trans (le_max_left _ _) hm, List.forall_mem_cons.mpr ⟨le_trans (le_max_right _ _) hm, hall⟩, ?_⟩
    obtain hz | ⟨n, hn, he⟩ := hone
    · rw [hz]
      exact (max_choice m (f a)).imp id (fun h => ⟨a, List.mem_cons_self, h⟩)
    · exact .inr ⟨n, List.mem_cons_of_mem a hn, he⟩

/-- The engine cycle of the last arrival at a barrier. -/
def lastArrival (c : LaneCore) : Nat := engineIds.foldl (fun m e => max m (engine c e).cycles) 0

theorem cycles_le_lastArrival (c : LaneCore) (k : BitVec 5) : (engine c k.toNat).cycles ≤ lastArrival c := by
  obtain ⟨-, hle, -⟩ := foldl_max_spec (fun e => (engine c e).cycles) engineIds 0
  exact hle _ (toNat_mem_engineIds k)

/-- An engine has arrived last. -/
theorem exists_lastArrival (c : LaneCore) : ∃ k : BitVec 5, lastArrival c = (engine c k.toNat).cycles := by
  obtain ⟨-, -, hz | ⟨n, hn, he⟩⟩ := foldl_max_spec (fun e => (engine c e).cycles) engineIds 0
  · exact ⟨0, Nat.le_antisymm (hz.trans_le (Nat.zero_le _)) (cycles_le_lastArrival c 0)⟩
  · obtain ⟨k, rfl⟩ := mem_engineIds.mp hn
    exact ⟨k, he⟩

/-- A waiting engine as it leaves its barrier; any other stays as it is. -/
def leaves (last : Nat) (g : Engine) : Engine :=
  match g.run with
  | .waiting b => { g with run := .running, bar := some b, pc := g.pc + 1, cycles := last + 2 }
  | _ => g

theorem leaves_of_waiting {g : Engine} {b : Nat} (last : Nat) (h : g.run = .waiting b) :
    leaves last g = { g with run := .running, bar := some b, pc := g.pc + 1, cycles := last + 2 } := by
  simp [leaves, h]

/-- Steps over distinct engines that each change their own engine alone. -/
theorem engine_foldl {f : LaneCore → Nat → LaneCore} {F : Engine → Engine}
    (hf : ∀ c e k, engine (f c e) k = if k = e then F (engine c e) else engine c k) {ls : List Nat} (hd : ls.Nodup) (c : LaneCore)
    (k : Nat) : engine (ls.foldl f c) k = if k ∈ ls then F (engine c k) else engine c k := by
  induction ls generalizing c with
  | nil => simp
  | cons a ls ih =>
    obtain ⟨ha, hls⟩ := List.nodup_cons.mp hd
    rw [List.foldl_cons, ih hls, hf]
    by_cases hk : k = a
    · simp [hk, ha]
    · simp [hk]

theorem engine_leaveBarrier (c : LaneCore) (k : BitVec 5) :
    engine (leaveBarrier c) k.toNat = leaves (lastArrival c) (engine c k.toNat) := by
  refine (engine_foldl (F := leaves (lastArrival c)) (fun c' e j => ?_) List.nodup_range (phaseEnds c) k.toNat).trans
    (if_pos (toNat_mem_engineIds k))
  by_cases hj : j = e
  · subst hj
    rw [if_pos rfl]
    cases hr : (engine c' j).run with
    | waiting b => simp [leaves_of_waiting _ hr, lastArrival, engine_phaseEnds]
    | finished | running | faulted => simp [leaves, hr]
  · rw [if_neg hj]
    split
    · exact engine_setEngine_ne _ _ hj
    · rfl

/-- Engines that all wait at one barrier do not differ. -/
theorem waitsDiffer_of_same {c : LaneCore} {b : Nat} (h : ∀ k : BitVec 5, (engine c k.toNat).run = .waiting b) : waitsDiffer c = false := by
  refine List.any_eq_false.mpr fun n hn => ?_
  obtain ⟨k, rfl⟩ := mem_engineIds.mp hn
  simp [h k, show (engine c 0).run = .waiting b from h 0]

theorem exec_syncBarrierLeave {s : State} {l : Lane} {b : Nat} (hphase : (lane s l).core.phase = .evaluating)
    (ht : s.clk.tick < deadlineTick s) (h : ∀ k : BitVec 5, (engine (lane s l).core k.toNat).run = .waiting b) :
    exec (.syncBarrierLeave l) s = .next (onCore l leaveBarrier s) := by
  have hgo : (lane s l).core.phase = .evaluating ∧ allWaiting (lane s l).core ∧ !waitsDiffer (lane s l).core ∧ s.clk.tick < deadlineTick s :=
    ⟨hphase, allWaiting_iff.mpr (fun k => ⟨b, h k⟩), by simp [waitsDiffer_of_same h], ht⟩
  have hc : exec (.syncBarrierLeave l) s = .next (onCore l (fun c =>
      if c.phase = .evaluating ∧ allWaiting c ∧ !waitsDiffer c ∧ s.clk.tick < deadlineTick s then leaveBarrier c else c) s) := rfl
  rw [hc]
  refine congrArg _ (onLane_congr ?_)
  simp only [if_pos hgo]

theorem barrierReleasesAllEngines : BarrierReleasesAllEngines := by
  intro s l b hphase ht hwait
  refine ⟨_, exec_syncBarrierLeave hphase ht hwait, fun k => ?_⟩
  intro g q
  have hq : q = { g with run := .running, bar := some b, pc := g.pc + 1, cycles := lastArrival (lane s l).core + 2 } := by
    rw [← leaves_of_waiting _ (hwait k), ← engine_leaveBarrier, ← core_onCore l leaveBarrier s]
  obtain ⟨j, hj⟩ := exists_lastArrival (lane s l).core
  rw [hq]
  exact ⟨rfl, rfl, rfl, rfl, rfl, rfl, fun i => Nat.add_le_add_right (cycles_le_lastArrival _ i) 2, j, by rw [hj]⟩

/-- Settles O11: END and SYNC do their act, the scan ends with the last engine, and the engines that leave a barrier do so two cycles after the
highest of their counts. -/
theorem segmentsEndAndEnginesSync : Obligations.SegmentsEndAndEnginesSync :=
  ⟨endAndSyncMoveTheEngine, barrierReleasesAllEngines⟩

end Sys2Proof.Proofs.Barriers
end

section
/-! Engine faults and scrub errors (O12, R84, R107, R108, R109, R151): what the engines' fault leaves of the lane and of the module. -/

namespace Sys2Proof.Proofs.Faults

open Sys2Proof Sys2Proof.Machine Sys2Proof.Claims Sys2Proof.Laws Sys2Proof.Proofs.Engines

/-! ### The record and the withdrawal -/

section
variable (l : Lane) (e code further : Nat) (s : State)

@[simp] theorem faultRecord_ctl : (faultRecord l e code further s).ctl = s.ctl := by
  unfold faultRecord
  split <;> rfl

@[simp] theorem faultRecord_data : (faultRecord l e code further s).data = s.data := by
  unfold faultRecord
  split <;> rfl

/-- A fault record is one report more (R109). -/
theorem faultRecord_reports_length :
    (faultRecord l e code further s).mgt.recorder.reports.length = s.mgt.recorder.reports.length + 1 := by
  unfold faultRecord
  split <;> simp

theorem lane_faultRecord (m : Lane) : lane (faultRecord l e code further s) m = lane s m := by
  simp [lane]

end

/-- A lane that owes no withdrawal yet stops and owes one of this cause (R108, R146). -/
theorem laneWithdraw_of_none {x : LaneState} (cause : Nat) (h : x.commit.withdraw = none) :
    laneWithdraw cause x =
      { x with core := { x.core with phase := .stopped }, commit := { x.commit with withdraw := some cause, renewBad := true } } := by
  simp only [laneWithdraw, h]

/-- One engine faults: its record is written, and the lane withdraws with the engine faulted. -/
theorem enginesFault_one (l : Lane) (e code : Nat) (s : State) :
    enginesFault l [(e, code)] s =
      onLane l (fun x => laneWithdraw code { x with core := setEngine e { engine x.core e with run := .faulted } x.core })
        (faultRecord l e code 0 s) := rfl

/-- What the lane of a faulted engine is. -/
theorem lane_enginesFault_one {l : Lane} {e code : Nat} {s : State} (h : (lane s l).commit.withdraw = none) :
    lane (enginesFault l [(e, code)] s) l = { lane s l with
      core := { setEngine e { engine (lane s l).core e with run := .faulted } (lane s l).core with phase := .stopped },
      commit := { (lane s l).commit with withdraw := some code, renewBad := true } } := by
  rw [enginesFault_one, lane_onLane, lane_faultRecord]
  exact laneWithdraw_of_none code h

/-- A command by which one engine alone faults withdraws its lane, and leaves the variables, the other lanes, the voter and the data plane as
they are. -/
theorem fault_withdraws {c : Instr} {l : Lane} {e code : Nat} {s : State} (hn : (lane s l).commit.withdraw = none)
    (hc : exec c s = .next (enginesFault l (faultsWith s l e code) s)) (halone : faultsWith s l e code = [(e, code)]) :
    ∃ t, exec c s = .next t ∧ (lane t l).core.phase = .stopped ∧ (lane t l).commit.withdraw = some code ∧
      (lane t l).commit.renewBad = true ∧ (engine (lane t l).core e).run = .faulted ∧ (lane t l).core.vars = (lane s l).core.vars ∧
      (∀ m, m ≠ l → lane t m = lane s m) ∧ t.ctl.voter = s.ctl.voter ∧ t.data = s.data ∧
      t.mgt.recorder.reports.length = s.mgt.recorder.reports.length + 1 := by
  refine ⟨_, hc, ?_⟩
  rw [halone, lane_enginesFault_one hn, enginesFault_one]
  refine ⟨rfl, rfl, rfl, ?_, rfl, fun m hm => ?_, ?_, ?_, ?_⟩
  · exact congrArg Engine.run (engine_setEngine (lane s l).core e { engine (lane s l).core e with run := .faulted })
  · rw [lane_onLane_ne _ _ hm, lane_faultRecord]
  · simp [onLane]
  · simp [onLane]
  · simp [onLane, faultRecord_reports_length]

/-! ### The faults of bit operands and of the word (R84, R93, R107) -/

section
variable {h : Hw} {x : EngArg} {e : Nat} {g : Engine} {st : LaneState}

theorem bitRead_error {code : Nat} (f : Bool → Bool → Bool) (hm : modOk x = true) (hr : readFault h x.opd.toNat = some code) :
    bitRead f e h x g st = .error code := by
  simp [bitRead, reserved, orFault, hm, hr]

theorem bitWrite_error {code : Nat} (f : Bool → Bool → Bool) (hm : modOk x = true) (hw : writeFault h x.opd.toNat = some code) :
    bitWrite f e h x g st = .error code := by
  simp [bitWrite, reserved, orFault, hm, hw]

end

theorem readFault_of_unreadable {a : Nat} (h : Hw) (hr : engReadable a = false) : readFault h a = some 0x03 := by
  simp [readFault, hr]

theorem readFault_of_uncorrectable {a : Nat} (hr : engReadable a = true) : readFault .operand a = some 0x0C := by
  simp [readFault, hr]

theorem writeFault_of_protected {a : Nat} (h : Hw) (hr : engReadable a = true) (hw : engWritable a = false) :
    writeFault h a = some 0x04 := by
  simp [writeFault, hr, hw]

section
variable {s : State} {l : Lane} {e : BitVec 5} {h : Hw} {x : EngArg} {opc : Nat} {w : W32} {last : Nat}

/-- A fetched word with an uncorrectable error faults with CODE_UNCORRECTABLE. -/
theorem exec_illegalOpcode_uncorrectable (hf : Fetches s l e h x opc w last) :
    exec (.illegalOpcode l e .code) s = .next (enginesFault l (faultsWith s l e.toNat 0x0B) s) := by
  have hrun := engRunning_of_fetches hf
  obtain ⟨-, -, -, -, hword, -⟩ := hf
  have hc : exec (.illegalOpcode l e .code) s = execIllegalOpcode l e .code s := rfl
  simp only [hc, execIllegalOpcode, hrun, hword, if_true]

/-- A fetched word of no defined opcode faults with ILLEGAL_OPCODE. -/
theorem exec_illegalOpcode_undefined (hf : Fetches s l e h x opc w last) (ho : opcodeDefined (opcodeOf w) = false) :
    exec (.illegalOpcode l e .ok) s = .next (enginesFault l (faultsWith s l e.toNat 0x01) s) := by
  have hrun := engRunning_of_fetches hf
  obtain ⟨-, -, -, -, hword, -⟩ := hf
  have hc : exec (.illegalOpcode l e .ok) s = execIllegalOpcode l e .ok s := rfl
  simp only [hc, execIllegalOpcode, hrun, hword, ho, if_true, reduceCtorEq, Bool.false_eq_true, if_false]

end

/-! ### The obligation -/

theorem operandFaultsWithdrawTheLane : OperandFaultsWithdrawTheLane := by
  intro s l e x w last hm hn
  refine ⟨fun hr hf => ?_, fun hr hw hf => ?_, fun hr hf => ?_, fun ho hf => ?_, fun hf => ?_⟩
  · exact fault_withdraws hn (congrArg _ (engStep_faults hf (by decide) rfl (bitRead_error _ hm (readFault_of_unreadable _ hr))))
  · exact fault_withdraws hn (congrArg _ (engStep_faults hf (by decide) rfl (bitWrite_error _ hm (writeFault_of_protected _ hr hw))))
  · exact fault_withdraws hn (congrArg _ (engStep_faults hf (by decide) rfl (bitRead_error _ hm (readFault_of_uncorrectable hr))))
  · exact fault_withdraws hn (exec_illegalOpcode_undefined hf ho)
  · exact fault_withdraws hn (exec_illegalOpcode_uncorrectable hf)

theorem scrubErrorWithdrawsTheLane : ScrubErrorWithdrawsTheLane := by
  intro s l hp ha hn
  have hc : exec (.scrubUncorrectable l) s = execScrubUncorrectable l s := rfl
  rw [hc, execScrubUncorrectable, if_pos ⟨hp, ha⟩]
  exact congrArg _ (onLane_congr (laneWithdraw_of_none 0x81 hn))

/-- Settles O12: the act of a bad operand or word is its fault code, one engine's fault writes its record and withdraws its lane, and so does a
scrub error without a record. -/
theorem engineFaultsWithdrawTheLane : Obligations.EngineFaultsWithdrawTheLane :=
  ⟨operandFaultsWithdrawTheLane, scrubErrorWithdrawsTheLane⟩

end Sys2Proof.Proofs.Faults
end

section
/-! A trip as it comes into force (R232, R233, R235): what it leaves of the voter, the lanes, the records and the
events of the state in which it was judged. -/

namespace Sys2Proof.Proofs.Trips

open Sys2Proof Sys2Proof.Machine Sys2Proof.Claims Sys2Proof.Laws Sys2Proof.Proofs.Planes

/-- `t` is the state in which a trip of state `s` has come into force: it bears its cause and the tick of `s`, every lane has stopped, the voter
is as it was, no record is lost, and the TRIP event is raised and counted. -/
structure Struck (cause : Nat) (reset : Bool) (s t : State) : Prop where
  clk : t.clk = s.clk
  trip : t.ctl.trip = (tripBegun cause reset s).ctl.trip
  voter : t.ctl.voter = s.ctl.voter
  stopped : ∀ l, (lane t l).core.phase = .stopped
  reports : s.mgt.recorder.reports ⊆ t.mgt.recorder.reports
  event : 0x0001 ∈ t.mgt.mbx.events.map (·.code)
  counted : t.mgt.exp.tripCnt = s.mgt.exp.tripCnt + 1

section
variable {cause : Nat} {reset : Bool} {s t : State} (h : Struck cause reset s t)
include h

theorem Struck.inForce : t.ctl.trip.inForce = true := by
  rw [h.trip]
  rfl

theorem Struck.mask : t.ctl.trip.mask = trigBit cause := by
  rw [h.trip]
  rfl

theorem Struck.ctrlReset : t.ctl.trip.ctrlReset = reset := by
  rw [h.trip]
  rfl

end

/-! ### What ends with a run keeps the trip (R268, R330, R448, R557) -/

section
variable {cause : Nat} {reset : Bool} {s t : State} (h : Struck cause reset s t)
include h

theorem struck_finishRef (c : CmdRef) (st : Status) (est : Nat) (result data : List Byte) :
    Struck cause reset s (finishRef c st est result data t) := { h with }

theorem struck_onDbg (f : DebugState → DebugState) : Struck cause reset s (onDbg f t) := { h with }

theorem struck_onOlc (f : OlcState → OlcState) : Struck cause reset s (onOlc f t) := { h with }

theorem struck_report (r : RecRing) (code source : Nat) (key detail : List Byte) : Struck cause reset s (report r code source key detail t) :=
  { h with reports := fun _ hr => List.mem_append_left _ (h.reports hr) }

theorem struck_raise (code : Nat) (result : List Byte) : Struck cause reset s (raise code result t) :=
  { h with event := (List.map_append ▸ List.mem_append_left _ h.event :) }

theorem struck_changeEnds : Struck cause reset s (changeEnds t) :=
  { h with stopped := fun l => (congrArg (fun x : LaneState => x.core.phase) (Quad_get_map _ t.ctl.lanes l)).trans (h.stopped l) }

theorem struck_abortRef (c : Option CmdRef) : Struck cause reset s (abortRef c t) := by
  cases c with
  | none => exact h
  | some c => exact struck_finishRef h c _ _ _ _

theorem struck_debugEnds : Struck cause reset s (debugEnds t) := by
  have aborted : ∀ ps : List DebugPiece, Struck cause reset s (ps.foldl (fun s p => abortRef p.last s) (abortRef t.ctl.dbg.haltCmd t)) := fun ps =>
    List.foldlRecOn ps _ (struck_abortRef h _) (fun _ hu _ _ => struck_abortRef hu _)
  exact struck_onDbg (aborted t.ctl.dbg.pieces) (fun d => { DebugState.zero with lastScn := d.lastScn })

theorem struck_olcRecord (kind status w : Nat) (crc : W32) : Struck cause reset s (olcRecord kind status w crc t) := by
  unfold olcRecord
  split
  · exact struck_raise (struck_report h _ _ _ _ _) _ _
  · exact struck_report h _ _ _ _ _

theorem struck_olcOvertaken : Struck cause reset s (olcOvertaken t) := by
  have aborted := struck_onOlc (struck_abortRef (struck_abortRef (struck_abortRef h t.ctl.olc.swapCmd) t.ctl.olc.cancelCmd) t.ctl.olc.loadCmd)
    (fun o => { o with loadCmd := none, cancelCmd := none, swapCmd := none })
  unfold olcOvertaken
  dsimp only
  split
  · exact struck_onOlc aborted _
  · split
    · exact struck_onOlc (struck_olcRecord aborted _ _ _ _) _
    · exact struck_onOlc aborted _

theorem struck_schedOvertaken : Struck cause reset s (schedOvertaken t) := by
  unfold schedOvertaken
  split
  · exact h
  · exact struck_changeEnds (struck_raise (struck_finishRef h _ _ _ _ _) _ _)

/-- The trip is of this tick, and so does not settle in it. -/
theorem struck_tripSettle : Struck cause reset s (tripSettle t) := by
  rw [tripSettle_early]
  · exact h
  · rw [h.clk, h.trip]
    exact Nat.lt_add_of_pos_right (by decide)

end

/-! ### The trip -/

/-- A message changes the registers and interrupts of the mailbox alone (R335, R405). -/
theorem sendVector_eq (v : Nat) (s : State) : ∃ f, sendVector v s = onMbx f s := by
  obtain ⟨-, h⟩ | ⟨-, h⟩ := sendVector_cases v s <;> exact ⟨_, h⟩

/-- An alert changes the registers and interrupts of the mailbox alone (R391, R405). -/
theorem alert_eq (i : Nat) (s : State) : ∃ f, alert i s = onMbx f s := by
  unfold alert
  dsimp only
  split
  · obtain ⟨f, h⟩ := sendVector_eq 0 (onRegs (fun r => { r with alert := setBit r.alert i true }) s)
    exact ⟨fun m => f { m with regs := { m.regs with alert := setBit m.regs.alert i true } }, h⟩
  · exact ⟨_, rfl⟩

/-- Every removal means without drive and every lane stopped, as the trip comes into force (R233). -/
def haltedBy (cause : Nat) (reset : Bool) (s : State) : State :=
  onLanes (fun x => { x with core := { x.core with phase := .stopped } }) (allDead (tripBegun cause reset s))

/-- The trip raised as an alert and an event, and counted (R233, R447). -/
def announced (cause : Nat) (reset : Bool) (s : State) : State :=
  let t := onExp (fun x => { x with tripCnt := x.tripCnt + 1 }) (alert 1 (haltedBy cause reset s))
  raise 0x0001 (scnLe t ++ byte (causeByte cause) ++ byte (b2n reset)) t

theorem tripNow_eq (cause : Nat) (reset : Bool) (s : State) : tripNow cause reset s =
    let t := announced cause reset s
    tripSettle (schedOvertaken (olcOvertaken (if t.ctl.dbg.trippedByHalt then t else debugEnds t))) := rfl

theorem announced_struck (cause : Nat) (reset : Bool) (s : State) : Struck cause reset s (announced cause reset s) := by
  obtain ⟨f, h⟩ := alert_eq 1 (haltedBy cause reset s)
  rw [announced, h]
  exact {
    clk := by simp [raise, haltedBy, allDead, tripBegun]
    trip := by simp [haltedBy, allDead]
    voter := by simp [haltedBy, allDead, tripBegun]
    stopped := fun l => by simp [haltedBy, lane]
    reports := by simp [raise, haltedBy, allDead, tripBegun]
    event := by simp
    counted := by simp [raise, haltedBy, allDead, tripBegun] }

/-- A trip comes into force in its own tick, and everything that ends with the run keeps it. -/
theorem tripNow_struck (cause : Nat) (reset : Bool) (s : State) : Struck cause reset s (tripNow cause reset s) := by
  have begun := announced_struck cause reset s
  rw [tripNow_eq]
  refine struck_tripSettle (struck_schedOvertaken (struck_olcOvertaken ?_))
  split
  · exact begun
  · exact struck_debugEnds begun

theorem ctlRuns_iff {s : State} : ctlRuns s = true ↔
    (voter s).running = true ∧ (voter s).votedRun = true ∧ s.ctl.trip.inForce = false ∧ s.mgt.start.bivouac = false := by
  simp [ctlRuns, and_assoc]

/-- In a run that votes a trigger is a trip (R232). -/
theorem trip_of_ctlRuns {s : State} (h : ctlRuns s = true) (cause : Nat) (reset : Bool) : trip cause reset s = tripNow cause reset s := by
  obtain ⟨-, hvoted, hin, -⟩ := ctlRuns_iff.mp h
  have hsilent : silentRun s = false := by simp [silentRun, hvoted]
  simp [trip, hin, hsilent, h]

/-- A trigger in a run that votes strikes. -/
theorem trip_struck {s : State} (h : ctlRuns s = true) (cause : Nat) (reset : Bool) : Struck cause reset s (trip cause reset s) := by
  rw [trip_of_ctlRuns h]
  exact tripNow_struck cause reset s

/-- A trip in force leaves no output driven. -/
theorem trip_dead {s : State} (h : ctlRuns s = true) (cause : Nat) (reset : Bool) :
    ∀ p ∈ (trip cause reset s).ctl.vio.vout, VoutDead p.2 := by
  have hin := (trip_struck h cause reset).inForce
  rw [trip_of_ctlRuns h] at hin ⊢
  exact tripNow_safe cause reset s hin

end Sys2Proof.Proofs.Trips
end

section
/-! The vote of one word (O14, O15, R149, R153 to R160): first the voted value, then what the operations on one word leave of a half,
the vote and the exchange where one half has not voted, then the commands and the obligations. -/

namespace Sys2Proof.Proofs.Votes

open Sys2Proof Sys2Proof.Machine Sys2Proof.Claims Sys2Proof.Laws Sys2Proof.Proofs.Planes Sys2Proof.Proofs.Trips

/-! ### The voted value (R158 to R160) -/

/-- Two values share no record. -/
theorem countValue_add_le {u v : W64} (h : u ≠ v) (vs : List VoteVal) : countValue u vs + countValue v vs ≤ vs.length := by
  have hv : vs.countP (· == .value v) ≤ vs.countP (fun x => ¬ (x == .value u) = true) :=
    List.countP_mono_left (fun x _ hx => by simp [eq_of_beq hx, Ne.symm h])
  simpa only [countValue, ← List.countP_eq_length_filter, ← List.length_eq_countP_add_countP] using
    Nat.add_le_add_left hv (vs.countP (· == .value u))

/-- Where more than one seat votes, a voted value is that of two records. -/
theorem two_le_countValue_of_pairValue {vs : List VoteVal} {v : W64} (hlen : vs.length ≠ 1) (h : pairValue vs = some v) :
    2 ≤ countValue v vs := by
  obtain ⟨x, -, hx⟩ := List.exists_of_findSome?_eq_some h
  cases x with
  | value u =>
    obtain ⟨hc, huv⟩ := Option.ite_none_right_eq_some.mp hx
    exact Option.some.inj huv ▸ hc.resolve_left hlen
  | absent | wrong | late | withdrawal => exact absurd hx (by simp)

/-- Of at most three records two equal values vote, whatever the third is. -/
theorem pairValue_of_two {vs : List VoteVal} {v : W64} (hlen : vs.length ≤ 3) (h : 2 ≤ countValue v vs) : pairValue vs = some v := by
  have hle : countValue v vs ≤ vs.length := List.length_filter_le _ _
  obtain ⟨x, hx⟩ := List.exists_mem_of_length_pos (Nat.lt_of_lt_of_le Nat.zero_lt_two h)
  obtain ⟨hmem, hval⟩ := List.mem_filter.mp hx
  have hsome : (pairValue vs).isSome = true := List.findSome?_isSome_iff.mpr ⟨x, hmem, by simp [eq_of_beq hval, h]⟩
  obtain ⟨u, hu⟩ := Option.isSome_iff_exists.mp hsome
  by_cases huv : u = v
  · rw [hu, huv]
  · have hcu := two_le_countValue_of_pairValue (by omega) hu
    have := countValue_add_le huv vs
    omega

/-- No value that two records share is no vote, where more than one seat votes. -/
theorem pairValue_eq_none {vs : List VoteVal} (hlen : vs.length ≠ 1) (h : ∀ v, countValue v vs < 2) : pairValue vs = none := by
  cases hp : pairValue vs with
  | none => rfl
  | some v => exact absurd (two_le_countValue_of_pairValue hlen hp) (Nat.not_le.mpr (h v))

/-- A word that is voted trips nothing. -/
theorem noVote_of_pairValue {vs : List VoteVal} {v : W64} (h : pairValue vs = some v) : noVote vs = none := by
  simp [noVote, h]

/-- A word that lacks a record, and has no withdrawal, waits for it. -/
theorem noVote_of_absent {vs : List VoteVal} (ha : .absent ∈ vs) (hw : ∀ x ∈ vs, x.isWithdrawal = false) : noVote vs = none := by
  have habs : (vs.filter VoteVal.isAbsent).length ≠ 0 :=
    Nat.ne_of_gt (List.length_pos_of_mem (List.mem_filter.mpr ⟨ha, rfl⟩))
  have hgone : vs.filter VoteVal.isWithdrawal = [] := List.filter_eq_nil_iff.mpr (fun x hx => by simp [hw x hx])
  simp [noVote, habs, hgone]

/-- Settles O15: a voted value is found with two records that carry it, or as the one seat's; two different values share no record, so of three
records only one value can be voted. -/
theorem votedValueIsSharedByTwo : Obligations.VotedValueIsSharedByTwo := by
  refine ⟨fun vs v => two_le_countValue_of_pairValue, fun a b c v h => ?_, fun u v h => ?_, fun v => by simp [pairValue]⟩
  · have hc : 2 ≤ countValue v [a, b, c] := by
      obtain ⟨rfl, rfl⟩ | ⟨rfl, rfl⟩ | ⟨rfl, rfl⟩ := h
      · cases hx : c == .value v <;> simp [countValue, hx]
      · cases hx : b == .value v <;> simp [countValue, hx]
      · cases hx : a == .value v <;> simp [countValue, hx]
    have hp := pairValue_of_two (le_refl 3) hc
    exact ⟨hp, noVote_of_pairValue hp⟩
  · have hp : pairValue [.value u, .value v] = none :=
      pairValue_eq_none (by simp) (fun w => by
        by_cases hu : u = w
        · simp [countValue, hu, Ne.symm (hu ▸ h)]
        · have hle : countValue w [.value v] ≤ 1 := List.length_filter_le _ _
          simpa [countValue, hu] using Nat.lt_succ_of_le hle)
    exact ⟨hp, by simp [noVote, hp, VoteVal.isWithdrawal, VoteVal.isAbsent, VoteVal.present]⟩

/-! ### One word of one half -/

theorem Half_other_ne (h : Half) : h.other ≠ h := by cases h <;> decide

/-- A put leaves what a filter takes that never takes its key. -/
theorem filter_smPut {α : Type} (p : Nat × α → Bool) (m : SMap α) (k : Nat) (v : α) (hp : ∀ x, p (k, x) = false) :
    (smPut m k v).filter p = m.filter p := by
  have hdrop : ∀ m : SMap α, (smDrop m k).filter p = m.filter p := by
    intro m
    induction m with
    | nil => rfl
    | cons q r ih =>
      obtain ⟨j, x⟩ := q
      by_cases hj : j = k
      · simp [smDrop, hj, ih, hp]
      · simp [smDrop, hj, ih, List.filter_cons]
  have hins : ∀ m : SMap α, (smIns k v m).filter p = m.filter p := by
    intro m
    induction m with
    | nil => simp [smIns, hp]
    | cons q r ih =>
      obtain ⟨j, x⟩ := q
      by_cases hj : k < j
      · simp [smIns, hj, hp]
      · simp [smIns, hj, ih, List.filter_cons]
  rw [smPut, hins, hdrop]

theorem smGet_smPut {α : Type} (d : α) (m : SMap α) (k j : Nat) (v : α) : smGet d (smPut m k v) j = if j = k then v else smGet d m j := by
  rw [smPut, smGet_smIns _ _ _ _ _ (by simp [smGet_smDrop]) (by simp [smFind_smDrop]), smGet_smDrop]
  by_cases hj : j = k <;> simp [hj]

section
variable (h : Half) (w : Nat) (f : WordVote → WordVote) (g : HalfVote → HalfVote) (s : State)

theorem halfOf_onHalf_ne {k : Half} (hk : k ≠ h) : halfOf (onHalf h g s) k = halfOf s k := Halves_get_set_ne _ _ hk

@[simp] theorem halfOf_onHalf_other : halfOf (onHalf h g s) h.other = halfOf s h.other := halfOf_onHalf_ne h g s (Half_other_ne h)

@[simp] theorem halfOf_onWord_other : halfOf (onWord h w f s) h.other = halfOf s h.other := halfOf_onHalf_other h _ s

@[simp] theorem wordOf_onWord : wordOf (onWord h w f s) h w = f (wordOf s h w) := by
  simp [wordOf, onWord, smGet_smPut]

theorem wordOf_onWord_ne {u : Nat} (hu : u ≠ w) : wordOf (onWord h w f s) h u = wordOf s h u := by
  simp [wordOf, onWord, smGet_smPut, hu]

theorem wordOf_onHalf (hw : ∀ x, (g x).words = x.words) (u : Nat) : wordOf (onHalf h g s) h u = wordOf s h u := by
  simp [wordOf, hw]

@[simp] theorem out_onWord : (halfOf (onWord h w f s) h).out = (halfOf s h).out := by simp [onWord]

@[simp] theorem due_onWord : (halfOf (onWord h w f s) h).due = (halfOf s h).due := by simp [onWord]

theorem laterWords_onHalf (hw : ∀ x, (g x).words = x.words) : laterWords (onHalf h g s) h w = laterWords s h w := by
  simp [laterWords, hw]

/-- What a word becomes is nothing to the words beyond it. -/
theorem laterWords_onWord : laterWords (onWord h w f s) h w = laterWords s h w := by
  simp only [laterWords, onWord, halfOf_onHalf]
  rw [filter_smPut _ _ _ _ (by simp)]

theorem votersOf_onHalf (hout : ∀ x, (g x).out = x.out) (u : Nat) : votersOf (onHalf h g s) h u = votersOf s h u := by
  have hv : (halfOf (onHalf h g s) h).out = (halfOf s h).out := by rw [halfOf_onHalf, hout]
  unfold votersOf
  rw [hv]
  rfl

theorem votersOf_onWord (u : Nat) : votersOf (onWord h w f s) h u = votersOf s h u :=
  votersOf_onHalf h (fun x => { x with words := smPut x.words w (f (smGet WordVote.zero x.words w)) }) s (fun _ => rfl) u

end

/-- An update of one word is by what it makes of the word as it is. -/
theorem onWord_congr {h : Half} {w : Nat} {f g : WordVote → WordVote} {s : State} (hfg : f (wordOf s h w) = g (wordOf s h w)) :
    onWord h w f s = onWord h w g s := by
  have hsame : f (smGet WordVote.zero (s.ctl.voter.halves.get h).words w) = g (smGet WordVote.zero (s.ctl.voter.halves.get h).words w) := hfg
  simp only [onWord, onHalf, onVoter, onCtl, hsame]

/-! ### What every seat of a list gets -/

theorem get_foldl_set {α : Type} (a : α) (ks : List Seat) (q : Tri α) (k : Seat) :
    (ks.foldl (fun q k => q.set k a) q).get k = if k ∈ ks then a else q.get k := by
  induction ks generalizing q with
  | nil => simp
  | cons j ks ih =>
    rw [List.foldl_cons, ih]
    by_cases hj : k = j
    · simp [hj]
    · simp [hj, Tri_get_set_ne _ _ hj]

/-- The word as it is judged against a voted value: every seat of `ks` that is still open (R155, R158). -/
def judgeAll (v : W64) (ks : List Seat) (y : WordVote) : WordVote :=
  { y with voted := some v,
           judged := ks.foldl (fun j k => if j.get k = .open_ then j.set k (judgeVal v (y.vals.get k)) else j) y.judged }

theorem judged_judgeAll (v : W64) (ks : List Seat) (y : WordVote) (k : Seat) :
    (judgeAll v ks y).judged.get k = if k ∈ ks ∧ y.judged.get k = .open_ then judgeVal v (y.vals.get k) else y.judged.get k := by
  have each : ∀ q : Tri Judgement, (ks.foldl (fun j k => if j.get k = .open_ then j.set k (judgeVal v (y.vals.get k)) else j) q).get k =
      if k ∈ ks ∧ q.get k = .open_ then judgeVal v (y.vals.get k) else q.get k := by
    induction ks with
    | nil => simp
    | cons j ks ih =>
      intro q
      rw [List.foldl_cons, ih]
      by_cases hj : k = j
      · by_cases ho : q.get j = .open_ <;> simp [hj, ho]
      · by_cases ho : q.get j = .open_ <;> simp [hj, ho, Tri_get_set_ne _ _ hj]
  exact each y.judged

/-! ### The vote, the exchange and the settling of a word (R154 to R160) -/

/-- What the seats that vote a word have brought. -/
def broughtFor (s : State) (h : Half) (w : Nat) : List VoteVal := (votersOf s h w).map (fun k => (wordOf s h w).vals.get k)

theorem injected_of_none {s : State} (hi : (voter s).test.injection = none) (h : Half) (k : Seat) (w : Nat) : injected s h k w = false := by
  simp [injected, hi]

theorem heldBack_of_none {s : State} (hi : (voter s).test.injection = none) (h : Half) (k : Seat) (w : Nat) : heldBack s h k w = false := by
  simp [heldBack, hi]

/-- A word that can neither be voted nor is lost stays as it is. -/
theorem voteWord_waits {s : State} {h : Half} {w : Nat} (hv : (wordOf s h w).voted = none) (hp : pairValue (broughtFor s h w) = none)
    (hn : noVote (broughtFor s h w) = none) : voteWord h w s = s := by
  unfold broughtFor at hp hn
  simp only [voteWord, hv, hp, hn]

/-- A word that can no more be voted trips the module (R158 to R160). -/
theorem voteWord_trips {s : State} {h : Half} {w cause : Nat} (hv : (wordOf s h w).voted = none) (hp : pairValue (broughtFor s h w) = none)
    (hn : noVote (broughtFor s h w) = some cause) : voteWord h w s = trip cause true s := by
  unfold broughtFor at hp hn
  simp only [voteWord, hv, hp, hn]

/-- Injected records are noted as detected (R177). -/
def noteDetected (h : Half) (found : List (Nat × Nat)) (s : State) : State :=
  onVoter (fun v => { v with test := { v.test with detected := v.test.detected.set h ((voter s).test.detected.get h ++ found) } }) s

theorem noteDetected_nil (h : Half) (s : State) : noteDetected h [] s = s := by
  have hset : s.ctl.voter.test.detected.set h (s.ctl.voter.test.detected.get h ++ []) = s.ctl.voter.test.detected := by
    cases h <;> simp [Halves.set, Halves.get]
  simp only [noteDetected, onVoter, onCtl, voter, hset]

/-- The seats of `ks` that word `w` judges out of the vote (R157). -/
def leavers (ks : List Seat) (h : Half) (w : Nat) (s : State) : List Seat :=
  ks.filter (fun k => ((wordOf s h w).judged.get k).leaves && ((halfOf s h).out.get k).isNone)

/-- They are out from the next word on. -/
def outAt (w : Nat) (ks : List Seat) (x : HalfVote) : HalfVote := { x with out := ks.foldl (fun o k => o.set k (some w)) x.out }

theorem outAt_words (w : Nat) (ks : List Seat) (x : HalfVote) : (outAt w ks x).words = x.words := rfl

/-- Word `w` with the value `v` voted: every seat that votes it judged, and those judged out gone (R157, R158). -/
def votedAs (v : W64) (h : Half) (w : Nat) (s : State) : State :=
  let t := onWord h w (judgeAll v (votersOf s h w)) s
  onHalf h (outAt w (leavers (votersOf s h w) h w t)) t

/-- Outside the comparator test the vote of a word does no more than that. -/
theorem voteWord_votes {s : State} {h : Half} {w : Nat} {v : W64} (hi : (voter s).test.injection = none)
    (hv : (wordOf s h w).voted = some v ∨ (wordOf s h w).voted = none ∧ pairValue (broughtFor s h w) = some v) :
    voteWord h w s = votedAs v h w s := by
  have hnone : ∀ (u : W64) (p : Seat → Bool) (f : Seat → Nat × Nat),
      (Seat.list.filter (fun k => injected (votedAs u h w s) h k w && p k)).map f = [] := fun u p f => by
    simp [injected_of_none (s := votedAs u h w s) hi]
  unfold voteWord
  dsimp only
  split
  next u hu =>
    obtain rfl : u = v := by
      obtain hv | ⟨hv, hp⟩ := hv
      · simpa [hv] using hu.symm
      · simp only [hv] at hu
        exact Option.some.inj (hu.symm.trans hp)
    exact (congrArg (fun q => noteDetected h q (votedAs u h w s)) (hnone u _ _)).trans (noteDetected_nil h _)
  next hu =>
    obtain hv | ⟨hv, hp⟩ := hv
    · simp [hv] at hu
    · simp only [hv] at hu
      exact absurd (hu.symm.trans hp) (by simp)

section
variable (v : W64) (h : Half) (w : Nat) (s : State)

@[simp] theorem wordOf_votedAs : wordOf (votedAs v h w s) h w = judgeAll v (votersOf s h w) (wordOf s h w) := by
  have h1 : wordOf (votedAs v h w s) h w = wordOf (onWord h w (judgeAll v (votersOf s h w)) s) h w := wordOf_onHalf h _ _ (outAt_words w _) w
  rw [h1, wordOf_onWord]

@[simp] theorem halfOf_votedAs_other : halfOf (votedAs v h w s) h.other = halfOf s h.other := by
  simp [votedAs]

theorem laterWords_votedAs : laterWords (votedAs v h w s) h w = laterWords s h w := by
  have h1 : laterWords (votedAs v h w s) h w = laterWords (onWord h w (judgeAll v (votersOf s h w)) s) h w :=
    laterWords_onHalf h w _ _ (outAt_words w _)
  rw [h1, laterWords_onWord]

/-- A seat that votes the word and is still open is judged by its record. -/
theorem judged_votedAs {k : Seat} (hk : k ∈ votersOf s h w) (ho : (wordOf s h w).judged.get k = .open_) :
    (wordOf (votedAs v h w s) h w).judged.get k = judgeVal v ((wordOf s h w).vals.get k) := by
  rw [wordOf_votedAs, judged_judgeAll, if_pos ⟨hk, ho⟩]

/-- A voting seat that the word judges out is out with it. -/
theorem out_votedAs {k : Seat} (hk : k ∈ votersOf s h w) (ho : (halfOf s h).out.get k = none)
    (hl : ((wordOf (votedAs v h w s) h w).judged.get k).leaves = true) : (halfOf (votedAs v h w s) h).out.get k = some w := by
  rw [wordOf_votedAs] at hl
  simp [votedAs, outAt, get_foldl_set, leavers, hk, ho, hl]

end

/-- The halves do not compare a word that one of them has not voted (R155). -/
theorem xyWord_waits {s : State} {h : Half} {w : Nat} (hv : (wordOf s h w).voted = none) : xyWord w s = s := by
  unfold xyWord
  split
  · rfl
  · split
    next hx hy =>
      cases h with
      | x => exact absurd (hv.symm.trans hx) (by simp)
      | y => exact absurd (hv.symm.trans hy) (by simp)
    · rfl

/-- Nothing is compared under a trip. -/
theorem xyWord_tripped {s : State} (h : s.ctl.trip.inForce = true) (w : Nat) : xyWord w s = s := by
  simp [xyWord, h]

/-- Where no later word is open, a word settles by its own vote and exchange. -/
theorem settleWord_of_waits {s t : State} {h : Half} {w : Nat} (hv : voteWord h w s = t) (hx : xyWord w t = t)
    (hl : laterWords t h w = []) : settleWord h w s = t := by
  simp [settleWord, hv, hx, hl]

/-! ### A record as a half has it (R149, R453) -/

/-- A half has a record of a lane: check-value units have heard it, the lane counts it as sent, and a withdrawal has stopped the lane. -/
def heard (h : Half) (l : Lane) (r : CommitRec) (ok : Bool) (s : State) : State :=
  let s := snoopRecord h l r s
  emitted h l (if r.word = 0x7FF ∧ !recordBroken l r ok then onLane l (laneWithdraw (r.value.toNat % 256)) s else s)

theorem snoopRecord_eq (h : Half) (l : Lane) (r : CommitRec) (s : State) :
    ∃ units, snoopRecord h l r s = onMgt (fun m => { m with cvu := units }) s ∧ (s.mgt.cvu = [] → units = []) := by
  have hsnoop : ∃ units, snoopRecord h l r s = onMgt (fun m => { m with cvu := units }) s := snoop_eq _ _ _ _ _ s
  obtain ⟨units, he⟩ := hsnoop
  refine ⟨units, he, fun hnil => ?_⟩
  have hsame : snoopRecord h l r s = s := by simp [snoopRecord, snoop, hnil]
  exact (congrArg (fun t => t.mgt.cvu) (he.symm.trans hsame)).trans hnil

/-- A record that is heard changes its lane and the check-value units alone. -/
theorem heard_eq (h : Half) (l : Lane) (r : CommitRec) (ok : Bool) (s : State) :
    ∃ f units, heard h l r ok s = onLane l f (onMgt (fun m => { m with cvu := units }) s) ∧ (s.mgt.cvu = [] → units = []) := by
  obtain ⟨units, he, hnil⟩ := snoopRecord_eq h l r s
  unfold heard
  dsimp only
  rw [he]
  split
  · exact ⟨_, units, onLane_onLane _ _ _ _, hnil⟩
  · exact ⟨_, units, rfl, hnil⟩

section
variable (h : Half) (l : Lane) (r : CommitRec) (ok : Bool) (s : State)

/-- What neither a lane nor a check-value unit bears on stays. -/
theorem heard_keeps {β : Type} (g : State → β) (hg : ∀ f units, g (onLane l f (onMgt (fun m => { m with cvu := units }) s)) = g s) :
    g (heard h l r ok s) = g s := by
  obtain ⟨f, units, he, -⟩ := heard_eq h l r ok s
  rw [he, hg]

@[simp] theorem heard_voter : (heard h l r ok s).ctl.voter = s.ctl.voter :=
  heard_keeps h l r ok s (·.ctl.voter) (fun _ _ => rfl)

@[simp] theorem heard_trip : (heard h l r ok s).ctl.trip = s.ctl.trip :=
  heard_keeps h l r ok s (·.ctl.trip) (fun _ _ => rfl)

@[simp] theorem heard_clk : (heard h l r ok s).clk = s.clk :=
  heard_keeps h l r ok s State.clk (fun _ _ => rfl)

@[simp] theorem heard_data : (heard h l r ok s).data = s.data :=
  heard_keeps h l r ok s State.data (fun _ _ => rfl)

theorem heard_mgt : (heard h l r ok s).mgt = { s.mgt with cvu := (heard h l r ok s).mgt.cvu } := by
  obtain ⟨f, units, he, -⟩ := heard_eq h l r ok s
  rw [he]
  rfl

/-- Where no unit is set up nothing listens. -/
theorem heard_mgt_of_no_units (hnone : s.mgt.cvu = []) : (heard h l r ok s).mgt = s.mgt := by
  obtain ⟨f, units, he, hnil⟩ := heard_eq h l r ok s
  have hcvu : (heard h l r ok s).mgt.cvu = s.mgt.cvu := by
    rw [he, hnone]
    exact hnil hnone
  rw [heard_mgt, hcvu]

@[simp] theorem halfOf_heard (k : Half) : halfOf (heard h l r ok s) k = halfOf s k := by simp [halfOf, voter]

@[simp] theorem wordOf_heard (k : Half) (w : Nat) : wordOf (heard h l r ok s) k w = wordOf s k w := by simp [wordOf]

@[simp] theorem silentRun_heard : silentRun (heard h l r ok s) = silentRun s := by simp [silentRun, voter]

@[simp] theorem holdsLease_heard (m : Lane) (q : CommitRec) : holdsLease (heard h l r ok s) m q = holdsLease s m q :=
  heard_keeps h l r ok s (holdsLease · m q) (fun _ _ => rfl)

@[simp] theorem shadowing_heard (m : Lane) : shadowing (heard h l r ok s) m = shadowing s m := by
  simp [shadowing, voter]

@[simp] theorem votersOf_heard (k : Half) (w : Nat) : votersOf (heard h l r ok s) k w = votersOf s k w :=
  heard_keeps h l r ok s (votersOf · k w) (fun _ _ => rfl)

end

theorem exec_commitRecord_given {s : State} (hv : voting s = true) (h : Half) (l : Lane) (r : CommitRec) (ok : Bool) :
    exec (.commitRecord h l (.given r ok)) s = .next (acceptRecord h l r ok (heard h l r ok s)) := by
  have he : exec (.commitRecord h l (.given r ok)) s = execCommitRecord h l (.given r ok) s := rfl
  rw [he, execCommitRecord, if_pos hv]
  rfl

/-- A lane's own next record, no withdrawal, is taken like the same record given. -/
theorem exec_commitRecord_asSent {s : State} (hv : voting s = true) {h : Half} {l : Lane} {r : CommitRec} (hn : nextRecord s h l = some r)
    (hw : r.word ≠ 0x7FF) : exec (.commitRecord h l .asSent) s = exec (.commitRecord h l (.given r true)) s := by
  have he : exec (.commitRecord h l .asSent) s = execCommitRecord h l .asSent s := rfl
  rw [exec_commitRecord_given hv, he, execCommitRecord, if_pos hv, heard, if_neg (fun hc => hw hc.1)]
  simp only [hn]

/-! ### A record in order (R149, R157) -/

/-- The word with a seat's record in it: the first record opens the skew window. -/
def bring (k : Seat) (v : VoteVal) (now : Nat) (x : WordVote) : WordVote :=
  { x with opened := some (x.opened.getD now), arrived := x.arrived.set k (some (now - x.opened.getD now)), vals := x.vals.set k v }

theorem placeRecord_absent {s : State} {h : Half} {k : Seat} {w : Nat} (hi : (voter s).test.injection = none)
    (ha : (wordOf s h w).vals.get k = .absent) (v : VoteVal) : placeRecord h k w v s = onWord h w (bring k v s.clk.tick) s := by
  have hat : atComparator h k w v s = (v, s) := by
    unfold atComparator
    rw [hi]
    cases v <;> rfl
  unfold placeRecord
  rw [if_neg (by simp [heldBack_of_none hi])]
  dsimp only
  rw [hat]
  exact onWord_congr (by simp [ha, VoteVal.isAbsent, bring])

/-- A record in order as it stands in its half: placed, and the next word due. -/
def recordTaken (h : Half) (l : Lane) (k : Seat) (r : CommitRec) (s : State) : State :=
  dueNext h l (onWord h r.word (bring k (.value (trueValue r)) s.clk.tick) s)

section
variable {s : State} {h : Half} {l : Lane} {k : Seat} {r : CommitRec} (ho : InOrder s h l k r)
include ho

theorem inOrder_heard : InOrder (heard h l r true s) h l k r := by
  obtain ⟨f, units, he, -⟩ := heard_eq h l r true s
  rw [he]
  exact ho

theorem takeRecord_inOrder (ha : (wordOf s h r.word).vals.get k = .absent) :
    takeRecord h l r s = settleWord h r.word (recordTaken h l k r s) := by
  obtain ⟨-, hslot, -, -, hinj, hscn, hdue, hword, -, -⟩ := ho
  have hlast : ¬ lastWord (scn s) < r.word := by
    unfold lastWord
    split <;> omega
  unfold takeRecord
  simp only [hslot, ← hdue, hscn, decide_true, Bool.and_true, if_true]
  rw [if_neg (by omega), if_neg hlast, if_neg (by omega), placeRecord_absent hinj ha]
  rfl

theorem acceptRecord_inOrder (ha : (wordOf s h r.word).vals.get k = .absent) :
    acceptRecord h l r true s = settleWord h r.word (recordTaken h l k r s) := by
  rw [← takeRecord_inOrder ho ha]
  obtain ⟨-, -, hlease, hok, -⟩ := ho
  simp [acceptRecord, hok, hlease]

end

/-! ### What a record taken leaves -/

section
variable (h : Half) (l : Lane) (k : Seat) (r : CommitRec) (s : State)

@[simp] theorem wordOf_recordTaken :
    wordOf (recordTaken h l k r s) h r.word = bring k (.value (trueValue r)) s.clk.tick (wordOf s h r.word) := by
  have hdue : wordOf (recordTaken h l k r s) h r.word = wordOf (onWord h r.word (bring k (.value (trueValue r)) s.clk.tick) s) h r.word := by
    simp [recordTaken, dueNext, wordOf]
  rw [hdue, wordOf_onWord]

theorem wordOf_recordTaken_ne {u : Nat} (hu : u ≠ r.word) : wordOf (recordTaken h l k r s) h u = wordOf s h u := by
  have hdue : wordOf (recordTaken h l k r s) h u = wordOf (onWord h r.word (bring k (.value (trueValue r)) s.clk.tick) s) h u := by
    simp [recordTaken, dueNext, wordOf]
  rw [hdue, wordOf_onWord_ne _ _ _ _ hu]

@[simp] theorem halfOf_recordTaken_other : halfOf (recordTaken h l k r s) h.other = halfOf s h.other := by
  simp [recordTaken, dueNext]

theorem due_recordTaken : (halfOf (recordTaken h l k r s) h).due = (halfOf s h).due.set l ((halfOf s h).due.get l + 1) := by
  simp [recordTaken, dueNext]

theorem laterWords_recordTaken : laterWords (recordTaken h l k r s) h r.word = laterWords s h r.word := by
  rw [← laterWords_onWord h r.word (bring k (.value (trueValue r)) s.clk.tick) s]
  simp [laterWords, recordTaken, dueNext]

theorem votersOf_recordTaken (u : Nat) : votersOf (recordTaken h l k r s) h u = votersOf s h u := by
  have hdue : votersOf (recordTaken h l k r s) h u = votersOf (onWord h r.word (bring k (.value (trueValue r)) s.clk.tick) s) h u :=
    votersOf_onHalf h (fun x => { x with due := x.due.set l (x.due.get l + 1) }) _ (fun _ => rfl) u
  rw [hdue, votersOf_onWord]

/-- The records of the word once this one is in. -/
theorem broughtFor_recordTaken : broughtFor (recordTaken h l k r s) h r.word =
    (votersOf s h r.word).map (fun j => ((wordOf s h r.word).vals.set k (.value (trueValue r))).get j) := by
  rw [broughtFor, votersOf_recordTaken, wordOf_recordTaken]
  rfl

end

/-- A seat with a slot in the vote votes the word due, outside the comparator test. -/
theorem mem_votersOf_of_slotOf {s : State} {h : Half} {l : Lane} {k : Seat} (hi : (voter s).test.injection = none)
    (hs : slotOf s h l = some k) (w : Nat) : k ∈ votersOf s h w := by
  have hslot := List.find?_some hs
  simp only [Bool.and_eq_true, beq_iff_eq, Option.isNone_iff_eq_none] at hslot
  obtain ⟨hlane, hout⟩ := hslot
  refine List.mem_filter.mpr ⟨by cases k <;> decide, ?_⟩
  simp [hlane, hout, injected_of_none hi]

theorem votersOf_nodup (s : State) (h : Half) (w : Nat) : (votersOf s h w).Nodup := List.Nodup.filter _ (by decide)

theorem votersOf_length_le (s : State) (h : Half) (w : Nat) : (votersOf s h w).length ≤ 3 := List.length_filter_le _ _

theorem countValue_map (v : W64) (q : Tri VoteVal) (ks : List Seat) :
    countValue v (ks.map (fun k => q.get k)) = (ks.filter (fun k => q.get k == .value v)).length := by
  simp [countValue, List.filter_map, Function.comp_def]

/-! ### In-order records (R149, R157, R158) -/

section
variable {s : State} {h : Half} {l : Lane} {k : Seat} {r : CommitRec} (ho : InOrder s h l k r)
include ho

theorem exec_commitRecord_inOrder (ha : (wordOf s h r.word).vals.get k = .absent) : exec (.commitRecord h l (.given r true)) s =
    .next (settleWord h r.word (recordTaken h l k r (heard h l r true s))) := by
  rw [← acceptRecord_inOrder (inOrder_heard ho) (by simpa using ha)]
  obtain ⟨hv, -⟩ := ho
  exact exec_commitRecord_given hv h l r true

/-- The first record of a word that more than one seat votes leaves it waiting for the others. -/
theorem settleWord_first (habs : ∀ j, (wordOf s h r.word).vals.get j = .absent) (htwo : 2 ≤ (votersOf s h r.word).length) :
    settleWord h r.word (recordTaken h l k r s) = recordTaken h l k r s := by
  obtain ⟨-, -, -, -, -, -, -, -, hlater, hvoted⟩ := ho
  have hother : ∀ j, j ≠ k → ((wordOf s h r.word).vals.set k (.value (trueValue r))).get j = .absent := fun j hj =>
    (Tri_get_set_ne _ _ hj).trans (habs j)
  have hnodup := votersOf_nodup s h r.word
  have hpair : pairValue (broughtFor (recordTaken h l k r s) h r.word) = none := by
    rw [broughtFor_recordTaken]
    refine pairValue_eq_none (by simp; omega) (fun v => ?_)
    rw [countValue_map]
    have hsub : (votersOf s h r.word).filter (fun j => ((wordOf s h r.word).vals.set k (.value (trueValue r))).get j == .value v) ⊆ [k] := by
      intro j hj
      by_contra hne
      simp [hother j (by simpa using hne)] at hj
    exact Nat.lt_succ_of_le ((hnodup.filter _).subperm hsub).length_le
  obtain ⟨j, hj, hjk⟩ : ∃ j ∈ votersOf s h r.word, j ≠ k := by
    by_contra hall
    have hsub : votersOf s h r.word ⊆ [k] := fun j hj => by
      by_contra hne
      exact hall ⟨j, hj, by simpa using hne⟩
    have := (hnodup.subperm hsub).length_le
    simp at this
    omega
  have hwait : noVote (broughtFor (recordTaken h l k r s) h r.word) = none := by
    rw [broughtFor_recordTaken]
    refine noVote_of_absent (List.mem_map.mpr ⟨j, hj, hother j hjk⟩) (fun x hx => ?_)
    obtain ⟨m, -, rfl⟩ := List.mem_map.mp hx
    by_cases hm : m = k
    · simp [hm, VoteVal.isWithdrawal]
    · simp [hother m hm, VoteVal.isWithdrawal]
  have hv : (wordOf (recordTaken h l k r s) h r.word).voted = none := by simpa [bring] using hvoted
  exact settleWord_of_waits (voteWord_waits hv hpair hwait) (xyWord_waits hv) ((laterWords_recordTaken h l k r s).trans hlater)

/-- The second of two equal records votes the word; the other half has not voted it, so nothing is compared yet. -/
theorem settleWord_second {j : Seat} (hjk : j ≠ k) (hj : j ∈ votersOf s h r.word)
    (hval : (wordOf s h r.word).vals.get j = .value (trueValue r)) (hwait : (wordOf s h.other r.word).voted = none) :
    settleWord h r.word (recordTaken h l k r s) = votedAs (trueValue r) h r.word (recordTaken h l k r s) := by
  obtain ⟨-, hslot, -, -, hinj, -, -, -, hlater, hvoted⟩ := ho
  have hk := mem_votersOf_of_slotOf hinj hslot r.word
  have htwo : 2 ≤ countValue (trueValue r) (broughtFor (recordTaken h l k r s) h r.word) := by
    rw [broughtFor_recordTaken, countValue_map]
    have hsub : [j, k] ⊆ (votersOf s h r.word).filter
        (fun m => ((wordOf s h r.word).vals.set k (.value (trueValue r))).get m == .value (trueValue r)) := by
      simp [hj, hk, hval, Tri_get_set_ne _ _ hjk]
    exact (List.Nodup.subperm (by simpa using hjk) hsub).length_le
  have hpair : pairValue (broughtFor (recordTaken h l k r s) h r.word) = some (trueValue r) := by
    refine pairValue_of_two ?_ htwo
    rw [broughtFor_recordTaken, List.length_map]
    exact votersOf_length_le s h r.word
  have hv : (wordOf (recordTaken h l k r s) h r.word).voted = none := by simpa [bring] using hvoted
  have hvote := voteWord_votes (s := recordTaken h l k r s) hinj (.inr ⟨hv, hpair⟩)
  refine settleWord_of_waits hvote (xyWord_waits (h := h.other) ?_) ?_
  · simpa [wordOf] using hwait
  · rw [laterWords_votedAs, laterWords_recordTaken, hlater]

end

/-! ### The obligation -/

theorem inOrderRecordIsPlaced : InOrderRecordIsPlaced := by
  intro s h l k r ho hopen habs htwo
  have he := exec_commitRecord_inOrder ho (habs k)
  rw [settleWord_first (inOrder_heard ho) (by simpa using habs) (by simpa using htwo)] at he
  obtain ⟨hv, -, -, -, -, -, hdue, hword, -, hvoted⟩ := ho
  refine ⟨_, he, ?_, ?_, ?_, ?_, fun m hm => ?_, fun u hu => ?_, ?_, ?_, ?_, fun hnone => ?_, ?_, fun hn => ?_⟩
  · simp [bring]
  · simp [bring, hopen]
  · simpa [bring] using hvoted
  · simp [due_recordTaken, hdue]
  · simp [due_recordTaken, Quad_get_set_ne _ _ hm]
  · rw [wordOf_recordTaken_ne _ _ _ _ _ hu, wordOf_heard]
  · rw [halfOf_recordTaken_other, halfOf_heard]
  · exact (congrArg Voter.seats (heard_voter h l r true s) :)
  · exact heard_mgt h l r true s
  · exact heard_mgt_of_no_units h l r true s hnone
  · exact heard_data h l r true s
  · rw [exec_commitRecord_asSent hv hn (by omega), he]

theorem twoEqualRecordsVoteTheWord : TwoEqualRecordsVoteTheWord := by
  intro s h l j k r ho hjk hj habs hval hopen hwait
  have he := exec_commitRecord_inOrder ho habs
  rw [settleWord_second (inOrder_heard ho) hjk (by simpa using hj) (by simpa using hval) (by simpa using hwait)] at he
  have hjudged : ∀ m ∈ votersOf s h r.word, ((wordOf s h r.word).vals.set k (.value (trueValue r))).get m = .value (trueValue r) →
      (wordOf (votedAs (trueValue r) h r.word (recordTaken h l k r (heard h l r true s))) h r.word).judged.get m = .agreeing := by
    intro m hm hmv
    have hmo : (wordOf s h r.word).judged.get m = .open_ := by rw [hopen]; cases m <;> rfl
    rw [judged_votedAs _ _ _ _ (by simpa [votersOf_recordTaken] using hm) (by simpa [bring] using hmo)]
    simp [bring, hmv, judgeVal]
  obtain ⟨-, hslot, -, -, hinj, -⟩ := ho
  refine ⟨_, he, ?_, hjudged j hj ?_, hjudged k (mem_votersOf_of_slotOf hinj hslot _) (by simp), ?_, ?_, ?_⟩
  · simp [judgeAll]
  · rw [Tri_get_set_ne _ _ hjk, hval]
  · simp
  · exact heard_trip h l r true s
  · exact (congrArg Voter.seats (heard_voter h l r true s) :)

theorem badRecordsAreReportedAndDropped : BadRecordsAreReportedAndDropped := by
  intro s h l r ok hv
  have he := exec_commitRecord_given hv h l r ok
  have hrec : (heard h l r ok s).mgt.recorder = s.mgt.recorder := by rw [heard_mgt]
  constructor
  · intro hbroken
    rw [acceptRecord, if_pos hbroken] at he
    exact ⟨_, he, heard_voter h l r ok s, heard_trip h l r ok s, by simp [hrec, upt]⟩
  · intro hok hlease hshadow hsilent
    rw [acceptRecord, if_neg (by simp [hok]), if_pos (by simp [hlease, hshadow, hsilent])] at he
    exact ⟨_, he, heard_voter h l r ok s, heard_trip h l r ok s, by simp [hrec]⟩

/-- Settles O14: a record that is heard changes its lane and the check-value units alone, so one in order is placed, and the first of a word leaves
it waiting while the second of two equal ones votes it; a broken or stale one ends in its report. The detail byte 0 of the general record is the
model's choice (log entry 103). -/
theorem recordsAreVotedInOrder : Obligations.RecordsAreVotedInOrder :=
  ⟨inOrderRecordIsPlaced, twoEqualRecordsVoteTheWord, badRecordsAreReportedAndDropped⟩

end Sys2Proof.Proofs.Votes
end

section
/-! The skew window, the deadline of a scan and the late supervisor digest (O16, R57, R64, R67, R155, R157, R161). -/

namespace Sys2Proof.Proofs.Deadlines

open Sys2Proof Sys2Proof.Machine Sys2Proof.Claims Sys2Proof.Laws Sys2Proof.Proofs.Trips Sys2Proof.Proofs.Votes

/-! ### The skew window (R155, R157) -/

/-- A word for which the seats of `ks` are late. -/
def lateFor (ks : List Seat) (x : WordVote) : WordVote := { x with vals := ks.foldl (fun v k => v.set k .late) x.vals }

/-- A word with its window closed on the seats of `ks`. -/
def closeFor (ks : List Seat) (x : WordVote) : WordVote := { lateFor ks x with closed := true }

theorem vals_lateFor (ks : List Seat) (x : WordVote) (k : Seat) : (lateFor ks x).vals.get k = if k ∈ ks then .late else x.vals.get k :=
  get_foldl_set _ _ _ _

/-- The voting seats that have brought no record of a word. -/
def missing (s : State) (h : Half) (w : Nat) : List Seat := (votersOf s h w).filter (fun k => ((wordOf s h w).vals.get k).isAbsent)

theorem mem_missing {s : State} {h : Half} {w : Nat} {k : Seat} :
    k ∈ missing s h w ↔ k ∈ votersOf s h w ∧ (wordOf s h w).vals.get k = .absent := by
  simp only [missing, List.mem_filter]
  cases (wordOf s h w).vals.get k <;> simp [VoteVal.isAbsent]

/-- The state of a half as the window of a word closes on the seats that have brought nothing. -/
def windowClosed (h : Half) (w : Nat) (s : State) : State := onWord h w (closeFor (missing s h w)) s

/-- The window of half X closes on the seats that have brought nothing (R155: X times lateness). -/
theorem exec_skewWindowClose_x {s : State} {w : BitVec 11} {t0 : Nat} (hv : voting s = true) (hi : (voter s).test.injection = none)
    (ho : (wordOf s .x w.toNat).opened = some t0) (ht : t0 + 300 ≤ s.clk.tick) :
    exec (.skewWindowClose .x w) s = .next (settleWord .x w.toNat (windowClosed .x w.toNat s)) := by
  have he : exec (.skewWindowClose .x w) s = execSkewWindowClose .x w s := rfl
  have hheld : ∀ t : State, (voter t).test = (voter s).test →
      (Seat.list.filter (fun k => heldBack t .x k w.toNat)).map (fun k => (k.num, w.toNat)) = [] := fun t ht => by
    simp [heldBack_of_none (ht ▸ hi : (voter t).test.injection = none)]
  rw [he, execSkewWindowClose, if_pos hv]
  simp only [ho, Nat.not_lt.mpr ht, if_false, Bool.and_true]
  refine congrArg (fun t => Host.Outcome.next (settleWord .x w.toNat t)) ?_
  exact (congrArg (fun q => noteDetected .x q (windowClosed .x w.toNat s)) (hheld _ rfl)).trans (noteDetected_nil .x _)

theorem vals_windowClosed {s : State} {h : Half} {w : Nat} {k : Seat} (hk : k ∈ votersOf s h w) (ha : (wordOf s h w).vals.get k = .absent) :
    (wordOf (windowClosed h w s) h w).vals.get k = .late := by
  have hlate : (lateFor (missing s h w) (wordOf s h w)).vals.get k = .late := by
    rw [vals_lateFor, if_pos (mem_missing.mpr ⟨hk, ha⟩)]
  simpa [windowClosed, closeFor] using hlate

/-- A word that one half has voted, and the other has not, is judged for the late seats and not yet compared. -/
theorem settleWord_windowClosed {s : State} {w : Nat} {v : W64} (hi : (voter s).test.injection = none) (hv : (wordOf s .x w).voted = some v)
    (hy : (wordOf s .y w).voted = none) (hl : laterWords s .x w = []) :
    settleWord .x w (windowClosed .x w s) = votedAs v .x w (windowClosed .x w s) := by
  have hvote := voteWord_votes (s := windowClosed .x w s) (h := .x) (w := w) (v := v) hi (.inl (by simpa [windowClosed, closeFor, lateFor] using hv))
  refine settleWord_of_waits hvote (xyWord_waits (h := .y) hy) ?_
  rw [laterWords_votedAs, windowClosed, laterWords_onWord, hl]

/-! ### The deadline (R57, R64, R67) -/

/-- At its deadline a complete commit is timely, and any other is recorded as an overrun and trips. -/
theorem exec_scanDeadline {s : State} {h : Half} (hrun : (voter s).running = true) (hrel : (voter s).released = true)
    (hlate : (halfOf s h).timely = false) (hin : s.ctl.trip.inForce = false) (hci : nextCi s h ≤ s.clk.tick + 625) :
    exec (.scanDeadline h) s = .next (if commitComplete s h then onHalf h (fun x => { x with timely := true }) s
      else trip 0x06 true (overrunRecord 0 s)) := by
  have he : exec (.scanDeadline h) s = execScanDeadline h s := rfl
  have hd : nextCi s h - 625 ≤ s.clk.tick := by omega
  rw [he, execScanDeadline]
  simp [hrun, hrel, hd, hlate, hin]

theorem skewWindowAndDeadline : SkewWindowAndDeadline := by
  refine ⟨?_, ?_⟩
  · intro s w t0 k v hv ho ht hk ha _ hvoted hopen hout hy hi hl
    have he := exec_skewWindowClose_x hv hi ho ht
    rw [settleWord_windowClosed hi hvoted hy hl] at he
    have hlate := vals_windowClosed hk ha
    have hk' : k ∈ votersOf (windowClosed .x w.toNat s) .x w.toNat := by rwa [windowClosed, votersOf_onWord]
    have hj : (wordOf (votedAs v .x w.toNat (windowClosed .x w.toNat s)) .x w.toNat).judged.get k = .late := by
      rw [judged_votedAs _ _ _ _ hk' (by simpa [windowClosed, closeFor, lateFor] using hopen), hlate]
      rfl
    refine ⟨_, he, ?_, ?_, hj, ?_, ?_, rfl, rfl, rfl, rfl⟩
    · simp [judgeAll, windowClosed, closeFor]
    · simpa [judgeAll] using hlate
    · exact out_votedAs _ _ _ _ hk' (by simpa [windowClosed] using hout) (by rw [hj]; rfl)
    · simp [judgeAll]
  · intro s h hrun hrel hlate hin hci
    have he := exec_scanDeadline hrun hrel hlate hin hci
    refine ⟨fun hc => by rw [he, if_pos hc], fun hc hctl => ?_⟩
    rw [hc, if_neg (by decide)] at he
    have hstruck := trip_struck (s := overrunRecord 0 s) hctl 0x06 true
    have hrecorded : 0x0103 ∈ (overrunRecord 0 s).mgt.recorder.reports.map (·.code) := by simp [overrunRecord]
    exact ⟨_, he, hstruck.inForce, hstruck.mask, hstruck.stopped, List.map_subset _ hstruck.reports hrecorded⟩

/-! ### The supervisor digest (R161) -/

/-- The seats late that owe a half the supervisor digest. -/
def digestOwed (h : Half) (s : State) : State := onWord h 1026 (lateFor (missing s h 1026)) s

/-- A half that has not voted the supervisor digest counts the seats late that have not sent it, and settles it. -/
def digestLate (h : Half) (s : State) : State :=
  if (wordOf s h 1026).voted.isSome then s else settleWord h 1026 (digestOwed h s)

theorem exec_supervisorDigestLate {s : State} (hv : voting s = true) (hc : cairnScan (scn s) = true) (hm : mixedFirmware s = false)
    (hci : nextCi s .x ≤ s.clk.tick + 200) : exec .supervisorDigestLate s = .next (digestLate .y (digestLate .x s)) := by
  have he : exec .supervisorDigestLate s = execSupervisorDigestLate s := rfl
  rw [he, execSupervisorDigestLate, if_pos (by simp [hv, hc, hm, hci])]
  rfl

theorem digestLate_of_voted {h : Half} {s : State} (hv : (wordOf s h 1026).voted.isSome = true) : digestLate h s = s := if_pos hv

section
variable {h : Half} {s : State} (hlen : (votersOf s h 1026).length = 3) (ha : ∀ k, (wordOf s h 1026).vals.get k = .absent)
include hlen ha

theorem vals_digestOwed (k : Seat) : (wordOf (digestOwed h s) h 1026).vals.get k = .late := by
  have hall : votersOf s h 1026 = Seat.list := (List.filter_sublist).eq_of_length hlen
  rw [digestOwed, wordOf_onWord, vals_lateFor, if_pos (mem_missing.mpr ⟨by rw [hall]; cases k <;> decide, ha k⟩)]

/-- Where all three seats vote the digest and none has sent it, it cannot be voted any more, and the module trips. -/
theorem digestLate_trips (hctl : ctlRuns s = true) (hv : (wordOf s h 1026).voted = none) (hl : laterWords s h 1026 = []) :
    digestLate h s = trip 0x09 true (digestOwed h s) := by
  have hbrought : broughtFor (digestOwed h s) h 1026 = [.late, .late, .late] := by
    have hall : votersOf (digestOwed h s) h 1026 = Seat.list :=
      (votersOf_onWord h 1026 _ s 1026).trans ((List.filter_sublist).eq_of_length hlen)
    simp only [broughtFor, hall, vals_digestOwed hlen ha]
    rfl
  have hvoted : (wordOf (digestOwed h s) h 1026).voted = none := by
    rw [digestOwed, wordOf_onWord]
    exact hv
  have hstruck := trip_struck (s := digestOwed h s) hctl 0x09 true
  have hvote := voteWord_trips (cause := 0x09) hvoted (by rw [hbrought]; decide) (by rw [hbrought]; decide)
  have hlater : laterWords (trip 0x09 true (digestOwed h s)) h 1026 = laterWords (digestOwed h s) h 1026 := by
    simp only [laterWords, halfOf, voter, hstruck.voter]
  rw [digestLate, if_neg (by simp [hv])]
  refine settleWord_of_waits hvote (xyWord_tripped hstruck.inForce 1026) ?_
  rw [hlater, digestOwed, laterWords_onWord, hl]

end

theorem lateSupervisorDigestIsLate : LateSupervisorDigestIsLate := by
  intro s hv hcairn hmixed hci
  have he := exec_supervisorDigestLate hv hcairn hmixed hci
  constructor
  · intro hx hy
    rw [he, digestLate_of_voted hx, digestLate_of_voted hy]
  · intro hx hy hctl _ hlen hl ha
    rw [digestLate_of_voted hx, digestLate_trips hlen ha hctl hy hl] at he
    have hstruck := trip_struck (s := digestOwed .y s) hctl 0x09 true
    refine ⟨_, he, hstruck.inForce, hstruck.mask, fun k => ?_, hstruck.stopped⟩
    simp only [wordOf, halfOf, voter, hstruck.voter]
    exact vals_digestOwed hlen ha k

/-- Settles O16: closing a window makes the missing seats late, which the voted word then judges out; a commit that is not complete by its deadline,
and a supervisor digest that all three seats owe a half, are trips. -/
theorem lateRecordsAndDeadlines : Obligations.LateRecordsAndDeadlines := ⟨skewWindowAndDeadline, lateSupervisorDigestIsLate⟩

end Sys2Proof.Proofs.Deadlines
end

section
/-! Copies to a lane, belay reports and the diversity allowance (O19, O20, R165 to R168, R174 to R176, R198, R199, R207). -/

namespace Sys2Proof.Proofs.Belay

open Sys2Proof Sys2Proof.Machine Sys2Proof.Claims Sys2Proof.Laws Sys2Proof.Proofs.Trips

/-! ### One idle part of a copy (R167, R168) -/

/-- The blocks that one idle part sends, in block order. -/
def sentBlocks (src l : Lane) (s : State) : List Nat := (differingBlocks (lane s src) (lane s l)).take (blocksThatFit s)

/-- The blocks sent stand in the lane, and its path is busy until the last of them has passed. -/
def copied (src l : Lane) (s : State) : State :=
  onVoter (fun v => { v with copyEnd := v.copyEnd.set l (some (s.clk.tick + ropeTicks (4256 + 4096 * (sentBlocks src l s).length))) })
    (onLane l (copyBlocks (sentBlocks src l s) (lane s src)) s)

theorem idleCopy_eq (src l : Lane) (s : State) :
    idleCopy src l s = (copied src l s, decide ((sentBlocks src l s).length = (differingBlocks (lane s src) (lane s l)).length)) := rfl

theorem sentBlocks_complete (src l : Lane) (s : State) :
    (sentBlocks src l s).length = (differingBlocks (lane s src) (lane s l)).length ↔
      (differingBlocks (lane s src) (lane s l)).length ≤ blocksThatFit s := by
  rw [sentBlocks, List.length_take]
  omega

theorem lane_copied (src l : Lane) (s : State) : lane (copied src l s) l = copyBlocks (sentBlocks src l s) (lane s src) (lane s l) :=
  lane_onLane l _ s

theorem lane_copied_ne {src l m : Lane} (s : State) (h : m ≠ l) : lane (copied src l s) m = lane s m := lane_onLane_ne _ s h

/-- A lane that is being resynchronised has one idle part of its copy; where every differing block has passed it is to be verified. -/
theorem exec_resyncIdlePart {s : State} {l src : Lane} (hv : voting s = true) (hd : domRun s (laneDom l) = true)
    (hsrc : copySource s l = some src) (hr : (voter s).laneVote.get l = .resync) (hps : (lane s src).core.phase = .idle)
    (hpl : (lane s l).core.phase = .idle) (hfw : (lane s src).core.fwVer = (lane s l).core.fwVer) (hce : (voter s).copyEnd.get l = none)
    (ht : s.clk.tick + ropeTicks 4256 + 50 ≤ nextCi s .x) :
    exec (.resyncIdlePart l) s = .next (if (differingBlocks (lane s src) (lane s l)).length ≤ blocksThatFit s
      then onVoter (fun v => { v with laneVote := v.laneVote.set l .verify }) (copied src l s) else copied src l s) := by
  have he : exec (.resyncIdlePart l) s = execResyncIdlePart l s := rfl
  have hfirst : firstShadow src l s = s := if_pos hfw
  have hgo : (voting s && copying s l && committed s src && committed s l && ((voter s).copyEnd.get l).isNone &&
      decide (s.clk.tick + ropeTicks 4256 + 50 ≤ nextCi s .x)) = true := by
    simp [hv, copying, committed, hr, hps, hpl, hce, ht]
  have hvote : (voter (copied src l s)).laneVote.get l = .resync := hr
  have hset : setVote l .verify (copied src l s) = onVoter (fun v => { v with laneVote := v.laneVote.set l .verify }) (copied src l s) :=
    if_pos hd
  rw [he, execResyncIdlePart]
  simp only [hsrc, hgo, if_true, hfirst, idleCopy_eq, sentBlocks_complete, hvote, hset]
  by_cases hfit : (differingBlocks (lane s src) (lane s l)).length ≤ blocksThatFit s
  · simp [hfit]
  · simp [hfit]

theorem completedResyncCopiesTheSource : CompletedResyncCopiesTheSource := by
  intro s l src hv hd hsrc hr hps hpl hfw hce ht bs n
  have he := exec_resyncIdlePart hv hd hsrc hr hps hpl hfw hce ht
  by_cases hfit : bs.length ≤ n
  · rw [if_pos hfit] at he
    have hall : bs.take n = bs := List.take_of_length_le hfit
    exact ⟨_, he, lane_copied src l s, Quad_get_set_self _ _ _, fun _ => ⟨Quad_get_set_self _ _ _, hall ▸ lane_copied src l s⟩,
      fun hlt => absurd hfit (Nat.not_le.mpr hlt), fun m hm => lane_copied_ne s hm, rfl, rfl, rfl⟩
  · rw [if_neg hfit] at he
    exact ⟨_, he, lane_copied src l s, Quad_get_set_self _ _ _, fun hle => absurd hle hfit, fun _ => hr,
      fun m hm => lane_copied_ne s hm, rfl, rfl, rfl⟩

/-! ### Belay health reports (R198, R199, R207) -/

/-- A lane numbers the report that it makes, and notes when (R198). -/
def reportSent (l : Lane) (s : State) : State :=
  onLane l (fun x => { x with selfTest := { x.selfTest with seq := x.selfTest.seq + 1, sentAt := some s.clk.tick } }) s

theorem exec_belayHealthReport_own {s : State} {l : Lane} (temp clk : BitVec 16) (hd : reportDue s l = true) :
    exec (.belayHealthReport l temp clk none) s = .next (takeReport (composeReport s l temp clk) (reportSent l s)) := by
  have he : exec (.belayHealthReport l temp clk none) s = execBelayHealthReport l temp clk none s := rfl
  rw [he, execBelayHealthReport, if_pos hd]
  exact congrArg _ (if_pos rfl)

/-- A report reaches both halves, MGT and the lane's health; with no join under way nothing else follows. -/
theorem takeReport_eq {s : State} (hj : (voter s).join = none) (r : BelayReport) :
    takeReport r s = onLane r.lane (fun x => { x with health := { x.health with corrected := r.corrected.toNat } })
      (onBist (fun b => { b with belayReport := if domRun s 1 then some r else b.belayReport })
        (onVoter (fun v => { v with belay := some (r, s.clk.tick) }) s)) := by
  have hj : s.ctl.voter.join = none := hj
  simp only [takeReport, voter, onLane, onBist, onMgt, onVoter, onCtl, hj]
  rfl

/-- With no join under way a report is AVAILABLE just where it names no cause (R199). -/
theorem state_composeReport {s : State} (hj : (voter s).join = none) (l : Lane) (temp clk : BitVec 16) :
    (composeReport s l temp clk).state = 0 ↔ (composeReport s l temp clk).causes = 0#16 := by
  simp [composeReport, belayStateNow, hj, b2n]

/-- Bytes of another length or with a bad CRC are no report (R199). -/
theorem parseBelay_eq_none {b : List Byte} (h : b.length ≠ 64 ∨ crc32c (b.take 60) ≠ leAt b 0x3C 4) : parseBelay b = none := if_pos h

theorem belayReportsAreKept : BelayReportsAreKept := by
  refine ⟨?_, ?_, fun b => parseBelay_eq_none, ?_⟩
  · intro s l temp clk hd hj r
    have he := exec_belayHealthReport_own temp clk hd
    rw [takeReport_eq (s := reportSent l s) hj] at he
    refine ⟨_, he, rfl, state_composeReport hj l temp clk, rfl, rfl, rfl, rfl, ?_, fun m hm => ?_, rfl, rfl⟩
    · exact congrArg (fun x : LaneState => x.health.corrected) (lane_onLane l _ _)
    · have hsent : lane (reportSent l s) m = lane s m := lane_onLane_ne _ s hm
      exact (lane_onLane_ne _ _ hm).trans hsent
  · intro s l temp clk b hd hb
    have he : exec (.belayHealthReport l temp clk (some b)) s = execBelayHealthReport l temp clk (some b) s := rfl
    rw [he, execBelayHealthReport, if_pos hd]
    simp only [hb]
  · intro s r at_ hr ht
    have he : exec .belayReportStale s = execBelayReportStale s := rfl
    rw [he, execBelayReportStale]
    simp only [hr, ht, if_true]

/-- Settles O19: an idle part copies as many of the differing blocks as fit, in order, and where all of them do the lane is to be verified; a report
taken with no join under way is kept with its instant, and bytes that are none leave only the lane's own count. How many blocks fit and when the
copy ends rest on log entry 29, and SEQ and the causes of a composed report on log entry 109. -/
theorem resyncAndBelayReports : Obligations.ResyncAndBelayReports := ⟨completedResyncCopiesTheSource, belayReportsAreKept⟩

/-! ### The diversity allowance and the rotations (R174 to R176, R207) -/

/-- Nothing is consumed of an allowance in the tick in which the flag is set (R175). -/
theorem diversityLeft_of_since {s : State} (h : s.ctl.voter.diversity.since = tb3Tick s) : diversityLeft s = s.ctl.voter.diversity.remain := by
  simp [diversityLeft, h]

/-- The flag set as its allowance begins to run. -/
def diversityLost (s : State) : State :=
  onVoter (fun v => { v with diversity := { v.diversity with lost := true, since := tb3Tick s } }) s

theorem exec_diversityLostSet {s : State} (hc : ctlRuns s = true) (hl : (voter s).diversity.lost = false)
    (h64 : 64 ≤ (voter s).diversity.lackRun) (hr : 0 < (voter s).diversity.remain) :
    exec .diversityLostSet s = .next (diversityRecord 1 (diversityLost s)) := by
  have he : exec .diversityLostSet s = execDiversityLostSet s := rfl
  have hleft : diversityLeft (diversityRecord 1 (diversityLost s)) = (voter s).diversity.remain := diversityLeft_of_since rfl
  have hkeep : diversityExpiry (diversityRecord 1 (diversityLost s)) = diversityRecord 1 (diversityLost s) := by
    simp [diversityExpiry, hleft, Nat.pos_iff_ne_zero.mp hr]
  rw [he, execDiversityLostSet]
  simp only [hc, hl, h64, decide_true, Bool.not_false, Bool.and_true, if_true]
  exact congrArg _ hkeep

theorem exec_diversityAllowanceExpiry {s : State} (hc : ctlRuns s = true) (hl : (voter s).diversity.lost = true) (h0 : diversityLeft s = 0) :
    exec .diversityAllowanceExpiry s = .next (trip 0x0F false (bookDiversity (diversityRecord 3 s))) := by
  have he : exec .diversityAllowanceExpiry s = .next (diversityExpiry s) := rfl
  rw [he, diversityExpiry, if_pos (by simp [hc, hl, h0])]

/-- Without a rotation in the queue none is deferred (R209). -/
theorem longDeferred_of_empty {s : State} (h : s.ctl.rot.queue = []) : longDeferred s = false := by
  unfold longDeferred
  dsimp only
  split
  · simp [h]
  · rfl

theorem exec_bistIntervalExpiry {s : State} (hf : s.variant = .f) (hm : mgtUp s = true) (hh : s.ctl.rot.intervalHours ≠ 0)
    (hq : s.ctl.rot.queue = []) (hfw : s.ctl.rot.forFirmware = false)
    (ht : s.ctl.rot.lastAt + s.ctl.rot.intervalHours * Config.hourTicks ≤ tb3Tick s) :
    exec .bistIntervalExpiry s = .next (onRot (fun q => { q with lastAt := tb3Tick s, queue := [.a, .b, .c] }) s) := by
  have he : exec .bistIntervalExpiry s = execBistIntervalExpiry s := rfl
  rw [he, execBistIntervalExpiry, if_pos ⟨hf, hm, hh, ht⟩]
  simp [longDeferred_of_empty hq, onRot, onCtl, hq, hfw]

theorem diversityAndRotationRunOnTheirCounts : DiversityAndRotationRunOnTheirCounts := by
  refine ⟨fun s hc hl h64 hr => ?_, fun s n hc hl hb ht => ?_, fun s hf hm hh hq hfw ht => exec_bistIntervalExpiry hf hm hh hq hfw ht⟩
  · exact ⟨_, exec_diversityLostSet hc hl h64 hr, rfl, rfl, rfl, rfl, by simp [diversityRecord, diversityLost]⟩
  · have he : exec .diversityAllowanceRestore s = execDiversityAllowanceRestore s := rfl
    rw [he, execDiversityAllowanceRestore]
    simp only [hb, hc, hl, ht, decide_true, Bool.not_false, Bool.and_true, if_true]
    rfl

theorem diversityExpiryTrips : DiversityExpiryTrips := by
  intro s hc hl h0
  have hc' : ctlRuns (bookDiversity (diversityRecord 3 s)) = true := hc
  have hstruck := trip_struck hc' 0x0F false
  obtain ⟨hrun, -⟩ := ctlRuns_iff.mp hc
  exact ⟨_, exec_diversityAllowanceExpiry hc hl h0, hstruck.inForce, hstruck.mask, hstruck.ctrlReset,
    (congrArg Voter.running hstruck.voter).trans hrun, hstruck.stopped, trip_dead hc' 0x0F false, hstruck.counted, hstruck.event⟩

/-- Settles O20: the flag, the allowance and the rotations follow their counts in one step each, and an allowance at zero is a trip, which keeps the
voter and leaves every output without drive. -/
theorem diversityRunsOut : Obligations.DiversityRunsOut := ⟨diversityAndRotationRunOnTheirCounts, diversityExpiryTrips⟩

end Sys2Proof.Proofs.Belay
end

section
/-! Ready words, the end of a lease, cairns and takeovers (O17, O18, R181 to R183, R188, R190 to R193, R200, R202). -/

namespace Sys2Proof.Proofs.Takeovers

open Sys2Proof Sys2Proof.Machine Sys2Proof.Claims Sys2Proof.Laws

/-! ### Ready words (R182, R183) -/

/-- A half has a lane's ready word. -/
def readyKept (h : Half) (l : Lane) (r : ReadyWord) (s : State) : State :=
  onVoter (fun v => { v with ready := v.ready.set h ((v.ready.get h).set l (some r)) }) s

/-- A ready word of a lane that does not join is kept, and nothing follows from it. -/
theorem takeReady_of_not_joining {s : State} {l : Lane} (hj : ∀ j, (voter s).join = some j → j.lane ≠ l) (h : Half) (r : ReadyWord) :
    takeReady h l r s = readyKept h l r s := by
  unfold takeReady
  dsimp only
  split
  case h_1 j hjoin => exact if_neg fun hends => hj j hjoin hends.1
  case h_2 => rfl

/-- A lane that has committed and is sent no blocks owes its ready word. -/
theorem readyDue_of_idle {s : State} {l : Lane} (hp : (lane s l).core.phase = .idle) (hc : (voter s).copyEnd.get l = none) :
    readyDue s l = true := by
  simp [readyDue, hp, hc]

section
variable {s : State} {h : Half} {l : Lane} (hv : voting s = true) (hd : domRun s (laneDom l) = true) (ht : s.clk.tick + 50 ≤ nextCi s h)
include hv hd ht

theorem exec_readyWord_given (id : BitVec 16) (renew : Bool) (crc : W32) :
    exec (.readyWord h l (.given id renew crc)) s = .next (takeReady h l ⟨id, renew, crc⟩ s) := by
  have he : exec (.readyWord h l (.given id renew crc)) s = execReadyWord h l (.given id renew crc) s := rfl
  rw [he, execReadyWord.eq_def, if_pos (by simp [hv, hd, ht])]

theorem exec_readyWord_asSent (hdue : readyDue s l = true) :
    exec (.readyWord h l .asSent) s = .next (takeReady h l (ownReady (lane s l)) s) := by
  have he : exec (.readyWord h l .asSent) s = execReadyWord h l .asSent s := rfl
  rw [he, execReadyWord.eq_def, if_pos (by simp [hv, hd, ht])]
  exact congrArg _ (if_pos hdue)

end

theorem readyWordIsKept : ReadyWordIsKept := by
  intro s h l hv hd ht hj kept
  constructor
  · intro id renew crc
    rw [exec_readyWord_given hv hd ht, takeReady_of_not_joining hj]
    rfl
  · intro hp hc
    rw [exec_readyWord_asSent hv hd ht (readyDue_of_idle hp hc), takeReady_of_not_joining hj]
    rfl

/-! ### The end of a lease (R181, R188) -/

theorem exec_leaseExpiry {s : State} (k : Seat) (hc : ctlRuns s = true) : exec (.leaseExpiry k) s = .next (leaseEnds k s) := by
  have he : exec (.leaseExpiry k) s = execLeaseExpiry k s := rfl
  rw [he, execLeaseExpiry, if_pos hc]

theorem leaseExpired_of_lease {s : State} {k : Seat} {g : Lease} (hg : ((voter s).seats.get k).lease.x = some g) (he : g.ended = false)
    (hr : g.revoked = true ∨ SeatVotes ((voter s).seats.get k) = false) (hx : scnBefore (scn s) g.expiry = false) :
    leaseExpired s k = true := by
  simp only [leaseExpired, hg]
  simp [he, hx, hr]

/-- A lease that has run out is never honoured again (R181, R183). -/
def spent (g : Lease) : Lease := { g with revoked := true, ended := true }

/-- The lease of a seat runs out in both halves, with the record of its expiry. -/
theorem leaseEnds_of_expired {s : State} {k : Seat} {g : Lease} (hg : ((voter s).seats.get k).lease.x = some g) (he : leaseExpired s k = true) :
    leaseEnds k s = onSeat k (fun x => { x with lease := ⟨x.lease.x.map spent, x.lease.y.map spent⟩ })
      (seatChange k 3 (some g.holder) none g.id 0 s) := by
  have hholder : holder s k = some g.holder := by simp [holder, hg]
  have hid : leaseIdOf s k = g.id := by simp [leaseIdOf, hg]
  rw [leaseEnds, if_pos he, hholder, hid]
  rfl

@[simp] theorem seat_onSeat (k : Seat) (f : SeatState → SeatState) (s : State) :
    (voter (onSeat k f s)).seats.get k = f ((voter s).seats.get k) := Tri_get_set_self _ _ _

theorem seat_onSeat_ne {k j : Seat} (f : SeatState → SeatState) (s : State) (h : j ≠ k) :
    (voter (onSeat k f s)).seats.get j = (voter s).seats.get j := Tri_get_set_ne _ _ h

@[simp] theorem seatChange_voter (k : Seat) (kind : Nat) (out inn : Option Lane) (idOut idIn : BitVec 16) (s : State) :
    voter (seatChange k kind out inn idOut idIn s) = voter s := rfl

theorem leaseEndsAtItsExpiry : LeaseEndsAtItsExpiry := by
  intro s k g hc hg hended hr hx
  refine ⟨_, exec_leaseExpiry k hc, ?_⟩
  rw [leaseEnds_of_expired hg (leaseExpired_of_lease hg hended hr hx)]
  refine ⟨?_, ?_, fun j hj => seat_onSeat_ne _ _ hj, rfl, rfl, rfl⟩
  · rw [seat_onSeat, seatChange_voter, hg]
    rfl
  · rw [seat_onSeat, seatChange_voter]

/-- Settles O17: a ready word in time of a lane that does not join is written to its half and does nothing else, and a lease that has run out is
spent in both halves with its record. The 0xFF of that record for the lane in is log entry 11, and that the lease is still there to be recorded is
log entry 82. -/
theorem readyWordsAndLeases : Obligations.ReadyWordsAndLeases := ⟨readyWordIsKept, leaseEndsAtItsExpiry⟩

/-! ### Cairn captures (R190 to R193) -/

section
variable {s : State} {c : Capture} (altered : List (Nat × Nat × W64)) (hcap : (voter s).capture = some c) (hsent : 4096 * c.blocks.length ≤ c.sent)
include hcap hsent

/-- A capture that has been sent in whole and passes its checks becomes the latest valid cairn. -/
theorem exec_cairnCaptureDone_passes (hf : c.failed = 0) (hok : enteredOk c (enteredBlocks c altered) = true) :
    exec (.cairnCaptureDone altered) s =
      .next (onVoter (fun v => { v with cairn := some (newCairn c (enteredBlocks c altered) v.cairn), capture := none }) s) := by
  have he : exec (.cairnCaptureDone altered) s = execCairnCaptureDone altered s := rfl
  rw [he, execCairnCaptureDone]
  simp only [hcap, Nat.not_lt.mpr hsent, hf, hok, ne_eq, not_true_eq_false, if_true, if_false]

/-- A capture that has been sent in whole and fails a check is abandoned, with the check that failed first. -/
theorem exec_cairnCaptureDone_fails (hbad : c.failed ≠ 0 ∨ enteredOk c (enteredBlocks c altered) = false) :
    exec (.cairnCaptureDone altered) s = .next (cairnAbandon (if c.failed ≠ 0 then c.failed else 3) s) := by
  have he : exec (.cairnCaptureDone altered) s = execCairnCaptureDone altered s := rfl
  rw [he, execCairnCaptureDone]
  by_cases hf : c.failed = 0
  · have hbad' : enteredOk c (enteredBlocks c altered) = false := hbad.resolve_left (not_not_intro hf)
    simp only [hcap, Nat.not_lt.mpr hsent, hf, hbad', ne_eq, not_true_eq_false, if_false, Bool.false_eq_true]
  · simp only [hcap, Nat.not_lt.mpr hsent, hf, ne_eq, not_false_eq_true, if_true, if_false]

end

theorem cairnCaptureEntersOrIsAbandoned : CairnCaptureEntersOrIsAbandoned := by
  intro s c altered hcap hsent entered
  refine ⟨?_, exec_cairnCaptureDone_passes altered hcap hsent, fun hbad => ?_⟩
  · rintro rfl
    rfl
  · exact ⟨_, exec_cairnCaptureDone_fails altered hcap hsent hbad, rfl, rfl, rfl, rfl⟩

/-! ### The cairn in the joining lane (R200) -/

/-- The blocks that pass between two lanes carry the variables, timers, counters and edge detectors, whatever their firmware (R200, R208). -/
theorem copyLane_units (src dst : LaneState) :
    (copyLane src dst).core.vars = src.core.vars ∧ (copyLane src dst).core.timers = src.core.timers ∧
    (copyLane src dst).core.counters = src.core.counters ∧ (copyLane src dst).core.edges = src.core.edges := by
  unfold copyLane
  dsimp only
  split <;> exact ⟨rfl, rfl, rfl, rfl⟩

/-- The joining lane holds the cairn and waits for the next release. -/
def loaded (j : Join) (c : Cairn) (s : State) : State :=
  onVoter (fun v => { v with join := some { j with step := .waitRelease } }) (onLane j.lane (copyLane c.image) s)

theorem exec_cairnLoadDone {s : State} {j : Join} {c : Cairn} (hc : ctlRuns s = true) (hj : (voter s).join = some j)
    (hcairn : (voter s).cairn = some c) (hstep : j.step = .loading) (hsent : loadBytes c (lane s j.lane) ≤ j.sent) :
    exec .cairnLoadDone s = .next (loaded j c s) := by
  have he : exec .cairnLoadDone s = execCairnLoadDone s := rfl
  rw [he, execCairnLoadDone]
  simp only [hj, hcairn]
  exact congrArg _ (if_pos (by simp [hc, hstep, hsent]))

theorem lane_loaded (j : Join) (c : Cairn) (s : State) : lane (loaded j c s) j.lane = copyLane c.image (lane s j.lane) := lane_onLane _ _ _

/-! ### A takeover abandoned at its deadline (R202) -/

section
variable (state : Nat) (causes : BitVec 16) (s : State)

/-- What the belay lane reports of itself stands in the voter and before MGT alone. -/
theorem belayState_eq : ∃ f g, belayState state causes s = onBist f (onVoter g s) := by
  unfold belayState
  split
  · exact ⟨_, _, rfl⟩
  · exact ⟨id, id, rfl⟩

@[simp] theorem belayState_lanes : (belayState state causes s).ctl.lanes = s.ctl.lanes := by
  obtain ⟨f, g, h⟩ := belayState_eq state causes s
  rw [h]
  rfl

@[simp] theorem belayState_recorder : (belayState state causes s).mgt.recorder = s.mgt.recorder := by
  obtain ⟨f, g, h⟩ := belayState_eq state causes s
  rw [h]
  rfl

theorem belayState_belay {r : BelayReport} {a : Nat} (h : (voter s).belay = some (r, a)) :
    (voter (belayState state causes s)).belay = some ({ r with state := state, causes := r.causes ||| causes }, a) := by
  unfold belayState
  simp only [h]
  rfl

end

/-- The belay lane reports itself unavailable as its takeover of a seat ends, with the SEAT_CHANGE of kind 9 (R188, R202). -/
def takeoverReported (j : Join) (causes : BitVec 16) (s : State) : State :=
  belayState 1 causes (seatChange j.seat 9 none (some j.lane) 0 0 s)

section
variable (j : Join) (causes : BitVec 16) (s : State)

theorem lane_takeoverReported (l : Lane) : lane (takeoverReported j causes s) l = lane s l :=
  congrArg (fun q : Quad LaneState => q.get l) (belayState_lanes 1 causes _)

theorem takeoverReported_reports : (takeoverReported j causes s).mgt.recorder.reports = s.mgt.recorder.reports ++
    [⟨.vital, 0, 0x0205, voterSource .x j.seat.num, upt s, byte j.seat.num ++ byte 9 ++ byte 0xFF ++ byte j.lane.idx ++ le2 0 ++ le2 0, scnLe s⟩] :=
  congrArg RecorderState.reports (belayState_recorder 1 causes _)

end

theorem takeoverReported_belay (j : Join) {s : State} {r : BelayReport} {a : Nat} (h : (voter s).belay = some (r, a)) :
    (voter (takeoverReported j 0 s)).belay = some ({ r with state := 1 }, a) := by
  have hkept := belayState_belay 1 0#16 (seatChange j.seat 9 none (some j.lane) 0 0 s) h
  rwa [BitVec.or_zero] at hkept

/-- A takeover abandoned: no lane joins, the seat is not in HANDOVER, and the lane that took over has stopped. -/
theorem abandonJoin_takeover {s : State} {j : Join} (causes : BitVec 16) (hj : (voter s).join = some j) (hw : j.why = .takeover) :
    abandonJoin causes s = onCore j.lane (fun c => { c with phase := .stopped })
      (onSeat j.seat (fun x => if x.mode = .handover then { x with mode := .held } else x)
        (onVoter (fun v => { v with join := none }) (takeoverReported j causes s))) := by
  unfold abandonJoin
  simp only [hj, hw]
  rfl

theorem exec_takeoverDeadline {s : State} {j : Join} (hc : ctlRuns s = true) (hj : (voter s).join = some j) (hw : j.why = .takeover)
    (hstep : j.step = .loading ∨ j.step = .waitRelease ∨ j.step = .catchUp)
    (hpast : 13 < scnAhead j.start (scn s) ∨ scnAhead j.start (scn s) = 13 ∧ nextCi s .x ≤ s.clk.tick + 50) :
    exec .takeoverDeadline s = .next (abandonJoin 0 s) := by
  have he : exec .takeoverDeadline s = execTakeoverDeadline s := rfl
  rw [he, execTakeoverDeadline]
  simp only [hj]
  refine congrArg _ (if_pos ?_)
  obtain hstep | hstep | hstep := hstep <;> simp [hc, hw, hstep, hpast]

theorem takeoverLoadsTheCairn : TakeoverLoadsTheCairn := by
  intro s j hc hj
  constructor
  · intro c hcairn hstep hsent
    obtain ⟨hvars, htimers, hcounters, hedges⟩ := copyLane_units c.image (lane s j.lane)
    rw [← lane_loaded] at hvars htimers hcounters hedges
    exact ⟨_, exec_cairnLoadDone hc hj hcairn hstep hsent, rfl, lane_loaded j c s, hvars, htimers, hcounters, hedges,
      fun l hl => lane_onLane_ne _ _ hl, rfl⟩
  · intro hw hstep hpast
    refine ⟨_, exec_takeoverDeadline hc hj hw hstep hpast, ?_⟩
    rw [abandonJoin_takeover 0 hj hw]
    refine ⟨rfl, fun r a hr => takeoverReported_belay j hr, ?_, fun l hl => ?_, ?_⟩
    · exact congrArg (fun x : LaneState => x.core.phase) (lane_onLane j.lane _ _)
    · exact (lane_onLane_ne _ _ hl).trans (lane_takeoverReported j 0 s l)
    · exact (congrArg List.length (takeoverReported_reports j 0 s)).trans List.length_append

/-- Settles O18: a capture sent in whole enters as the cairn or is abandoned by its checks alone; the cairn's blocks replace those of the joining
lane, and a takeover past its deadline ends with its SEAT_CHANGE of kind 9 as its one record (`takeoverReported_reports`). -/
theorem cairnsAreEnteredAndLoaded : Obligations.CairnsAreEnteredAndLoaded := ⟨cairnCaptureEntersOrIsAbandoned, takeoverLoadsTheCairn⟩

end Sys2Proof.Proofs.Takeovers
end

section
/-! While a trip is in force nothing is driven (O7, R232, R233): every command keeps the outputs without drive that a trip left so. Most commands
touch neither the trip nor the outputs; the ones that do are taken one by one. -/

namespace Sys2Proof.Proofs.TripSafety

open Sys2Proof Sys2Proof.Machine Sys2Proof.Laws

/-- What a command leaves behind is safe under a trip. -/
def SafeAfter (o : Host.Outcome State Fault Refusal) : Prop := ∀ t, o = .next t → TripSafe t

theorem safeAfter_next {t : State} (h : TripSafe t) : SafeAfter (.next t) := by
  intro u hu
  cases hu
  exact h

/-- A host command is safe where its own act is: an answer changes neither trip nor outputs. -/
theorem safeAfter_cmdRun {c : CmdHdr} {op : Nat} {form exempt : Bool} {rows : List (Bool × Status)} {act : State → State} {s : State}
    (hs : TripSafe s) (hact : TripSafe (act s)) : SafeAfter (.next (cmdRun c op form exempt rows act s)) :=
  safeAfter_next (cmdRun_keeps TripSafe hs (fun r st est a b => (finishRef_safe r st est a b s).mpr hs) hact)

/-! ### The shared operations beside the ones of the laws -/

@[simp] theorem drawn_safe (s : State) : TripSafe (drawn s) ↔ TripSafe s := Iff.rfl

/-- VIO changed beside its outputs. -/
theorem onVio_safe {f : VioState → VioState} {s : State} (hf : (f s.ctl.vio).vout = s.ctl.vio.vout) :
    TripSafe (onVio f s) ↔ TripSafe s := onCtl_safe _ s rfl hf

/-- A trip changed beside its being in force. -/
theorem onTrip_safe {f : TripState → TripState} {s : State} (hf : (f s.ctl.trip).inForce = s.ctl.trip.inForce) :
    TripSafe (onTrip f s) ↔ TripSafe s := onCtl_safe _ s hf rfl

theorem idleCopy_safe (src l : Lane) (s : State) : TripSafe (idleCopy src l s).1 ↔ TripSafe s :=
  (onVoter_safe _ _).trans (onLane_safe _ _ _)

theorem decideDown_safe (ch : Chan) (p : Nat) (m : Scn) {s : State} (hs : TripSafe s) : TripSafe (decideDown ch p m s).1 := by
  have reports : ∀ rs : List CodeRec, TripSafe (rs.foldl (fun s r => reportLane ch (0x500 + 64 * ch.idx + p) r.lane s) s) := fun rs =>
    foldl_safe _ (fun u r hu => (reportLane_safe _ _ _ u).mpr hu) rs s hs
  unfold decideDown
  dsimp only
  repeat' split
  all_goals simp [hs, reports]

/-! ### Vital inputs and outputs -/

theorem vinTestSlot_safe (c : BitVec 5) (b : Bool) (last : BitVec 16) (vs : List (BitVec 16)) {s : State} (hs : TripSafe s) :
    SafeAfter (exec (.vinTestSlot c b last vs) s) := by
  refine safeAfter_next ?_
  dsimp only
  split
  · split
    · exact (onVio_safe rfl).mpr hs
    · split
      · split
        · exact vinChange_safe _ _ _ ((vinFaultRecord_safe _ _ _ _).mpr hs)
        · exact (onVio_safe rfl).mpr hs
      · exact vinChange_safe _ _ _ (safe_ite hs ((vinFaultRecord_safe _ _ _ _).mpr hs))
  · exact hs

/-- A test window changes the bookkeeping of its output, or fails it. -/
theorem voutTestWindow_safe (k : BitVec 5) (c1 c2 c3 : Bool) {s : State} (hs : TripSafe s) :
    SafeAfter (exec (.voutTestWindow k c1 c2 c3) s) := by
  have noted : ∀ f : VoutState → VoutState, (∀ v, VoutDead v → VoutDead (f v)) → TripSafe (onVout k.toNat f s) :=
    fun f hf => onVout_safe _ f s hf hs
  refine safeAfter_next ?_
  dsimp only
  split
  · split
    · split
      · split
        · exact noted _ fun _ hv => hv
        · exact failVout_safe _ _ _ hs
      · exact hs
    · split
      · exact hs
      · split
        · exact noted _ fun _ hv => hv
        · split
          · exact noted _ fun _ hv => hv
          · exact failVout_safe _ _ _ (noted _ fun _ hv => hv)
  · exact hs

theorem voutCalibration_safe (zero full : Int) (currents : List (Nat × Nat)) {s : State} (hs : TripSafe s) :
    SafeAfter (exec (.voutCalibration zero full currents) s) := by
  have noted : TripSafe (onVio (fun v => { v with calAt := some s.clk.tick }) s) := (onVio_safe rfl).mpr hs
  refine safeAfter_next (safe_ite hs (safe_ite ?_ ?_))
  · exact foldl_safe _ (fun u k hu => safe_ite hu (failVout_safe k 8 u hu)) _ _ noted
  · exact foldl_safe _ loadReading_safe currents _ ((onVio_safe rfl).mpr noted)

theorem loopMeasurement_safe (ohms : Nat) {s : State} (hs : TripSafe s) : SafeAfter (exec (.loopMeasurement ohms) s) := by
  refine safeAfter_next (safe_ite ?_ hs)
  dsimp only
  refine safe_ite (safe_ite (trip_safe _ _ _ ?_) ?_) ?_
  · exact (sealRecord_safe _ _).mpr ((onVio_safe rfl).mpr hs)
  · exact (sealRecord_safe _ _).mpr ((onVio_safe rfl).mpr hs)
  · exact (onVio_safe rfl).mpr hs

theorem vfLowSet_safe (v : BitVec 16) (ticks : Nat) {s : State} (hs : TripSafe s) : SafeAfter (exec (.vfLowSet v ticks) s) := by
  refine safeAfter_next (safe_ite ?_ hs)
  refine foldl_safe _ (fun u k hu => onVout_safe k _ u ?_ hu) _ _ ((onElec_safe _ _).mpr ((vfRecord_safe _ _ _).mpr hs))
  intro x ⟨hcommand, _, hx, hy⟩
  exact ⟨hcommand, rfl, hx, hy⟩

theorem supplyCollapseWarning_safe (v : BitVec 16) (ticks : Nat) {s : State} (hs : TripSafe s) :
    SafeAfter (exec (.supplyCollapseWarning v ticks) s) := by
  have struck : TripSafe (recorderFlush (trip 0x0C true (onStart (fun x => { x with storeCharged := false })
      (onTrip (fun t => { t with supplyLow := true, supplyOkSince := none }) s)))) :=
    (recorderFlush_safe _).mpr (trip_safe _ _ _ ((onStart_safe _ _).mpr ((onTrip_safe rfl).mpr hs)))
  exact safeAfter_next (safe_ite (safe_ite ((onMgt_safe _ _).mpr struck) struck) hs)

theorem starConfirmation_safe (ch : Chan) {s : State} (hs : TripSafe s) : SafeAfter (exec (.starConfirmation ch) s) :=
  safeAfter_next (safe_ite (tripSettle_safe _ ((onTrip_safe rfl).mpr ((onStar_safe _ _ _).mpr hs))) hs)

theorem starConfirmTimeout_safe {s : State} (hs : TripSafe s) : SafeAfter (exec .starConfirmTimeout s) :=
  safeAfter_next (safe_ite (tripSettle_safe _ ((onTrip_safe rfl).mpr hs)) hs)

/-- A mark applies a word to the outputs only while no trip is in force (`voutApply_safe`). -/
theorem ciMark_safe (f : Follower) (net xm : Option Int) {s : State} (hs : TripSafe s) : SafeAfter (exec (.ciMark f net xm) s) := by
  have passed : ∀ n x, TripSafe (passInstant f n x s) := fun n x => (passInstant_safe f n x s).mpr hs
  refine safeAfter_next (safe_ite ?_ hs)
  cases f with
  | x => exact voutApply_safe _ _ _ ((cvuAtCi_safe _).mpr (passed _ _))
  | y => exact voutApply_safe _ _ _ (safe_ite (tripXY_safe _ (passed _ _)) (passed _ _))
  | vio => exact voutApply_safe _ _ _ ((onVio_safe rfl).mpr (passed _ _))
  | star ch => exact (coldNotice_safe _ _).mpr ((firstBeacon_safe _ _).mpr (passed _ _))

theorem vioFirmwareSwap_safe {s : State} (hs : TripSafe s) : SafeAfter (exec .vioFirmwareSwap s) := by
  refine safeAfter_next ?_
  split
  · exact safe_ite ((finishStep_safe _).mpr ((onVio_safe rfl).mpr hs)) hs
  · exact hs

/-! ### The other commands whose parts the laws do not name -/

theorem downframeStart_safe (ch : Chan) (p : BitVec 6) {s : State} (hs : TripSafe s) : SafeAfter (exec (.downframeStart ch p) s) := by
  have decided := decideDown_safe ch p.toNat (starCycle s ch) ((onPort_safe ch p.toNat slewDly _).mpr (beaconDecide_safe ch s hs))
  have sent : ∀ f, TripSafe (sendDown ch p.toNat f _) := fun f => (sendDown_safe ch p.toNat f _).mpr decided
  refine safeAfter_next (safe_ite ?_ hs)
  dsimp only
  split
  · exact safe_ite (sent _) ((sendDown_safe _ _ _ _).mpr ((onPort_safe _ _ _ _).mpr decided))
  · exact sent _

theorem resyncIdlePart_safe (l : Lane) {s : State} (hs : TripSafe s) : SafeAfter (exec (.resyncIdlePart l) s) := by
  refine safeAfter_next ?_
  split
  · exact hs
  · next src _ =>
    have copied : TripSafe (idleCopy src l (firstShadow src l s)).1 := (idleCopy_safe _ _ _).mpr (firstShadow_safe src l s hs)
    exact safe_ite (safe_ite copied (safe_ite ((setVote_safe _ _ _).mpr copied) ((onVoter_safe _ _).mpr copied))) hs

theorem nandScrubRegion_safe (region : Byte) (done : Bool) {s : State} (hs : TripSafe s) : SafeAfter (exec (.nandScrubRegion region done) s) :=
  safeAfter_next (safe_ite hs (safe_ite (safe_ite ((onBist_safe _ _).mpr hs) hs)
    (safe_ite ((drawn_safe _).mpr ((onBist_safe _ _).mpr hs)) hs)))

theorem olcLoadEnd_safe (c : CmdHdr) {s : State} (hs : TripSafe s) : SafeAfter (exec (.olcLoadEnd c) s) := by
  refine safeAfter_cmdRun hs ?_
  split
  · exact hs
  · dsimp only
    split
    · simp [hs]
    · split
      · split <;> simp [hs]
      · split
        · simp [hs]
        · split <;> simp [hs]

/-- A block passes the snooped point before its command is judged (R449, R453). -/
theorem updBlock_safe (c : CmdHdr) (index crc : W32) (data : List Byte) {s : State} (hs : TripSafe s) :
    SafeAfter (exec (.updBlock c index crc data) s) := by
  refine safeAfter_cmdRun (safe_ite ((snoop_safe _ _ _ _ _ _).mpr hs) hs) ?_
  simp [hs]

/-! ### Every command and every step -/

/-- Every command keeps what a trip left without drive. -/
theorem exec_safe (c : Instr) {s : State} (hs : TripSafe s) : SafeAfter (exec c s) := by
  cases c with
  -- An instruction word of an engine (R76, R89).
  | nop | endSeg | ld | andB | orB | xorB | st | setB | rst | ldk | bro | bca | bco | jmp | jc | ton | tof | tp | ctu | ctd | ctr | edr | edf =>
    exact safeAfter_next ((engStep_safe _ _ _ _ _ _).mpr hs)
  | syncBarrierLeave => exact safeAfter_next hs
  -- One component beside trip and outputs, where the condition of the event is met.
  | scrubUncorrectable | codeRecord | portEnergyDetected | listenTimerExpiry | nodeOutputApply | nodeUpframeSend | vfLowClear | resetNStuckClear
  | holdupStoreCharged | inletAirOvertemp | tb3WholeHour | timeMapRecord | mbxReset | expStatusRead | timeLatch | dtlsKeepalive | freezeExpiry
  | logUnfreezeBit | logWinLoadDone | logWinAutoRead | cvuEnableWrite | cvuOpenWrite | cvuCloseWrite | cvuResultAckWrite | cvuUnitTest | perstN
  | mbxResetDone | supplyRecovery =>
    exact safeAfter_next (safe_ite hs hs)
  -- A host command whose act is operations of the laws.
  | sysNop | sysRegRead | sysRingCreate | sysRingDestroy | sysShutdown | sysStart | sysReset | sysCtrlReset | sysTrip | cfgRead | cfgSet | cfgGet
  | cfgKeyRemove | timLatch | timPtp | logRead | logFreeze | logUnfreeze | logClear | logStream | logCycles | cvuConfig | cvuRead | cvuReadAck
  | cvuTrigger | cvuDisable | frcSet | frcClear | frcClearAll | olcLoadBegin | olcSwap | olcCancel | olcDiscard | olcStatus | updBegin | updBitmap
  | updActivate | updAbort | updCommit | updRevert | updStatus | reqWrite | reqPulse | reqWriteMulti | reqRead | lnkCfgRead | lnkSchedChange
  | lnkCpSub | expUnsubscribe | expList | tstRotate | tstStatus | dbgAttach | dbgDetach | dbgHalt | dbgResume | dbgRead =>
    exact safeAfter_cmdRun hs (by simp [hs])
  -- A host command whose act depends on what it names.
  | sysBlockReset | cfgWrite | timMap | logHealth | logBelay | frcList | olcLoadData | updVerify | lnkCfgWrite | lnkPortPower | lnkPortUnlock
  | lnkPortStatus | lnkChannelPower | expSubscribe | expRead | tstFuseRepair | tstShutdownRecord | dbgWrite =>
    exact safeAfter_cmdRun hs (by split <;> simp [hs])
  -- An event whose effect is operations of the laws.
  | sync | admissionSnapshot | barrierRelease | leaseExpiry | scanDeadline | supervisorDigestLate | isolationHoldEnd | starTxGateFault
  | starPortSelftest | diversityLostSet | diversityAllowanceExpiry | contactFilterChange | voutOvercurrent | switchPoleSample | sealFaultExpiry
  | resetSourceRelease | retPor | mainPor | resetNDebounce | resetNStuck | mgtWatchdogExpiry | heartbeatTick | startTimeout | backupCellMeasure
  | ptpSync | ptpAnnounce | syncTimeout | announceTimeout | boundaryTelegramReceive | mbxEnable | doorbell | registerWrite | dtlsCmdDatagram
  | olcSwapBoundary | pageCommit | logFreezeBit | logCursorWrite | mgtBankSwap | starStepTimeout | romBlockGo | recoveryDatagram
  | shutdownBistDone | laneTestDone | dtlsAlert | arpIcmpEcho | dieBistDone =>
    exact safeAfter_next (by simp [hs])
  -- An event whose effect depends on what it meets.
  | exportPublication | nodeLinkState | cairnCaptureDone | belayReportStale | cairnLoadDone | takeoverDeadline | bistIntervalExpiry
  | backoffExpiry | primaryRevert | holdoverExpiry | slewComplete | cyclePointMessage | completionPost | eventPost | dtlsIdleTimeout
  | mgtSnapshotEval | forceTimeout | recordIntake | coalesceWindowExpiry | voterMicrocodeSwap | fuseBurnDone | sysResetAssert | delayReqSend =>
    exact safeAfter_next (by split <;> simp [hs])
  -- The same with values named first.
  | upframeRecord | diversityAllowanceRestore | discrepancyExpiry | islandLimitClear | interruptCoalesceExpiry | dtlsHandshake | portDownDegraded =>
    exact safeAfter_next (by dsimp only; split <;> simp [hs])
  -- An event whose effect depends on several of them.
  | readyWord | commitRecord | syncRecord | coldstartFrame | schedChangeDecision | schedChangeBoundary | voutReadback | islandLimitMeasurement
  | bridgeParityFault | resetSourceAssert | domainRelease | boundaryTelegramSend | dtlsRetransmit | exportStreamSend | stagingTransferDone
  | updBankStep | belayTestStep | mgtBootComplete =>
    exact safeAfter_next (by (repeat' split) <;> simp [hs])
  -- The same with values named first.
  | skewWindowClose | starUpframe | portLinkUp | portLinkDown | nodeDownframeReceive | belayHealthReport | startAttemptSuccess | commandFetch
  | dtlsCplAck | cvuWindowClose | illegalOpcode | netLinkChange | startLoadComplete =>
    exact safeAfter_next (by dsimp only; (repeat' split) <;> simp [hs])
  -- A PTP message, which acts on the servo or the network state of its domain (R363, R364).
  | ptpFollowUp | ptpPdelayReq | ptpPdelayResp =>
    exact safeAfter_next (ptpTake_safe _ _ _ hs fun _ _ hu => by split <;> simp [hu])
  | ptpDelayResp => exact safeAfter_next (ptpTake_safe _ _ _ hs fun _ _ hu => by dsimp only; split <;> simp [hu])
  -- A command that has its lemma above.
  | ciMark f net xm => exact ciMark_safe f net xm hs
  | downframeStart ch p => exact downframeStart_safe ch p hs
  | resyncIdlePart l => exact resyncIdlePart_safe l hs
  | nandScrubRegion region done => exact nandScrubRegion_safe region done hs
  | vinTestSlot c b last vs => exact vinTestSlot_safe c b last vs hs
  | voutTestWindow k c1 c2 c3 => exact voutTestWindow_safe k c1 c2 c3 hs
  | voutCalibration zero full currents => exact voutCalibration_safe zero full currents hs
  | loopMeasurement ohms => exact loopMeasurement_safe ohms hs
  | vfLowSet v ticks => exact vfLowSet_safe v ticks hs
  | supplyCollapseWarning v ticks => exact supplyCollapseWarning_safe v ticks hs
  | starConfirmation ch => exact starConfirmation_safe ch hs
  | starConfirmTimeout => exact starConfirmTimeout_safe hs
  | vioFirmwareSwap => exact vioFirmwareSwap_safe hs
  | olcLoadEnd c => exact olcLoadEnd_safe c hs
  | updBlock c index crc data => exact updBlock_safe c index crc data hs

/-- A step is a command or a tick, and both keep what a trip left without drive. -/
theorem step_safe {s t : State} (hs : TripSafe s) (h : step s = .next t) : TripSafe t := by
  unfold step at h
  split at h
  case h_1 =>
    cases h
    exact idleTick_safe s hs
  case h_2 c rest _ =>
    have popped : TripSafe { s with pending := rest } := hs
    exact exec_safe c popped t h

/-- Settles O7: the laws of the shared operations carry it through every command, and only `voutApply` ever gives an output drive, while no trip is
in force. -/
theorem tripsKeepEveryOutputDead : Obligations.TripsKeepEveryOutputDead := fun _ _ hs h => step_safe hs h

end Sys2Proof.Proofs.TripSafety
end

section
/-! Vital inputs (O28, R212 to R216): first what a change of one channel leaves, then one equation per command, then the three claims. -/

namespace Sys2Proof.Proofs.VitalInputs

open Sys2Proof Sys2Proof.Machine Sys2Proof.Claims Sys2Proof.Laws

/-! ### One channel changed -/

/-- The state with the channel `c` replaced. -/
def vinSet (c : Nat) (v : VinState) (s : State) : State := onVio (fun x => { x with vin := smSet VinState.zero x.vin c v }) s

@[simp] theorem vinOf_vinSet (c : Nat) (v : VinState) (s : State) : vinOf (vinSet c v s) c = v := smGet_smSet_self _ _ _ _

theorem vinOf_vinSet_ne {c d : Nat} (v : VinState) (s : State) (h : d ≠ c) : vinOf (vinSet c v s) d = vinOf s d := smGet_smSet_ne _ _ _ h

theorem vinOf_vinSet_of_ne {c d : BitVec 5} (v : VinState) (s : State) (h : d ≠ c) :
    vinOf (vinSet c.toNat v s) d.toNat = vinOf s d.toNat :=
  vinOf_vinSet_ne v s fun he => h (BitVec.eq_of_toNat_eq he)

/-- A change of a channel that is not trip-class changes that channel alone. -/
theorem vinChange_of_not_trip {s : State} {c : Nat} (h : (vinCfgOf s c).trip = false) (f : VinState → VinState) :
    vinChange c f s = vinSet c (evalVin (vinCfgOf s c) s.clk.tick (f (vinOf s c))) s := by
  simp [vinChange, vinSet, h]

@[simp] theorem contactOf_onContact (b : Bool) (f : Contact → Contact) (v : VinState) :
    contactOf b (onContact b f v) = f (contactOf b v) := by
  cases b <;> rfl

@[simp] theorem contactOf_not_onContact (b : Bool) (f : Contact → Contact) (v : VinState) :
    contactOf (!b) (onContact b f v) = contactOf (!b) v := by
  cases b <;> rfl

/-- The evaluation of a channel leaves its contacts as they are (R216). -/
theorem evalVin_contacts (cfg : VinCfg) (now : Nat) (v : VinState) : (evalVin cfg now v).a = v.a ∧ (evalVin cfg now v).b = v.b := by
  unfold evalVin
  dsimp only
  split_ifs <;> exact ⟨rfl, rfl⟩

@[simp] theorem contactOf_evalVin (b : Bool) (cfg : VinCfg) (now : Nat) (v : VinState) : contactOf b (evalVin cfg now v) = contactOf b v := by
  obtain ⟨ha, hb⟩ := evalVin_contacts cfg now v
  cases b
  · exact ha
  · exact hb

/-- The contacts of a dual channel that differ make it discrepant once they have done so for DISC_MS (R216). -/
theorem evalVin_discrepant {cfg : VinCfg} {v : VinState} {now since : Nat} (huse : 2 ≤ cfg.use) (hsince : v.differSince = some since)
    (hdiffer : permissive cfg.use false (contactRead cfg.use false v.a) ≠ permissive cfg.use true (contactRead cfg.use true v.b))
    (hlong : since + discTicks cfg ≤ now) : (evalVin cfg now v).discrepant = true := by
  unfold evalVin
  dsimp only
  rw [if_neg (by omega), if_neg (by omega), if_neg hdiffer]
  simp [hsince, hlong]

theorem two_le_use_of_contactUsed {s : State} {c : Nat} (h : contactUsed s c true = true) : 2 ≤ (vinCfgOf s c).use := by
  simp only [contactUsed, Bool.and_eq_true, decide_eq_true_eq, if_true] at h
  exact h.2

/-! ### The filter (R212, R213) -/

/-- The contact after `n` samples at `v`: its run, and its filtered state once the run is full. -/
def filteredContact (s : State) (c : Nat) (b : Bool) (v : BitVec 16) (n : Nat) : Contact :=
  let old := contactOf b (vinOf s c)
  let level := readsClosed old.raw v
  let x := feedContact s.clk.tick c b level n old
  { x with closed := if decide (filterSamples (vinCfgOf s c).filter ≤ x.run) && !masked s.clk.tick c b then level else x.closed }

theorem exec_contactFilterChange {s : State} {c : BitVec 5} {b : Bool} (hused : contactUsed s c.toNat b = true) (htick : vioTick s = true)
    (v : BitVec 16) (n : Nat) : exec (.contactFilterChange c b v n) s =
      .next (vinChange c.toNat (onContact b (fun _ => filteredContact s c.toNat b v n)) s) :=
  congrArg _ (if_pos (by rw [hused, htick]; rfl))

theorem contactTakesItsFilteredState : ContactTakesItsFilteredState := by
  intro s c b v n hused htick htrip old level x full
  refine ⟨_, exec_contactFilterChange hused htick v n, ?_⟩
  rw [vinChange_of_not_trip htrip]
  have closed : (filteredContact s c.toNat b v n).closed =
      if decide (filterSamples (vinCfgOf s c.toNat).filter ≤ x.run) && !masked s.clk.tick c.toNat b then level else old.closed := rfl
  simp only [vinOf_vinSet, contactOf_evalVin, contactOf_onContact, contactOf_not_onContact]
  refine ⟨fun hfull => ?_, fun hnot => ?_, rfl, rfl, trivial, fun d hd => vinOf_vinSet_of_ne _ s hd, rfl, rfl, rfl, rfl⟩
  · rw [closed, if_pos (by simp [hfull.1, hfull.2])]
  · rw [closed, if_neg (by simpa [full] using hnot)]

/-! ### Discrepancy (R216) -/

theorem exec_discrepancyExpiry {s : State} {c : BitVec 5} {since : Nat} (hused : contactUsed s c.toNat true = true)
    (hsince : (vinOf s c.toNat).differSince = some since) (hdisc : (vinOf s c.toNat).discrepant = false)
    (hlong : since + discTicks (vinCfgOf s c.toNat) ≤ s.clk.tick) : exec (.discrepancyExpiry c) s = .next (vinChange c.toNat id s) := by
  have he : exec (.discrepancyExpiry c) s = execDiscrepancyExpiry c s := rfl
  rw [he, execDiscrepancyExpiry]
  simp only [hsince]
  exact congrArg _ (if_pos (by simp [hused, hdisc, hlong]))

theorem differingContactsAreDiscrepant : DifferingContactsAreDiscrepant := by
  intro s c since hused htrip hsince hdisc hdiffer hlong
  refine ⟨_, exec_discrepancyExpiry hused hsince hdisc hlong, ?_⟩
  rw [vinChange_of_not_trip htrip]
  refine ⟨?_, fun d hd => vinOf_vinSet_of_ne _ s hd, rfl⟩
  rw [vinOf_vinSet]
  exact evalVin_discrepant (two_le_use_of_contactUsed hused) hsince hdiffer hlong

/-! ### The test slot (R214, R215) -/

/-- What a test slot makes of its contact: nothing where it read open, a pass counted or the eighth ending its fault, or a fault. -/
def slotJudged (closed opened : Bool) (x : Contact) : Contact :=
  if !closed then x
  else if opened then
    if x.fault = true ∧ 8 ≤ x.passes + 1 then { x with fault := false, passes := 0 } else { x with passes := min 8 (x.passes + 1) }
  else { x with fault := true, passes := 0 }

/-- A due test slot judges its contact and counts once. -/
theorem vinTestSlot_contact {s : State} {c : BitVec 5} {b : Bool} {vs : List (BitVec 16)} (last : BitVec 16)
    (hused : contactUsed s c.toNat b = true) (htrip : (vinCfgOf s c.toNat).trip = false)
    (hown : s.clk.tick / 12500 % 64 = c.toNat + 32 * b2n b) (hlen : vs.length = 20) (hlate : 19 ≤ slotSample s.clk.tick)
    (hslot : (contactOf b (vinOf s c.toNat)).slot ≠ s.clk.tick / 12500 + 1) :
    let x := contactOf b (vinOf s c.toNat)
    let closed := readsClosed x.raw last
    ∃ t, exec (.vinTestSlot c b last vs) s = .next t ∧ contactOf b (vinOf t c.toNat) =
      { slotJudged closed (((samplesOf closed vs).drop 17).all (fun q => !q)) x with slot := s.clk.tick / 12500 + 1 } := by
  intro x closed
  have hdue : (contactUsed s c.toNat b && inOwnSlot s.clk.tick c.toNat b && decide (vs.length = 20) && decide (19 ≤ slotSample s.clk.tick) &&
      decide (x.slot ≠ s.clk.tick / 12500 + 1)) = true := by simp [hused, inOwnSlot, hown, hlen, hlate, hslot, x]
  have kept : ∀ v : VinState, contactOf b (vinOf (vinSet c.toNat v s) c.toNat) = contactOf b v := fun v => by rw [vinOf_vinSet]
  have changed : ∀ (f : VinState → VinState) (u : State), vinOf u c.toNat = vinOf s c.toNat → vinCfgOf u c.toNat = vinCfgOf s c.toNat →
      contactOf b (vinOf (vinChange c.toNat f u) c.toNat) = contactOf b (f (vinOf s c.toNat)) := fun f u hv hc => by
    rw [vinChange_of_not_trip (hc ▸ htrip), vinOf_vinSet, contactOf_evalVin, hv]
  refine ⟨_, congrArg Host.Outcome.next (if_pos hdue), ?_⟩
  unfold slotJudged
  dsimp only
  split
  · exact (kept _).trans (contactOf_onContact _ _ _)
  · split
    · split
      · refine (changed _ _ ?_ ?_).trans (contactOf_onContact _ _ _)
        · rfl
        · rfl
      · exact (kept _).trans (contactOf_onContact _ _ _)
    · refine (changed _ _ ?_ ?_).trans (contactOf_onContact _ _ _)
      · split <;> rfl
      · split <;> rfl

theorem contactTestJudgesItsSlot : ContactTestJudgesItsSlot := by
  intro s c b last vs hused htrip hown hlen hlate hslot x closed opened
  obtain ⟨t, ht, hcontact⟩ := vinTestSlot_contact last hused htrip hown hlen hlate hslot
  refine ⟨t, ht, ?_⟩
  rw [hcontact]
  refine ⟨rfl, fun hc ho => ?_, fun hc ho hfault hpasses => ?_, fun hc ho hfew => ?_, fun hc => ?_⟩
  · have hj : slotJudged closed opened x = { x with fault := true, passes := 0 } := by simp [slotJudged, hc, ho]
    exact hj ▸ ⟨rfl, rfl⟩
  · have hj : slotJudged closed opened x = { x with fault := false, passes := 0 } := by simp [slotJudged, hc, ho, hfault, hpasses]
    exact hj ▸ rfl
  · have hj : slotJudged closed opened x = { x with passes := x.passes + 1 } := by
      have hmin : min 8 (x.passes + 1) = x.passes + 1 := by omega
      have hnot : ¬ 8 ≤ x.passes + 1 := by omega
      simp [slotJudged, hc, ho, hmin, hnot]
    exact hj ▸ ⟨rfl, rfl⟩
  · have hj : slotJudged closed opened x = x := by simp [slotJudged, hc]
    exact hj ▸ ⟨rfl, rfl⟩

/-- Settles O28: a change of a channel that is not trip-class changes that channel alone, and its evaluation leaves the contacts as filter and
test slot have set them. -/
theorem contactsAreFilteredAndTested : Obligations.ContactsAreFilteredAndTested :=
  ⟨contactTakesItsFilteredState, differingContactsAreDiscrepant, contactTestJudgesItsSlot⟩

end Sys2Proof.Proofs.VitalInputs
end

section
/-! Outputs, the field supply and trip-class inputs (O29, O30, R221 to R225, R232, R580): first what a change of one output leaves, then one
equation per command, then the claims. -/

namespace Sys2Proof.Proofs.VitalOutputs

open Sys2Proof Sys2Proof.Machine Sys2Proof.Claims Sys2Proof.Laws Sys2Proof.Proofs.Trips Sys2Proof.Proofs.VitalInputs

/-! ### One output changed, and many -/

theorem voutOf_onVout (k j : Nat) (f : VoutState → VoutState) (s : State) :
    voutOf (onVout k f s) j = if j = k then f (voutOf s k) else voutOf s j := smGet_smSet _ _ _ _ _

@[simp] theorem voutOf_onVout_self (k : Nat) (f : VoutState → VoutState) (s : State) : voutOf (onVout k f s) k = f (voutOf s k) :=
  smGet_smSet_self _ _ _ _

theorem voutOf_onVout_ne {k j : Nat} (f : VoutState → VoutState) (s : State) (h : j ≠ k) : voutOf (onVout k f s) j = voutOf s j :=
  smGet_smSet_ne _ _ _ h

/-- An output without drive and FAILED with its cause (R225). -/
def failedVout (now cause : Nat) (v : VoutState) : VoutState := { deadVout now v with failed := some cause, retest := false }

theorem voutOf_failVout (k j cause : Nat) (s : State) :
    voutOf (failVout k cause s) j = if j = k then failedVout s.clk.tick cause (voutOf s k) else voutOf s j := voutOf_onVout _ _ _ _

@[simp] theorem voutOf_failVout_self (k cause : Nat) (s : State) :
    voutOf (failVout k cause s) k = failedVout s.clk.tick cause (voutOf s k) := voutOf_onVout_self _ _ _

/-- A pass over outputs that changes each it comes to by `g` alone, where `g` does nothing the second time. -/
theorem voutOf_foldl {act : State → Nat → State} {g : Nat → VoutState → VoutState}
    (hact : ∀ u k j, voutOf (act u k) j = if j = k then g u.clk.tick (voutOf u k) else voutOf u j)
    (hclk : ∀ u k, (act u k).clk = u.clk) (hidem : ∀ t v, g t (g t v) = g t v) :
    ∀ (ks : List Nat) (s : State) (j : Nat), voutOf (ks.foldl act s) j = if j ∈ ks then g s.clk.tick (voutOf s j) else voutOf s j := by
  intro ks
  induction ks with
  | nil => intro s j; simp
  | cons k ks ih =>
    intro s j
    rw [List.foldl_cons, ih, hact, hclk]
    by_cases hjk : j = k
    · subst hjk
      simp [hidem]
    · simp [hjk]

/-! ### Trip-class inputs (R232) -/

/-- A trip-class channel whose VALUE falls in a run that votes trips the module, its new value kept. -/
theorem vinChange_trips {s : State} {c : Nat} {f : VinState → VinState} (hruns : ctlRuns s = true) (htrip : (vinCfgOf s c).trip = true)
    (hold : (vinOf s c).value = true) (hnew : (evalVin (vinCfgOf s c) s.clk.tick (f (vinOf s c))).value = false) :
    vinChange c f s = trip 0x0A true (vinSet c (evalVin (vinCfgOf s c) s.clk.tick (f (vinOf s c))) s) := by
  obtain ⟨-, hvoted, -, -⟩ := ctlRuns_iff.mp hruns
  have hloud : ∀ g, silentRun (onVio g s) = false := fun g => by
    have hvoted : (voter (onVio g s)).votedRun = true := hvoted
    simp [silentRun, hvoted]
  refine if_pos ?_
  rw [htrip, hold, hnew, hloud]
  rfl

theorem tripClassInputTrips : TripClassInputTrips := by
  intro s c b v n hused htick htrip hvalue old x hfull hclear hfalls hruns _
  have hthrough : filteredContact s c.toNat b v n = { x with closed := readsClosed old.raw v } := by
    have hcond : (decide (filterSamples (vinCfgOf s c.toNat).filter ≤ x.run) && !masked s.clk.tick c.toNat b) = true := by simp [hfull, hclear]
    simp only [filteredContact]
    rw [if_pos hcond]
  have hnew : (evalVin (vinCfgOf s c.toNat) s.clk.tick (onContact b (fun _ => filteredContact s c.toNat b v n) (vinOf s c.toNat))).value = false := by
    rw [hthrough]
    exact hfalls
  refine ⟨_, exec_contactFilterChange hused htick v n, ?_⟩
  rw [vinChange_trips hruns htrip hvalue hnew]
  generalize evalVin _ _ _ = y
  have hstill : ctlRuns (vinSet c.toNat y s) = true := hruns
  have struck := trip_struck hstill 0x0A true
  have ht0 := congrArg TripState.t0 struck.trip
  exact ⟨struck.inForce, struck.mask, struck.ctrlReset, ht0, trip_dead hstill 0x0A true, struck.stopped⟩

/-! ### The field supply (R580) -/

/-- The gate of one output closed. -/
def gateClosed (s : State) (k : Nat) : State := onVout k (fun x => { x with gate := false }) s

/-- Every gate of VOUT0 to VOUT15 closed. -/
def gatesClosed (s : State) : State := (List.range 16).foldl gateClosed s

theorem voutOf_gatesClosed (s : State) (j : Nat) :
    voutOf (gatesClosed s) j = if j ∈ List.range 16 then { voutOf s j with gate := false } else voutOf s j :=
  voutOf_foldl (act := gateClosed) (g := fun _ x => { x with gate := false }) (fun u k j => voutOf_onVout k j _ u) (fun _ _ => rfl)
    (fun _ _ => rfl) (List.range 16) s j

/-- What no output is of stays as it is while the gates are closed. -/
theorem gatesClosed_keeps {α : Type} (f : State → α) (hf : ∀ k g u, f (onVout k g u) = f u) (s : State) : f (gatesClosed s) = f s :=
  foldl_keeps f _ (fun u k => hf k _ u) _ s

theorem exec_vfLowSet {s : State} {v : BitVec 16} {n : Nat} (hd : domRun s 11 = true) (hl : s.mgt.elec.vfLow = false) (hv : v.toNat < 170)
    (hn : 25000 ≤ n) :
    exec (.vfLowSet v n) s = .next (gatesClosed (onElec (fun e => { e with vfLow := true }) (vfRecord true v s))) := by
  have he : exec (.vfLowSet v n) s = execVfLowSet v n s := rfl
  rw [he, execVfLowSet, if_pos (by simp [hd, hl, hv, hn])]
  rfl

theorem exec_vfLowClear {s : State} {v : BitVec 16} {n : Nat} (hd : domRun s 11 = true) (hl : s.mgt.elec.vfLow = true) (hv : 180 ≤ v.toNat)
    (hn : msTicks 100 ≤ n) :
    exec (.vfLowClear v n) s = .next (onElec (fun e => { e with vfLow := false }) (vfRecord false v s)) := by
  have he : exec (.vfLowClear v n) s = execVfLowClear v n s := rfl
  rw [he, execVfLowClear, if_pos (by simp [hd, hl, hv, hn])]

theorem lowFieldSupplyClosesEveryGate : LowFieldSupplyClosesEveryGate := by
  constructor
  · intro s v n hd hl hv hn
    refine ⟨_, exec_vfLowSet hd hl hv hn, ?_, fun k => ?_, fun k => ?_, ?_, ?_⟩
    · exact gatesClosed_keeps (fun u => u.mgt.elec.vfLow) (fun _ _ _ => rfl) _
    · rw [voutOf_gatesClosed, if_pos (List.mem_range.mpr k.isLt)]
    · rw [voutOf_gatesClosed]
      split <;> rfl
    · exact gatesClosed_keeps (fun u => u.ctl.trip) (fun _ _ _ => rfl) _
    · exact gatesClosed_keeps (fun u => u.ctl.lanes) (fun _ _ _ => rfl) _
  · intro s v n hd hl hv hn
    exact ⟨_, exec_vfLowClear hd hl hv hn, rfl, rfl⟩

/-- Settles O29: a falling VALUE of a trip-class channel is a trip, which leaves every output dead and every lane stopped, and a low field supply
closes the gates one by one, each alone. -/
theorem tripInputsAndLowSupply : Obligations.TripInputsAndLowSupply := ⟨tripClassInputTrips, lowFieldSupplyClosesEveryGate⟩

/-! ### A fault of one output (R221, R222, R225) -/

/-- The command takes the drive off output `k` and fails it with `cause`; nothing happens to another output, a lane or the links. -/
def FailsOutput (s : State) (k : BitVec 5) (c : Instr) (cause : Nat) : Prop :=
  ∃ t, exec c s = .next t ∧ (voutOf t k.toNat).failed = some cause ∧ (voutOf t k.toNat).gate = false ∧
    (voutOf t k.toNat).commanded = false ∧ (∀ j : BitVec 5, j ≠ k → voutOf t j.toNat = voutOf s j.toNat) ∧
    t.ctl.lanes = s.ctl.lanes ∧ t.data = s.data

/-- A command fails an output where it leaves the control plane as `failVout` does, from a state in which at most that output has changed. -/
theorem failsOutput_of_ctl {s t u : State} {k : BitVec 5} {c : Instr} {cause : Nat} (h : exec c s = .next t)
    (hctl : t.ctl = (failVout k.toNat cause u).ctl) (hdata : t.data = s.data) (hlanes : u.ctl.lanes = s.ctl.lanes)
    (hothers : ∀ j, j ≠ k.toNat → voutOf u j = voutOf s j) : FailsOutput s k c cause := by
  have hvout : ∀ j, voutOf t j = voutOf (failVout k.toNat cause u) j := fun j => by rw [voutOf, hctl]; rfl
  have hself : voutOf t k.toNat = failedVout u.clk.tick cause (voutOf u k.toNat) := (hvout _).trans (voutOf_failVout_self _ _ _)
  refine ⟨t, h, by rw [hself]; rfl, by rw [hself]; rfl, by rw [hself]; rfl, fun j hj => ?_, ?_, hdata⟩
  · have hj : j.toNat ≠ k.toNat := fun he => hj (BitVec.eq_of_toNat_eq he)
    rw [hvout, voutOf_failVout, if_neg hj, hothers _ hj]
  · rw [hctl]
    exact hlanes

theorem failsOutput_of_failVout {s : State} {k : BitVec 5} {c : Instr} {cause : Nat} (h : exec c s = .next (failVout k.toNat cause s)) :
    FailsOutput s k c cause := failsOutput_of_ctl h rfl rfl rfl fun _ _ => rfl

/-- A judgement that finds nothing changes nothing (R221). -/
theorem exec_voutReadback_agrees {s : State} {k : BitVec 5} {r : Readback} (hj : judgement s k.toNat r = none) :
    exec (.voutReadback k r) s = .next s := by
  have he : exec (.voutReadback k r) s = execVoutReadback k r s := rfl
  rw [he, execVoutReadback]
  simp only [hj]
  exact congrArg _ (ite_self s)

section
variable {s : State} {k : BitVec 5} (hk : k.toNat ≤ 16) (hd : domRun s 11 = true)
include hk hd

theorem voutOvercurrent_fails (hok : (voutOf s k.toNat).failed = none) (hc : (voutOf s k.toNat).commanded = true) {ma : Nat}
    (hma : overloadMa k.toNat < ma) : FailsOutput s k (.voutOvercurrent k ma) 1 :=
  failsOutput_of_failVout (congrArg Host.Outcome.next (if_pos ⟨hk, hd, by rw [hok]; rfl, hc, hma⟩))

/-- A judgement that finds a cause fails an output that has none (R225). -/
theorem voutReadback_fails (hok : (voutOf s k.toNat).failed = none) (hdue : judgementDue s k.toNat = true) {r : Readback} {cause : Nat}
    (hj : judgement s k.toNat r = some cause) : FailsOutput s k (.voutReadback k r) cause := by
  have he : exec (.voutReadback k r) s = execVoutReadback k r s := rfl
  have hgo : k.toNat ≤ aliveKey ∧ domRun s 11 = true ∧ judgementDue s k.toNat = true := ⟨hk, hd, hdue⟩
  by_cases h7 : cause = 7
  · subst h7
    refine failsOutput_of_ctl (t := onElec (fun e => { e with foreignEnergy := true }) (failVout k.toNat 7 s)) ?_ rfl rfl rfl fun _ _ => rfl
    rw [he, execVoutReadback]
    simp only [hj, if_pos hgo, hok]
    rfl
  · refine failsOutput_of_failVout ?_
    rw [he, execVoutReadback]
    simp only [hj, if_pos hgo, hok]
    rfl

end

/-! What a judgement finds (R221, R576). -/

section
variable {s : State} {k : Nat} {r : Readback}

theorem judgement_overload (hc : (voutOf s k).commanded = true) (hma : overloadMa k < r.ma) : judgement s k r = some 1 := by
  simp [judgement, hc, hma]

theorem judgement_low (hc : (voutOf s k).commanded = true) (hma : r.ma ≤ overloadMa k) (hv : corrected s r.mv < 20000)
    (hl : stageDead s k = false) : judgement s k r = some 2 := by
  simp [judgement, hc, Nat.not_lt.mpr hma, hv, hl]

theorem judgement_high (hc : (voutOf s k).commanded = true) (hma : r.ma ≤ overloadMa k) (hv : 20000 ≤ corrected s r.mv) :
    judgement s k r = if r.carrier then none else some 9 := by
  simp [judgement, hc, Nat.not_lt.mpr hma, Int.not_lt.mpr hv]

theorem judgement_foreign (hc : (voutOf s k).commanded = false) (hv : 2000 < corrected s r.mv) : judgement s k r = some 7 := by
  simp [judgement, hc, hv]

theorem judgement_off (hc : (voutOf s k).commanded = false) (hv : corrected s r.mv ≤ 2000) :
    judgement s k r = if r.carrier then some 9 else none := by
  simp [judgement, hc, Int.not_lt.mpr hv]

end

/-! ### The test window (R222, R223) -/

/-- The output's test is no longer put off. -/
def testTaken (s : State) (k : Nat) : State := onVout k (fun v => { v with testing := false }) s

/-- In its scan's window an output in order is tested: it keeps its state, or is failed with the cause that the steps find. -/
theorem exec_voutTestWindow {s : State} {k : BitVec 5} (hk : k.toNat ≤ 16) (hd : domRun s 11 = true)
    (hok : (voutOf s k.toNat).failed = none) (hretest : (voutOf s k.toNat).retest = false) (hrun : (voter s).running = true)
    (hrel : (voter s).released = true) (htrip : s.ctl.trip.inForce = false) (hscan : testScan s k.toNat = true)
    (hstill : (voutOf s k.toNat).changedAt = 0) (hopen : s.ctl.followers.vio.lastCi + 500 ≤ s.clk.tick)
    (hclose : s.clk.tick ≤ s.ctl.followers.vio.lastCi + 2000) (hlive : stageDead s k.toNat = false) (c1 c2 c3 : Bool) :
    exec (.voutTestWindow k c1 c2 c3) s = .next ((testCause (voutOf s k.toNat).commanded c1 c2 c3).elim (testTaken s k.toNat)
      fun cause => failVout k.toNat cause (testTaken s k.toNat)) := by
  have he : exec (.voutTestWindow k c1 c2 c3) s = execVoutTestWindow k c1 c2 c3 s := rfl
  have hlate : changedLate s (voutOf s k.toNat) = false := by simp [changedLate, hstill]
  have hgo : k.toNat ≤ aliveKey ∧ domRun s 11 = true ∧ (voter s).running = true ∧ (voter s).released = true ∧ (!s.ctl.trip.inForce) = true ∧
      s.ctl.followers.vio.lastCi + 500 ≤ s.clk.tick ∧ s.clk.tick ≤ s.ctl.followers.vio.lastCi + 2000 :=
    ⟨hk, hd, hrun, hrel, by rw [htrip]; rfl, hopen, hclose⟩
  rw [he, execVoutTestWindow]
  simp only [if_pos hgo, hretest, hok, hscan, hlate, hlive, Bool.false_and, Bool.or_false]
  cases testCause (voutOf s k.toNat).commanded c1 c2 c3 <;> rfl

theorem outputFaultsFailTheOutput : OutputFaultsFailTheOutput := by
  intro s k hk hd hok hretest v failed
  refine ⟨fun ma hc hma => voutOvercurrent_fails hk hd hok hc hma, fun hdue r => ?_,
    fun hrun hrel htrip hscan hstill hopen hclose hlive c1 c2 c3 => ?_⟩
  · have fails : ∀ {cause}, judgement s k.toNat r = some cause → FailsOutput s k (.voutReadback k r) cause := voutReadback_fails hk hd hok hdue
    refine ⟨fun hc hma => fails (judgement_overload hc hma), fun hc hma hv hl => fails (judgement_low hc hma hv hl),
      fun hc hv => fails (judgement_foreign hc hv), fun hc hma hv hr => fails ?_, fun hc hv hr => fails ?_, fun hagrees => ?_⟩
    · rw [judgement_high hc hma hv, hr]; rfl
    · rw [judgement_off hc hv, hr]; rfl
    · refine exec_voutReadback_agrees ?_
      obtain ⟨hc, hma, hv, hr⟩ | ⟨hc, hv, hr⟩ := hagrees
      · rw [judgement_high hc hma hv, hr]; rfl
      · rw [judgement_off hc hv, hr]; rfl
  · have htest := exec_voutTestWindow hk hd hok hretest hrun hrel htrip hscan hstill hopen hclose hlive c1 c2 c3
    refine ⟨fun cause hcause => ?_, fun hnone => ?_⟩
    · rw [hcause] at htest
      exact failsOutput_of_ctl htest rfl rfl rfl fun j hj => voutOf_onVout_ne _ _ hj
    · rw [hnone, Option.elim_none] at htest
      have hself : voutOf (testTaken s k.toNat) k.toNat = { v with testing := false } := voutOf_onVout_self _ _ _
      refine ⟨_, htest, ?_, ?_, ?_, fun j hj => voutOf_onVout_ne _ _ fun he => hj (BitVec.eq_of_toNat_eq he)⟩
      · exact (congrArg VoutState.failed hself).trans hok
      · exact (congrArg VoutState.commanded hself :)
      · exact congrArg VoutState.testing hself

/-! ### Calibration (R224) -/

/-- The instant of the calibration kept. -/
def calibrated (s : State) : State := onVio (fun v => { v with calAt := some s.clk.tick }) s

/-- The references kept as the correction from now on. -/
def referenced (zero full : Int) (s : State) : State := onVio (fun v => { v with calZero := zero, calFull := full }) s

/-- One output of a calibration beyond its bounds: failed, unless it is FAILED already and not under its start's test. -/
def calFailed (s : State) (k : Nat) : State := if (voutOf s k).failed.isSome && !(voutOf s k).retest then s else failVout k 8 s

/-- What such a calibration makes of one output. -/
def calFailedVout (now : Nat) (v : VoutState) : VoutState := if v.failed.isSome && !v.retest then v else failedVout now 8 v

/-- Once a scan a calibration is made where VIO runs (R224). -/
theorem exec_voutCalibration {s : State} (hd : domRun s 11 = true)
    (hdue : ∀ at_, s.ctl.vio.calAt = some at_ → at_ < s.ctl.followers.vio.lastCi) (zero full : Int) (cs : List (Nat × Nat)) :
    exec (.voutCalibration zero full cs) s = .next (if beyondBounds zero full then (List.range 17).foldl calFailed (calibrated s)
      else cs.foldl loadReading (referenced zero full (calibrated s))) := by
  have he : exec (.voutCalibration zero full cs) s = execVoutCalibration zero full cs s := rfl
  rw [he, execVoutCalibration, if_neg]
  · rfl
  · cases hcal : s.ctl.vio.calAt with
    | none => simp [hd]
    | some at_ => simp [hd, hdue at_ hcal]

theorem voutOf_calFailed (s : State) (k j : Nat) :
    voutOf (calFailed s k) j = if j = k then calFailedVout s.clk.tick (voutOf s k) else voutOf s j := by
  unfold calFailed calFailedVout
  split
  · split
    · next hjk => rw [hjk]
    · rfl
  · exact voutOf_failVout _ _ _ _

theorem calFailed_clk (s : State) (k : Nat) : (calFailed s k).clk = s.clk := by
  unfold calFailed
  split <;> rfl

theorem calFailedVout_of_ok {v : VoutState} (now : Nat) (h : v.failed = none) : calFailedVout now v = failedVout now 8 v :=
  if_neg (by simp [h])

/-- After the calibration's pass an output is FAILED and not under its start's test. -/
theorem calFailedVout_listed (now : Nat) (v : VoutState) :
    ((calFailedVout now v).failed.isSome && !(calFailedVout now v).retest) = true := by
  unfold calFailedVout
  split
  · next h => exact h
  · rfl

theorem calFailedVout_idem (now : Nat) (v : VoutState) : calFailedVout now (calFailedVout now v) = calFailedVout now v :=
  if_pos (calFailedVout_listed now v)

theorem voutOf_allCalFailed {k : Nat} (hk : k ≤ 16) (s : State) :
    voutOf ((List.range 17).foldl calFailed s) k = calFailedVout s.clk.tick (voutOf s k) := by
  rw [voutOf_foldl voutOf_calFailed calFailed_clk calFailedVout_idem, if_pos (List.mem_range.mpr (Nat.lt_succ_of_le hk))]

/-- A reading of an energised output in order is added to what its load is learned from. -/
theorem voutOf_loadReading {s : State} {k : Nat} (ma : Nat) (hk : k ≤ 16) (hc : (voutOf s k).commanded = true)
    (hok : (voutOf s k).failed = none) (hfew : (voutOf s k).learnCount < 64) : ∃ run learned, voutOf (loadReading s (k, ma)) k =
      { voutOf s k with offRun := run, learnCount := (voutOf s k).learnCount + 1, learnSum := (voutOf s k).learnSum + ma, learned := learned } := by
  have hgo : ¬ (aliveKey < k ∨ (!(voutOf s k).commanded) = true ∨ (voutOf s k).failed.isSome = true) := by
    have : ¬ aliveKey < k := Nat.not_lt.mpr hk
    simp [this, hc, hok]
  have reported : ∀ (p : Prop) [Decidable p] (u : State), voutOf u k = voutOf s k → voutOf (if p then u else s) k = voutOf s k := by
    intro p _ u hu
    split
    · exact hu
    · rfl
  unfold loadReading
  simp only [if_neg hgo]
  rw [voutOf_onVout_self, reported _ (report _ _ _ _ _ _) rfl, if_pos hfew]
  exact ⟨_, _, rfl⟩

theorem badCalibrationFailsEveryOutput : BadCalibrationFailsEveryOutput := by
  intro s hd hdue zero full
  refine ⟨fun hbad => ?_, fun hbad cs => ?_, fun hgood => ⟨?_, fun k ma hk hc hok hfew => ?_⟩⟩
  · simpa [beyondBounds, or_assoc] using hbad
  · refine ⟨_, exec_voutCalibration hd hdue zero full cs, fun k hk => ?_⟩
    have hself := voutOf_allCalFailed hk (calibrated s)
    rw [if_pos hbad, hself]
    refine ⟨fun hok => ?_, (Bool.and_eq_true_iff.mp (calFailedVout_listed _ _)).1⟩
    have hok : (voutOf (calibrated s) k.toNat).failed = none := hok
    rw [calFailedVout_of_ok _ hok]
    exact ⟨rfl, rfl, rfl⟩
  · refine ⟨_, exec_voutCalibration hd hdue zero full [], ?_⟩
    rw [hgood]
    exact ⟨rfl, rfl, rfl, rfl, rfl⟩
  · refine ⟨_, exec_voutCalibration hd hdue zero full [(k.toNat, ma)], ?_⟩
    obtain ⟨run, learned, hself⟩ := voutOf_loadReading (s := referenced zero full (calibrated s)) ma hk hc hok hfew
    have hself : voutOf ([(k.toNat, ma)].foldl loadReading (referenced zero full (calibrated s))) k.toNat = _ := hself
    rw [if_neg (by simp [hgood]), hself]
    exact ⟨rfl, rfl, hok, hc⟩

/-- Settles O30: every fault found takes the output's drive and leaves the others alone, and a pass over all outputs fails each once. The corrected
readings and the order of contradictions are the model's (log entry 116). -/
theorem outputsFailSafe : Obligations.OutputsFailSafe := ⟨outputFaultsFailTheOutput, badCalibrationFailsEveryOutput⟩

end Sys2Proof.Proofs.VitalOutputs
end

section
/-! The switch bank (O31, R227, R228): a sample that reads S2 off may itself end the run, and with it the sample. -/

namespace Sys2Proof.Proofs.SwitchBank

open Sys2Proof Sys2Proof.Machine Sys2Proof.Claims

/-- S1 and S2 stand debounced as on, and S2 has read off in the last 19 samples (R227). -/
def s2GoingOff : SMap Pole := [(1, ⟨some true, true, 20⟩), (2, ⟨some true, false, 19⟩)]

/-- In ENGINEERING a debugger has halted the only seat lane, A, which has tripped the module without CTRL_RESET (R563). Both voter halves and lane A
run, S2 is going off, and half X's next sample is due. -/
def haltTripped : State :=
  onDbg (fun d => { d with attached := some .a, halted := some .a, trippedByHalt := true })
    (onSeal (fun q => { q with poles := Halves.all s2GoingOff, judged := true })
      (onTrip (fun t => { t with inForce := true })
        (onStart (fun x => { x with bivouac := false, service := false })
          (onPower (fun p => { p with domains := [(5, .run), (6, .run), (7, .run)] }) State.reset))))

theorem haltTripped_sampleDue : sampleDue haltTripped .x = true ∧ engSwitchOn haltTripped 2 = true := by decide

/-- The 20th sample of S2 off detaches the debugger, the halted lane goes on, and so CTRL_RESET is asserted (R560, R563): half X holds no sample
any more. -/
theorem haltTripped_holds_no_sample :
    ∃ u, exec (.switchPoleSample .x 1#8) haltTripped = .next u ∧ domRun u 5 = false ∧ u.ctl.seals.sampled.x = none :=
  ⟨_, rfl, by decide, by decide⟩

/-- Refutes O31: its first clause on the poles claims for every state in which a sample is due that the half then holds its instant. In
`haltTripped` the sample turns S2 off, which detaches the debugger; the end of its halt asserts CTRL_RESET, which holds the voter and clears the
samples and the poles. The clause does not assume that no debugger is attached. -/
theorem not_loopAndSwitchesAreSampled : ¬ Obligations.LoopAndSwitchesAreSampled := by
  intro h
  obtain ⟨-, -, hpoles, -⟩ := h
  obtain ⟨t, ht, -, hsampled, -⟩ := hpoles haltTripped 1#8 haltTripped_sampleDue.1
  obtain ⟨u, hu, -, hnone⟩ := haltTripped_holds_no_sample
  obtain rfl := Host.Outcome.next.inj (ht.symm.trans hu)
  rw [hnone] at hsampled
  cases hsampled

end Sys2Proof.Proofs.SwitchBank
end

section
/-! The FRC commands and the withdrawal of an unshown force request (O49): first what a field of a map reads after it is written and what the store
of forces leaves alone, then the commands, then FORCE_TIMEOUT. -/

namespace Sys2Proof.Proofs.Forcing

open Sys2Proof Sys2Proof.Machine Sys2Proof.Claims Sys2Proof.Laws

/-! ### A field of a map (R113) -/

theorem varBit_setVarBits_of_lt (w v : Nat) (m : SMap W64) {a k : Nat} (h : k < a) : varBit (setVarBits w a v m) k = varBit m k := by
  induction w generalizing a v m with
  | zero => rfl
  | succ w ih => rw [setVarBits, ih _ _ (Nat.lt_succ_of_lt h), Engines.varBit_setVarBit, if_neg h.ne]

/-- A field reads back the low bits of the number written to it. -/
theorem varBits_setVarBits (w a v : Nat) (m : SMap W64) : varBits w a (setVarBits w a v m) = v % 2 ^ w := by
  induction w generalizing a v m with
  | zero => rw [pow_zero, Nat.mod_one]; rfl
  | succ w ih =>
    have low : varBit (setVarBits w (a + 1) (v / 2) (setVarBit a (v % 2 == 1) m)) a = (v % 2 == 1) := by
      rw [varBit_setVarBits_of_lt _ _ _ a.lt_succ_self, Engines.varBit_setVarBit, if_pos rfl]
    have bit : b2n (v % 2 == 1) = v % 2 := by
      obtain h | h := Nat.mod_two_eq_zero_or_one v <;> rw [h] <;> rfl
    rw [varBits, setVarBits, ih, low, bit, pow_succ', Nat.mod_mul]

/-- A field of the admission area that is written holds the number's low bits in the staging copy (R113, R254). -/
theorem varBits_admWrite (w a v : Nat) (s : State) : varBits w a (admWrite w a v s).ctl.adm.staging = v % 2 ^ w :=
  varBits_setVarBits w a v s.ctl.adm.staging

/-! ### The store of forces (R252) -/

/-- Of the control plane only the stored forces may differ, and neither the mailbox nor the data plane does (R252). -/
def StoreOnly (s t : State) : Prop :=
  (∃ stored, t.ctl = { s.ctl with force := { s.ctl.force with stored := stored } }) ∧ t.mgt.mbx = s.mgt.mbx ∧ t.data = s.data

theorem storeOnly_rfl (s : State) : StoreOnly s s := ⟨⟨_, rfl⟩, rfl, rfl⟩

theorem storeOnly_storeForce (id : Nat) (v : BitVec 16) (s : State) : StoreOnly s (storeForce id v s) := by
  unfold storeForce
  split
  · exact ⟨⟨_, rfl⟩, rfl, rfl⟩
  · exact storeOnly_rfl s

theorem storeOnly_storeBack (id : Nat) (s : State) : StoreOnly s (storeBack id s) := by
  unfold storeBack
  split
  · split
    · exact ⟨⟨_, rfl⟩, rfl, rfl⟩
    · exact storeOnly_storeForce _ _ s
  · exact ⟨⟨_, rfl⟩, rfl, rfl⟩

/-! ### The slots (R254) -/

/-- With no request waiting for a slot MGT fills none. -/
theorem fillSlot_of_none_waiting {s : State} (h : ∀ r ∈ s.ctl.force.pending, r.slot.isSome = true) : fillSlot s = s := by
  have none_waits : s.ctl.force.pending.find? (fun q => q.slot.isNone) = none :=
    List.find?_eq_none.mpr fun r hr => by simp [Option.isSome_iff_ne_none.mp (h r hr)]
  unfold fillSlot
  rw [none_waits]
  cases freeSlot s <;> rfl

theorem fillSlots_of_none_waiting {s : State} (h : ∀ r ∈ s.ctl.force.pending, r.slot.isSome = true) : fillSlots s = s := by
  have once := fillSlot_of_none_waiting h
  rw [fillSlots, once, once, once, once]

/-! ### The commands (R241, R242, R431) -/

/-- A mailbox command that is accepted, and that no row of its own refuses, acts (R419, R420). -/
theorem cmdRun_of_accepted {i : Instr} {c : CmdHdr} {op : Nat} {form exempt : Bool} {rows : List (Bool × Status)} {act : State → State} {s : State}
    (h : Accepted i s) (hi : mailbox i = some (c, op, form, exempt)) (hr : judge rows = none) : cmdRun c op form exempt rows act s = act s := by
  unfold Accepted at h
  rw [hi] at h
  obtain ⟨hup, hform, hbist⟩ := h
  exact cmdRun_go hup hform hbist hr

section

variable {s : State} {c : CmdHdr}

theorem exec_frcSet {id : W32} {v : BitVec 16} (h : Accepted (.frcSet c id v) s) (hrun : notRunning s = false)
    (hallowed : judgeForce s (runImage s) (forceTable s) id.toNat v = none) :
    exec (.frcSet c id v) s = .next (enqueueForce (refOf c 0x0500) 1 id.toNat v
      (if (forceOf s id.toNat v).any then s else storeForce id.toNat v s)) :=
  congrArg Host.Outcome.next (cmdRun_of_accepted h rfl (by simp [judge, hrun, hallowed]))

theorem exec_frcClear {id : W32} (h : Accepted (.frcClear c id) s) (hrun : notRunning s = false) :
    exec (.frcClear c id) s = .next
      (if (smFind (forceTable s) id.toNat).isNone ∧ !(s.ctl.force.pending.any (fun q => q.varId = id.toNat ∨ q.fop = 3)) then
        finish c 0x0501 .ok (scnLe s) [] s
      else enqueueForce (refOf c 0x0501) 2 id.toNat 0 s) :=
  congrArg Host.Outcome.next (cmdRun_of_accepted h rfl (by simp [judge, hrun]))

theorem exec_frcClearAll (h : Accepted (.frcClearAll c) s) (hrun : notRunning s = false) :
    exec (.frcClearAll c) s = .next (enqueueForce (refOf c 0x0502) 3 0 0 s) :=
  congrArg Host.Outcome.next (cmdRun_of_accepted h rfl (by simp [judge, hrun]))

theorem exec_frcList {q : Snapshot} (h : Accepted (.frcList c) s) (hq : currentSnapshot s = some q) :
    exec (.frcList c) s = .next (finish c 0x0503 .ok (le4 q.scn.toNat ++ le2 q.forces.length) (snapBytes q 0x1000 0x2000) s) :=
  (congrArg Host.Outcome.next (cmdRun_of_accepted h rfl (by simp [judge, hq]))).trans (by rw [hq])

end

theorem frcCommandsAct : FrcCommandsAct := by
  intro s c
  refine ⟨fun _ _ => exec_frcSet, fun id h hrun => ⟨fun hfree hunasked => ?_, fun hforced => ?_⟩, exec_frcClearAll, fun _ => exec_frcList⟩
  · rw [exec_frcClear h hrun, if_pos ⟨Option.isNone_iff_eq_none.mpr hfree, by rw [hunasked]; rfl⟩]
  · rw [exec_frcClear h hrun, if_neg]
    rintro ⟨hfree, hunasked⟩
    obtain hforce | hasked := hforced
    · exact hforce (Option.isNone_iff_eq_none.mp hfree)
    · rw [hasked] at hunasked
      cases hunasked

/-! ### FORCE_TIMEOUT (R245) -/

/-- The slot's FSEQ is cleared, and the request is MGT's no more. -/
def slotCleared (slot : Nat) (q : ForceReq) (s : State) : State :=
  onForce (fun f => { f with pending := f.pending.filter (fun r => r ≠ q) }) (admWrite 16 (slotBase slot) 0 s)

/-- The request is withdrawn; one to set a force gives the store back what the table shows. -/
def withdrawn (slot : Nat) (q : ForceReq) (s : State) : State :=
  finishRef q.cmd .timeout 0 [] [] (if q.fop = 1 then storeBack q.varId (slotCleared slot q s) else slotCleared slot q s)

theorem exec_forceTimeout {s : State} {slot : BitVec 2} {q : ForceReq}
    (hq : s.ctl.force.pending.find? (fun q => q.slot = some slot.toNat ∧ 64 ≤ q.scans) = some q) :
    exec (.forceTimeout slot) s = .next (fillSlots (withdrawn slot.toNat q s)) := by
  have h : exec (.forceTimeout slot) s = execForceTimeout slot s := rfl
  rw [h, execForceTimeout, hq]
  rfl

/-- A withdrawal completes the command; before that it clears the slot and may give the store back, no more. -/
theorem withdrawn_eq (slot : Nat) (q : ForceReq) (s : State) :
    ∃ t, withdrawn slot q s = finishRef q.cmd .timeout 0 [] [] t ∧ StoreOnly (slotCleared slot q s) t := by
  refine ⟨_, rfl, ?_⟩
  split
  · exact storeOnly_storeBack _ _
  · exact storeOnly_rfl _

theorem unshownForcesTimeOut : UnshownForcesTimeOut := by
  intro s slot q hq hslots
  obtain ⟨t, ht, ⟨stored, hctl⟩, hmbx, hdata⟩ := withdrawn_eq slot.toNat q s
  have hpending : t.ctl.force.pending = s.ctl.force.pending.filter (fun r => r ≠ q) := by rw [hctl]; rfl
  have none_waits : ∀ r ∈ (finishRef q.cmd .timeout 0 [] [] t).ctl.force.pending, r.slot.isSome = true := fun r hr => by
    rw [finishRef_ctl, hpending] at hr
    exact hslots r (List.mem_of_mem_filter hr)
  refine ⟨finishRef q.cmd .timeout 0 [] [] t, ?_, hpending, ?_, ?_, ?_, ?_, hdata⟩
  · rw [exec_forceTimeout hq, ht, fillSlots_of_none_waiting none_waits]
  · rw [finishRef_ctl, hctl]
    exact varBits_admWrite 16 (slotBase slot.toNat) 0 s
  · rw [finishRef_finished, finishRef_finished, hmbx]
    rfl
  · rw [finishRef_ctl, hctl]
    rfl
  · rw [finishRef_ctl, hctl]
    rfl

/-- Settles O49: no row refuses the FRC commands, so each is its own act; and where every request has its slot, the slot that a withdrawal clears stays
empty, for none waits to be written into it. -/
theorem forceCommandsAct : Obligations.ForceCommandsAct := ⟨frcCommandsAct, unshownForcesTimeOut⟩

end Sys2Proof.Proofs.Forcing
end

section
/-! Upframe records at the lanes (O26, R295 to R297): what a lane keeps of a record by its first failed row, then the command. -/

namespace Sys2Proof.Proofs.UpframeRecords

open Sys2Proof Sys2Proof.Machine Sys2Proof.Laws

/-! ### What a lane keeps of a record (R296, R297) -/

section
variable {s : State} {ch : Chan} {p : Nat} {n : NodeLink} {b : List Byte}

/-- A valid record gives its payload, its USEQ and its flags, and counts no failure. -/
theorem recordTaken_of_valid (h : upframeRow s ch p { n with seenAt := some (followerOf s (.star ch)).cycle } b = none) :
    recordTaken s ch p b n = { n with
      seenAt := some (followerOf s (.star ch)).cycle, last := some (BitVec.ofNat 8 (hdrByte b 3)), got := some (BitVec.ofNat 8 (hdrByte b 3)),
      gotAt := cycleNow s, payload := framePayload b, nfault := bitN (hdrByte b 1) 4, nrestr := bitN (hdrByte b 1) 5,
      ack := (ackOf s b).or n.ack } := by
  simp only [recordTaken, h]
  cases ackOf s b <;> rfl

/-- A record that fails a row is counted under it. -/
theorem recordTaken_of_row {w : Nat} (h : upframeRow s ch p { n with seenAt := some (followerOf s (.star ch)).cycle } b = some w) :
    recordTaken s ch p b n =
      { n with seenAt := some (followerOf s (.star ch)).cycle, fails := smSet 0 n.fails w (smGet 0 n.fails w + 1) } := by
  simp only [recordTaken, h]

end

/-! ### The command (R295) -/

/-- The lane with what it keeps of a record in place of what it kept of the node on the channel. -/
def recordKept (l : Lane) (ch : Chan) (p : Nat) (b : List Byte) (s : State) : State :=
  let kept := recordTaken s ch p b (smGet NodeLink.zero (lane s l).nodes (portKey ch p))
  onLane l (fun x => { x with nodes := smSet NodeLink.zero x.nodes (portKey ch p) kept }) s

theorem lane_recordKept (l : Lane) (ch : Chan) (p : Nat) (b : List Byte) (s : State) :
    let kept := recordTaken s ch p b (smGet NodeLink.zero (lane s l).nodes (portKey ch p))
    lane (recordKept l ch p b s) l = { lane s l with nodes := smSet NodeLink.zero (lane s l).nodes (portKey ch p) kept } := lane_onLane _ _ _

/-- A lane in RUN with a program takes the record that the star passed on in this cycle, once. -/
theorem exec_upframeRecord {s : State} {l : Lane} {ch : Chan} {p : BitVec 6} {r : UpRecord} (hrun : domRun s (laneDom l) = true)
    (hactive : (lane s l).core.active.isSome = true) (hpassed : smFind (s.data.aux.get ch).passed p.toNat = some r)
    (htook : (port s ch p.toNat).tookAt = some (followerOf s (.star ch)).cycle)
    (hnew : (smGet NodeLink.zero (lane s l).nodes (portKey ch p.toNat)).seenAt ≠ some (followerOf s (.star ch)).cycle) :
    exec (.upframeRecord l ch p) s = .next (recordKept l ch p.toNat r.bytes s) := by
  have he : exec (.upframeRecord l ch p) s = execUpframeRecord l ch p s := rfl
  rw [he, execUpframeRecord]
  simp only [hpassed]
  rw [if_pos (by simp [hrun, hactive, htook, hnew])]
  rfl

/-- Settles O26: the record replaces what its lane keeps under the key of its node and channel, and the first row that it fails decides with what. -/
theorem upframeRecordsAreChecked : Obligations.UpframeRecordsAreChecked := by
  intro s l ch p r hrun hactive hpassed htook key n seen hnew row
  refine ⟨_, exec_upframeRecord hrun hactive hpassed htook hnew, ⟨fun hvalid => ?_, fun w hrow => ?_⟩, fun k hk => ?_,
    fun m hm => lane_onLane_ne _ _ hm, ?_, rfl, rfl⟩
  · rw [lane_recordKept, smGet_smSet_self, recordTaken_of_valid hvalid]
    exact ⟨rfl, rfl, rfl, rfl, rfl, rfl, rfl⟩
  · rw [lane_recordKept, smGet_smSet_self, recordTaken_of_row hrow]
  · rw [lane_recordKept, smGet_smSet_ne _ _ _ hk]
  · rw [lane_recordKept]

end Sys2Proof.Proofs.UpframeRecords
end

section
/-! Field nodes (O27, R300 to R306): first what a change of one node leaves, then link states and upframes, then beacons, then outputs. -/

namespace Sys2Proof.Proofs.FieldNodes

open Sys2Proof Sys2Proof.Machine Sys2Proof.Claims Sys2Proof.Laws

/-! ### One node changed -/

@[simp] theorem node_onNode (k : Nat) (f : NodeState → NodeState) (s : State) : node (onNode k f s) k = f (node s k) :=
  smGet_smSet_self _ _ _ _

theorem node_onNode_ne {k j : BitVec 6} (f : NodeState → NodeState) (s : State) (h : j ≠ k) :
    node (onNode k.toNat f s) j.toNat = node s j.toNat :=
  smGet_smSet_ne _ _ _ fun he => h (BitVec.eq_of_toNat_eq he)

@[simp] theorem node_onNodeChan (k : Nat) (ch : Chan) (f : NodeChan → NodeChan) (s : State) :
    node (onNodeChan k ch f s) k = { node s k with ch := (node s k).ch.set ch (f ((node s k).ch.get ch)) } := node_onNode _ _ _

theorem node_onNodeChan_ne {k j : BitVec 6} (ch : Chan) (f : NodeChan → NodeChan) (s : State) (h : j ≠ k) :
    node (onNodeChan k.toNat ch f s) j.toNat = node s j.toNat := node_onNode_ne _ _ h

theorem nodeChan_onNodeChan (k : Nat) (ch : Chan) (f : NodeChan → NodeChan) (s : State) :
    (node (onNodeChan k ch f s) k).ch.get ch = f ((node s k).ch.get ch) := by
  rw [node_onNodeChan, Duo_get_set_self]

/-- Only what a change makes of the node as it is matters. -/
theorem onNode_congr {k : Nat} {f g : NodeState → NodeState} {s : State} (h : f (node s k) = g (node s k)) : onNode k f s = onNode k g s :=
  congrArg (fun n => onData (fun d => { d with nodes := smSet NodeState.zero d.nodes k n }) s) h

/-! ### Link states (R300, R303, R305) -/

section
variable {s : State} {k : BitVec 6} {ch : Chan}

theorem exec_nodeLinkState_powerUp (cfg : NodeCfg) :
    exec (.nodeLinkState k ch (.powerUp cfg)) s = .next (onNode k.toNat (fun _ => nodeStarts cfg) s) := rfl

theorem exec_nodeLinkState_down (h : attached (node s k.toNat) ch = true) :
    exec (.nodeLinkState k ch .down) s = .next (onNodeChan k.toNat ch (fun q => { q with mode := .init }) s) :=
  congrArg Host.Outcome.next (if_pos h)

theorem exec_nodeLinkState_up (h : attached (node s k.toNat) ch = true) :
    exec (.nodeLinkState k ch .up) s =
      .next (onNodeChan k.toNat ch (fun q => if q.mode = .init then { q with mode := .listen } else q) s) :=
  congrArg Host.Outcome.next (if_pos h)

theorem exec_nodeLinkState_cycleEnd (h : attached (node s k.toNat) ch = true) (hover : cycleOver s k.toNat = true) :
    exec (.nodeLinkState k ch .cycleEnd) s = .next (onNodeChan k.toNat ch endCycle s) :=
  congrArg Host.Outcome.next (if_pos (by rw [h, hover]; rfl))

/-- Each channel of a node that comes up is in INIT. -/
theorem nodeStarts_mode (cfg : NodeCfg) (c : Chan) : ((nodeStarts cfg).ch.get c).mode = .init := by
  cases c <;> rfl

/-! ### Upframes (R306) -/

/-- The channel with its upframe of the present cycle sent. -/
def upframeSent (n : NodeState) (k : Nat) (ch : Chan) (nfault : Bool) (q : NodeChan) : NodeChan :=
  { q with useq := q.useq + 1, first := false, sentUseq := ((n.cycle, q.useq + 1) :: q.sentUseq).take 3,
           tx := some ((sendAt n ch).toNat, ownUpframe n k ch nfault) }

/-- An ACTIVE channel with a beacon sends its first upframe once its instant has come. -/
theorem exec_nodeUpframeSend (hatt : attached (node s k.toNat) ch = true) (hmode : ((node s k.toNat).ch.get ch).mode = .active)
    (hentry : ((node s k.toNat).ch.get ch).activeAt ≠ (node s k.toNat).cycle) (hmuted : (node s k.toNat).muted = false)
    (hbeacon : ((node s k.toNat).ch.get ch).beacon = true) (hunsent : ((node s k.toNat).ch.get ch).sentUseq = [])
    (hdue : sendAt (node s k.toNat) ch ≤ 40 * s.clk.tick + 100) (nfault : Bool) :
    exec (.nodeUpframeSend k ch nfault) s = .next (onNodeChan k.toNat ch (upframeSent (node s k.toNat) k.toNat ch nfault) s) :=
  congrArg Host.Outcome.next (if_pos (by simp [hatt, hmode, hentry, hmuted, hbeacon, hunsent, hdue]))

end

theorem nodeChannelsMove : NodeChannelsMove := by
  intro s k ch
  refine ⟨fun cfg => ?_, fun hatt => ⟨?_, fun hinit => ?_, fun hover => ?_, ?_⟩⟩
  · refine ⟨_, exec_nodeLinkState_powerUp cfg, ?_⟩
    rw [node_onNode]
    exact ⟨rfl, nodeStarts_mode cfg, rfl, rfl, fun j hj => node_onNode_ne _ _ hj, rfl⟩
  · refine ⟨_, exec_nodeLinkState_down hatt, ?_, ?_, fun j hj => node_onNodeChan_ne _ _ _ hj, rfl⟩
    · rw [nodeChan_onNodeChan]
    · rw [node_onNodeChan]
  · refine ⟨_, exec_nodeLinkState_up hatt, ?_, fun j hj => node_onNodeChan_ne _ _ _ hj⟩
    rw [nodeChan_onNodeChan, if_pos hinit]
  · exact ⟨_, exec_nodeLinkState_cycleEnd hatt hover, nodeChan_onNodeChan _ _ _ _, fun j hj => node_onNodeChan_ne _ _ _ hj⟩
  · intro hmode hentry hmuted hbeacon hunsent hdue nfault
    refine ⟨_, exec_nodeUpframeSend hatt hmode hentry hmuted hbeacon hunsent hdue nfault, ?_⟩
    rw [nodeChan_onNodeChan]
    refine ⟨rfl, rfl, rfl, ?_⟩
    simp only [upframeSent, hunsent]
    rfl

/-! ### Frames that a node ignores (R301) -/

/-- A frame with a bad FCS, a foreign address or a type other than a downframe's is ignored. -/
theorem classify_foreign (n : NodeState) {k : Nat} {ch : Chan} (start : Nat) {b : List Byte}
    (h : fcsCorrect b = false ∨ frameDa b ≠ nodeAddr ch k ∨ frameSa b ≠ starAddr ch k ∨ hdrByte b 0 % 16 ≠ 1) :
    classify n k ch start b = .ignored := by
  have hrow : (!fcsCorrect b ∨ frameDa b ≠ nodeAddr ch k ∨ frameSa b ≠ starAddr ch k) ∨ hdrByte b 0 ≠ 16 * nodeVer n + 1 := by
    obtain hfcs | hda | hsa | htype := h
    · exact .inl (.inl (by rw [hfcs]; rfl))
    · exact .inl (.inr (.inl hda))
    · exact .inl (.inr (.inr hsa))
    · exact .inr fun he => htype (by omega)
  unfold classify
  split
  · rfl
  · next haddr =>
    obtain hbad | hver := hrow
    · exact absurd hbad haddr
    · rw [if_pos (.inl hver)]

section
variable {s : State} {k : BitVec 6} {ch : Chan} (start : Nat) (b : List Byte)

theorem exec_nodeDownframeReceive_init (h : ((node s k.toNat).ch.get ch).mode = .init) :
    exec (.nodeDownframeReceive k ch start (some b)) s = .next s :=
  congrArg Host.Outcome.next (if_neg (by simp [h]))

theorem exec_nodeDownframeReceive_ignored (h : classify (node s k.toNat) k.toNat ch start b = .ignored) :
    exec (.nodeDownframeReceive k ch start (some b)) s = .next s := by
  have he : exec (.nodeDownframeReceive k ch start (some b)) s = execNodeDownframeReceive k ch start (some b) s := rfl
  rw [he, execNodeDownframeReceive]
  simp only [h, ite_self]

theorem exec_nodeDownframeReceive_taken {start : Nat} {b : List Byte} (hatt : attached (node s k.toNat) ch = true)
    (hmode : ((node s k.toNat).ch.get ch).mode ≠ .init) (h : classify (node s k.toNat) k.toNat ch start b ≠ .ignored) :
    exec (.nodeDownframeReceive k ch start (some b)) s =
      .next (nodeBeacon k.toNat ch (beaconOf start b) (framePayload b) (classify (node s k.toNat) k.toNat ch start b) s) := by
  have he : exec (.nodeDownframeReceive k ch start (some b)) s = execNodeDownframeReceive k ch start (some b) s := rfl
  rw [he, execNodeDownframeReceive]
  simp only
  rw [if_pos (by simp [hatt, hmode])]

end

/-! ### Beacons (R302, R303, R329) -/

theorem beaconState_beacon (f : Beacon) (compat : Bool) (q : NodeChan) : (beaconState f compat q).beacon = true := by
  unfold beaconState
  simp only
  split
  case h_3 => split <;> rfl
  all_goals rfl

/-- A beacon without REINT takes a channel from LISTEN into SYNC. -/
theorem beaconState_mode_of_listen {f : Beacon} {q : NodeChan} (compat : Bool) (hq : q.mode = .listen) (hf : f.reint = false) :
    (beaconState f compat q).mode = .sync := by
  simp [beaconState, hq, hf]

/-- A channel that is not ACTIVE takes no ECHO. -/
theorem echoCheck_of_not_active {f : Beacon} {q : NodeChan} (h : q.mode ≠ .active) : echoCheck f q = q := if_pos h

theorem echoCheck_beacon (f : Beacon) (q : NodeChan) : (echoCheck f q).beacon = q.beacon := by
  unfold echoCheck
  repeat' split
  all_goals rfl

theorem hearAnnouncement_ch (f : Beacon) (n : NodeState) : (hearAnnouncement f n).ch = n.ch := by
  unfold hearAnnouncement
  simp only
  repeat' split
  all_goals rfl

theorem takeInstant_ch (ch : Chan) (f : Beacon) (joins firstOf : Bool) (n : NodeState) : (takeInstant ch f joins firstOf n).ch = n.ch := by
  unfold takeInstant
  simp only
  repeat' split
  all_goals rfl

/-- A channel after a beacon frame: its link state, and for a normal downframe the ECHO row and the payload. -/
def beaconTaken (f : Beacon) (payload : List Byte) (c : RxClass) (compat : Bool) (q : NodeChan) : NodeChan :=
  if c = .normal then
    { echoCheck f (beaconState f compat q) with
      lastNormal := BitVec.ofNat 8 f.cycle.toNat, rx := if timed q then some payload else none }
  else beaconState f compat q

theorem beaconTaken_beacon (f : Beacon) (payload : List Byte) (c : RxClass) (compat : Bool) (q : NodeChan) :
    (beaconTaken f payload c compat q).beacon = true := by
  unfold beaconTaken
  split
  · exact (echoCheck_beacon f _).trans (beaconState_beacon f compat q)
  · exact beaconState_beacon f compat q

theorem beaconTaken_mode_of_listen {f : Beacon} {q : NodeChan} (payload : List Byte) (c : RxClass) (compat : Bool) (hq : q.mode = .listen)
    (hf : f.reint = false) : (beaconTaken f payload c compat q).mode = .sync := by
  have hsync := beaconState_mode_of_listen compat hq hf
  unfold beaconTaken
  split
  · rw [echoCheck_of_not_active (by rw [hsync]; decide)]
    exact hsync
  · exact hsync

/-- A beacon frame changes its node alone, step by step. -/
theorem nodeBeacon_keeps (P : State → Prop) {k : Nat} (hP : ∀ f u, P u → P (onNode k f u)) (ch : Chan) (f : Beacon) (payload : List Byte)
    (c : RxClass) {s : State} (h : P s) : P (nodeBeacon k ch f payload c s) := by
  unfold nodeBeacon onNodeChan
  simp only
  repeat' split
  all_goals
    repeat apply hP
    exact h

/-- What a beacon frame makes of its channel; the node's time, the announcement and the outputs are not the channel's. -/
theorem nodeChan_nodeBeacon (k : Nat) (ch : Chan) (f : Beacon) (payload : List Byte) (c : RxClass) (s : State) :
    (node (nodeBeacon k ch f payload c s) k).ch.get ch = beaconTaken f payload c (node s k).cfg.compat ((node s k).ch.get ch) := by
  unfold nodeBeacon beaconTaken
  simp only
  by_cases hc : c = .normal
  · subst hc
    simp only [if_true]
    split <;> simp [takeInstant_ch, hearAnnouncement_ch]
  · simp only [if_neg hc]
    repeat' split
    all_goals simp [takeInstant_ch, hearAnnouncement_ch]

theorem nodeTakesDownframes : NodeTakesDownframes := by
  intro s k ch start b hatt c
  refine ⟨exec_nodeDownframeReceive_init start b, fun _ => exec_nodeDownframeReceive_ignored start b, classify_foreign _ start,
    fun hlisten htaken => ?_⟩
  have hmode : ((node s k.toNat).ch.get ch).mode ≠ .init := by rw [hlisten]; decide
  refine ⟨_, exec_nodeDownframeReceive_taken hatt hmode htaken, ?_, fun hreint => ?_, fun j hj => ?_, ?_⟩
  · rw [nodeChan_nodeBeacon, beaconTaken_beacon]
  · rw [nodeChan_nodeBeacon, beaconTaken_mode_of_listen _ _ _ hlisten hreint]
  · exact nodeBeacon_keeps (fun u => node u j.toNat = node s j.toNat) (fun f u hu => (node_onNode_ne f u hj).trans hu) _ _ _ _ rfl
  · exact nodeBeacon_keeps (fun u => u.ctl = s.ctl) (fun _ _ hu => hu) _ _ _ _ rfl

/-! ### Outputs (R304) -/

/-- A node's channels at the end of its cycle. -/
def cycleEnded (n : NodeState) : NodeState := { n with ch := n.ch.map endCycle }

/-- A channel of the node stays in SYNC or ACTIVE. -/
def stays (n : NodeState) : Bool := timed n.ch.a || timed n.ch.b

theorem applyOutputs_of_payload {n : NodeState} {pl : List Byte} (h : outputDecision n.ch.a.rx n.ch.b.rx = some pl) (hon : stays n = true) :
    applyOutputs n = { n with outputs := pl, nrestr := false } := by
  unfold applyOutputs
  simp only [h]
  exact if_pos hon

theorem applyOutputs_of_none {n : NodeState} (h : outputDecision n.ch.a.rx n.ch.b.rx = none ∨ stays n = false) :
    applyOutputs n = { n with outputs := restrOutputs n, nrestr := true } := by
  unfold applyOutputs
  split
  · next pl hpl =>
    obtain hnone | hoff := h
    · rw [hpl] at hnone
      cases hnone
    · exact if_neg (Bool.not_eq_true _ ▸ hoff)
  · rfl

/-- Whatever a node applies, only its outputs and NRESTR change. -/
theorem applyOutputs_eq (n : NodeState) : ∃ o r, applyOutputs n = { n with outputs := o, nrestr := r } := by
  unfold applyOutputs
  repeat' split
  all_goals exact ⟨_, _, rfl⟩

/-- The next cycle begins with the outputs and the samples as they are. -/
theorem nextCycle_keeps (ns : Nat) (n : NodeState) : (nextCycle ns n).outputs = n.outputs ∧ (nextCycle ns n).nrestr = n.nrestr ∧
    (nextCycle ns n).samples = n.samples ∧ (nextCycle ns n).cycle = n.cycle + 1 := by
  unfold nextCycle nextSched
  simp only
  split <;> exact ⟨rfl, rfl, rfl, rfl⟩

/-- A NATIVE node whose cycle has ended applies its outputs, and where a channel stays it samples its inputs and passes into its next cycle. -/
def cycleApplied (ns : Nat) (samples : List Byte) (n : NodeState) : NodeState :=
  let n := applyOutputs (cycleEnded n)
  if stays n then nextCycle ns { n with samples := padTo (2 * n.cfg.n) samples }
  else { n with ch := n.ch.map fun q => { q with beacon := false, rx := none, ended := false } }

theorem cycleApplied_outputs (ns : Nat) (samples : List Byte) (n : NodeState) :
    (cycleApplied ns samples n).outputs = (applyOutputs (cycleEnded n)).outputs ∧
      (cycleApplied ns samples n).nrestr = (applyOutputs (cycleEnded n)).nrestr := by
  unfold cycleApplied
  simp only
  split
  · simp only [nextCycle_keeps, and_self]
  · exact ⟨rfl, rfl⟩

theorem cycleApplied_samples {n : NodeState} (h : stays (cycleEnded n) = true) (ns : Nat) (samples : List Byte) :
    (cycleApplied ns samples n).samples = padTo (2 * n.cfg.n) samples ∧ (cycleApplied ns samples n).cycle = n.cycle + 1 := by
  obtain ⟨o, r, happlied⟩ := applyOutputs_eq (cycleEnded n)
  unfold cycleApplied
  rw [happlied]
  have hstays : stays { cycleEnded n with outputs := o, nrestr := r } = true := h
  simp only [if_pos hstays, nextCycle_keeps]
  exact ⟨rfl, rfl⟩

theorem exec_nodeOutputApply {s : State} {k : BitVec 6} (hatt : (node s k.toNat).cfg.chanA = true ∨ (node s k.toNat).cfg.chanB = true)
    (hnative : (node s k.toNat).cfg.compat = false) (hover : cycleOver s k.toNat = true) (samples : List Byte) :
    exec (.nodeOutputApply k samples) s = .next (onNode k.toNat (cycleApplied (40 * Config.tscanTicks s.tscan) samples) s) := by
  have he : exec (.nodeOutputApply k samples) s = execNodeOutputApply k samples s := rfl
  rw [he, execNodeOutputApply]
  simp only
  rw [if_pos (by rw [Bool.and_eq_true, Bool.or_eq_true]; exact ⟨hatt, hover⟩)]
  refine congrArg Host.Outcome.next (onNode_congr ?_)
  simp only [hnative]
  rfl

theorem nodeAppliesItsOutputs : NodeAppliesItsOutputs := by
  intro s k samples hatt hnative hover q on
  refine ⟨_, exec_nodeOutputApply hatt hnative hover samples, ?_⟩
  obtain ⟨houtputs, hnrestr⟩ := cycleApplied_outputs (40 * Config.tscanTicks s.tscan) samples (node s k.toNat)
  rw [node_onNode, houtputs, hnrestr]
  refine ⟨fun pl hpl hon => ?_, fun hnone => ?_, fun hon => cycleApplied_samples hon _ _, fun j hj => node_onNode_ne _ _ hj, rfl, rfl⟩
  · rw [applyOutputs_of_payload (n := cycleEnded (node s k.toNat)) hpl hon]
    exact ⟨rfl, rfl⟩
  · rw [applyOutputs_of_none (n := cycleEnded (node s k.toNat)) hnone]
    exact ⟨rfl, rfl⟩

/-- Settles O27: each command changes its own node alone, and what it makes of the node is one function of it. That a node's configuration comes with
its power-up, and its samples with the end of its cycle, is the model's (log entry 126). -/
theorem nodesTakeFramesAndApplyOutputs : Obligations.NodesTakeFramesAndApplyOutputs :=
  ⟨nodeChannelsMove, nodeTakesDownframes, nodeAppliesItsOutputs⟩

end Sys2Proof.Proofs.FieldNodes
end

section
/-! What a failed start and a trip do to the clock (R44, R232, R500): the cycle count and the heartbeat may start again, but REFCLK's count of ticks
stands. -/

namespace Sys2Proof.Proofs.Ticks

open Sys2Proof Sys2Proof.Machine Sys2Proof.Claims Sys2Proof.Laws Sys2Proof.Proofs.Planes

/-! ### What ends with a run leaves the clock -/

@[simp] theorem clk_report (r : RecRing) (code source : Nat) (key detail : List Byte) (s : State) :
    (report r code source key detail s).clk = s.clk := rfl

theorem clk_finishRef (c : CmdRef) (st : Status) (est : Nat) (result data : List Byte) (s : State) :
    (finishRef c st est result data s).clk = s.clk := rfl

@[simp] theorem clk_rotationEnds (l : Lane) (st : Status) (s : State) : (rotationEnds l st s).clk = s.clk := rfl

theorem clk_rotationsAbandoned (s : State) : (rotationsAbandoned s).clk = s.clk := by
  have ended : ∀ (ls : List Lane) (t : State), (ls.foldl (fun s l => rotationEnds l .aborted s) t).clk = t.clk := fun ls t =>
    foldl_keeps State.clk _ (fun s l => clk_rotationEnds l .aborted s) ls t
  unfold rotationsAbandoned
  cases s.ctl.rot.active <;> simp [ended]

theorem clk_forcesOvertaken (s : State) : (forcesOvertaken s).clk = s.clk :=
  foldl_keeps State.clk _ (fun s (q : ForceReq) => clk_finishRef q.cmd .aborted 0 [] [] s) s.ctl.force.pending s

@[simp] theorem clk_onSeat (k : Seat) (f : SeatState → SeatState) (s : State) : (onSeat k f s).clk = s.clk := rfl

@[simp] theorem clk_bookDiversity (s : State) : (bookDiversity s).clk = s.clk := rfl

theorem clk_ctlDown (s : State) : (ctlDown s).clk = s.clk := by
  have debug : ∀ t, (debugEnds t).clk = t.clk := fun t => clk_of_timing (timing_debugEnds t)
  have sched : ∀ t, (schedOvertaken t).clk = t.clk := fun t => clk_of_timing (timing_schedOvertaken t)
  have olc : ∀ t, (olcOvertaken t).clk = t.clk := fun t => clk_of_timing (timing_olcOvertaken t)
  simp [ctlDown, clk_rotationsAbandoned, clk_forcesOvertaken, debug, sched, olc]

@[simp] theorem clk_setVote (l : Lane) (x : LaneVote) (s : State) : (setVote l x s).clk = s.clk := by
  simp [setVote, apply_ite State.clk]

@[simp] theorem clk_resyncFail (k : Seat) (l : Lane) (code : Nat) (n : Scn) (s : State) : (resyncFail k l code n s).clk = s.clk := by
  simp [resyncFail, apply_ite State.clk]

@[simp] theorem clk_belayState (state : Nat) (causes : BitVec 16) (s : State) : (belayState state causes s).clk = s.clk := by
  unfold belayState
  split <;> rfl

@[simp] theorem clk_abandonJoin (causes : BitVec 16) (s : State) : (abandonJoin causes s).clk = s.clk := by
  unfold abandonJoin
  split
  case h_1 => rfl
  case h_2 j _ =>
    cases j.why with
    | takeover => simp [seatChange]
    | handback | rotation => cases j.step <;> simp [seatChange]

theorem clk_laneLeaves (l : Lane) (s : State) : (laneLeaves l s).clk = s.clk := by
  have lost : ∀ t : State, (joinLost l t).clk = t.clk := by
    intro t
    unfold joinLost
    split
    · simp [apply_ite State.clk]
    · rfl
  have captured : (captureSourceLost l s).clk = s.clk := by
    unfold captureSourceLost
    split
    · split <;> rfl
    · rfl
  have opened : ∀ (ks : List Seat) (t : State), (ks.foldl (fun s k =>
      if ((voter s).seats.get k).mode = .opened ∧ ((voter s).seats.get k).openFor = some l then resyncFail k l 5 (scn s) s else s) t).clk =
      t.clk := fun ks t => foldl_keeps State.clk _ (fun s k => by simp [apply_ite State.clk]) ks t
  simp [laneLeaves, lost, opened, captured]

/-! ### A domain lost, a source asserted, a start that fails: the ticks go on -/

theorem tick_mgtDown (s : State) : (mgtDown s).clk.tick = s.clk.tick := by
  simp [mgtDown, onStaging]

theorem tick_domainLost (d : Nat) (s : State) : (domainLost d s).clk.tick = s.clk.tick := by
  have follower : (followerLost d s).clk = s.clk := rfl
  rw [← follower]
  unfold domainLost
  dsimp only
  generalize followerLost d s = q
  split
  case h_1 => exact tick_mgtDown q
  case h_5 => rw [clk_ctlDown]
  case h_7 | h_8 | h_9 | h_10 => rw [clk_laneLeaves]
  all_goals rfl

theorem tick_holdDomain (d : Nat) (s : State) : (holdDomain d s).clk.tick = s.clk.tick := by
  unfold holdDomain
  split
  · exact tick_domainLost d s
  · rfl

theorem clk_singleBegins (r : ResetSrc) (s : State) : (singleBegins r s).clk = s.clk := by
  unfold singleBegins singleChannel reportSvc
  repeat' split
  all_goals rfl

theorem tick_rawAssert (r : ResetSrc) (s : State) : (rawAssert r s).clk.tick = s.clk.tick := by
  have held : ∀ (ds : List Nat) (t : State), (ds.foldl (fun s d => if d = 0 then s else holdDomain d s) t).clk.tick = t.clk.tick :=
    fun ds t => foldl_keeps (fun s => s.clk.tick) _ (fun s d => by split <;> simp [tick_holdDomain]) ds t
  have noted : ∀ t : State, t.clk = s.clk → ((reach r).foldl (fun s d => if d = 0 then s else holdDomain d s) (singleBegins r t)).clk.tick =
      s.clk.tick := fun t ht => by rw [held, clk_singleBegins, ht]
  have restart : ∀ t : State, (countRestart t).clk.tick = t.clk.tick := fun _ => rfl
  unfold rawAssert
  dsimp only
  split
  · rw [restart]
    exact noted _ (by split <;> rfl)
  · exact noted _ (by split <;> rfl)

theorem tick_bankAfterFail (verifies : Bool) (s : State) : (bankAfterFail verifies s).clk.tick = s.clk.tick := by
  simp [bankAfterFail, noteCause, endWait, apply_ite State.clk, apply_ite ClockState.tick, tick_rawAssert]

theorem tick_startFail (st : Status) (s : State) : (startFail st s).clk.tick = s.clk.tick := by
  unfold startFail
  split
  · rw [tick_bankAfterFail, tick_rawAssert]
    rfl
  · rfl

/-- A trigger, whatever becomes of it, is judged within one tick (R232). -/
theorem tick_trip (cause : Nat) (reset : Bool) (s : State) : (trip cause reset s).clk.tick = s.clk.tick := by
  by_cases hin : s.ctl.trip.inForce = true
  · simp [trip, hin]
  by_cases hsilent : silentRun s = true
  · rw [trip, if_neg hin, if_pos hsilent, tick_startFail]
  · obtain he | ⟨hclk, -, -⟩ := trip_cases (Bool.eq_false_of_not_eq_true hsilent) cause reset
    · rw [he]
    · rw [hclk]

end Sys2Proof.Proofs.Ticks
end

section
/-! Cold start (R310 to R313): a lane's own frame, and the contention that one complete frame of a lane decides or is refused in. -/

namespace Sys2Proof.Proofs.ColdStarts

open Sys2Proof Sys2Proof.Machine Sys2Proof.Claims Sys2Proof.Laws Sys2Proof.Proofs.Planes

theorem star_onStar (ch : Chan) (f : StarState → StarState) (s : State) : Machine.star (onStar ch f s) ch = f (Machine.star s ch) :=
  Duo_get_set_self _ _ _

theorem contentionOpen_iff {s : State} {ch : Chan} : contentionOpen s ch = true ↔
    domRun s (starDom ch) = true ∧ ((Machine.star s ch).mode = .coldStart ∨ (Machine.star s ch).mode = .nodeLed) ∧
      (Machine.star s ch).winner = none := by
  simp [contentionOpen, and_assoc]

/-! ### The lane's frame (R310, R311) -/

/-- A lane whose listen timer has run out: its cold-start frame is sent, and its timer stands. -/
def coldStarted (s : State) (ch : Chan) (l : Lane) (x : LaneState) : LaneState :=
  { x with
    listen := x.listen.set ch 0, cseq := x.cseq.set ch (x.cseq.get ch + 1),
    coldTx := x.coldTx.set ch
      (some (coldFrame ch l ((lane s l).cseq.get ch) (coldCycle s ch l) s.data.cfg.linkId s.tscan s.data.sched.inForce)) }

theorem exec_listenTimerExpiry_due {s : State} {ch : Chan} {l : Lane} (hopen : contentionOpen s ch = true) (hl : l ∈ linkLanes s)
    (hset : (lane s l).listen.get ch ≠ 0) (hdue : (lane s l).listen.get ch ≤ s.clk.tick) :
    exec (.listenTimerExpiry ch l) s = .next (onLane l (coldStarted s ch l) s) :=
  congrArg Host.Outcome.next (if_pos (by simp [hopen, hl, hset, hdue]))

/-! ### The winner (R312, R313) -/

/-- The winning frame on its way to the COMPAT ports. -/
def forwarded (ch : Chan) (w : ColdFrame) (s : State) : State :=
  (forwardPorts s ch w).foldl (fun s p =>
    snoop (txPoint ch) p true true w.bytes (onAux ch (fun a => { a with coldSent := smPut a.coldSent p w.bytes }) s)) s

/-- Forwarding the frame leaves the stars, the lanes and the clock. -/
theorem forwarded_frame (ch : Chan) (w : ColdFrame) (s : State) :
    (forwarded ch w s).data.stars = s.data.stars ∧ (forwarded ch w s).ctl = s.ctl ∧ (forwarded ch w s).clk = s.clk := by
  have kept : ∀ {β : Type} (g : State → β),
      (∀ (u : State) (k : SMap Cvu) (f : StarAux → StarAux), g (onMgt (fun m => { m with cvu := k }) (onAux ch f u)) = g u) →
        g (forwarded ch w s) = g s := by
    intro β g hg
    refine foldl_keeps g _ (fun u p => ?_) _ s
    obtain ⟨k, hk⟩ := snoop_eq (txPoint ch) p true true w.bytes (onAux ch (fun a => { a with coldSent := smPut a.coldSent p w.bytes }) u)
    rw [hk, hg]
  exact ⟨kept (·.data.stars) fun _ _ _ => rfl, kept (·.ctl) fun _ _ _ => rfl, kept (·.clk) fun _ _ _ => rfl⟩

/-- A frame wins: it is forwarded, every lane cancels its timer, and no frame is left in contention. -/
def contentionWon (ch : Chan) (w : ColdFrame) (s : State) : State :=
  let u := forwarded ch w (onLanes (fun x => { x with listen := x.listen.set ch 0 }) s)
  onStar ch (fun x => { x with winner := some w, firstAfter := u.clk.tick, contention := [] }) u

theorem coldDecide_of_winner {ch : Chan} {s : State} {w : ColdFrame}
    (h : coldWinner ((Machine.star s ch).contention.filter (coldStays s ch)) (Machine.star s ch).contention = some w) :
    coldDecide ch s = contentionWon ch w s := by
  unfold coldDecide
  simp only [h]
  rfl

theorem coldDecide_of_nil {ch : Chan} {s : State} (h : (Machine.star s ch).contention = []) : coldDecide ch s = s := by
  unfold coldDecide
  simp only [h]
  rfl

theorem star_contentionWon (ch : Chan) (w : ColdFrame) (s : State) :
    Machine.star (contentionWon ch w s) ch = { Machine.star s ch with winner := some w, firstAfter := s.clk.tick, contention := [] } := by
  obtain ⟨hstars, -, hclk⟩ := forwarded_frame ch w (onLanes (fun x => { x with listen := x.listen.set ch 0 }) s)
  rw [contentionWon, star_onStar, Machine.star, hstars, hclk]
  rfl

theorem listen_contentionWon (ch : Chan) (w : ColdFrame) (s : State) (m : Lane) : (lane (contentionWon ch w s) m).listen.get ch = 0 := by
  obtain ⟨-, hctl, -⟩ := forwarded_frame ch w (onLanes (fun x => { x with listen := x.listen.set ch 0 }) s)
  rw [contentionWon, lane, onStar_ctl, hctl, onLanes_ctl_lanes, Quad_get_map, Duo_get_set_self]

/-- A frame that stays and is alone in contention wins. -/
theorem coldWinner_single (f : ColdFrame) : coldWinner [f] [f] = some f := by
  simp [coldWinner]

/-! ### One complete frame of a lane (R312) -/

/-- A lane's frame as the star keeps it in contention. -/
def contender (l : Lane) (start : Nat) (b : List Byte) : ColdFrame := ⟨l.idx, start, hdrByte b 0x0B % 8, none, b⟩

/-- The frame stands in contention. -/
def entered (ch : Chan) (l : Lane) (start : Nat) (b : List Byte) (s : State) : State :=
  onStar ch (fun x => { x with contention := x.contention ++ [contender l start b] }) s

/-- A frame of a lane is judged: it enters contention, or is refused with a record. -/
def coldJudged (ch : Chan) (l : Lane) (start : Nat) (b : List Byte) (s : State) : State :=
  if coldOk s ch (.lane l) b then entered ch l start b s else coldRefused ch (coldRank (.lane l)) s

/-- With no frame still in progress the tie set is complete. -/
theorem tieComplete_nil (fs : List ColdFrame) : tieComplete fs [] = true := by
  unfold tieComplete
  split <;> rfl

/-- While contention is open and no other frame is in progress, a complete frame of a lane is judged and the star decides. -/
theorem exec_coldstartFrame_lane {s : State} {ch : Chan} (hopen : contentionOpen s ch = true) (l : Lane) (start : Nat) (given : Option (List Byte)) :
    exec (.coldstartFrame ch (.lane l) start given []) s =
      .next (coldDecide ch (coldJudged ch l start (given.getD (((lane s l).coldTx.get ch).getD [])) s)) := by
  obtain ⟨hdom, -, -⟩ := contentionOpen_iff.mp hopen
  have he : exec (.coldstartFrame ch (.lane l) start given []) s = execColdstartFrame ch (.lane l) start given [] s := rfl
  rw [he]
  unfold execColdstartFrame
  cases given <;> simp only [hdom, hopen, tieComplete_nil] <;> rfl

/-- A lane whose frame passes the checks is a link lane. -/
theorem linkLane_of_coldOk {s : State} {ch : Chan} {l : Lane} {b : List Byte} (h : coldOk s ch (.lane l) b = true) :
    (linkLanes s).contains l = true := by
  simp only [coldOk, Bool.and_eq_true] at h
  obtain ⟨-, ⟨-, hl⟩, -⟩ := h
  exact hl

theorem Lane_ofIdx_idx (l : Lane) : Lane.ofIdx l.idx = some l := by cases l <;> rfl

section
variable {s : State} {ch : Chan} {l : Lane} {start : Nat} {b : List Byte} (hnone : (Machine.star s ch).contention = [])
include hnone

/-- The frame that passes the checks and is alone in contention wins. -/
theorem coldDecide_coldJudged_ok (h : coldOk s ch (.lane l) b = true) :
    coldDecide ch (coldJudged ch l start b s) = contentionWon ch (contender l start b) (entered ch l start b s) := by
  rw [coldJudged, if_pos h]
  have hlinks : linkLanes (entered ch l start b s) = linkLanes s := rfl
  have hstays : coldStays (entered ch l start b s) ch (contender l start b) = true := by
    simp only [coldStays, contender, Lane_ofIdx_idx, hlinks]
    exact linkLane_of_coldOk h
  have halone : (Machine.star (entered ch l start b s) ch).contention = [contender l start b] := by
    rw [entered, star_onStar, hnone]
    rfl
  refine coldDecide_of_winner ?_
  rw [halone, List.filter_cons_of_pos hstays]
  exact coldWinner_single _

/-- A frame that fails a check is refused, and leaves nothing to decide. -/
theorem coldDecide_coldJudged_refused (h : coldOk s ch (.lane l) b = false) :
    coldDecide ch (coldJudged ch l start b s) = coldRefused ch (coldRank (.lane l)) s := by
  rw [coldJudged, if_neg (Bool.eq_false_iff.mp h)]
  exact coldDecide_of_nil hnone

end

theorem coldStartContention : ColdStartContention := by
  intro s ch hopen
  refine ⟨fun l hl hset hdue => ?_, fun src l start given b hsrc hb hnone => ?_⟩
  · refine ⟨_, exec_listenTimerExpiry_due hopen hl hset hdue, ?_, ?_, ?_, fun m hm => lane_onLane_ne _ _ hm, ?_, rfl, rfl⟩
    all_goals rw [lane_onLane]
    · exact Duo_get_set_self _ _ _
    · exact Duo_get_set_self _ _ _
    · exact Duo_get_set_self _ _ _
    · rfl
  · subst hsrc
    rw [exec_coldstartFrame_lane hopen, ← hb]
    refine ⟨fun hok => ⟨_, rfl, ?_⟩, fun hbad => ⟨_, rfl, ?_⟩⟩
    · rw [coldDecide_coldJudged_ok hnone hok, star_contentionWon]
      exact ⟨rfl, rfl, rfl, listen_contentionWon ch _ _⟩
    · obtain ⟨-, -, hwinner⟩ := contentionOpen_iff.mp hopen
      rw [coldDecide_coldJudged_refused hnone hbad]
      exact ⟨hwinner, hnone, rfl, by rw [coldRefused, report_reports, List.map_append]; rfl⟩

end Sys2Proof.Proofs.ColdStarts
end

section
/-! A change of schedule (R327, R328): its decision by every lane in scan a + 15, its end where it is not confirmed, and its boundary. -/

namespace Sys2Proof.Proofs.ScheduleChanges

open Sys2Proof Sys2Proof.Machine Sys2Proof.Claims Sys2Proof.Laws

/-! ### Every lane decides by itself -/

/-- A lane's decision rests on its own state and on the configuration of the link. -/
theorem laneConfirms_congr {s t : State} {l : Lane} (hlane : lane t l = lane s l) (hdata : t.data = s.data) :
    laneConfirms t l = laneConfirms s l := by
  have hl : t.ctl.lanes.get l = s.ctl.lanes.get l := hlane
  simp only [laneConfirms, missingAt, requiredNodes, acknowledgedBy, portCfg, schedPort, hl, hdata]

/-- A lane with its decision on the change that it holds. -/
def laneDecided (s : State) (l : Lane) : LaneState :=
  { lane s l with change := (lane s l).change.map (fun c => { c with decided := some (laneConfirms s l) }) }

theorem lane_laneDecides (s : State) (l : Lane) : lane (laneDecides s l) l = laneDecided s l := lane_onLane _ _ _

theorem lane_laneDecides_ne (s : State) {k l : Lane} (h : l ≠ k) : lane (laneDecides s k) l = lane s l := lane_onLane_ne _ _ h

/-- The decision of one lane does not bear on another's. -/
theorem laneDecided_laneDecides (s : State) {k l : Lane} (h : l ≠ k) : laneDecided (laneDecides s k) l = laneDecided s l := by
  have hlane := lane_laneDecides_ne s h
  rw [laneDecided, hlane, laneConfirms_congr hlane rfl]
  rfl

/-- Lanes that decide one after the other, each once, decide as each would by itself. -/
theorem lane_foldl_laneDecides {ls : List Lane} (hls : ls.Nodup) (s : State) (l : Lane) :
    lane (ls.foldl laneDecides s) l = if l ∈ ls then laneDecided s l else lane s l := by
  induction ls generalizing s with
  | nil => rfl
  | cons k ls ih =>
    obtain ⟨hk, hls⟩ := List.nodup_cons.mp hls
    rw [List.foldl_cons, ih hls]
    by_cases h : l = k
    · subst h
      rw [if_neg hk, if_pos List.mem_cons_self, lane_laneDecides]
    · simp only [List.mem_cons, h, false_or, laneDecided_laneDecides s h, lane_laneDecides_ne s h]

/-- All four lanes decide (R328). -/
def allDecide (s : State) : State := Lane.list.foldl laneDecides s

theorem lane_allDecide (s : State) (l : Lane) : lane (allDecide s) l = laneDecided s l := by
  rw [allDecide, lane_foldl_laneDecides (by decide), if_pos (by cases l <;> decide)]

theorem data_allDecide (s : State) : (allDecide s).data = s.data := foldl_keeps State.data laneDecides (fun _ _ => rfl) Lane.list s

/-- The decisions change the lanes alone. -/
theorem ctl_allDecide (s : State) : (allDecide s).ctl = { s.ctl with lanes := (allDecide s).ctl.lanes } :=
  foldl_keeps (fun u => { u.ctl with lanes := (allDecide s).ctl.lanes }) laneDecides (fun _ _ => rfl) Lane.list s

/-! ### The decision and the boundary -/

/-- The change is confirmed: the lanes keep their decisions, the command its confirmation, and MGT raises the event (R328, R447). -/
def changeConfirmed (c : SchedChange) (a : Scn) (s : State) : State :=
  schedEvent c.t .ok (boundaryOf a) (onSched (fun x => { x with change := some { c with confirmed := some true } }) (allDecide s))

section
variable {s : State} {c : SchedChange} {a : Scn} (hc : s.data.sched.change = some c) (ha : c.a = some a)
include hc ha

theorem exec_schedChangeBoundary_confirmed (hconf : c.confirmed = some true)
    (hdue : scnBefore (BitVec.ofNat 32 s.clk.tb2) (boundaryOf a) = false) :
    exec .schedChangeBoundary s = .next (onSched (fun x => { x with inForce := c.t }) s) := by
  have he : exec .schedChangeBoundary s = execSchedChangeBoundary s := rfl
  rw [he, execSchedChangeBoundary]
  simp only [hc, ha]
  rw [if_pos ⟨hconf, by rw [hdue]; rfl⟩]

/-- In scan a + 15 a change without a decision is confirmed or aborted. -/
theorem exec_schedChangeDecision (hrun : ctlRuns s = true) (hopen : c.confirmed = none) (hscn : scn s = a + 15) :
    exec .schedChangeDecision s = .next (if confirmedOf s c then changeConfirmed c a s else schedAbort c a s) := by
  have he : exec .schedChangeDecision s = execSchedChangeDecision s := rfl
  obtain ⟨cmd, t, _, confirmed⟩ := c
  subst ha
  obtain rfl : confirmed = none := hopen
  rw [he, execSchedChangeDecision]
  simp only [hc]
  rw [if_pos (by simp [hrun, hscn])]
  rfl

end

theorem schedAbort_frame (c : SchedChange) (a : Scn) (s : State) :
    (schedAbort c a s).data.sched = { s.data.sched with change := none } ∧
      (schedAbort c a s).ctl = { s.ctl with lanes := s.ctl.lanes.map (fun x => { x with change := none }) } := ⟨rfl, rfl⟩

theorem scheduleChangeTakesForce : ScheduleChangeTakesForce := by
  intro s c a hc ha
  refine ⟨exec_schedChangeBoundary_confirmed hc ha, fun hrun hopen hscn => ?_⟩
  rw [exec_schedChangeDecision hc ha hrun hopen hscn]
  refine ⟨fun hyes => ?_, fun hno => ?_⟩
  · rw [if_pos hyes]
    refine ⟨_, rfl, rfl, lane_allDecide s, ?_, ctl_allDecide s⟩
    change (allDecide s).data.sched.inForce = s.data.sched.inForce
    exact congrArg (fun d => d.sched.inForce) (data_allDecide s)
  · rw [if_neg (Bool.eq_false_iff.mp hno)]
    obtain ⟨hsched, hctl⟩ := schedAbort_frame c a s
    refine ⟨_, rfl, ?_, fun l => ?_, ?_, ?_⟩
    · rw [hsched]
    · rw [lane, hctl, Quad_get_map]
      rfl
    · rw [hsched]
    · rw [hctl]

end Sys2Proof.Proofs.ScheduleChanges
end

section
/-! What the stars take and send (R291 to R294, R316 to R319, R351): records of the lanes, then the downframe of a port, normal or restrictive. -/

namespace Sys2Proof.Proofs.Downframes

open Sys2Proof Sys2Proof.Machine Sys2Proof.Claims Sys2Proof.Laws Sys2Proof.Proofs.Planes Sys2Proof.Proofs.Ticks Sys2Proof.Proofs.ColdStarts
open Sys2Proof.Proofs.ScheduleChanges

/-! ### Records of the lanes (R291, R316) -/

/-- The star with one more code record. -/
def codeKept (ch : Chan) (r : CodeRec) (s : State) : State := onStar ch (fun x => { x with codes := putCode (starCycle s ch) r x.codes }) s

/-- The star with one more sync record. -/
def syncKept (ch : Chan) (r : SyncRec) (s : State) : State := onStar ch (fun x => { x with syncs := putSync (starCycle s ch) r x.syncs }) s

theorem exec_codeRecord_due {s : State} {ch : Chan} {l : Lane} {p : BitVec 6} (hdom : domRun s (starDom ch) = true)
    (huse : (portCfg s ch p.toNat).use = true) (hseat : (seatOf s l).isSome = true) (hdue : recordsDue s l = true) (given : Option CodeRec) :
    exec (.codeRecord ch l p given) s = .next (codeKept ch (given.getD (ownCode s ch l p.toNat)) s) :=
  congrArg Host.Outcome.next (if_pos (by simp [hdom, huse, hseat, hdue]))

/-- A sync record that is due is kept where its CRC is correct, and else changes nothing. -/
theorem exec_syncRecord_due {s : State} {ch : Chan} {l : Lane} (hdom : domRun s (starDom ch) = true)
    (hmode : (Machine.star s ch).mode = .coldStart ∨ (Machine.star s ch).mode = .running) (hl : l ∈ linkLanes s) (hdue : recordsDue s l = true)
    (given : Option (List Byte)) :
    exec (.syncRecord ch l given) s =
      .next ((parseSync (given.getD (syncBytes (ownSync s l)))).elim s fun r => syncKept ch r s) := by
  have he : exec (.syncRecord ch l given) s = execSyncRecord ch l given s := rfl
  rw [he, execSyncRecord, if_pos (by simp [hdom, hmode, hl, hdue])]
  cases parseSync (given.getD (syncBytes (ownSync s l))) <;> rfl

/-! ### The clock while a star decides (R317 to R319, R293) -/

theorem clk_reportLane (ch : Chan) (code : Nat) (l : Lane) (s : State) : (reportLane ch code l s).clk = s.clk := rfl

theorem clk_leaderPasses (ch : Chan) (r : SyncRec) (rs : List SyncRec) (s : State) : (leaderPasses ch r rs s).clk = s.clk := by
  unfold leaderPasses
  dsimp only
  split
  · split <;> rfl
  · rfl

theorem tick_syncDisagree (ch : Chan) (s : State) : (syncDisagree ch s).clk.tick = s.clk.tick := tick_trip 0x08 true _

theorem tick_decideSync (ch : Chan) (rs : List SyncRec) (s : State) : (decideSync ch rs s).clk.tick = s.clk.tick := by
  have reported : ∀ (os : List SyncRec) (t : State), (os.foldl (fun s o => reportLane ch (0x580 + ch.idx) o.lane s) t).clk = t.clk :=
    fun os t => foldl_keeps State.clk _ (fun s (o : SyncRec) => clk_reportLane ch (0x580 + ch.idx) o.lane s) os t
  unfold decideSync
  dsimp only
  split
  · split
    · rw [onStar_clk, reported]
    · split
      · rw [clk_leaderPasses]
      · exact tick_syncDisagree ch s
  · split
    · rw [clk_leaderPasses]
    · exact tick_syncDisagree ch s

/-- The lanes that the voter halves named for cycle m (R316). -/
def namedFor (s : State) (m : Scn) : List (Lane × BitVec 16) := match dueScan s m with | some q => q.codeLanes | none => []

/-- The star as its decision of a cycle begins: a voted scan ends substitution (R351). -/
def beaconBegun (ch : Chan) (s : State) : State :=
  let m := starCycle s ch
  let voted := match dueScan s m with | some q => !q.silent && !s.ctl.trip.inForce | none => false
  onAux ch (fun a => { a with autonomous := false, restrAll := false })
    (onStar ch (fun x => { x with beaconOf := some m.toNat, named := x.named || !(namedFor s m).isEmpty,
                                  substitution := x.substitution && !voted }) s)

/-- The rows of R317 in a channel's mode. -/
def beaconDecided (ch : Chan) (m : Scn) (named : List (Lane × BitVec 16)) (s : State) : State :=
  match (Machine.star s ch).mode with
  | .nodeLed => onStar ch (fun x => { x with applied := s.data.cfg.start, annSched := 0, annCnt := 0 }) s
  | .running =>
    let rs := (Machine.star s ch).syncs.filter (syncCounts named m)
    if s.ctl.trip.inForce || !(Machine.star s ch).named || (rs.isEmpty && (linkLanes s).isEmpty) then
      onAux ch (fun a => { a with autonomous := true }) (onStar ch (fun x => { x with annSched := 0, annCnt := 0 }) s)
    else decideSync ch rs s
  | _ => s

theorem beaconDecide_eq (ch : Chan) (s : State) : beaconDecide ch s =
    if (Machine.star s ch).beaconOf = some (starCycle s ch).toNat then s
    else beaconDecided ch (starCycle s ch) (namedFor s (starCycle s ch)) (beaconBegun ch s) := rfl

theorem tick_beaconDecided (ch : Chan) (m : Scn) (named : List (Lane × BitVec 16)) (s : State) :
    (beaconDecided ch m named s).clk.tick = s.clk.tick := by
  unfold beaconDecided
  split
  · rfl
  · dsimp only
    split
    · rfl
    · exact tick_decideSync ch _ s
  · rfl

theorem tick_beaconDecide (ch : Chan) (s : State) : (beaconDecide ch s).clk.tick = s.clk.tick := by
  rw [beaconDecide_eq]
  split
  · rfl
  · rw [tick_beaconDecided]
    rfl

/-- The last rows of R293 for an agreed code record: its header, then its schedule. -/
def codeJudged (ch : Chan) (p : Nat) (m : Scn) (applied : Nat) (q : VotedScan) (a : CodeRec) (s : State) : State × Option (CodeRec × List Byte) :=
  if !hdrNames s ch p m a.hdr then (codeRecordReport ch p 4 q.scn s, none)
  else if (a.hdr.getD 1 0).toNat % 8 ≠ applied then
    (report .vital 0x0502 (starSource ch p) (byte ch.idx ++ byte p) (le4 q.scn.toNat) s, none)
  else (s, some (a, downPayload (portN s ch p) p (fun w => (delivered q .x w).getD 0#64)))

theorem clk_codeJudged (ch : Chan) (p : Nat) (m : Scn) (applied : Nat) (q : VotedScan) (a : CodeRec) (s : State) :
    (codeJudged ch p m applied q a s).1.clk = s.clk := by
  unfold codeJudged
  split
  · rfl
  · split <;> rfl

/-- Whichever row decides, a downframe is decided within one tick. -/
theorem tick_decideDown (ch : Chan) (p : Nat) (m : Scn) (s : State) : (decideDown ch p m s).1.clk.tick = s.clk.tick := by
  have judged : ∀ (rs : List CodeRec) q a, (codeJudged ch p m (Machine.star s ch).applied q a
      (rs.foldl (fun s r => reportLane ch (0x500 + 64 * ch.idx + p) r.lane s) s)).1.clk.tick = s.clk.tick := by
    intro rs q a
    rw [clk_codeJudged, foldl_keeps State.clk _ (fun s (r : CodeRec) => clk_reportLane ch (0x500 + 64 * ch.idx + p) r.lane s)]
  unfold decideDown
  dsimp only
  split
  · rfl
  · split
    · rfl
    · split
      · rfl
      · split
        · exact tick_trip 0x07 true s
        · split
          · rfl
          · split
            · exact judged _ _ _
            · exact judged [] _ _

/-! ### The downframe of a port (R284, R285, R293) -/

/-- A header made with RESTR bears it as bit 7 of its second byte. -/
theorem restr_downHeader (ver : Nat) (force : Bool) (sched : Nat) (ch : Chan) (p : Nat) (echo : Byte) (m : Scn) (link : BitVec 16) :
    128 ≤ ((downHeader ver true force sched ch p echo m link).getD 1 0).toNat := by
  have hbyte : (downHeader ver true force sched ch p echo m link).getD 1 0 = BitVec.ofNat 8 ((128 + 64 * b2n force + sched % 8) % 256) := rfl
  have hforce : b2n force ≤ 1 := by cases force <;> decide
  rw [hbyte, BitVec.toNat_ofNat]
  omega

theorem restr_restrictiveFrame (s : State) (ch : Chan) (p : Nat) (m : Scn) : Machine.DownFrame.restr (restrictiveFrame s ch p m) = true :=
  decide_eq_true (restr_downHeader _ _ _ _ _ _ _ _)

/-- A downframe sent is the one that the star holds for its port. -/
theorem sent_sendDown (ch : Chan) (k : Nat) (f : DownFrame) (s : State) : smFind (Machine.star (sendDown ch k f s) ch).sent k = some f := by
  obtain ⟨units, h⟩ := snoop_eq (txPoint ch) k true true (downBytes ch k f) (onStar ch (fun x => { x with sent := smPut x.sent k f }) s)
  have hstar : Machine.star (sendDown ch k f s) ch = Machine.star (onStar ch (fun x => { x with sent := smPut x.sent k f }) s) ch := by
    rw [sendDown, h]
    rfl
  rw [hstar, star_onStar, smFind_smPut, if_pos rfl]

/-- The port notes what its last normal downframe carried. -/
def lastNoted (ch : Chan) (k : Nat) (a : CodeRec) (s : State) : State :=
  onPort ch k (fun x => { x with lastSched := some ((a.hdr.getD 1 0).toNat % 8), lastForce := bitN (a.hdr.getD 1 0).toNat 6 }) s

/-- A decided downframe leaves: restrictive without a decision for a normal one, and on a port that is held. -/
def downSentAs (ch : Chan) (k : Nat) (m : Scn) : State × Option (CodeRec × List Byte) → State
  | (s, some (a, pl)) =>
    if (port s ch k).mode == .isolated || (port s ch k).mode == .locked then sendDown ch k (restrictiveFrame s ch k m) s
    else sendDown ch k (normalFrame s ch k m a pl) (lastNoted ch k a s)
  | (s, none) => sendDown ch k (restrictiveFrame s ch k m) s

/-- What the star decides for a port in its cycle (R293, R317). -/
def decidedDown (s : State) (ch : Chan) (k : Nat) : State × Option (CodeRec × List Byte) :=
  decideDown ch k (starCycle s ch) (onPort ch k slewDly (beaconDecide ch s))

theorem exec_downframeStart_due {s : State} {ch : Chan} {p : BitVec 6} (hdue : downDue s ch p.toNat = true) :
    exec (.downframeStart ch p) s = .next (downSentAs ch p.toNat (starCycle s ch) (decidedDown s ch p.toNat)) := by
  have he : exec (.downframeStart ch p) s = execDownframeStart ch p s := rfl
  rw [he, execDownframeStart, if_pos hdue, decidedDown]
  dsimp only
  obtain ⟨t, d⟩ := decideDown ch p.toNat (starCycle s ch) (onPort ch p.toNat slewDly (beaconDecide ch s))
  cases d <;> rfl

/-- The star decides a downframe in the tick in which it starts to send it. -/
theorem tick_decidedDown (s : State) (ch : Chan) (k : Nat) : (decidedDown s ch k).1.clk.tick = s.clk.tick := by
  rw [decidedDown, tick_decideDown, onPort_clk, tick_beaconDecide]

/-- Under substitution, once the cycle's beacon decision is made, no normal downframe is decided (R351). -/
theorem decidedDown_of_substitution {s : State} {ch : Chan} (k : Nat) (hsub : (Machine.star s ch).substitution = true)
    (hmade : (Machine.star s ch).beaconOf = some (starCycle s ch).toNat) : (decidedDown s ch k).2 = none := by
  have hport : (Machine.star (onPort ch k slewDly s) ch).substitution = true := by rw [onPort, star_onStar, hsub]
  rw [decidedDown, beaconDecide_eq, if_pos hmade, decideDown]
  simp only [hport, Bool.true_or, if_true]

theorem downSentAs_of_none {ch : Chan} {k : Nat} {m : Scn} {d : State × Option (CodeRec × List Byte)} (h : d.2 = none) :
    downSentAs ch k m d = sendDown ch k (restrictiveFrame d.1 ch k m) d.1 := by
  obtain ⟨t, _⟩ := d
  subst h
  rfl

theorem downSentAs_of_some {ch : Chan} {k : Nat} {m : Scn} {d : State × Option (CodeRec × List Byte)} {a : CodeRec} {pl : List Byte}
    (h : d.2 = some (a, pl)) (hiso : (port d.1 ch k).mode ≠ .isolated) (hlock : (port d.1 ch k).mode ≠ .locked) :
    downSentAs ch k m d = sendDown ch k (normalFrame d.1 ch k m a pl) (lastNoted ch k a d.1) := by
  obtain ⟨t, _⟩ := d
  subst h
  exact if_neg (by simp [hiso, hlock])

theorem starSendsDownframes : StarSendsDownframes := by
  intro s ch
  refine ⟨fun l p hdom huse hseat hdue => ?_, fun l hdom hmode hl hdue => ?_, fun p hdue => ?_⟩
  · have kept := exec_codeRecord_due hdom huse hseat hdue
    exact ⟨kept none, fun r => kept (some r)⟩
  · have kept := exec_syncRecord_due hdom hmode hl hdue
    refine ⟨fun r hr => ?_, fun b r hr => ?_, fun b hb => ?_⟩
    · rw [kept, Option.getD_none, hr]
      rfl
    · rw [kept, Option.getD_some, hr]
      rfl
    · rw [kept, Option.getD_some, hb]
      rfl
  · rw [exec_downframeStart_due hdue]
    refine ⟨fun a pl hd hiso hlock => ?_, fun hrestr => ?_⟩
    · rw [downSentAs_of_some (d := decidedDown s ch p.toNat) hd hiso hlock]
      exact ⟨_, _, rfl, sent_sendDown _ _ _ _, rfl, tick_decidedDown s ch p.toNat, rfl, rfl, rfl, rfl⟩
    · have hnone : (decidedDown s ch p.toNat).2 = none :=
        hrestr.elim id fun ⟨hsub, hmade⟩ => decidedDown_of_substitution p.toNat hsub hmade
      rw [downSentAs_of_none hnone]
      exact ⟨_, _, rfl, sent_sendDown _ _ _ _, restr_restrictiveFrame _ _ _ _, rfl, rfl, rfl⟩

/-- Settles O25: a lane's frame that is alone in contention wins, a star's records are kept as they are due, and its downframe is decided and sent
within one tick, restrictive where no row decides a normal one. Every lane decides on a change by itself, and its boundary puts it in force. -/
theorem starsStartAndSend : Obligations.StarsStartAndSend :=
  ⟨coldStartContention, starSendsDownframes, scheduleChangeTakesForce⟩

end Sys2Proof.Proofs.Downframes
end

section
/-! Port states (O23): a change of a port's state (R336), its link (R271, R346, R355), its self-test (R520) and its long loss (R559). -/

namespace Sys2Proof.Proofs.PortStates

open Sys2Proof Sys2Proof.Machine Sys2Proof.Claims Sys2Proof.Laws

/-! ### A port enters a state (R336) -/

@[simp] theorem enterState_mode (cfg : PortCfg) (now : Nat) (m : PortMode) (x : PortState) : (enterState cfg now m x).mode = m := by
  cases m
  case integrating => exact (apply_ite PortState.mode _ _ _).trans (ite_self _)
  all_goals rfl

@[simp] theorem enterState_linkUp (cfg : PortCfg) (now : Nat) (m : PortMode) (x : PortState) :
    (enterState cfg now m x).linkUp = x.linkUp := by
  cases m
  case integrating => exact (apply_ite PortState.linkUp _ _ _).trans (ite_self _)
  all_goals rfl

/-- A port that is not calibrated integrates from the seed of its cable (R348). -/
theorem enterState_integrating_dly (cfg : PortCfg) (now : Nat) {x : PortState} (h : x.seeded = false) :
    (enterState cfg now .integrating x).dly = dlySeed cfg := by
  simp [enterState, h]

/-- A change of state acts on the port and, for its report, on MGT. -/
theorem setPortMode_eq {s : State} {ch : Chan} {p : Nat} {m : PortMode} (h : (port s ch p).mode ≠ m) :
    ∃ g, setPortMode ch p m s = { onPort ch p (enterState (portCfg s ch p) s.clk.tick m) s with mgt := g } := by
  rw [setPortMode, if_neg h]
  dsimp only
  split
  · exact ⟨_, rfl⟩
  · exact ⟨_, rfl⟩

theorem port_setPortMode {s : State} {ch : Chan} {p : Nat} {m : PortMode} (h : (port s ch p).mode ≠ m) :
    port (setPortMode ch p m s) ch p = enterState (portCfg s ch p) s.clk.tick m (port s ch p) := by
  obtain ⟨g, hg⟩ := setPortMode_eq h
  rw [hg]
  exact port_onPort ch p _ s

/-- A change of state leaves the other ports, the control plane and what the star keeps beside its ports. -/
theorem setPortMode_frame (s : State) (ch : Chan) (p : Nat) (m : PortMode) :
    (∀ q, q ≠ p → port (setPortMode ch p m s) ch q = port s ch q) ∧ (setPortMode ch p m s).ctl = s.ctl ∧
      (setPortMode ch p m s).data.aux = s.data.aux := by
  by_cases h : (port s ch p).mode = m
  · rw [setPortMode, if_pos h]
    exact ⟨fun _ _ => rfl, rfl, rfl⟩
  · obtain ⟨g, hg⟩ := setPortMode_eq h
    rw [hg]
    exact ⟨fun q hq => port_onPort_ne ch _ s hq, rfl, rfl⟩

/-! ### Its link comes up or goes down (R271, R346, R355) -/

/-- The port's link state as its PHY reports it. -/
def linkSet (ch : Chan) (p : Nat) (up : Bool) (s : State) : State := onPort ch p (fun x => { x with linkUp := up }) s

/-- The port's link comes up or goes down, and the port moves with it. -/
def linkMoved (ch : Chan) (p : Nat) (up : Bool) (m : PortMode) (s : State) : State := setPortMode ch p m (linkSet ch p up s)

theorem port_linkMoved {s : State} {ch : Chan} {p : Nat} {m : PortMode} (up : Bool) (h : (port s ch p).mode ≠ m) :
    port (linkMoved ch p up m s) ch p = enterState (portCfg s ch p) s.clk.tick m { port s ch p with linkUp := up } := by
  have hport : port (linkSet ch p up s) ch p = { port s ch p with linkUp := up } := port_onPort ch p _ s
  rw [linkMoved, port_setPortMode (by rwa [hport]), hport]
  rfl

theorem linkMoved_frame (s : State) (ch : Chan) (p : BitVec 6) (up : Bool) (m : PortMode) :
    (∀ q : BitVec 6, q ≠ p → port (linkMoved ch p.toNat up m s) ch q.toNat = port s ch q.toNat) ∧
      (linkMoved ch p.toNat up m s).ctl = s.ctl := by
  obtain ⟨hothers, hctl, -⟩ := setPortMode_frame (linkSet ch p.toNat up s) ch p.toNat m
  refine ⟨fun q hq => ?_, hctl⟩
  have hne : q.toNat ≠ p.toNat := BitVec.toNat_ne_iff_ne.mpr hq
  exact (hothers _ hne).trans (port_onPort_ne ch _ s hne)

section
variable {s : State} {ch : Chan} {p : BitVec 6} (hdom : domRun s (starDom ch) = true)
include hdom

theorem exec_portLinkUp_linkDown (hmode : (port s ch p.toNat).mode = .linkDown) :
    exec (.portLinkUp ch p (portCfg s ch p.toNat).level) s =
      .next (linkMoved ch p.toNat true (if onLockList s ch p.toNat then .locked else .integrating) s) := by
  have he : exec (.portLinkUp ch p (portCfg s ch p.toNat).level) s = execPortLinkUp ch p (portCfg s ch p.toNat).level s := rfl
  simp only [he, execPortLinkUp, hdom, hmode, decide_true, Bool.and_self, if_true]
  rfl

theorem exec_portLinkUp_locked (hmode : (port s ch p.toNat).mode = .locked) :
    exec (.portLinkUp ch p (portCfg s ch p.toNat).level) s = .next (linkSet ch p.toNat true s) := by
  have he : exec (.portLinkUp ch p (portCfg s ch p.toNat).level) s = execPortLinkUp ch p (portCfg s ch p.toNat).level s := rfl
  simp only [he, execPortLinkUp, hdom, hmode, decide_true, Bool.and_self, if_true]
  rfl

theorem exec_portLinkDown_up (hmode : (port s ch p.toNat).mode = .integrating ∨ (port s ch p.toNat).mode = .active ∨
    (port s ch p.toNat).mode = .isolated) : exec (.portLinkDown ch p) s = .next (linkMoved ch p.toNat false .linkDown s) := by
  have he : exec (.portLinkDown ch p) s = execPortLinkDown ch p s := rfl
  obtain hmode | hmode | hmode := hmode <;> simp only [he, execPortLinkDown, hdom, hmode, if_true] <;> rfl

theorem exec_portLinkDown_locked (hmode : (port s ch p.toNat).mode = .locked) :
    exec (.portLinkDown ch p) s = .next (linkSet ch p.toNat false s) := by
  have he : exec (.portLinkDown ch p) s = execPortLinkDown ch p s := rfl
  simp only [he, execPortLinkDown, hdom, hmode, if_true]
  rfl

end

/-- A partner of the other level gets no link (R271). -/
theorem exec_portLinkUp_otherLevel (s : State) (ch : Chan) (p : BitVec 6) :
    exec (.portLinkUp ch p !(portCfg s ch p.toNat).level) s = .next s :=
  congrArg Host.Outcome.next (if_neg (by simp))

theorem portLinkMovesThePort : PortLinkMovesThePort := by
  intro s ch p hdom
  refine ⟨fun hmode => ?_, exec_portLinkUp_otherLevel s ch p, fun hmode => ?_, fun hmode =>
    ⟨exec_portLinkUp_locked hdom hmode, exec_portLinkDown_locked hdom hmode⟩⟩
  · have hne : (port s ch p.toNat).mode ≠ if onLockList s ch p.toNat then .locked else .integrating := by
      rw [hmode]
      split <;> decide
    obtain ⟨hothers, hctl⟩ := linkMoved_frame s ch p true (if onLockList s ch p.toNat then .locked else .integrating)
    refine ⟨_, exec_portLinkUp_linkDown hdom hmode, ?_, ?_, fun hunseeded hunlocked => ?_, hothers, hctl⟩
    all_goals rw [port_linkMoved true hne]
    · exact enterState_linkUp _ _ _ _
    · exact enterState_mode _ _ _ _
    · rw [hunlocked]
      exact enterState_integrating_dly _ _ hunseeded
  · have hne : (port s ch p.toNat).mode ≠ .linkDown := by obtain h | h | h := hmode <;> simp [h]
    obtain ⟨hothers, hctl⟩ := linkMoved_frame s ch p false .linkDown
    refine ⟨_, exec_portLinkDown_up hdom hmode, ?_, ?_, ?_, ?_, ?_, hothers, hctl⟩
    all_goals rw [port_linkMoved false hne]; rfl

/-! ### Its self-test (R514, R520) -/

/-- The result of a port's self-test is kept, with the hour of the test. -/
def selfTested (ch : Chan) (p : Nat) (pass : Bool) (s : State) : State :=
  onAux ch (fun a => { a with selfTest := smPut a.selfTest p pass, testedIn := smPut a.testedIn p (ophHours s) }) s

/-- The self-test as its result is dealt with: a failure is a general record. -/
def selfTestReported (ch : Chan) (p : Nat) (pass : Bool) (s : State) : State :=
  if pass then selfTested ch p pass s else bistResult .general (6 + ch.idx) 4 .checkFail 0 (selfTested ch p pass s)

/-- A record of a failure leaves what the star has kept of the test. -/
theorem selfTestReported_frame (ch : Chan) (p : Nat) (pass : Bool) (s : State) :
    (selfTestReported ch p pass s).data = (selfTested ch p pass s).data ∧ (selfTestReported ch p pass s).ctl = s.ctl ∧
      (pass = true → (selfTestReported ch p pass s).mgt = s.mgt) := by
  cases pass
  · exact ⟨rfl, rfl, fun h => absurd h Bool.false_ne_true⟩
  · exact ⟨rfl, rfl, fun _ => rfl⟩

theorem selfTested_aux (ch : Chan) (p : Nat) (pass : Bool) (s : State) :
    smFind ((selfTested ch p pass s).data.aux.get ch).selfTest p = some pass ∧
      smFind ((selfTested ch p pass s).data.aux.get ch).testedIn p = some (ophHours s) := by
  rw [selfTested, onAux_data_aux, Duo_get_set_self]
  exact ⟨(smFind_smPut _ _ _ _).trans (if_pos rfl), (smFind_smPut _ _ _ _).trans (if_pos rfl)⟩

theorem exec_starPortSelftest_due {s : State} {ch : Chan} {p : BitVec 6} (hdom : domRun s (starDom ch) = true)
    (hmode : (port s ch p.toNat).mode = .linkDown ∨ (port s ch p.toNat).mode = .off)
    (hdue : smFind (s.data.aux.get ch).testedIn p.toNat ≠ some (ophHours s)) (loopback window : Bool) :
    exec (.starPortSelftest ch p loopback window) s = .next (selfTestReported ch p.toNat (loopback && window) s) :=
  congrArg Host.Outcome.next (if_pos (by simp [hdom, hmode, hdue]))

/-- A port tested within the hour is not tested again (R514). -/
theorem exec_starPortSelftest_tested {s : State} {ch : Chan} {p : BitVec 6}
    (h : smFind (s.data.aux.get ch).testedIn p.toNat = some (ophHours s)) (loopback window : Bool) :
    exec (.starPortSelftest ch p loopback window) s = .next s :=
  congrArg Host.Outcome.next (if_neg (by simp [h]))

theorem portSelfTestIsKept : PortSelfTestIsKept := by
  intro s ch p hdom
  refine ⟨fun hmode hdue loopback window => ?_, exec_starPortSelftest_tested, congrArg Host.Outcome.next (if_pos hdom)⟩
  obtain ⟨hdata, hctl, hmgt⟩ := selfTestReported_frame ch p.toNat (loopback && window) s
  obtain ⟨hresult, hhour⟩ := selfTested_aux ch p.toNat (loopback && window) s
  refine ⟨_, exec_starPortSelftest_due hdom hmode hdue loopback window, ?_, ?_, ?_, hctl, fun hl hw => hmgt (by rw [hl, hw]; rfl)⟩
  · rw [hdata, hresult]
  · rw [hdata, hhour]
  · rw [port, Machine.star, hdata]
    rfl

/-! ### Its loss for one second (R559) -/

theorem lostPortDegrades : LostPortDegrades := by
  intro s ch p at_ hmgt huse hlost hsince hdue hnew
  have he : exec (.portDownDegraded ch p) s = execPortDownDegraded ch p s := rfl
  rw [he, execPortDownDegraded]
  simp only [hsince]
  rw [if_pos (by simp [hmgt, huse, hlost, hdue, hnew])]

/-- Settles O23: a port moves with its link, keeps the result of its test of the hour, and degrades the module when it stays lost. -/
theorem portsFollowTheirLinks : Obligations.PortsFollowTheirLinks :=
  ⟨portLinkMovesThePort, portSelfTestIsKept, lostPortDegrades⟩

end Sys2Proof.Proofs.PortStates
end

section
/-! Stars as guardians (O24): a frame is judged on its port, accepted or a violation (R339, R344), isolation ends (R345), and the transmit gate (R352). -/

namespace Sys2Proof.Proofs.Guardians

open Sys2Proof Sys2Proof.Machine Sys2Proof.Claims Sys2Proof.Laws Sys2Proof.Proofs.Planes Sys2Proof.Proofs.ColdStarts Sys2Proof.Proofs.PortStates

/-! ### The judgement of a frame (R339) -/

/-- The tap point changes the check-value units alone (R453). -/
theorem tapped_eq (s : State) (ch : Chan) (k start : Nat) (b : List Byte) :
    ∃ units, tapped s ch k start b = onMgt (fun m => { m with cvu := units }) s := by
  unfold tapped
  split
  · exact ⟨s.mgt.cvu, rfl⟩
  · exact snoop_eq _ _ _ _ _ _

theorem tapped_frame (s : State) (ch : Chan) (k start : Nat) (b : List Byte) :
    (tapped s ch k start b).data = s.data ∧ (tapped s ch k start b).ctl = s.ctl ∧ (tapped s ch k start b).clk = s.clk := by
  obtain ⟨units, h⟩ := tapped_eq s ch k start b
  rw [h]
  exact ⟨rfl, rfl, rfl⟩

theorem port_tapped (s : State) (ch : Chan) (k start : Nat) (b : List Byte) : port (tapped s ch k start b) ch k = port s ch k := by
  obtain ⟨hdata, -, -⟩ := tapped_frame s ch k start b
  rw [port, Machine.star, hdata]
  rfl

/-- The frame fails one of rows 1 to 4 of R339 in the schedule that the star applies. -/
def frameBad (s : State) (ch : Chan) (k start : Nat) (b : List Byte) : Bool :=
  frameViolates (schedPort s (Machine.star s ch).applied ch k).lMax (offsetOf s ch k start) b

/-- A frame that started in cycle `c` on an INTEGRATING or ACTIVE port: a violation where it is bad, else an FCS error or accepted. -/
def frameJudged (ch : Chan) (k c start : Nat) (b : List Byte) (bad : Bool) (s : State) : State :=
  if bad then violation ch k c s
  else if !fcsCorrect b then onPort ch k (fun x => { x with fcsErrors := x.fcsErrors + 1 }) s
  else acceptFrame ch k start b s

theorem frameJudged_bad (ch : Chan) (k c start : Nat) (b : List Byte) (s : State) :
    frameJudged ch k c start b true s = violation ch k c s := rfl

theorem frameJudged_fcsError {b : List Byte} (h : fcsCorrect b = false) (ch : Chan) (k c start : Nat) (s : State) :
    frameJudged ch k c start b false s = onPort ch k (fun x => { x with fcsErrors := x.fcsErrors + 1 }) s :=
  if_pos (c := (!fcsCorrect b) = true) (by rw [h]; rfl)

theorem frameJudged_accepted {b : List Byte} (h : fcsCorrect b = true) (ch : Chan) (k c start : Nat) (s : State) :
    frameJudged ch k c start b false s = acceptFrame ch k start b s :=
  if_neg (c := (!fcsCorrect b) = true) (by rw [h]; decide)

/-- A running star that is not isolated judges a frame on a port that is INTEGRATING or ACTIVE. -/
theorem exec_starUpframe_judged {s : State} {ch : Chan} {p : BitVec 6} {b : List Byte} (start : Nat) (hdom : domRun s (starDom ch) = true)
    (hrun : (Machine.star s ch).mode = .running) (hiso : (Machine.star s ch).isolatedAll = false) (hb : b ≠ [])
    (hmode : (port s ch p.toNat).mode = .integrating ∨ (port s ch p.toNat).mode = .active) :
    exec (.starUpframe ch p start (some b)) s =
      .next (frameJudged ch p.toNat (followerOf s (.star ch)).cycle start b (frameBad s ch p.toNat start b)
        (tapped s ch p.toNat start b)) := by
  have he : exec (.starUpframe ch p start (some b)) s = execStarUpframe ch p start (some b) s := rfl
  have hsome : b.isEmpty = false := List.isEmpty_eq_false_iff.mpr hb
  obtain ⟨units, htap⟩ := tapped_eq s ch p.toNat start b
  have hbad : frameViolates (schedPort (tapped s ch p.toNat start b) (Machine.star s ch).applied ch p.toNat).lMax
      (offsetOf (tapped s ch p.toNat start b) ch p.toNat start) b = frameBad s ch p.toNat start b := by
    rw [htap]
    rfl
  rw [he, execStarUpframe]
  simp only [hdom, hsome, hrun, hiso]
  rw [← tapped, hbad, port_tapped]
  obtain hmode | hmode := hmode <;> rw [hmode] <;> rfl

/-! ### An accepted frame (R295, R339, R342) -/

/-- The port has taken a frame of cycle `c`, which is passed on with its start. -/
def frameTaken (ch : Chan) (p c start : Nat) (b : List Byte) (s : State) : State :=
  onPort ch p (fun x => { x with vcount := 0, tookAt := some c })
    (onAux ch (fun a => { a with passed := smPut a.passed p ⟨start, passedBytes b⟩ }) s)

/-- An edge start is counted, and corrects the port's transmission (R342). -/
def edgeCounted (ch : Chan) (p : Nat) (e : Int) (s : State) : State :=
  if edgeStart e then
    onPort ch p (fun x => { x with edgeCnt := satAdd 0xFFFF x.edgeCnt 1,
                                   txc := if compatPort s ch p then x.txc else clampI (x.txc - e) (-8000) 8000 }) s
  else s

/-- The edge count and the correction leave the port's state, its violations and its frame, and all beside the port. -/
theorem edgeCounted_frame (ch : Chan) (p : Nat) (e : Int) (s : State) :
    (port (edgeCounted ch p e s) ch p).mode = (port s ch p).mode ∧ (port (edgeCounted ch p e s) ch p).vcount = (port s ch p).vcount ∧
      (port (edgeCounted ch p e s) ch p).tookAt = (port s ch p).tookAt ∧ (edgeCounted ch p e s).data.aux = s.data.aux ∧
      (edgeCounted ch p e s).ctl = s.ctl := by
  unfold edgeCounted
  split
  · rw [port_onPort]
    exact ⟨rfl, rfl, rfl, rfl, rfl⟩
  · exact ⟨rfl, rfl, rfl, rfl, rfl⟩

theorem port_frameTaken (ch : Chan) (p c start : Nat) (b : List Byte) (s : State) :
    port (frameTaken ch p c start b s) ch p = { port s ch p with vcount := 0, tookAt := some c } := port_onPort ch p _ _

theorem passed_frameTaken (ch : Chan) (p c start : Nat) (b : List Byte) (s : State) :
    smFind ((frameTaken ch p c start b s).data.aux.get ch).passed p = some ⟨start, passedBytes b⟩ := by
  rw [frameTaken, onPort_data_aux, onAux_data_aux, Duo_get_set_self]
  exact (smFind_smPut _ _ _ _).trans (if_pos rfl)

/-- The port that takes a frame at offset `e`, its edge counted, becomes ACTIVE. -/
def frameAccepted (ch : Chan) (p c start : Nat) (e : Int) (b : List Byte) (s : State) : State :=
  setPortMode ch p .active (edgeCounted ch p e (frameTaken ch p c start b s))

/-- An accepted frame without a turnaround makes an INTEGRATING port ACTIVE, and gives no delay sample. -/
theorem acceptFrame_integrating {s : State} {ch : Chan} {p : Nat} {b : List Byte} (start : Nat) (hturn : hdrField b 0x0C 4 = 0)
    (hmode : (port s ch p).mode = .integrating) :
    acceptFrame ch p start b s = frameAccepted ch p (followerOf s (.star ch)).cycle start (offsetOf s ch p start) b s := by
  obtain ⟨hedge, -⟩ := edgeCounted_frame ch p (offsetOf s ch p start) (frameTaken ch p (followerOf s (.star ch)).cycle start b s)
  rw [port_frameTaken] at hedge
  rw [acceptFrame, if_neg (fun h => h.1 hturn)]
  exact if_pos (hedge.trans hmode)

theorem frameAccepted_port {s : State} {ch : Chan} {p : Nat} (hmode : (port s ch p).mode = .integrating) (c start : Nat) (e : Int)
    (b : List Byte) :
    (port (frameAccepted ch p c start e b s) ch p).mode = .active ∧ (port (frameAccepted ch p c start e b s) ch p).vcount = 0 ∧
      (port (frameAccepted ch p c start e b s) ch p).tookAt = some c := by
  obtain ⟨hstate, hcount, htook, -, -⟩ := edgeCounted_frame ch p e (frameTaken ch p c start b s)
  rw [port_frameTaken] at hstate hcount htook
  have hne : (port (edgeCounted ch p e (frameTaken ch p c start b s)) ch p).mode ≠ .active := by
    rw [hstate, hmode]
    decide
  rw [frameAccepted, port_setPortMode hne]
  exact ⟨rfl, hcount, htook⟩

theorem frameAccepted_passed (ch : Chan) (p c start : Nat) (e : Int) (b : List Byte) (s : State) :
    smFind ((frameAccepted ch p c start e b s).data.aux.get ch).passed p = some ⟨start, passedBytes b⟩ ∧
      (frameAccepted ch p c start e b s).ctl = s.ctl := by
  obtain ⟨-, hctl, haux⟩ := setPortMode_frame (edgeCounted ch p e (frameTaken ch p c start b s)) ch p .active
  obtain ⟨-, -, -, haux', hctl'⟩ := edgeCounted_frame ch p e (frameTaken ch p c start b s)
  refine ⟨?_, hctl.trans hctl'⟩
  rw [frameAccepted, haux, haux']
  exact passed_frameTaken ch p c start b s

/-! ### Violations and isolation (R344, R345) -/

/-- A start outside the window, and a frame whose length its row of R339 does not allow, are bad. -/
theorem frameViolates_of_row {lMax : Nat} {e : Int} {b : List Byte}
    (h : e < -4000 ∨ 4000 < e ∨ frameLen b < 20 ∨ 148 < frameLen b ∨ b.length ≠ max 64 (18 + frameLen b)) :
    frameViolates lMax e b = true := by
  simp only [frameViolates, frameCut, Bool.or_eq_true, Bool.not_eq_true', Bool.and_eq_false_iff, decide_eq_true_eq, decide_eq_false_iff_not,
    not_le]
  tauto

theorem violation_early {s : State} {ch : Chan} {p : Nat} (c : Nat) (h : (port s ch p).vcount < 7) :
    violation ch p c s = onPort ch p (fun x => { x with vcount := (port s ch p).vcount + 1 }) s :=
  if_neg (by omega)

/-- The isolation of a port by violations of cycle `c` is noted with its instant (R344). -/
def isolationNoted (c now : Nat) (x : PortState) : PortState :=
  { x with vcount := 0, isoCycle := some c, isoAt := x.isoAt.filter (fun t => decide (now < t + Config.hourTicks)) ++ [now] }

/-- The eighth violation in a row isolates a port that has not been isolated before. -/
theorem violation_eighth {s : State} {ch : Chan} {p : Nat} (c : Nat) (hcount : (port s ch p).vcount = 7) (hfirst : (port s ch p).isoAt = []) :
    violation ch p c s = isolatePort ch p c false (onPort ch p (isolationNoted c (tb3Tick s)) s) := by
  have hnoted : (port (onPort ch p (isolationNoted c (tb3Tick s)) s) ch p).isoAt = [tb3Tick s] := by
    rw [port_onPort, isolationNoted, hfirst]
    rfl
  have hhour : isoHour (tb3Tick s) (port (onPort ch p (isolationNoted c (tb3Tick s)) s) ch p) ≤ 1 := by
    rw [isoHour, hnoted]
    exact List.length_filter_le _ _
  have heighth : violation ch p c s = eighthViolation ch p c s := if_pos (by omega)
  rw [heighth]
  exact if_neg (fun hfour => absurd (le_trans hfour hhour) (by decide))

theorem port_isolatePort {s : State} {ch : Chan} {p : Nat} (c : Nat) (cal : Bool) (h : (port s ch p).mode ≠ .isolated) :
    port (isolatePort ch p c cal s) ch p =
      enterState (portCfg s ch p) s.clk.tick .isolated { port s ch p with vcount := 0, quiet := c, isoCal := cal } := by
  have hport := port_onPort ch p (fun x => { x with vcount := 0, quiet := c, isoCal := cal }) s
  have hmoved := port_setPortMode (m := .isolated) (by rwa [hport])
  rw [hport] at hmoved
  exact hmoved

/-- 16 cycles without a frame start end the isolation of a port. -/
theorem exec_isolationHoldEnd_due {s : State} {ch : Chan} {p : BitVec 6} (hdom : domRun s (starDom ch) = true)
    (hmode : (port s ch p.toNat).mode = .isolated) (hquiet : (port s ch p.toNat).quiet + 17 ≤ (followerOf s (.star ch)).cycle) :
    exec (.isolationHoldEnd ch p) s =
      .next (isolationRecord ch p.toNat false (port s ch p.toNat).isoCal (setPortMode ch p.toNat .integrating s)) :=
  congrArg Host.Outcome.next (if_pos (by simp [hdom, hmode, hquiet]))

theorem framesAreJudgedAtThePort : FramesAreJudgedAtThePort := by
  intro s ch p start b hdom hrun hiso hb x c e bad s0
  have hport : port s0 ch p.toNat = x := port_tapped s ch p.toNat start b
  obtain ⟨-, hctl, hclk⟩ := tapped_frame s ch p.toNat start b
  have judged : ∀ v, x.mode = .integrating ∨ x.mode = .active → bad = v →
      exec (.starUpframe ch p start (some b)) s = .next (frameJudged ch p.toNat c start b v s0) := by
    rintro _ hmode rfl
    exact exec_starUpframe_judged start hdom hrun hiso hb hmode
  refine ⟨fun hmode hgood hfcs hturn => ?_, frameViolates_of_row, fun hmode hbad hcount => ?_, fun hmode hbad hcount hfirst => ?_,
    fun hmode hgood hfcs => ?_, fun hmode hquiet => ?_⟩
  · have hmode' : (port s0 ch p.toNat).mode = .integrating := by rw [hport, hmode]
    have hc : (followerOf s0 (.star ch)).cycle = c := by rw [followerOf_congr (congrArg _ hctl)]
    rw [judged _ (.inl hmode) hgood, frameJudged_accepted hfcs, acceptFrame_integrating start hturn hmode', hc]
    obtain ⟨hactive, hclear, htook⟩ := frameAccepted_port hmode' c start (offsetOf s0 ch p.toNat start) b
    obtain ⟨hpassed, hctl'⟩ := frameAccepted_passed ch p.toNat c start (offsetOf s0 ch p.toNat start) b s0
    exact ⟨_, rfl, hactive, hclear, htook, hpassed, hctl'.trans hctl⟩
  · rw [judged _ (.inr hmode) hbad, frameJudged_bad, violation_early c (by rwa [hport]), hport]
  · have hnow : tb3Tick s0 = tb3Tick s := by rw [tb3Tick, ophHours, hclk]; rfl
    have hnoted := port_onPort ch p.toNat (isolationNoted c (tb3Tick s)) s0
    rw [hport] at hnoted
    have hne : (port (onPort ch p.toNat (isolationNoted c (tb3Tick s)) s0) ch p.toNat).mode ≠ .isolated := by
      rw [hnoted, isolationNoted, hmode]
      decide
    rw [judged _ (.inr hmode) hbad, frameJudged_bad, violation_eighth c (by rwa [hport]) (by rwa [hport]), hnow]
    refine ⟨_, rfl, ?_⟩
    rw [port_isolatePort c false hne, hnoted, isolationNoted, hfirst]
    exact ⟨rfl, rfl, rfl, rfl⟩
  · rw [judged _ (.inr hmode) hgood, frameJudged_fcsError hfcs]
  · have hne : (port s ch p.toNat).mode ≠ .integrating := by
      rw [hmode]
      decide
    obtain ⟨-, hctl', -⟩ := setPortMode_frame s ch p.toNat .integrating
    refine ⟨_, exec_isolationHoldEnd_due hdom hmode hquiet, ?_, hctl'⟩
    exact (congrArg PortState.mode (port_setPortMode hne)).trans (enterState_mode _ _ _ _)

/-! ### The transmit gate (R352) -/

/-- A downframe that the gate ends. -/
def gateEnded (ch : Chan) (p : Nat) (s : State) : State := onStar ch (fun x => { x with sent := spoilDown p x.sent }) s

/-- The star counts a cycle with a gate fault. -/
def gateFaultCounted (ch : Chan) (n c : Nat) (s : State) : State := onStar ch (fun x => { x with txFaults := n, txFaultCycle := some c }) s

/-- The star isolates itself, with a record. -/
def starIsolated (ch : Chan) (s : State) : State :=
  report .vital 0x0505 (starSource ch 0xFFF) (byte ch.idx) [] (onStar ch (fun x => { x with isolatedAll := true }) s)

theorem star_starIsolated (ch : Chan) (s : State) :
    Machine.star (starIsolated ch s) ch = { Machine.star s ch with isolatedAll := true } :=
  star_onStar ch (fun x => { x with isolatedAll := true }) s

theorem star_gateFaultCounted (ch : Chan) (n c : Nat) (s : State) :
    Machine.star (gateFaultCounted ch n c s) ch = { Machine.star s ch with txFaults := n, txFaultCycle := some c } := star_onStar ch _ s

section
variable {s : State} {ch : Chan} {p : BitVec 6} (hdom : domRun s (starDom ch) = true) (hiso : (Machine.star s ch).isolatedAll = false)
  (hsent : downSent s ch p.toNat = true) (hcloses : gateCloses s ch = true)
include hdom hiso hsent hcloses

/-- A second fault in one cycle ends its downframe and counts nothing. -/
theorem exec_starTxGateFault_again (hlast : (Machine.star s ch).txFaultCycle = some (followerOf s (.star ch)).cycle) :
    exec (.starTxGateFault ch p) s = .next (gateEnded ch p.toNat s) :=
  congrArg Host.Outcome.next ((if_pos (by simp [hdom, hiso, hsent, hcloses])).trans (if_pos hlast))

/-- The first gate fault after a cycle without one is the first of a row. -/
theorem exec_starTxGateFault_first (hlast : (Machine.star s ch).txFaultCycle = none) :
    exec (.starTxGateFault ch p) s = .next (gateFaultCounted ch 1 (followerOf s (.star ch)).cycle (gateEnded ch p.toNat s)) := by
  have he : exec (.starTxGateFault ch p) s = execStarTxGateFault ch p s := rfl
  rw [he, execStarTxGateFault, if_pos (by simp [hdom, hiso, hsent, hcloses])]
  simp only [hlast]
  rfl

/-- The third cycle in a row with a gate fault isolates the star; with MGT down nothing resets it. -/
theorem exec_starTxGateFault_third {d : Nat} (hlast : (Machine.star s ch).txFaultCycle = some d) (hnext : d + 1 = (followerOf s (.star ch)).cycle)
    (hcount : (Machine.star s ch).txFaults = 2) (hmgt : mgtUp s = false) :
    exec (.starTxGateFault ch p) s =
      .next (starIsolated ch (gateFaultCounted ch 3 (followerOf s (.star ch)).cycle (gateEnded ch p.toNat s))) := by
  have he : exec (.starTxGateFault ch p) s = execStarTxGateFault ch p s := rfl
  have hold : ¬ some d = some (followerOf s (.star ch)).cycle := by
    rw [← hnext, Option.some.injEq]
    omega
  rw [he, execStarTxGateFault, if_pos (by simp [hdom, hiso, hsent, hcloses])]
  simp only [hlast, hcount, if_neg hold, Option.map_some, hnext, if_true]
  exact congrArg Host.Outcome.next (if_neg (ne_true_of_eq_false hmgt))

end

theorem gateFaultsIsolateTheStar : GateFaultsIsolateTheStar := by
  intro s ch p hdom hiso hsent hcloses
  refine ⟨exec_starTxGateFault_first hdom hiso hsent hcloses, exec_starTxGateFault_again hdom hiso hsent hcloses, fun d hlast hnext hcount hmgt =>
    ⟨_, exec_starTxGateFault_third hdom hiso hsent hcloses hlast hnext hcount hmgt, ?_, ?_, rfl⟩⟩
  · rw [star_starIsolated]
  · rw [star_starIsolated, star_gateFaultCounted]

/-- Settles O24: the tap point leaves all that a judgement rests on, so a frame is judged as it stands before it; a gate fault acts by the cycles
in a row that had one. -/
theorem starsJudgeFramesAndGates : Obligations.StarsJudgeFramesAndGates :=
  ⟨framesAreJudgedAtThePort, gateFaultsIsolateTheStar⟩

end Sys2Proof.Proofs.Guardians
end

section
/-! Station time (O37, O38, R357 to R374): first what a change of time state leaves of the servos, then what a PTP message does in its domain, then
the timeouts of servos, masters and time states. -/

namespace Sys2Proof.Proofs.StationTime

open Sys2Proof Sys2Proof.Machine Sys2Proof.Claims Sys2Proof.Laws Sys2Proof.Proofs.Trips

/-! ### A change of time state (R366 to R368) -/

/-- What a switch, an acquisition or a new time map leaves: the time state, both servos and the control plane. -/
def locks (s : State) : TimeMode × (Bool → Servo) × Control := (s.data.time.mode, servoOf s.data.time, s.ctl)

theorem locks_alert (i : Nat) (s : State) : locks (alert i s) = locks s := by
  obtain ⟨f, h⟩ := alert_eq i s
  rw [h]
  rfl

/-- A phase adjustment moves the clock forward or holds it (R359). -/
theorem adjust_eq (d : Int) (t : TimeState) : adjust d t = { t with tb0 := t.tb0 + d.toNat, hold := t.hold + (-d).toNat } := by
  by_cases h : 0 ≤ d
  · rw [adjust, if_pos h, Int.toNat_of_nonpos (Int.neg_nonpos_of_nonneg h)]
    rfl
  · rw [adjust, if_neg h, Int.toNat_of_nonpos (Int.le_of_not_le h)]
    rfl

theorem locks_onTime_adjust (d : Int) (s : State) : locks (onTime (adjust d) s) = locks s := by
  simp only [locks, onTime_data_time, adjust_eq]
  rfl

theorem locks_switchTo (sec : Bool) (s : State) : locks (switchTo sec s) = locks s := by
  unfold switchTo
  simp only [adjust_eq]
  split
  · rfl
  · split <;> rfl

/-- The change of state as its record says it, before what the new state selects (R368). -/
def stateNoted (m : TimeMode) (s : State) : State :=
  onTime (fun t => { t with mode := m, holdSince := s.clk.tick })
    (report .general 0x0601 0x1000 (byte (timeCode s.data.time.mode) ++ byte (timeCode m)) (le2 (diffField (s.data.time.diff.getD 0))) s)

/-- A change of state that MGT is told of (R391, R447). -/
def stateTold (s : State) : State := raise 0x0008 (le4 (timeStatus s).toNat) (alert 3 s)

/-- A clock that follows a domain: by a switch while it is valid, else by an acquisition, and with an anchor and a new time map (R365 to R367,
R372). -/
def clockFollows (sec : Bool) (s : State) : State :=
  mapNow (anchor (if s.data.time.valid then switchTo sec s else acquire sec s))

theorem enterTime_selecting {m : TimeMode} {sec : Bool} {s : State} (hne : m ≠ s.data.time.mode) (hsel : selectedDomain m = some sec) :
    enterTime m s = stateTold (clockFollows sec (stateNoted m s)) := by
  rw [enterTime, if_neg hne]
  simp only [hsel]
  rfl

theorem enterTime_free {s : State} (hne : .free ≠ s.data.time.mode) :
    enterTime .free s = stateTold (onTime (fun t => { t with slew := none, freq := 0 }) (stateNoted .free s)) := by
  rw [enterTime, if_neg hne]
  rfl

/-- In HOLDOVER the clock runs on at the mean rate of the servo that was selected (R368). -/
def heldOver (old : TimeMode) (s : State) : State :=
  onTime (fun t => { t with slew := none, freq := match selectedDomain old with | some sec => meanFreq (servoOf t sec) | none => t.freq }) s

theorem enterTime_holdover {s : State} (hne : .holdover ≠ s.data.time.mode) :
    enterTime .holdover s = stateTold (heldOver s.data.time.mode (stateNoted .holdover s)) := by
  rw [enterTime, if_neg hne]
  rfl

theorem locks_stateTold (s : State) : locks (stateTold s) = locks s := locks_alert 3 s

theorem locks_clockFollows (sec : Bool) (s : State) : locks (clockFollows sec s) = locks s := by
  have hmap : ∀ v : State, locks (mapNow (anchor v)) = locks v := fun _ => rfl
  rw [clockFollows, hmap]
  split
  · exact locks_switchTo sec s
  · rfl

/-- A change of time state ends in the new state and leaves both servos and the control plane. -/
theorem locks_enterTime (m : TimeMode) (s : State) : locks (enterTime m s) = (m, (locks s).2) := by
  by_cases hm : m = s.data.time.mode
  · rw [enterTime, if_pos hm, hm]
    rfl
  · match m with
    | .free =>
      rw [enterTime_free hm, locks_stateTold]
      rfl
    | .holdover =>
      rw [enterTime_holdover hm, locks_stateTold]
      rfl
    | .lockedPrimary =>
      rw [enterTime_selecting hm rfl, locks_stateTold, locks_clockFollows]
      rfl
    | .lockedSecondary =>
      rw [enterTime_selecting hm rfl, locks_stateTold, locks_clockFollows]
      rfl

/-- What a change of state tells MGT leaves the data plane. -/
theorem data_stateTold (s : State) : (stateTold s).data = s.data := by
  obtain ⟨f, h⟩ := alert_eq 3 s
  rw [stateTold, h]
  rfl

/-- In FREE the clock runs on at its nominal rate, without a slew (R366, R368). -/
theorem time_enterTime_free {s : State} (hne : .free ≠ s.data.time.mode) :
    (enterTime .free s).data.time = { s.data.time with mode := .free, holdSince := s.clk.tick, slew := none, freq := 0 } := by
  rw [enterTime_free hne, data_stateTold]
  rfl

/-- Whatever row of R368 a lock decides, both servos and the control plane stay. -/
theorem servosAndCtl_judgeTime (s : State) : (locks (judgeTime s)).2 = (locks s).2 := by
  unfold judgeTime
  dsimp only
  split
  case h_9 => rfl
  all_goals rw [locks_enterTime]

/-! ### One servo changed (R362 to R365) -/

/-- Two states with the same servos and control plane. -/
theorem servo_of_locks {s t : State} (h : (locks t).2 = (locks s).2) (sec : Bool) : servoOf t.data.time sec = servoOf s.data.time sec :=
  congrFun (congrArg Prod.fst h) sec

theorem ctl_of_locks {s t : State} (h : (locks t).2 = (locks s).2) : t.ctl = s.ctl := congrArg Prod.snd h

@[simp] theorem servoOf_onServo (sec : Bool) (f : Servo → Servo) (s : State) :
    servoOf (onServo sec f s).data.time sec = f (servoOf s.data.time sec) := by
  cases sec <;> rfl

@[simp] theorem servoOf_onServo_other (sec : Bool) (f : Servo → Servo) (s : State) :
    servoOf (onServo sec f s).data.time (!sec) = servoOf s.data.time (!sec) := by
  cases sec <;> rfl

theorem onServo_onServo (sec : Bool) (f g : Servo → Servo) (s : State) :
    onServo sec f (onServo sec g s) = onServo sec (fun v => f (g v)) s := by
  cases sec <;> rfl

/-- In state `t` one servo is `v`, and the other and the control plane are as in state `s`. -/
structure ServoIs (sec : Bool) (v : Servo) (s t : State) : Prop where
  servo : servoOf t.data.time sec = v
  other : servoOf t.data.time (!sec) = servoOf s.data.time (!sec)
  ctl : t.ctl = s.ctl

theorem servoIs_onServo (sec : Bool) (f : Servo → Servo) (s : State) : ServoIs sec (f (servoOf s.data.time sec)) s (onServo sec f s) :=
  ⟨servoOf_onServo sec f s, servoOf_onServo_other sec f s, rfl⟩

theorem ServoIs.trans {sec : Bool} {v w : Servo} {s t u : State} (h : ServoIs sec v s t) (g : ServoIs sec w t u) : ServoIs sec w s u :=
  ⟨g.servo, g.other.trans h.other, g.ctl.trans h.ctl⟩

/-- What leaves the servos and the control plane leaves what is said of them. -/
theorem ServoIs.after {sec : Bool} {v : Servo} {s t u : State} (h : ServoIs sec v s t) (hu : (locks u).2 = (locks t).2) : ServoIs sec v s u :=
  ⟨(servo_of_locks hu sec).trans h.servo, (servo_of_locks hu (!sec)).trans h.other, (ctl_of_locks hu).trans h.ctl⟩

/-- A servo that unlocks counts its offsets anew (R364). -/
theorem unlock_servo (sec : Bool) (s : State) :
    ServoIs sec { servoOf s.data.time sec with locked := false, good := 0, bad := 0 } s (unlock sec s) :=
  (servoIs_onServo sec (fun v => { v with locked := false, good := 0, bad := 0 }) s).after (servosAndCtl_judgeTime _)

theorem servosAndCtl_updateDiff (sec : Bool) (s : State) : (locks (updateDiff sec s)).2 = (locks s).2 := by
  simp only [locks, updateDiff, onTime_data_time, onTime_ctl]
  split
  · split <;> rfl
  · rfl

theorem servosAndCtl_steer (sec : Bool) (s : State) : (locks (steer sec s)).2 = (locks s).2 := by
  unfold steer
  split
  · dsimp only
    split
    · rw [locks_onTime_adjust]
      rfl
    · rfl
  · rfl

/-- An offset computation acts on its servo; the clock and the time state follow (R364, R365, R368). -/
theorem computeOffset_servo {sec : Bool} {s : State} {v : Servo} (off : Int) (hv : servoOf s.data.time sec = v) :
    ServoIs sec (servoStep s.clk.tick off v) s (computeOffset sec off s) := by
  subst hv
  exact (servoIs_onServo sec (servoStep s.clk.tick off) s).after
    ((servosAndCtl_steer sec _).trans ((servosAndCtl_judgeTime _).trans (servosAndCtl_updateDiff sec _)))

/-- A servo that has a Sync's times, received at `rx` and sent at `t1`, and the delay `d` of its path. -/
def timesTaken (p : Nat) (d t1 rx : Int) (v : Servo) : Servo := { v with meanDelay := d, syncAt := smPut v.syncAt p (t1, rx) }

/-- The offset of a Sync is its corrected receipt less its origin, the path delay and the port's asymmetry (R364, R373). -/
theorem syncOffset_servo {s : State} {cfg : NetCfg} {v : Servo} {sec : Bool} (hv : servoOf s.data.time sec = v)
    (hcfg : s.data.net.cfg = some cfg) (p : Nat) (rx t1 : Int) :
    ServoIs sec (servoStep s.clk.tick (rx + v.vOff - t1 - (smGet 0 v.delays p + portAsym cfg p)) (timesTaken p (smGet 0 v.delays p) t1 rx v)) s
      (syncOffset s sec p rx t1) := by
  subst hv
  have he : syncOffset s sec p rx t1 = computeOffset sec
      (rx + (servoOf s.data.time sec).vOff - t1 - smGet 0 (servoOf s.data.time sec).delays p - portAsym cfg p)
      (onServo sec (timesTaken p (smGet 0 (servoOf s.data.time sec).delays p) t1 rx) s) := by
    rw [syncOffset, hcfg]
    rfl
  have taken := servoIs_onServo sec (timesTaken p (smGet 0 (servoOf s.data.time sec).delays p) t1 rx) s
  rw [he, Int.sub_sub (_ - t1)]
  exact taken.trans (computeOffset_servo _ taken.servo)

/-! ### A PTP message in its domain (R362 to R364) -/

section
variable {m : PtpMsg} {s : State} (hup : netUp s = true)
include hup

/-- A message of a domain that its port carries is acted on there. -/
theorem ptpTake_carried {sec : Bool} (hdom : domainOf s m = some sec) (act : Bool → State → State) : ptpTake m act s = act sec s := by
  simp [ptpTake, hup, hdom]

/-- A message of any other domain is discarded and counted, whatever it asks for (R363). -/
theorem ptpTake_discarded (hdom : domainOf s m = none) (act : Bool → State → State) :
    ptpTake m act s = onNet (fun n => { n with discarded := n.discarded + 1 }) s := by
  simp [ptpTake, hup, hdom]

theorem exec_ptp_discarded (hdom : domainOf s m = none) {c : Instr}
    (hc : c ∈ [Instr.ptpSync m, .ptpFollowUp m, .ptpAnnounce m, .ptpDelayResp m, .ptpPdelayReq m, .ptpPdelayResp m]) :
    exec c s = .next (onNet (fun n => { n with discarded := n.discarded + 1 }) s) := by
  simp only [List.mem_cons, List.not_mem_nil, or_false] at hc
  obtain rfl | rfl | rfl | rfl | rfl | rfl := hc <;> exact congrArg Host.Outcome.next (ptpTake_discarded hup hdom _)

end

/-- A servo that has heard a Sync. -/
def syncHeard (now : Nat) (m : PtpMsg) (v : Servo) : Servo := { v with lastSync := now, interval := m.interval }

/-- A servo that has heard the Follow_Up that it waited for. -/
def followUpHeard (now : Nat) (v : Servo) : Servo := { v with pending := none, lastSync := now }

/-- A servo that has heard an Announce. -/
def announceHeard (now : Nat) (m : PtpMsg) (v : Servo) : Servo := { v with foreign := noteAnnounce now m v.foreign }

/-- The state with a path delay measured, and the interval that its answer sets for the next request. -/
def delayNoted (sec : Bool) (m : PtpMsg) (d : Int) (s : State) : State :=
  delayTaken sec m.port d (onServo sec (fun v => { v with reqEvery := smPut v.reqEvery m.port m.interval }) s)

section
variable {m : PtpMsg} {s : State} {sec : Bool} (hup : netUp s = true) (hdom : domainOf s m = some sec)
include hup hdom

/-- A two-step Sync of the selected master waits with its receipt for the Follow_Up. -/
theorem exec_ptpSync_twoStep (hm : (servoOf s.data.time sec).master = some m.master) (hlo : -7 ≤ m.interval) (hhi : m.interval ≤ 1)
    (hstep : m.twoStep = true) :
    exec (.ptpSync m) s = .next (onServo sec (fun u =>
      { u with lastSync := s.clk.tick, interval := m.interval, pending := some (m.seq, (receivedAt s m - m.corr).toNat) }) s) := by
  refine congrArg Host.Outcome.next ((ptpTake_carried hup hdom _).trans ?_)
  simp only [fromMaster, hm, hlo, hhi, hstep, decide_true, Bool.and_self, if_true, onServo_onServo]

theorem exec_ptpSync_oneStep (hm : (servoOf s.data.time sec).master = some m.master) (hlo : -7 ≤ m.interval) (hhi : m.interval ≤ 1)
    (hstep : m.twoStep = false) :
    exec (.ptpSync m) s = .next (syncOffset (onServo sec (syncHeard s.clk.tick m) s) sec m.port (receivedAt s m - m.corr) m.time) := by
  refine congrArg Host.Outcome.next ((ptpTake_carried hup hdom _).trans ?_)
  exact (if_pos (by simp [fromMaster, hm, hlo, hhi])).trans (if_neg (by simp [hstep]))

theorem exec_ptpFollowUp_awaited {rx : Nat} (hm : (servoOf s.data.time sec).master = some m.master)
    (hp : (servoOf s.data.time sec).pending = some (m.seq, rx)) :
    exec (.ptpFollowUp m) s = .next (syncOffset (onServo sec (followUpHeard s.clk.tick) s) sec m.port rx (m.time + m.corr)) := by
  refine congrArg Host.Outcome.next ((ptpTake_carried hup hdom _).trans ?_)
  simp only [hp]
  exact if_pos (by simp [fromMaster, hm])

theorem exec_ptpAnnounce_taken (hlo : -3 ≤ m.interval) (hhi : m.interval ≤ 3) :
    exec (.ptpAnnounce m) s = .next (selectMaster sec (onServo sec (announceHeard s.clk.tick m) s)) := by
  refine congrArg Host.Outcome.next ((ptpTake_carried hup hdom _).trans ?_)
  exact if_pos (by simp [hlo, hhi])

theorem exec_ptpDelayResp_awaited {cfg : NetCfg} {t3 : Nat} {t1 t2 : Int} (hcfg : s.data.net.cfg = some cfg)
    (hm : (servoOf s.data.time sec).master = some m.master) (hreq : smFind (servoOf s.data.time sec).reqAt m.port = some (m.seq, t3))
    (hsync : smFind (servoOf s.data.time sec).syncAt m.port = some (t1, t2)) (hp2p : portP2p cfg m.port = false) :
    exec (.ptpDelayResp m) s = .next (delayNoted sec m (((t2 - t1) + (m.time - m.corr - t3)) / 2) s) := by
  refine congrArg Host.Outcome.next ((ptpTake_carried hup hdom _).trans ?_)
  simp [fromMaster, hcfg, hm, hreq, hsync, hp2p, delayNoted]

theorem exec_ptpPdelayResp_awaited {cfg : NetCfg} {t1 : Nat} (hcfg : s.data.net.cfg = some cfg)
    (hreq : smFind (servoOf s.data.time sec).reqAt m.port = some (m.seq, t1)) (hp2p : portP2p cfg m.port = true) :
    exec (.ptpPdelayResp m) s = .next (delayNoted sec m ((receivedAt s m - t1 - (m.time2 - m.time) - m.corr) / 2) s) := by
  refine congrArg Host.Outcome.next ((ptpTake_carried hup hdom _).trans ?_)
  simp [hcfg, hreq, hp2p, delayNoted]

theorem exec_ptpPdelayReq_answered {cfg : NetCfg} (hcfg : s.data.net.cfg = some cfg) (hp2p : portP2p cfg m.port = true) :
    exec (.ptpPdelayReq m) s =
      .next (onNet (fun n => { n with sentPdelay := n.sentPdelay + (if portTwoStep cfg m.port then 2 else 1) }) s) := by
  refine congrArg Host.Outcome.next ((ptpTake_carried hup hdom _).trans ?_)
  simp [hcfg, hp2p]

end

/-! ### What the servos keep of it -/

/-- A measured path delay is the servo's and its port's, and the request is answered. -/
theorem delayNoted_servo (sec : Bool) (m : PtpMsg) (d : Int) (s : State) :
    let t := delayNoted sec m d s
    (servoOf t.data.time sec).meanDelay = d ∧ smFind (servoOf t.data.time sec).delays m.port = some d ∧
      smFind (servoOf t.data.time sec).reqAt m.port = none ∧ servoOf t.data.time (!sec) = servoOf s.data.time (!sec) ∧
      t.ctl = s.ctl ∧ t.mgt = s.mgt := by
  simp only [delayNoted, delayTaken, servoOf_onServo, servoOf_onServo_other, smFind_smPut, smFind_smDrop, if_true, true_and]
  exact ⟨rfl, rfl⟩

/-- State `t` is state `s` after the algorithm has chosen among a servo's masters: with another master it qualifies anew (R362, R364). -/
structure MasterChosen (now : Nat) (sec : Bool) (s t : State) : Prop where
  foreign : (servoOf t.data.time sec).foreign = (servoOf s.data.time sec).foreign
  master : (servoOf t.data.time sec).master = (bestMaster now (servoOf s.data.time sec)).map (·.master)
  unlocks : (servoOf s.data.time sec).master.isSome = true → (servoOf t.data.time sec).master ≠ (servoOf s.data.time sec).master →
    (servoOf t.data.time sec).locked = false
  other : servoOf t.data.time (!sec) = servoOf s.data.time (!sec)
  ctl : t.ctl = s.ctl

/-- A servo under another master. -/
def underMaster (best : Option (W64 × Nat)) (v : Servo) : Servo := { v with master := best, pending := none, reqAt := [], good := 0, bad := 0 }

theorem selectMaster_chooses (sec : Bool) (s : State) : MasterChosen s.clk.tick sec s (selectMaster sec s) := by
  unfold selectMaster
  dsimp only
  generalize hb : (bestMaster s.clk.tick (servoOf s.data.time sec)).map (·.master) = best
  split
  next h => exact ⟨rfl, h.symm.trans hb.symm, fun _ hne => absurd rfl hne, rfl, rfl⟩
  · have hnew := servoIs_onServo sec (underMaster best) s
    split
    · have hlost := hnew.trans (unlock_servo sec (onServo sec (underMaster best) s))
      rw [hnew.servo] at hlost
      have hmaster : (servoOf _ sec).master = best := congrArg Servo.master hlost.servo
      exact ⟨(congrArg Servo.foreign hlost.servo :), hmaster.trans hb.symm, fun _ _ => (congrArg Servo.locked hlost.servo :),
        hlost.other, hlost.ctl⟩
    next hnone =>
      have hmaster : (servoOf _ sec).master = best := congrArg Servo.master hnew.servo
      exact ⟨(congrArg Servo.foreign hnew.servo :), hmaster.trans hb.symm, fun hsome => absurd hsome hnone, hnew.other, hnew.ctl⟩

/-- Settles O37: a message acts on the servo of its domain; whatever the time state makes of it leaves both servos. -/
theorem ptpMessagesServeTheirDomain : Obligations.PtpMessagesServeTheirDomain := by
  intro s m hup
  refine ⟨fun hdom c hc => exec_ptp_discarded hup hdom hc, ?_⟩
  intro sec cfg hdom hcfg v rx delay measured
  refine ⟨?sync, ?followUp, ?announce, ?delayResp, ?pdelayResp, exec_ptpPdelayReq_answered hup hdom hcfg⟩
  case sync =>
    intro hm hlo hhi
    refine ⟨exec_ptpSync_twoStep hup hdom hm hlo hhi, fun hstep => ⟨_, exec_ptpSync_oneStep hup hdom hm hlo hhi hstep, ?_⟩⟩
    have heard := servoIs_onServo sec (syncHeard s.clk.tick m) s
    have h := heard.trans (syncOffset_servo heard.servo hcfg m.port rx m.time)
    exact ⟨congrArg Servo.lastSync h.servo, congrArg Servo.offset h.servo, h.other, h.ctl⟩
  case followUp =>
    intro rx0 hm hp
    have heard := servoIs_onServo sec (followUpHeard s.clk.tick) s
    have h := heard.trans (syncOffset_servo heard.servo hcfg m.port rx0 (m.time + m.corr))
    exact ⟨_, exec_ptpFollowUp_awaited hup hdom hm hp, congrArg Servo.pending h.servo, congrArg Servo.offset h.servo, h.ctl⟩
  case announce =>
    intro hlo hhi fs
    have heard := servoIs_onServo sec (announceHeard s.clk.tick m) s
    obtain ⟨hforeign, hmaster, hunlocks, hother, hctl⟩ := selectMaster_chooses sec (onServo sec (announceHeard s.clk.tick m) s)
    rw [heard.servo] at hforeign hmaster hunlocks
    exact ⟨_, exec_ptpAnnounce_taken hup hdom hlo hhi, hforeign, hmaster, hunlocks, hother.trans heard.other, hctl.trans heard.ctl⟩
  case delayResp =>
    intro t3 t1 t2 hm hreq hsync hp2p
    exact ⟨_, exec_ptpDelayResp_awaited hup hdom hcfg hm hreq hsync hp2p, delayNoted_servo sec m _ s⟩
  case pdelayResp =>
    intro t1 hreq hp2p
    exact ⟨_, exec_ptpPdelayResp_awaited hup hdom hcfg hreq hp2p, delayNoted_servo sec m _ s⟩

/-! ### Requests, timeouts and the time states (R362, R364 to R368, R372) -/

/-- A servo's masters whose Announces have not timed out. -/
def liveMasters (now : Nat) (v : Servo) : Servo :=
  { v with foreign := v.foreign.filter (fun f => decide (now < f.last + 3 * intervalTicks f.interval)) }

/-- With every Announce timed out no master is left to select. -/
theorem bestMaster_liveMasters {now : Nat} {v : Servo} (hold : ∀ f ∈ v.foreign, f.last + 3 * intervalTicks f.interval ≤ now) :
    bestMaster now (liveMasters now v) = none := by
  have hnone : (liveMasters now v).foreign = [] :=
    List.filter_eq_nil_iff.mpr fun f hf => by simpa using hold f hf
  rw [bestMaster, hnone]
  rfl

section
variable {s : State} {cfg : NetCfg} (hcfg : s.data.net.cfg = some cfg) (hnet : domRun s 2 = true)
include hcfg hnet

theorem netUp_of_cfg : netUp s = true := by simp [netUp, hcfg, hnet]

/-- The first request of a port on the primary domain leaves at once, and is kept with its number and its instant at the MDI. -/
theorem exec_delayReqSend_first {port : Nat} {p2p : Bool} (hport : port < 6) (hcarried : portP cfg port = true) (hprofile : portP2p cfg port = p2p)
    (hfirst : smFind s.data.time.p.reqLast port = none) :
    exec (.delayReqSend port false p2p) s = .next (onNet (fun n => { n with sentDelayReq := n.sentDelayReq + 1 })
      (onServo false (fun v => { v with
        reqAt := smPut v.reqAt port (s.data.net.sentDelayReq % 65536, (stamp (tb1 s : Int) + egress s port).toNat),
        reqLast := smPut v.reqLast port s.clk.tick }) s)) := by
  have he : exec (.delayReqSend port false p2p) s = execDelayReqSend port false p2p s := rfl
  have hv : servoOf s.data.time false = s.data.time.p := rfl
  rw [he, execDelayReqSend]
  simp only [hcfg, hv, hfirst]
  exact congrArg Host.Outcome.next (if_pos (by simp [hnet, hport, hcarried, hprofile]))

theorem exec_syncTimeout_due {sec : Bool} (hlocked : (servoOf s.data.time sec).locked = true)
    (hdue : (servoOf s.data.time sec).lastSync + 3 * intervalTicks (servoOf s.data.time sec).interval ≤ s.clk.tick) :
    exec (.syncTimeout sec) s = .next (unlock sec s) :=
  congrArg Host.Outcome.next (if_pos (by simp [netUp_of_cfg hcfg hnet, hlocked, hdue]))

theorem exec_announceTimeout (sec : Bool) :
    exec (.announceTimeout sec) s = .next (selectMaster sec (onServo sec (liveMasters s.clk.tick) s)) :=
  congrArg Host.Outcome.next (if_pos (netUp_of_cfg hcfg hnet))

theorem exec_primaryRevert_due (hrevert : cfg.revert = true) (hmode : s.data.time.mode = .lockedSecondary) (hlocked : s.data.time.p.locked = true)
    (hdue : s.data.time.p.lockedAt + msTicks 60000 ≤ s.clk.tick) : exec .primaryRevert s = .next (enterTime .lockedPrimary s) := by
  have he : exec .primaryRevert s = execPrimaryRevert s := rfl
  rw [he, execPrimaryRevert, hcfg]
  exact congrArg Host.Outcome.next (if_pos (by simp [hnet, hrevert, hmode, hlocked, hdue]))

theorem exec_holdoverExpiry_due (hmode : s.data.time.mode = .holdover) (hdue : s.data.time.holdSince + 25000000 * cfg.holdoverS ≤ s.clk.tick) :
    exec .holdoverExpiry s = .next (enterTime .free s) := by
  have he : exec .holdoverExpiry s = execHoldoverExpiry s := rfl
  rw [he, execHoldoverExpiry, hcfg]
  exact congrArg Host.Outcome.next (if_pos (by simp [hnet, hmode, hdue]))

end

theorem exec_slewComplete_near {s : State} {d : Int} {sec : Bool} (hnet : domRun s 2 = true) (hslew : s.data.time.slew = some d)
    (hsel : selectedDomain s.data.time.mode = some sec) (hnear : absI (stepTo s sec) < fiftyNs) :
    exec .slewComplete s = .next (onTime (fun t => { adjust (stepTo s sec) t with slew := none, fault := false }) s) := by
  have he : exec .slewComplete s = execSlewComplete s := rfl
  rw [he, execSlewComplete]
  simp only [hslew, hsel]
  exact congrArg Host.Outcome.next (if_pos (by simp [hnet, hnear]))

theorem exec_timeMapRecord_first {s : State} (hnet : domRun s 2 = true) (hmgt : mgtUp s = true) (hvalid : s.data.time.valid = true)
    (hmap : s.data.time.map = none) :
    exec .timeMapRecord s = .next (mapNow s) := by
  have he : exec .timeMapRecord s = execTimeMapRecord s := rfl
  rw [he, execTimeMapRecord, hmap]
  exact congrArg Host.Outcome.next (if_pos (by simp [hmgt, hnet, hvalid]))

/-- Settles O38: one equation per command gives the state after it; a change of time state leaves the control plane. -/
theorem timeStatesMove : Obligations.TimeStatesMove := by
  intro s cfg hcfg hnet
  refine ⟨fun port p2p => exec_delayReqSend_first hcfg hnet, ?syncTimeout, ?announceTimeout, ?revert, ?expiry,
    fun d sec => exec_slewComplete_near hnet,
    fun hmgt hvalid hmap => ⟨_, _, exec_timeMapRecord_first hnet hmgt hvalid hmap, rfl, rfl, rfl, rfl⟩⟩
  case syncTimeout =>
    intro sec hlocked hdue
    have h := unlock_servo sec s
    exact ⟨_, exec_syncTimeout_due hcfg hnet hlocked hdue, congrArg Servo.locked h.servo, congrArg Servo.good h.servo, h.other, h.ctl⟩
  case announceTimeout =>
    intro sec hsome hold
    have live := servoIs_onServo sec (liveMasters s.clk.tick) s
    obtain ⟨-, hmaster, hunlocks, -, hctl⟩ := selectMaster_chooses sec (onServo sec (liveMasters s.clk.tick) s)
    have hbest : bestMaster (onServo sec (liveMasters s.clk.tick) s).clk.tick (liveMasters s.clk.tick (servoOf s.data.time sec)) = none :=
      bestMaster_liveMasters hold
    rw [live.servo] at hmaster hunlocks
    rw [hbest] at hmaster
    refine ⟨_, exec_announceTimeout hcfg hnet sec, hmaster, hunlocks hsome ?_, hctl.trans live.ctl⟩
    rw [hmaster]
    exact (Option.isSome_iff_ne_none.mp hsome).symm
  case revert =>
    intro hrevert hmode hlocked hdue
    have h := locks_enterTime .lockedPrimary s
    exact ⟨_, exec_primaryRevert_due hcfg hnet hrevert hmode hlocked hdue, congrArg Prod.fst h, ctl_of_locks (congrArg Prod.snd h :)⟩
  case expiry =>
    intro hmode hdue
    have ht := time_enterTime_free (show .free ≠ s.data.time.mode by simp [hmode])
    exact ⟨_, exec_holdoverExpiry_due hcfg hnet hmode hdue, congrArg TimeState.mode ht, congrArg TimeState.slew ht, congrArg TimeState.freq ht,
      (congrArg TimeState.tb0 ht :), ctl_of_locks (congrArg Prod.snd (locks_enterTime .free s) :)⟩

end Sys2Proof.Proofs.StationTime
end

section
/-! The station network (O39, R335, R375, R378 to R380): boundary telegrams received and sent, cycle points, and requests to a port's own address. -/

namespace Sys2Proof.Proofs.StationNetwork

open Sys2Proof Sys2Proof.Machine Sys2Proof.Claims Sys2Proof.Laws Sys2Proof.Proofs.Planes

/-! ### A telegram at the lanes (R380) -/

/-- Lanes that act one after the other, each once and each on itself alone, act as each would by itself. -/
theorem lane_foldl_each {act : State → Lane → State} {after : State → Lane → LaneState} (hself : ∀ s l, lane (act s l) l = after s l)
    (hlane : ∀ s k l, l ≠ k → lane (act s k) l = lane s l) (hafter : ∀ s k l, l ≠ k → after (act s k) l = after s l) {ls : List Lane}
    (hls : ls.Nodup) (s : State) (l : Lane) : lane (ls.foldl act s) l = if l ∈ ls then after s l else lane s l := by
  induction ls generalizing s with
  | nil => rfl
  | cons k ls ih =>
    obtain ⟨hk, hls⟩ := List.nodup_cons.mp hls
    rw [List.foldl_cons, ih hls]
    by_cases h : l = k
    · subst h
      rw [if_neg hk, if_pos List.mem_cons_self, hself]
    · simp only [List.mem_cons, h, false_or, hafter s k l h, hlane s k l h]

/-- What a lane holds of a boundary port. -/
def laneBoundary (p : Bnd) (x : LaneState) : LaneBoundary := match p with | .bnd0 => x.bnd0 | .bnd1 => x.bnd1

/-- A lane with what it holds of a boundary port changed. -/
def onBoundary (p : Bnd) (f : LaneBoundary → LaneBoundary) (x : LaneState) : LaneState :=
  match p with
  | .bnd0 => { x with bnd0 := f x.bnd0 }
  | .bnd1 => { x with bnd1 := f x.bnd1 }

/-- The lane runs a program, so that it takes telegrams. -/
def takesTelegrams (s : State) (l : Lane) : Bool := domRun s (laneDom l) && (lane s l).core.active.isSome

/-- One lane's turn as a telegram is passed on: it takes the telegram, or does not see it. -/
def laneTakes (p : Bnd) (f : LaneBoundary → LaneBoundary) (s : State) (l : Lane) : State :=
  if takesTelegrams s l then onLane l (onBoundary p f) s else s

/-- The lane after its turn. -/
def laneTaken (p : Bnd) (f : LaneBoundary → LaneBoundary) (s : State) (l : Lane) : LaneState :=
  if takesTelegrams s l then onBoundary p f (lane s l) else lane s l

section
variable (p : Bnd) (f : LaneBoundary → LaneBoundary) (s : State)

theorem laneBoundary_onBoundary (x : LaneState) : laneBoundary p (onBoundary p f x) = f (laneBoundary p x) := by
  cases p <;> rfl

theorem core_onBoundary (x : LaneState) : (onBoundary p f x).core = x.core := by
  cases p <;> rfl

theorem lane_laneTakes (l : Lane) : lane (laneTakes p f s l) l = laneTaken p f s l := by
  unfold laneTakes laneTaken
  split
  · exact lane_onLane _ _ _
  · rfl

theorem lane_laneTakes_ne (k l : Lane) (h : l ≠ k) : lane (laneTakes p f s k) l = lane s l := by
  unfold laneTakes
  split
  · exact lane_onLane_ne _ _ h
  · rfl

/-- The turn of one lane does not bear on another's. -/
theorem laneTaken_laneTakes (k l : Lane) (h : l ≠ k) : laneTaken p f (laneTakes p f s k) l = laneTaken p f s l := by
  have hrun : domRun (laneTakes p f s k) (laneDom l) = domRun s (laneDom l) := by
    unfold laneTakes
    split <;> rfl
  have hlane := lane_laneTakes_ne p f s k l h
  have htakes : takesTelegrams (laneTakes p f s k) l = takesTelegrams s l := by rw [takesTelegrams, hrun, hlane, takesTelegrams]
  rw [laneTaken, htakes, hlane, laneTaken]

/-- Every lane has its turn. -/
theorem lane_foldl_laneTakes (l : Lane) : lane (Lane.list.foldl (laneTakes p f) s) l = laneTaken p f s l := by
  rw [lane_foldl_each (lane_laneTakes p f) (lane_laneTakes_ne p f) (laneTaken_laneTakes p f) (by decide), if_pos (by cases l <;> decide)]

theorem core_laneTaken (l : Lane) : (laneTaken p f s l).core = (lane s l).core := by
  unfold laneTaken
  split
  · exact core_onBoundary p f _
  · rfl

/-- The lanes' turns leave the voter and the management. -/
theorem voterAndMgt_foldl_laneTakes :
    ((Lane.list.foldl (laneTakes p f) s).ctl.voter, (Lane.list.foldl (laneTakes p f) s).mgt) = (s.ctl.voter, s.mgt) :=
  foldl_keeps (fun t => (t.ctl.voter, t.mgt)) _ (fun t l => by unfold laneTakes; split <;> rfl) _ s

end

/-! ### Telegrams received and sent (R378 to R380) -/

/-- The state once its check-value units have listened to a frame: they alone differ (R449). -/
def listened (units : SMap Cvu) (s : State) : State := onMgt (fun m => { m with cvu := units }) s

/-- A good frame reaches every lane, which judges it in its turn. -/
theorem exec_boundaryTelegramReceive_good {s : State} {p : Bnd} {b : List Byte} (hen : bndEnabled s p = true) (hrun : (voter s).running = true)
    (hpass : netPasses s p b = true) (hrows : telegramRows s p b = true) :
    ∃ units, exec (.boundaryTelegramReceive p b) s =
      .next (Lane.list.foldl (laneTakes p (row6Step (telegramOf b) (telegramInTime s) (cycleNow s))) (listened units s)) := by
  have tapped : ∃ units, (if domRun s 2 && !b.isEmpty then snoop (18 + 2 * bndIdx p) 0 true true b s else s) = listened units s := by
    split
    · exact snoop_eq _ _ _ _ _ s
    · exact ⟨s.mgt.cvu, rfl⟩
  obtain ⟨units, hunits⟩ := tapped
  have hgood : (bndEnabled s p && netPasses s p b && (voter s).running && telegramRows s p b) = true := by simp [hen, hpass, hrun, hrows]
  have he : exec (.boundaryTelegramReceive p b) s = execBoundaryTelegramReceive p b s := rfl
  refine ⟨units, ?_⟩
  rw [he, execBoundaryTelegramReceive, hunits]
  refine congrArg Host.Outcome.next ((if_pos hgood).trans ?_)
  cases p <;> rfl

/-- A port after a telegram has left it (R379). -/
def telegramLeft (p : Bnd) (t : Telegram) (s : State) : State :=
  onNet (fun x => { x with sent := smPut x.sent (bndIdx p) t, leaving := smPut x.leaving (bndIdx p) (telegramFrame t),
                           telegramsSent := x.telegramsSent + 1,
                           firstCount := smSet 0 x.firstCount (bndIdx p) (min 16 (smGet 0 x.firstCount (bndIdx p) + 1)) }) s

section
variable {s : State} {p : Bnd} (hen : bndEnabled s p = true) (hrun : ctlRuns s = true) (hnew : telegramSent s p = false)
  (hleaves : telegramLeaves s = true)
include hen hrun hnew hleaves

/-- With the snapshot's image and a code agreed the telegram leaves. -/
theorem exec_boundaryTelegramSend_agreed {m : SMap W64} {code : W32} (hout : s.data.net.outgoing = some (scn s, m))
    (hcode : agreedTelegram s p = some code) (hids : identitiesAgree s p = true) :
    ∃ units, exec (.boundaryTelegramSend p) s = .next (telegramLeft p { makeTelegram s p m with code := code } (listened units s)) := by
  obtain ⟨units, hunits⟩ := snoop_eq (19 + 2 * bndIdx p) 0 true true (telegramFrame { makeTelegram s p m with code := code }) s
  have he : exec (.boundaryTelegramSend p) s = execBoundaryTelegramSend p s := rfl
  refine ⟨units, ?_⟩
  rw [he, execBoundaryTelegramSend, if_pos (by simp [hen, hrun, hnew, hleaves])]
  simp only [hout, hcode]
  rw [if_pos ⟨trivial, hids⟩, hunits]
  rfl

/-- Without an agreed code none leaves, and 10 us before the next cycle instant the miss is reported. -/
theorem exec_boundaryTelegramSend_missed (hlate : nextCi s .x ≤ s.clk.tick + 250) (hnone : agreedTelegram s p = none) :
    exec (.boundaryTelegramSend p) s = .next (report .general 0x0607 0x1000 (byte (bndIdx p)) (scnLe s) s) := by
  have he : exec (.boundaryTelegramSend p) s = execBoundaryTelegramSend p s := rfl
  rw [he, execBoundaryTelegramSend, if_pos (by simp [hen, hrun, hnew, hleaves])]
  simp only [hnone, if_neg (Nat.not_lt.mpr hlate)]
  cases s.data.net.outgoing <;> rfl

end

theorem boundaryTelegramsPass : BoundaryTelegramsPass := by
  intro s p hen
  refine ⟨?receive, fun hrun hnew hleaves hlate => ⟨?send, ?miss⟩⟩
  case receive =>
    intro b hrun hpass hrows
    obtain ⟨units, h⟩ := exec_boundaryTelegramReceive_good hen hrun hpass hrows
    have hlane := lane_foldl_laneTakes p (row6Step (telegramOf b) (telegramInTime s) (cycleNow s)) (listened units s)
    have hkept := voterAndMgt_foldl_laneTakes p (row6Step (telegramOf b) (telegramInTime s) (cycleNow s)) (listened units s)
    obtain ⟨hvoter, hmgt⟩ := Prod.mk.inj hkept
    refine ⟨_, h, fun l hdom hactive => ?_, fun l => (congrArg LaneState.core (hlane l)).trans (core_laneTaken _ _ _ _), hvoter,
      by rw [hmgt]; rfl⟩
    have htakes : takesTelegrams (listened units s) l = true := Bool.and_eq_true_iff.mpr ⟨hdom, hactive⟩
    have htaken := hlane l
    rw [laneTaken, if_pos htakes] at htaken
    have hbnd := congrArg (laneBoundary p) htaken
    rw [laneBoundary_onBoundary] at hbnd
    exact hbnd
  case send =>
    intro m code hout hcode hids
    obtain ⟨units, h⟩ := exec_boundaryTelegramSend_agreed hen hrun hnew hleaves hout hcode hids
    refine ⟨_, h, rfl, ?_, ?_, rfl, rfl⟩
    · exact congrArg (Option.map Telegram.code) ((smFind_smPut _ _ _ _).trans (if_pos rfl))
    · exact (smFind_smPut _ _ _ _).trans (if_pos rfl)
  case miss =>
    intro hnone
    exact ⟨_, exec_boundaryTelegramSend_missed hen hrun hnew hleaves hlate hnone, rfl, rfl, by rw [report_reports, List.map_append]; rfl⟩

/-! ### Cycle points and answers (R335, R375) -/

/-- The state with a cycle point's message noted as sent in this cycle (R335). -/
def pointNoted (i n : Nat) (s : State) : State := onSched (fun x => { x with cpSent := smPut x.cpSent i (n + 1) }) s

theorem exec_cyclePointMessage_due {s : State} {i : BitVec 3} {off vec div : Nat} (hsub : smFind s.data.sched.cpSubs i.toNat = some (off, vec, div))
    (hmgt : mgtUp s = true) (hpcie : s.power.pcieDown = false) (hcycle : s.clk.tb2 % div = 0) (hfrom : s.ctl.followers.x.lastCi + off ≤ s.clk.tick)
    (hto : s.clk.tick ≤ s.ctl.followers.x.lastCi + off + 75) (hnew : smGet 0 s.data.sched.cpSent i.toNat ≠ s.clk.tb2 + 1) :
    exec (.cyclePointMessage i) s = .next (sendVector vec (pointNoted i.toNat s.clk.tb2 s)) := by
  have he : exec (.cyclePointMessage i) s = execCyclePointMessage i s := rfl
  rw [he, execCyclePointMessage, hsub]
  exact congrArg Host.Outcome.next (if_pos (by simp [hmgt, hpcie, hcycle, hfrom, hto, hnew]))

/-- A vector that is not masked is sent as an interrupt (R405). -/
theorem sendVector_unmasked {v : Nat} {s : State} (h : vectorMasked s v = false) :
    sendVector v s = onMbx (fun m => { m with interrupts := m.interrupts ++ [v] }) s := by
  rw [sendVector, h]
  rfl

/-- A frame is a request to the port's own address, or discarded. -/
theorem exec_arpIcmpEcho {s : State} {cfg : NetCfg} (hnet : domRun s 2 = true) (hcfg : s.data.net.cfg = some cfg) (port : BitVec 2)
    (b : List Byte) : exec (.arpIcmpEcho port b) s = .next (
      let ip := (smGet NetPortCfg.zero cfg.net port.toNat).ip
      if ip ≠ 0 ∧ (arpRequest ip b || echoRequest ip b) then onNet (fun n => { n with answered := n.answered + 1 }) s
      else onNet (fun n => { n with discarded := n.discarded + 1 }) s) := by
  have he : exec (.arpIcmpEcho port b) s = execArpIcmpEcho port b s := rfl
  rw [he, execArpIcmpEcho, if_pos hnet, hcfg]

theorem cyclePointsAndAnswers : CyclePointsAndAnswers := by
  intro s
  refine ⟨fun i off vec div hsub hmgt hpcie hcycle hfrom hto hnew hmask => ?point, fun port cfg b hnet hcfg => ⟨?answer, ?discard⟩⟩
  case point =>
    refine ⟨_, exec_cyclePointMessage_due hsub hmgt hpcie hcycle hfrom hto hnew, ?_⟩
    rw [sendVector_unmasked (s := pointNoted i.toNat s.clk.tb2 s) hmask]
    exact ⟨rfl, rfl⟩
  case answer =>
    intro hip hreq
    rw [exec_arpIcmpEcho hnet hcfg]
    exact congrArg Host.Outcome.next (if_pos ⟨hip, by simpa using hreq⟩)
  case discard =>
    intro hother
    rw [exec_arpIcmpEcho hnet hcfg]
    refine congrArg Host.Outcome.next (if_neg ?_)
    rintro ⟨hip, hreq⟩
    obtain ⟨harp, hecho⟩ := hother.resolve_left hip
    exact absurd hreq (by simp [harp, hecho])

/-- Settles O39: check-value units listen at the ports, each lane judges a telegram by itself, and every answer is counted as such. -/
theorem telegramsAndCyclePointsPass : Obligations.TelegramsAndCyclePointsPass := ⟨boundaryTelegramsPass, cyclePointsAndAnswers⟩

end Sys2Proof.Proofs.StationNetwork
end

section
/-! An idle tick (O3, R195, R233, R357 to R360): the clocks count it, the rope carries its part of a transfer, and NET moves its local clock. -/

namespace Sys2Proof.Proofs.IdleTicks

open Sys2Proof Sys2Proof.Machine

/-! ### What each part of the tick changes -/

/-- A trip that is not in force, or whose record is written, has nothing to settle (R233). -/
theorem tripSettle_settled {s : State} (h : s.ctl.trip.inForce = false ∨ s.ctl.trip.recorded = true) : tripSettle s = s := by
  have hs : tripSettles s = false := by obtain h | h := h <;> simp [tripSettles, h]
  rw [tripSettle, hs]
  rfl

/-- The rope changes what the voter knows of its transfers (R195). -/
theorem ropeTick_eq (s : State) : ∃ g, ropeTick s = onVoter g s := by
  unfold ropeTick
  split
  · exact ⟨fun v => v, rfl⟩
  · exact ⟨_, rfl⟩

theorem ropeTick_idle {s : State} (hjoin : (voter s).join = none) (hcapture : (voter s).capture = none) : ropeTick s = s := by
  simp [ropeTick, hjoin, hcapture]

/-- NET's part of a tick, where NET runs: its local clock and its marks. -/
def netTick (s : State) : State := if domRun s 2 then netMarks (onTime tb0Tick s) else s

theorem netTick_eq (s : State) : ∃ f, netTick s = onTime f s := by
  unfold netTick
  split
  · exact ⟨fun t => _, rfl⟩
  · exact ⟨fun t => t, rfl⟩

theorem netTick_held {s : State} (h : domRun s 2 = false) : netTick s = s := by simp [netTick, h]

@[simp] theorem clkTick_tick (c : ClockState) : (clkTick c).tick = c.tick + 1 := by
  unfold clkTick
  split <;> rfl

@[simp] theorem clkTick_tb2 (c : ClockState) : (clkTick c).tb2 = c.tb2 := by
  unfold clkTick
  split <;> rfl

/-- TB3 counts the tick, in its fraction or as the last of an hour, while RET can hold one hour more (R360). -/
theorem tb3_clkTick {c : ClockState} (hhours : c.hoursPending < 15) (hfrac : c.tb3Ticks < Config.hourTicks) :
    ((clkTick c).tb3Hours + (clkTick c).hoursPending) * Config.hourTicks + (clkTick c).tb3Ticks =
      (c.tb3Hours + c.hoursPending) * Config.hourTicks + c.tb3Ticks + 1 := by
  unfold clkTick
  split
  next => exact (Nat.add_assoc _ _ _).symm
  next hwhole =>
    have hlast : Config.hourTicks = c.tb3Ticks + 1 := by omega
    have hmin : min 15 (c.hoursPending + 1) = c.hoursPending + 1 := Nat.min_eq_right hhours
    simp only [hmin, ← Nat.add_assoc, Nat.succ_mul]
    omega

/-! ### The tick -/

theorem step_uncounted {s : State} (hempty : s.pending = []) (hstill : counting s = false) : step s = .next s := by
  simp [step, hempty, idleTick, hstill]

/-- Without a trip to settle a counted tick is the clocks', the rope's and NET's. -/
theorem step_counted {s : State} (hempty : s.pending = []) (hcounts : counting s = true)
    (hsettled : s.ctl.trip.inForce = false ∨ s.ctl.trip.recorded = true) : step s = .next (netTick (ropeTick (onClk clkTick s))) := by
  have he : step s = .next (tripSettle (netTick (ropeTick (onClk clkTick s)))) := by
    simp only [step, hempty, idleTick, hcounts, if_true]
    rfl
  obtain ⟨g, hrope⟩ := ropeTick_eq (onClk clkTick s)
  obtain ⟨f, hnet⟩ := netTick_eq (onVoter g (onClk clkTick s))
  have htrip : (netTick (ropeTick (onClk clkTick s))).ctl.trip = s.ctl.trip := by
    rw [hrope, hnet]
    rfl
  rw [he, tripSettle_settled (by rwa [htrip])]

/-- Settles O3: each part of the tick is a change of its own part of the state, and so leaves every other. -/
theorem idleStepPassesOneTick : Obligations.IdleStepPassesOneTick := by
  intro s hempty
  refine ⟨step_uncounted hempty, fun hcounts hsettled => ⟨_, step_counted hempty hcounts hsettled, ?_⟩⟩
  obtain ⟨g, hrope⟩ := ropeTick_eq (onClk clkTick s)
  obtain ⟨f, hnet⟩ := netTick_eq (onVoter g (onClk clkTick s))
  have hctl : (voter s).join = none → (voter s).capture = none → (netTick (ropeTick (onClk clkTick s))).ctl = s.ctl := by
    intro hjoin hcapture
    rw [ropeTick_idle (s := onClk clkTick s) hjoin hcapture]
    obtain ⟨k, hk⟩ := netTick_eq (onClk clkTick s)
    rw [hk]
    rfl
  have hdata : domRun s 2 = false → (netTick (ropeTick (onClk clkTick s))).data = s.data := by
    intro hheld
    rw [hrope, netTick_held (s := onVoter g (onClk clkTick s)) hheld]
    rfl
  rw [hrope, hnet] at hctl hdata ⊢
  refine ⟨rfl, rfl, rfl, rfl, rfl, rfl, hempty, rfl, hctl, ?_, clkTick_tb2 s.clk, tb3_clkTick, hdata⟩
  show 40 * (clkTick s.clk).tick = 40 * s.clk.tick + 40
  rw [clkTick_tick, Nat.mul_succ]

end Sys2Proof.Proofs.IdleTicks
end

section
/-! What holds of every command (O1, O2, O4): each has an effect, a step runs the one at the front of the queue, and none touches the queue or the
product variant, for the laws of the shared operations carry both through every act. -/

namespace Sys2Proof.Proofs.Queue

open Sys2Proof Sys2Proof.Machine Sys2Proof.Laws

/-! ### The queue and the variant -/

/-- A state with the queue and the product variant of another. -/
def Kept (s t : State) : Prop := t.pending = s.pending ∧ t.variant = s.variant

/-- What a command leaves behind has the queue and the variant of the state before it. -/
def KeptAfter (s : State) (o : Host.Outcome State Fault Refusal) : Prop := ∀ t, o = .next t → Kept s t

theorem keptAfter_next {s t : State} (h : Kept s t) : KeptAfter s (.next t) := by
  intro u hu
  cases hu
  exact h

/-- A host command keeps both where its own act does: an answer changes the finished commands alone. -/
theorem keptAfter_cmdRun {c : CmdHdr} {op : Nat} {form exempt : Bool} {rows : List (Bool × Status)} {act : State → State} {s : State}
    (hact : Kept s (act s)) : KeptAfter s (.next (cmdRun c op form exempt rows act s)) :=
  keptAfter_next (cmdRun_keeps (Kept s) ⟨rfl, rfl⟩ (fun r st est a b => finishRef_kept r st est a b s) hact)

theorem kept_foldl {α : Type} {f : State → α → State} (h : ∀ s a, Kept s (f s a)) (l : List α) (s : State) : Kept s (l.foldl f s) :=
  ⟨foldl_keeps State.pending f (fun s a => (h s a).1) l s, foldl_keeps State.variant f (fun s a => (h s a).2) l s⟩

/-! ### The shared operations beside the ones of the laws -/

theorem kept_ptpTake (m : PtpMsg) {act : Bool → State → State} {s : State} (hact : ∀ sec, Kept s (act sec s)) : Kept s (ptpTake m act s) := by
  unfold ptpTake
  split
  · exact ⟨rfl, rfl⟩
  · split
    · exact hact _
    · exact ⟨rfl, rfl⟩

@[simp] theorem decideDown_kept (ch : Chan) (p : Nat) (m : Scn) (s : State) :
    (decideDown ch p m s).1.pending = s.pending ∧ (decideDown ch p m s).1.variant = s.variant := by
  unfold decideDown
  dsimp only
  (repeat' split) <;> simp

@[simp] theorem idleCopy_kept (src l : Lane) (s : State) :
    (idleCopy src l s).1.pending = s.pending ∧ (idleCopy src l s).1.variant = s.variant := ⟨rfl, rfl⟩

/-! ### The commands that fold over the parts they name -/

theorem admissionSnapshot_kept (yCheck : Option W64) (laneFail : List Lane) (s : State) :
    KeptAfter s (exec (.admissionSnapshot yCheck laneFail) s) := by
  have withdrawn : ∀ (ls : List Lane) (u : State), Kept u (ls.foldl (fun s l => onLane l (laneWithdraw 0x82) s) u) :=
    kept_foldl fun _ _ => ⟨rfl, rfl⟩
  refine keptAfter_next ?_
  dsimp only
  (repeat' split) <;> simp [Kept, (withdrawn _ _).1, (withdrawn _ _).2]

/-- A block passes the snooped point before its command is judged (R449, R453). -/
theorem updBlock_kept (c : CmdHdr) (index crc : W32) (data : List Byte) (s : State) : KeptAfter s (exec (.updBlock c index crc data) s) := by
  refine keptAfter_next (cmdRun_keeps (Kept s) ?_ (fun r st est a b => ?_) ?_) <;> split <;> simp [Kept]

/-! ### Every command -/

theorem exec_kept (c : Instr) (s : State) : KeptAfter s (exec c s) := by
  cases c with
  -- An instruction word of an engine (R76, R89).
  | nop | endSeg | ld | andB | orB | xorB | st | setB | rst | ldk | bro | bca | bco | jmp | jc | ton | tof | tp | ctu | ctd | ctr | edr | edf =>
    exact keptAfter_next (engStep_kept _ _ _ _ _ _)
  | syncBarrierLeave => exact keptAfter_next ⟨rfl, rfl⟩
  -- A host command whose act is operations of the laws.
  | sysNop | sysRegRead | sysRingCreate | sysRingDestroy | sysShutdown | sysStart | sysReset | sysCtrlReset | sysTrip | cfgRead | cfgSet | cfgGet
  | cfgKeyRemove | timLatch | timPtp | logRead | logFreeze | logUnfreeze | logClear | logStream | logCycles | cvuConfig | cvuRead | cvuReadAck
  | cvuTrigger | cvuDisable | frcSet | frcClear | frcClearAll | olcLoadBegin | olcSwap | olcCancel | olcDiscard | olcStatus | updBegin | updBitmap
  | updActivate | updAbort | updCommit | updRevert | updStatus | reqWrite | reqPulse | reqWriteMulti | reqRead | lnkCfgRead | lnkSchedChange
  | lnkCpSub | expUnsubscribe | expList | tstRotate | tstStatus | dbgAttach | dbgDetach | dbgHalt | dbgResume | dbgRead =>
    exact keptAfter_cmdRun (by simp [Kept])
  -- A host command whose act depends on what it names.
  | sysBlockReset | cfgWrite | timMap | logHealth | logBelay | frcList | olcLoadData | updVerify | lnkCfgWrite | lnkPortPower | lnkPortUnlock
  | lnkPortStatus | lnkChannelPower | expSubscribe | expRead | tstFuseRepair | tstShutdownRecord | dbgWrite =>
    exact keptAfter_cmdRun (by split <;> simp [Kept])
  | olcLoadEnd => exact keptAfter_cmdRun (by dsimp only; (repeat' split) <;> simp [Kept])
  -- An event whose effect is operations of the laws.
  | sync | barrierRelease | leaseExpiry | scanDeadline | supervisorDigestLate | isolationHoldEnd | starTxGateFault | starPortSelftest
  | diversityLostSet | diversityAllowanceExpiry | contactFilterChange | voutOvercurrent | switchPoleSample | sealFaultExpiry | resetSourceRelease
  | retPor | mainPor | resetNDebounce | resetNStuck | mgtWatchdogExpiry | heartbeatTick | startTimeout | backupCellMeasure | syncTimeout
  | announceTimeout | boundaryTelegramReceive | mbxEnable | doorbell | registerWrite | dtlsCmdDatagram | olcSwapBoundary | pageCommit | logFreezeBit
  | logCursorWrite | mgtBankSwap | starStepTimeout | romBlockGo | recoveryDatagram | shutdownBistDone | laneTestDone | dtlsAlert | arpIcmpEcho
  | dieBistDone =>
    exact keptAfter_next (by simp [Kept])
  -- An event whose effect depends on what it meets.
  | scrubUncorrectable | codeRecord | portEnergyDetected | vfLowClear | resetNStuckClear | holdupStoreCharged | inletAirOvertemp | tb3WholeHour
  | timeMapRecord | mbxReset | expStatusRead | timeLatch | dtlsKeepalive | freezeExpiry | logUnfreezeBit | logWinLoadDone | logWinAutoRead
  | cvuEnableWrite | cvuOpenWrite | cvuCloseWrite | cvuResultAckWrite | cvuUnitTest | perstN | mbxResetDone | supplyRecovery | exportPublication
  | nodeLinkState | cairnCaptureDone | belayReportStale | cairnLoadDone | takeoverDeadline | bistIntervalExpiry | backoffExpiry | primaryRevert
  | holdoverExpiry | slewComplete | cyclePointMessage | completionPost | eventPost | dtlsIdleTimeout | mgtSnapshotEval | forceTimeout
  | recordIntake | coalesceWindowExpiry | voterMicrocodeSwap | fuseBurnDone | sysResetAssert | delayReqSend =>
    exact keptAfter_next (by split <;> simp [Kept])
  -- The same with values named first.
  | listenTimerExpiry | nodeOutputApply | nodeUpframeSend | upframeRecord | diversityAllowanceRestore | discrepancyExpiry | islandLimitClear
  | interruptCoalesceExpiry | dtlsHandshake | portDownDegraded =>
    exact keptAfter_next (by dsimp only; split <;> simp [Kept])
  -- An event whose effect depends on several of them.
  | readyWord | commitRecord | syncRecord | coldstartFrame | schedChangeDecision | schedChangeBoundary | voutReadback | islandLimitMeasurement
  | bridgeParityFault | resetSourceAssert | domainRelease | boundaryTelegramSend | dtlsRetransmit | exportStreamSend | stagingTransferDone
  | updBankStep | belayTestStep | mgtBootComplete | starConfirmation | starConfirmTimeout | vioFirmwareSwap | vfLowSet | voutCalibration
  | nandScrubRegion =>
    exact keptAfter_next (by (repeat' split) <;> simp [Kept])
  -- The same with values named first.
  | skewWindowClose | starUpframe | portLinkUp | portLinkDown | nodeDownframeReceive | belayHealthReport | startAttemptSuccess | commandFetch
  | dtlsCplAck | cvuWindowClose | illegalOpcode | netLinkChange | startLoadComplete | ciMark | resyncIdlePart | vinTestSlot | voutTestWindow
  | loopMeasurement | supplyCollapseWarning | downframeStart =>
    exact keptAfter_next (by dsimp only; (repeat' split) <;> simp [Kept])
  -- A PTP message, which acts on the servo or the network state of its domain (R363, R364).
  | ptpSync | ptpAnnounce | ptpFollowUp | ptpPdelayReq | ptpPdelayResp =>
    exact keptAfter_next (kept_ptpTake _ fun _ => by (repeat' split) <;> simp [Kept])
  | ptpDelayResp => exact keptAfter_next (kept_ptpTake _ fun _ => by dsimp only; (repeat' split) <;> simp [Kept])
  -- A command that has its lemma above.
  | admissionSnapshot yCheck laneFail => exact admissionSnapshot_kept yCheck laneFail s
  | updBlock c index crc data => exact updBlock_kept c index crc data s

/-! ### The obligations -/

/-- Settles O4: only the step takes commands from the queue; every act is made of operations that leave it, and the variant, alone. -/
theorem commandsLeaveTheQueue : Obligations.CommandsLeaveTheQueue := fun c s => exec_kept c s

/-- Settles O1: every arm of `exec` is a next state. -/
theorem everyCommandCompletes : Obligations.EveryCommandCompletes := by
  intro c s
  cases c <;> exact ⟨_, rfl⟩

/-- Settles O2: `step` takes the command from the front of the queue and hands `exec` the rest. -/
theorem stepRunsFrontCommand : Obligations.StepRunsFrontCommand := fun _ _ => rfl

end Sys2Proof.Proofs.Queue
end

section
/-! The judgement of the mailbox commands, which comes before anything of their own (O40, R419, R420). -/

namespace Sys2Proof.Proofs.Judgement

open Sys2Proof Sys2Proof.Machine Sys2Proof.Claims Sys2Proof.Laws

/-- What the rows before a command's own leave of it: nothing while MGT does not run, BAD_ARG for a bad form, and BUSY_SELFTEST in a shutdown
BIST that does not spare it (R419, R420). -/
def JudgedFirst (c : CmdHdr) (op : Nat) (form exempt : Bool) (o : Host.Outcome State Fault Refusal) (s : State) : Prop :=
  (mgtUp s = false → o = .next s) ∧
  (mgtUp s = true → form = false → o = .next (finish c op .badArg [] [] s)) ∧
  (mgtUp s = true → form = true → exempt = false → s.mgt.bist.running = true →
    o = .next (finishRef (refOf c op) .busySelftest (leftMs s s.mgt.bist.endAt) [] [] s))

theorem cmdRun_judgedFirst (c : CmdHdr) (op : Nat) (form exempt : Bool) (rows : List (Bool × Status)) (act : State → State) (s : State) :
    JudgedFirst c op form exempt (.next (cmdRun c op form exempt rows act s)) s :=
  ⟨fun h => congrArg _ (cmdRun_off h), fun h hf => congrArg _ (cmdRun_bad h hf),
    fun h hf hx hb => congrArg _ (by simp [cmdRun, h, hf, hx, hb])⟩

/-- The form of UPD_BLOCK (R419). -/
def updBlockForm (c : CmdHdr) (data : List Byte) : Bool := formOk c true false (decide (c.dataLen = 4096) && decide (data.length = 4096))

/-- A block of UPD_BLOCK passes its snoop point only where none of these rows refuses the command (R453). -/
theorem exec_updBlock_of_refused {c : CmdHdr} {index crc : W32} {data : List Byte} {s : State}
    (h : (mgtUp s && updBlockForm c data && !s.mgt.bist.running) = false) :
    ∃ rows act, exec (.updBlock c index crc data) s = .next (cmdRun c 0x0701 (updBlockForm c data) false rows act s) := by
  have he : exec (.updBlock c index crc data) s = execUpdBlock c index crc data s := rfl
  refine ⟨?_, ?_, ?_⟩
  case refine_3 =>
    rw [he, execUpdBlock]
    dsimp only
    rw [if_neg (by simpa [updBlockForm] using h)]
    rfl

theorem updBlock_judgedFirst (c : CmdHdr) (index crc : W32) (data : List Byte) (s : State) :
    JudgedFirst c 0x0701 (updBlockForm c data) false (exec (.updBlock c index crc data) s) s := by
  refine ⟨fun h => ?_, fun h hf => ?_, fun h hf hx hb => ?_⟩
  · obtain ⟨rows, act, he⟩ := exec_updBlock_of_refused (c := c) (index := index) (crc := crc) (data := data) (s := s) (by simp [h])
    rw [he, cmdRun_off h]
  · obtain ⟨rows, act, he⟩ := exec_updBlock_of_refused (c := c) (index := index) (crc := crc) (data := data) (s := s) (by simp [hf])
    rw [he, cmdRun_bad h hf]
  · obtain ⟨rows, act, he⟩ := exec_updBlock_of_refused (c := c) (index := index) (crc := crc) (data := data) (s := s) (by simp [hb])
    rw [he]
    exact (cmdRun_judgedFirst ..).2.2 h hf hx hb

/-- Settles O40: every mailbox command is a `cmdRun`, which has these rows before the command's own. -/
theorem mailboxCommandsAreJudgedFirst : Obligations.MailboxCommandsAreJudgedFirst := by
  intro i c op form exempt s h
  cases i with
  | updBlock c index crc data =>
    cases h
    exact updBlock_judgedFirst c index crc data s
  | _ =>
    cases h <;> exact cmdRun_judgedFirst ..

end Sys2Proof.Proofs.Judgement
end

section
/-! The state after reset (O5, O6, R391, R450, R479, R495). -/

namespace Sys2Proof.Proofs.AfterReset

open Sys2Proof Sys2Proof.Machine Sys2Proof.Laws

/-- Only PD0 is listed, and an unlisted domain is HELD. -/
theorem dom_reset_of_ne_zero {d : Nat} (h : d ≠ 0) : dom State.reset d = .held := by
  simp [dom, State.reset, domAbsent, PowerState.zero, smGet, h.symm]

/-- A unit that no map lists reads 0 in every register. -/
theorem cvuWord_zero (o : Nat) : cvuWord Cvu.zero o = 0 := by
  unfold cvuWord
  split <;> rfl

/-- The registers of the check-value units (R387, R450). -/
theorem regRead_cvu (s : State) {o : Nat} (hlow : 0x1000 ≤ o) (hhigh : o < 0x1400) :
    regRead s o = if o % 4 ≠ 0 then 0 else cvuWord (cvuOf s ((o - 0x1000) / 64)) (o % 64) := by
  have h1 : ¬ o < 0x40 := by omega
  have h2 : ¬ o < 0x400 := by omega
  have h3 : ¬ o < 0xC00 := by omega
  have h4 : ¬ o < 0x1000 := by omega
  rw [regRead, if_neg h1, if_neg h2, if_neg h3, if_neg h4, if_pos hhigh]

theorem regRead_cvu_reset {u o : Nat} (hu : u < 16) (ho : o < 0x40) : regRead State.reset (0x1000 + 0x40 * u + o) = 0 := by
  rw [regRead_cvu _ (by omega) (by omega)]
  split
  · rfl
  · exact cvuWord_zero _

/-- Settles O6: the reset state lists PD0 alone and no unit, and its registers are 0. -/
theorem resetHoldsTheModule : Obligations.ResetHoldsTheModule :=
  ⟨rfl, fun _ => dom_reset_of_ne_zero, rfl, rfl, rfl, rfl, rfl, by decide, fun _ _ => regRead_cvu_reset⟩

/-- Settles O5: after reset there is no trip, and no output is listed. -/
theorem resetIsTripSafe : Obligations.ResetIsTripSafe :=
  ⟨fun h => Bool.noConfusion h, rfl, rfl⟩

end Sys2Proof.Proofs.AfterReset
end

section
/-! The UPD commands (O51, O52, R531 to R536, R545, R546): an accepted command that no row of its own refuses is its act. -/

namespace Sys2Proof.Proofs.Updates

open Sys2Proof Sys2Proof.Machine Sys2Proof.Claims Sys2Proof.Laws

/-! ### From a command to its act -/

/-- A mailbox command that is accepted, and that no row of its own refuses, is its act (R419, R420). -/
theorem exec_of_accepted {i : Instr} {c : CmdHdr} {op : Nat} {form exempt : Bool} {rows : List (Bool × Status)} {act : State → State} {s t : State}
    (h : Accepted i s) (hi : mailbox i = some (c, op, form, exempt)) (hx : exec i s = .next (cmdRun c op form exempt rows act s))
    (hr : judge rows = none) (ht : act s = t) : exec i s = .next t :=
  hx.trans (congrArg _ ((Forcing.cmdRun_of_accepted h hi hr).trans ht))

/-- One that a row of its own refuses is answered that row's status (R419). -/
theorem exec_of_refused {i : Instr} {c : CmdHdr} {op : Nat} {form exempt : Bool} {rows : List (Bool × Status)} {act : State → State} {s : State}
    {st : Status} (h : Accepted i s) (hi : mailbox i = some (c, op, form, exempt))
    (hx : exec i s = .next (cmdRun c op form exempt rows act s)) (hr : judge rows = some st) (hst : st ≠ .busySelftest) :
    exec i s = .next (finish c op st [] [] s) := by
  unfold Accepted at h
  rw [hi] at h
  obtain ⟨hup, hform, hbist⟩ := h
  exact hx.trans (congrArg _ (cmdRun_st hup hform hbist hr hst))

/-! ### The bitmap of held blocks (R533) -/

/-- The number whose bit i is `f i`, below `w`. -/
theorem foldl_bits (f : Nat → Bool) (w : Nat) :
    (List.range w).foldl (fun n i => n + b2n (f i) * 2 ^ i) 0 < 2 ^ w ∧
      ∀ i < w, ((List.range w).foldl (fun n i => n + b2n (f i) * 2 ^ i) 0).testBit i = f i := by
  induction w with
  | zero => exact ⟨Nat.one_pos, fun i hi => absurd hi i.not_lt_zero⟩
  | succ w ih =>
    obtain ⟨hlt, hbits⟩ := ih
    rw [List.range_succ, List.foldl_append]
    generalize (List.range w).foldl (fun n i => n + b2n (f i) * 2 ^ i) 0 = n at hlt hbits
    simp only [List.foldl_cons, List.foldl_nil]
    cases hf : f w with
    | false =>
      simp only [b2n, Bool.false_eq_true, if_false, Nat.zero_mul, Nat.add_zero]
      refine ⟨hlt.trans (Nat.pow_lt_pow_succ Nat.one_lt_two), fun i hi => ?_⟩
      obtain hi | rfl := Nat.lt_succ_iff_lt_or_eq.mp hi
      · exact hbits i hi
      · rw [Nat.testBit_lt_two_pow hlt, hf]
    | true =>
      simp only [b2n, if_true, Nat.one_mul, Nat.add_comm n]
      refine ⟨by rw [pow_succ]; omega, fun i hi => ?_⟩
      obtain hi | rfl := Nat.lt_succ_iff_lt_or_eq.mp hi
      · rw [Nat.testBit_two_pow_add_gt hi, hbits i hi]
      · rw [Nat.testBit_two_pow_add_eq, Nat.testBit_lt_two_pow hlt, hf]
        rfl

/-- Bit i of byte k of the bitmap is the held state of its block. -/
theorem getLsbD_heldBitmap (s : State) (first : Nat) {n k i : Nat} (hk : k < n / 8) (hi : i < 8) :
    ((heldBitmap s first n).getD k 0).getLsbD i =
      (decide (first + 8 * k + i < s.mgt.upd.blocks) && (smFind s.mgt.upd.held (first + 8 * k + i)).isSome) := by
  have hbits := (foldl_bits (fun i => decide (first + 8 * k + i < s.mgt.upd.blocks) && (smFind s.mgt.upd.held (first + 8 * k + i)).isSome) 8).2 i hi
  rw [heldBitmap, List.getD_eq_getElem?_getD, List.getElem?_map, List.getElem?_range hk, Option.map_some, Option.getD_some,
    BitVec.getLsbD_ofNat, hbits]
  simp [hi]

theorem heldBitmap_length (s : State) (first n : Nat) : (heldBitmap s first n).length = n / 8 := by
  simp [heldBitmap]

theorem exec_updBitmap {s : State} {c : CmdHdr} {first n : W32} (h : Accepted (.updBitmap c first n) s) (hpkg : pkgBegun s = true)
    (h8 : n.toNat % 8 = 0) (hlow : 8 ≤ n.toNat) (hhigh : n.toNat ≤ 65536) :
    exec (.updBitmap c first n) s = .next (finish c 0x0702 .ok [] (heldBitmap s first.toNat n.toNat) s) :=
  exec_of_accepted h rfl rfl (by simp [judge, hpkg, h8, hlow.not_gt, hhigh.not_gt]) rfl

/-- Settles O52: the bytes are sums of one power of two a block, so each bit is its block's own. -/
theorem updBitmapShowsHeldBlocks : Obligations.UpdBitmapShowsHeldBlocks := fun s _ first n h hpkg h8 hlow hhigh =>
  ⟨heldBitmap s first.toNat n.toNat, exec_updBitmap h hpkg h8 hlow hhigh, heldBitmap_length .., fun _ _ hk hi => getLsbD_heldBitmap s _ hk hi⟩

/-! ### Delivery (R531, R532, R534, R535) -/

section

variable {s : State} {c : CmdHdr}

/-- UPD_BEGIN keeps what is held where it names the package in hand. -/
theorem exec_updBegin {pkg : W64} {n : W32} (h : Accepted (.updBegin c pkg n) s) (hbusy : updBusy s = false) (hlow : 2 ≤ n.toNat)
    (hhigh : n.toNat ≤ 65536) : ∃ t, exec (.updBegin c pkg n) s = .next t ∧ t.mgt.upd.mode = .receiving ∧ t.mgt.upd.pkgId = pkg ∧
      t.mgt.upd.blocks = n.toNat ∧
      t.mgt.upd.held = (if s.mgt.upd.mode ≠ .idle ∧ s.mgt.upd.pkgId = pkg ∧ s.mgt.upd.blocks = n.toNat then s.mgt.upd.held else []) ∧
      t.mgt.mbx.finished = (finish c 0x0700 .ok (le4 t.mgt.upd.held.length) [] s).mgt.mbx.finished ∧ t.ctl = s.ctl ∧ t.data = s.data := by
  refine ⟨_, exec_of_accepted h rfl rfl (by simp [judge, hbusy, hlow.not_gt, hhigh.not_gt]) rfl, rfl, rfl, rfl, ?_, rfl, rfl, rfl⟩
  show (if _ = true then s.mgt.upd.held else []) = _
  simp [and_assoc]

/-- Of a block that the update stream carries only a check-value unit may take a copy before the command is judged (R449, R453). -/
theorem updBlock_snooped (data : List Byte) (b : Bool) (s : State) :
    ∃ cvu, (if b = true then snoop 24 0 true true data s else s) = { s with mgt := { s.mgt with cvu := cvu } } := by
  unfold snoop
  split
  · split
    · exact ⟨_, rfl⟩
    · exact ⟨s.mgt.cvu, rfl⟩
  · exact ⟨s.mgt.cvu, rfl⟩

/-- The block is held (R532). -/
def blockHeld (i : Nat) (data : List Byte) (s : State) : State :=
  onUpd (fun u => { u with mode := .receiving, manifest := none, held := smPut u.held i data }) s

/-- UPD_BLOCK holds a block with a good CRC and refuses any other; a check-value unit may have taken its copy before. -/
theorem exec_updBlock {i crc : W32} {data : List Byte} (h : Accepted (.updBlock c i crc data) s) (hpkg : pkgBegun s = true)
    (hi : i.toNat < s.mgt.upd.blocks) (hnand : nandBusy s 0x0701 = false) : ∃ cvu, exec (.updBlock c i crc data) s =
      .next (if crc32c data = crc.toNat then
          finish c 0x0701 .ok (heldLe (blockHeld i.toNat data s)) [] (blockHeld i.toNat data { s with mgt := { s.mgt with cvu := cvu } })
        else finish c 0x0701 .checkFail [] [] { s with mgt := { s.mgt with cvu := cvu } }) := by
  obtain ⟨hup, hform, hbist⟩ := h
  obtain ⟨cvu, hsnoop⟩ := updBlock_snooped data
    (mgtUp s && formOk c true false (decide (c.dataLen = 4096) && decide (data.length = 4096)) && !s.mgt.bist.running) s
  have he : exec (.updBlock c i crc data) s = execUpdBlock c i crc data s := rfl
  have hpkg' : pkgBegun { s with mgt := { s.mgt with cvu := cvu } } = true := hpkg
  have hnand' : nandBusy { s with mgt := { s.mgt with cvu := cvu } } 0x0701 = false := hnand
  refine ⟨cvu, ?_⟩
  rw [he, execUpdBlock]
  dsimp only
  rw [hsnoop]
  split
  · next hcrc => exact congrArg _ (cmdRun_go hup hform hbist (by simp [judge, hpkg', hi.not_ge, hnand', hcrc]))
  · next hcrc => exact congrArg _ (cmdRun_st hup hform hbist (by simp [judge, hpkg', hi.not_ge, hnand', hcrc]) (by decide))

/-- What UPD_VERIFY leaves by the package's verdict (R534). -/
def verifyAnswer (c : CmdHdr) (s : State) : Except Status Manifest → State
  | .error st => finish c 0x0703 st [] [] s
  | .ok m => finish c 0x0703 .ok (le4 m.components) [] (onUpd (fun u => { u with mode := .staged, manifest := some m }) s)

theorem exec_updVerify (h : Accepted (.updVerify c) s) (hpkg : pkgBegun s = true) (hnand : nandBusy s 0x0703 = false) :
    exec (.updVerify c) s = .next (verifyAnswer c s (verifyPackage s s.mgt.upd.pkgId s.mgt.upd.blocks true)) :=
  exec_of_accepted h rfl rfl (by simp [judge, hpkg, hnand]) (by
    cases verifyPackage s s.mgt.upd.pkgId s.mgt.upd.blocks true <;> rfl)

theorem exec_updAbort (h : Accepted (.updAbort c) s) (hpkg : pkgBegun s = true) : exec (.updAbort c) s = .next (finish c 0x0705 .ok [] []
    (onUpd (fun u => { u with mode := .idle, held := [], pkgId := 0, blocks := 0, manifest := none }) s)) := by
  have hbusy : updBusy s = false := by
    obtain hm | hm : s.mgt.upd.mode = .receiving ∨ s.mgt.upd.mode = .staged := by simpa [pkgBegun] using hpkg
    all_goals simp [updBusy, hm]
  exact exec_of_accepted h rfl rfl (by simp [judge, hbusy]) (by simp only [hpkg, if_true])

/-! ### Activation, commit and revert (R537, R545, R546) -/

/-- The activation record of UPD_ACTIVATE (R537). -/
def activationBegun (s : State) : State :=
  onUpd (fun u => { u with mode := .activating, previous := u.bankP, complete := [], unconfirmed := 0, confirmed := false,
                           originals := some (storedBlocks s), origFmt := s.mgt.store.itemFmt }) s

theorem exec_updActivate (h : Accepted (.updActivate c) s) (hmode : s.mgt.upd.mode = .staged) (hman : s.mgt.upd.manifest.isSome = true)
    (hshut : shutdownRequested s = false) (hs4 : switchOn s 4 = true) :
    exec (.updActivate c) s = .next (beginStep 1 (finish c 0x0704 .pending [] [] (activationBegun s))) := by
  have hnone : s.mgt.upd.manifest.isNone = false := by
    rw [Option.isNone_eq_false_iff]
    exact hman
  have hs4' : switchOn (finish c 0x0704 .pending [] [] (activationBegun s)) 4 = true := hs4
  refine exec_of_accepted h rfl rfl (by simp [judge, hmode, hnone, hshut, hs4]) ?_
  show startStep 1 (finish c 0x0704 .pending [] [] (activationBegun s)) = _
  rw [startStep, if_neg (by simp [hs4'])]

/-- What a commit leaves of the update state (R545). -/
def packageCommitted (sec : Nat) (s : State) : State :=
  onUpd (fun u => { u with mode := .idle, fuseSecVer := max u.fuseSecVer sec, bankQ := u.bankP, originals := none, origFmt := [],
                           lastStatus := Status.ok.code, held := [], pkgId := 0, blocks := 0, manifest := none }) s

theorem exec_updCommit {m : Manifest} {fuseOk : Bool} (h : Accepted (.updCommit c fuseOk) s) (hmode : s.mgt.upd.mode = .awaitCommit)
    (hman : s.mgt.upd.manifest = some m) : ∃ n, exec (.updCommit c fuseOk) s =
      .next (if s.mgt.upd.fuseSecVer < m.secVer ∧ !fuseOk then finish c 0x0706 .checkFail [] [] s
        else finish c 0x0706 .ok (le4 n) [] (packageCommitted m.secVer s)) :=
  ⟨_, exec_of_accepted h rfl rfl (by simp [judge, hmode]) (by
    dsimp only
    rw [hman]
    rfl)⟩

theorem exec_updRevert (h : Accepted (.updRevert c) s) (hmode : s.mgt.upd.mode = .awaitCommit) :
    exec (.updRevert c) s = .next (finish c 0x0707 .ok [] [] (onUpd (fun u =>
      { u with mode := .idle, lastStatus := Status.aborted.code, held := [], pkgId := 0, blocks := 0, manifest := none }) (backToQ s))) :=
  exec_of_accepted h rfl rfl (by simp [judge, hmode]) rfl

/-- The set in Q and the original configuration are put back, and nothing else (R544, R546). -/
theorem backToQ_eq (s : State) : ∃ st, backToQ s =
    onStore st (onUpd (fun u => { u with bankP := u.bankQ, originals := none, origFmt := [], used := u.preferred }) s) := by
  unfold backToQ
  cases s.mgt.upd.originals with
  | none => exact ⟨id, rfl⟩
  | some m =>
    exact ⟨fun x => { x with vioBlock := smGet [] m vioBlk, netBlock := smGet [] m netBlk, linkBlock := smGet [] m linkBlk,
                             schedBlock := smGet [] m schedBlk, itemFmt := s.mgt.upd.origFmt }, rfl⟩

end

/-- A step begins by a change of the update state and its two notes (R447, R476, R537). -/
theorem beginStep_ctl (n : Nat) (s : State) : (beginStep n s).ctl = s.ctl := by
  unfold beginStep
  dsimp only
  split <;> rfl

theorem beginStep_data (n : Nat) (s : State) : (beginStep n s).data = s.data := by
  unfold beginStep
  dsimp only
  split <;> rfl

theorem beginStep_finished (n : Nat) (s : State) : (beginStep n s).mgt.mbx.finished = s.mgt.mbx.finished := by
  unfold beginStep
  dsimp only
  split <;> rfl

/-- Settles O51: each command is its act, and the act is one change of the update state beside the answer. -/
theorem updCommandsAct : Obligations.UpdCommandsAct := by
  intro s c
  refine ⟨fun pkg n => exec_updBegin, fun i crc data h hpkg hi hnand => ?_, fun first n => exec_updBitmap,
    fun m h hpkg hnand hm => ?_, fun st h hpkg hnand hst => ?_,
    fun h hmode hman hshut hs4 => ⟨_, exec_updActivate h hmode hman hshut hs4, rfl, rfl, rfl, rfl, rfl, rfl,
      beginStep_finished _ _, beginStep_ctl _ _, beginStep_data _ _⟩,
    exec_updAbort, fun m fuseOk h hmode hman hfuse => ?_, fun m h hmode hman hsec => ?_, fun h hmode => ?_,
    fun h => exec_of_accepted h rfl rfl rfl rfl⟩
  · obtain ⟨cvu, he⟩ := exec_updBlock h hpkg hi hnand
    refine ⟨fun hcrc => ?_, fun hcrc => ?_⟩
    · rw [if_pos hcrc] at he
      exact ⟨_, he, (smFind_smPut _ _ _ _).trans (if_pos rfl), fun k hk => (smFind_smPut _ _ _ _).trans (if_neg hk), rfl, rfl, rfl⟩
    · rw [if_neg hcrc] at he
      exact ⟨_, he, rfl, rfl, rfl, rfl⟩
  · rw [exec_updVerify h hpkg hnand, hm]
    rfl
  · rw [exec_updVerify h hpkg hnand, hst]
    rfl
  · obtain ⟨n, he⟩ := exec_updCommit h hmode hman
    rw [if_neg (fun hbad => by simp [hfuse hbad.1] at hbad)] at he
    exact ⟨_, he, rfl, rfl, rfl, rfl, rfl, rfl⟩
  · obtain ⟨n, he⟩ := exec_updCommit h hmode hman
    rw [he, if_pos ⟨hsec, rfl⟩]
  · obtain ⟨st, hq⟩ := backToQ_eq s
    rw [exec_updRevert h hmode, hq]
    exact ⟨_, rfl, rfl, rfl, rfl, rfl, rfl, rfl⟩

end Sys2Proof.Proofs.Updates
end

section
/-! The steps of an activation and the mask ROM (O53, R537 to R541, R544, R550, R551): what a failed step leaves, then one equation per event. -/

namespace Sys2Proof.Proofs.Activation

open Sys2Proof Sys2Proof.Machine Sys2Proof.Claims Sys2Proof.Laws Sys2Proof.Proofs.Updates

/-! ### A failed step (R544) -/

/-- A step that begins leaves the banks' set P and the last status. -/
theorem beginStep_bankP (n : Nat) (s : State) : (beginStep n s).mgt.upd.bankP = s.mgt.upd.bankP := by
  unfold beginStep
  dsimp only
  split <;> rfl

theorem beginStep_lastStatus (n : Nat) (s : State) : (beginStep n s).mgt.upd.lastStatus = s.mgt.upd.lastStatus := by
  unfold beginStep
  dsimp only
  split <;> rfl

/-- A rollback goes on with a step, or ends: the set P, the last status and the data plane stand. -/
theorem rollbackNext_keeps (s : State) : (rollbackNext s).mgt.upd.bankP = s.mgt.upd.bankP ∧
    (rollbackNext s).mgt.upd.lastStatus = s.mgt.upd.lastStatus ∧ (rollbackNext s).data = s.data := by
  unfold rollbackNext
  split
  · exact ⟨rfl, rfl, rfl⟩
  · exact ⟨beginStep_bankP _ _, beginStep_lastStatus _ _, beginStep_data _ _⟩

/-- Nothing but step 1 was completed: the rollback is over. -/
theorem rollbackNext_of_none {s : State} (h : s.mgt.upd.complete = []) : rollbackNext s = updEnds .staged s := by
  rw [rollbackNext, h]
  rfl

/-- The notes of a failed step, and the end of the rotations of a lane step (R536, R556). -/
def failureNoted (st : Status) (s : State) : State :=
  if s.mgt.upd.step = 7 then endLanes (stepNote s.mgt.upd.step st 100 s) else stepNote s.mgt.upd.step st 100 s

theorem failureNoted_keeps (st : Status) (s : State) : (failureNoted st s).mgt.upd = s.mgt.upd ∧ (failureNoted st s).data = s.data := by
  unfold failureNoted
  split <;> exact ⟨rfl, rfl⟩

/-- A step of an activation that fails turns it into a rollback to the set in Q. -/
theorem stepFails_activating (st : Status) {s : State} (h : s.mgt.upd.mode = .activating) : stepFails st s =
    rollbackNext (backToQ (onUpd (fun u => { u with mode := .rollback, lastStatus := st.code }) (failureNoted st s))) := by
  have he : stepFails st s = match (failureNoted st s).mgt.upd.mode with
      | .activating => rollbackNext (backToQ (onUpd (fun u => { u with mode := .rollback, lastStatus := st.code }) (failureNoted st s)))
      | .rollback => rollbackNext (failureNoted st s)
      | _ => failureNoted st s := rfl
  rw [he, (failureNoted_keeps st s).1, h]

theorem backToQ_keeps (s : State) : (backToQ s).mgt.upd.bankP = s.mgt.upd.bankQ ∧ (backToQ s).mgt.upd.lastStatus = s.mgt.upd.lastStatus ∧
    (backToQ s).mgt.upd.complete = s.mgt.upd.complete ∧ (backToQ s).data = s.data := by
  obtain ⟨st, h⟩ := backToQ_eq s
  rw [h]
  exact ⟨rfl, rfl, rfl, rfl⟩

/-- A failed step of an activation leaves P as Q, and its status (R544). -/
theorem stepFails_leaves (st : Status) {s : State} (h : s.mgt.upd.mode = .activating) : (stepFails st s).mgt.upd.bankP = s.mgt.upd.bankQ ∧
    (stepFails st s).mgt.upd.lastStatus = st.code ∧ (stepFails st s).data = s.data := by
  obtain ⟨hupd, hdata⟩ := failureNoted_keeps st s
  obtain ⟨hP, hlast, -, hd⟩ := backToQ_keeps (onUpd (fun u => { u with mode := .rollback, lastStatus := st.code }) (failureNoted st s))
  rw [stepFails_activating st h]
  obtain ⟨hP', hlast', hd'⟩ := rollbackNext_keeps
    (backToQ (onUpd (fun u => { u with mode := .rollback, lastStatus := st.code }) (failureNoted st s)))
  exact ⟨hP'.trans (hP.trans (congrArg (·.bankQ) hupd)), hlast'.trans hlast, hd'.trans (hd.trans hdata)⟩

/-- Where no step is complete the failed one ends the activation at once. -/
theorem stepFails_first (st : Status) {s : State} (h : s.mgt.upd.mode = .activating) (hnone : s.mgt.upd.complete = []) :
    (stepFails st s).mgt.upd.mode = .staged ∧ (stepFails st s).mgt.upd.step = 0 := by
  obtain ⟨-, -, hcomplete, -⟩ := backToQ_keeps (onUpd (fun u => { u with mode := .rollback, lastStatus := st.code }) (failureNoted st s))
  have hupd : (failureNoted st s).mgt.upd.complete = [] := by rw [(failureNoted_keeps st s).1, hnone]
  rw [stepFails_activating st h, rollbackNext_of_none (hcomplete.trans hupd)]
  exact ⟨rfl, rfl⟩

/-! ### The events of the steps (R537 to R541) -/

section

variable {s : State}

theorem exec_updBankStep {m : Manifest} (ok : Bool) (hstep : inStep s 1 = true) (hman : s.mgt.upd.manifest = some m) :
    exec (.updBankStep ok) s = .next (if ok = true then
      finishStep (onUpd (fun u => { u with bankP := withPackage u.bankP m, used := u.preferred }) s) else stepFails .checkFail s) := by
  have he : exec (.updBankStep ok) s = execUpdBankStep ok s := rfl
  rw [he, execUpdBankStep, if_pos hstep, hman]

theorem exec_mgtBankSwap (confirms : Bool) (hstep : inStep s 2 = true) : exec (.mgtBankSwap confirms) s = .next (
    let u := onUpd (fun u => { u with used := u.preferred }) (swapQuiesce s)
    if confirms = true then mgtStarts u
    else onUpd (fun u => { u with unconfirmed := u.unconfirmed + 1, confirmed := false })
      (onMbx (fun m => { m with ready := false }) (onStart (fun x => { x with booted := false }) u))) := by
  have he : exec (.mgtBankSwap confirms) s = execMgtBankSwap confirms s := rfl
  rw [he, execMgtBankSwap, if_pos hstep]

theorem exec_vioFirmwareSwap {fw : BitVec 32} (hfw : s.mgt.upd.shadowVio = some fw) (hstep : inStep s 5 = true) (hrun : domRun s 11 = true)
    (hctl : ctlRuns s = true) (hinst : vioInstant s = true) :
    exec .vioFirmwareSwap s = .next (finishStep (onVio (fun v => { v with fwVer := fw }) s)) := by
  have he : exec .vioFirmwareSwap s = execVioFirmwareSwap s := rfl
  rw [he, execVioFirmwareSwap, hfw]
  simp only [hstep, hrun, hctl, hinst, Bool.and_self, if_true]

/-- The boundary of the voter's swap: refused, refused for the last time, or made by both halves (R541). -/
theorem exec_voterMicrocodeSwap {x y : BitVec 32} (hx : s.mgt.upd.shadowVoter.x = some x) (hy : s.mgt.upd.shadowVoter.y = some y)
    (hstep : inStep s 6 = true) (hctl : ctlRuns s = true) (hscn : (scn s).toNat % 64 = 0) (hrel : atRelease s = true)
    (h16 : sixteenScans s = true) : exec .voterMicrocodeSwap s = .next (
      if microcodeRefused s = true then
        if 64 ≤ s.mgt.upd.refusals + 1 then stepFails .timeout (onUpd (fun u => { u with refusals := u.refusals + 1, stepScn := scn s }) s)
        else onUpd (fun u => { u with refusals := u.refusals + 1, stepScn := scn s }) s
      else if x = y then finishStep (onVoter (fun v => { v with fwVer := ⟨x, y⟩ }) s)
      else tripXY (onVoter (fun v => { v with fwVer := ⟨x, y⟩ }) s)) := by
  have he : exec .voterMicrocodeSwap s = execVoterMicrocodeSwap s := rfl
  have hdue : (inStep s 6 && ctlRuns s && decide ((scn s).toNat % 64 = 0) && atRelease s && sixteenScans s) = true := by
    simp [hstep, hctl, hscn, hrel, h16]
  rw [he, execVoterMicrocodeSwap, hx, hy]
  dsimp only
  rw [if_pos hdue]
  rfl

theorem exec_starStepTimeout {ch : Chan} (hch : stepChan s.mgt.upd.step = some ch) (hstep : inStep s s.mgt.upd.step = true)
    (hrun : domRun s (starDom ch) = true) (hmode : (Machine.star s ch).mode ≠ .running)
    (hlate : (Machine.star s ch).coldSince + msTicks 30000 ≤ s.clk.tick) : exec (.starStepTimeout ch) s = .next (stepFails .timeout s) := by
  have he : exec (.starStepTimeout ch) s = execStarStepTimeout ch s := rfl
  rw [he, execStarStepTimeout, if_pos (by simp [hch, hstep, hrun, hmode, hlate])]

end

/-- What MGT ends before it swaps banks lies in the mailbox and in the staging copy (R538). -/
theorem swapQuiesce_keeps (s : State) : (swapQuiesce s).mgt.mbx.rings = [] ∧ (swapQuiesce s).mgt.mbx.sessions = [] ∧
    (swapQuiesce s).mgt.mbx.pulses = [] ∧ (swapQuiesce s).mgt.upd = s.mgt.upd ∧ (swapQuiesce s).ctl.voter = s.ctl.voter ∧
    (swapQuiesce s).data = s.data := ⟨rfl, rfl, rfl, rfl, rfl, rfl⟩

theorem stepsEndOrRollBack : StepsEndOrRollBack := by
  intro s
  refine ⟨fun m hstep hman => ⟨exec_updBankStep true hstep hman, fun hmode hnone => ?_⟩,
    fun hstep => ⟨?_, exec_mgtBankSwap true hstep⟩,
    fun fw => exec_vioFirmwareSwap, fun x y hx hy hstep hctl hscn hrel h16 => ?_, fun ch hch hstep hrun hmode hlate hact => ?_⟩
  · obtain ⟨hP, hlast, hdata⟩ := stepFails_leaves .checkFail hmode
    obtain ⟨hm, hs⟩ := stepFails_first .checkFail hmode hnone
    exact ⟨_, exec_updBankStep false hstep hman, hm, hP, hs, hlast, hdata⟩
  · obtain ⟨hrings, hsessions, hpulses, hupd, hvoter, hdata⟩ := swapQuiesce_keeps s
    exact ⟨_, exec_mgtBankSwap false hstep, rfl, rfl, hrings, hsessions, hpulses, congrArg (·.unconfirmed + 1) hupd, hvoter, hdata⟩
  · have he := exec_voterMicrocodeSwap hx hy hstep hctl hscn hrel h16
    refine ⟨fun hok hxy => ?_, fun hok hxy => ?_, fun href hfew => ?_, fun href hmany hact => ?_⟩
    · rw [he, if_neg (by simp [hok]), if_pos hxy]
    · rw [he, if_neg (by simp [hok]), if_neg hxy]
    · rw [he, if_pos href, if_neg (by omega)]
    · rw [if_pos href, if_pos (by omega)] at he
      exact ⟨_, he, stepFails_leaves .timeout hact⟩
  · exact ⟨_, exec_starStepTimeout hch hstep hrun hmode hlate, stepFails_leaves .timeout hact⟩

/-! ### The mask ROM (R550, R551) -/

/-- A block as the mask ROM took it with a good CRC, and with a bad one. -/
theorem romTake_good {i : Nat} {crc : W32} {b : List Byte} (s : State) (h : b.length = 4096 ∧ crc.toNat = crc32c b) : romTake i crc b s =
    onUpd (fun u => { u with romIndex := i, romCrc := crc, held := smPut u.held i b, romResult := 0 }) s := by
  rw [romTake, if_pos h]
  rfl

theorem romTake_bad {i : Nat} {crc : W32} {b : List Byte} (s : State) (h : b.length ≠ 4096 ∨ crc.toNat ≠ crc32c b) : romTake i crc b s =
    onUpd (fun u => { u with romIndex := i, romCrc := crc, romResult := Status.checkFail.code }) s := by
  rw [romTake, if_neg (fun hgood => h.elim (· hgood.1) (· hgood.2))]
  rfl

/-- With no block of the manifest there is no package to judge. -/
theorem romVerify_of_empty (loaded : Versions → UpdState → UpdState) {s : State} (h : (heldBlock s.mgt.upd.held 0).isEmpty = true) :
    romVerify loaded s = s := by
  rw [romVerify]
  exact if_pos (.inl h)

section

variable {s : State}

theorem exec_romBlockGo {i : BitVec 16} {crc : W32} {b : List Byte} (hrun : domRun s 1 = true) (hopen : s.mgt.upd.romComplete = false)
    (hboot : s.mgt.start.booted = false) (hrec : s.power.recovery = false) (hhost : s.power.bootCfg.map bootSource = some .host) :
    exec (.romBlockGo i crc b) s = .next (romVerify (fun v u => { u with active := v }) (romTake i.toNat crc b s)) := by
  have he : exec (.romBlockGo i crc b) s = execRomBlockGo i crc b s := rfl
  rw [he, execRomBlockGo, if_pos (by simp [hrun, hopen, hboot, hrec, hhost])]

theorem exec_recoveryDatagram {i : W32} {crc : W32} {b : List Byte} (hrun : domRun s 1 = true) (hrec : s.power.recovery = true) :
    exec (.recoveryDatagram i crc b) s = .next (recoveryReply i (if s.mgt.upd.romComplete = true then onUpd (fun u => { u with romResult := 0 }) s
      else romVerify (fun v u => { u with bankP := v, bankQ := v }) (romTake i.toNat crc b s))) := by
  have he : exec (.recoveryDatagram i crc b) s = execRecoveryDatagram i crc b s := rfl
  rw [he, execRecoveryDatagram, if_pos (by simp [hrun, hrec])]
  rfl

end

theorem theMaskRomTakesBlocks : TheMaskRomTakesBlocks := by
  intro s crc b hrun
  refine ⟨fun hopen i hboot hrec hhost => ?_, fun hopen i hrec => ?_, fun hdone i hrec => ?_⟩
  · have he := exec_romBlockGo (i := i) (crc := crc) (b := b) hrun hopen hboot hrec hhost
    refine ⟨he, fun hgood hempty => ?_, fun hbad hempty => ?_⟩
    · rw [he, romTake_good s hgood, romVerify_of_empty]
      exact hempty
    · rw [he, romTake_bad s hbad, romVerify_of_empty]
      exact hempty
  · have he := exec_recoveryDatagram (i := i) (crc := crc) (b := b) hrun hrec
    rw [if_neg (by simp [hopen])] at he
    refine ⟨he, fun hgood hempty => ?_, fun hbad hempty => ?_⟩
    · rw [he, romTake_good s hgood, romVerify_of_empty]
      exact hempty
    · rw [he, romTake_bad s hbad, romVerify_of_empty]
      exact hempty
  · rw [exec_recoveryDatagram hrun hrec, if_pos hdone]

/-- Settles O53: a failed step of an activation puts Q back before it goes on, whatever is left to undo, and the mask ROM judges a package only once it
holds the manifest's block. -/
theorem activationStepsEnd : Obligations.ActivationStepsEnd := ⟨stepsEndOrRollBack, theMaskRomTakesBlocks⟩

end Sys2Proof.Proofs.Activation
end

section
/-! The check-value units (O59, R429, R430, R450 to R459): first a unit changed, then writes over BAR0, windows that close, and the CVU commands. -/

namespace Sys2Proof.Proofs.CheckValues

open Sys2Proof Sys2Proof.Machine Sys2Proof.Claims Sys2Proof.Laws Sys2Proof.Proofs.Updates

/-! ### One unit changed -/

@[simp] theorem cvuOf_onCvu (u : Nat) (f : Cvu → Cvu) (s : State) : cvuOf (onCvu u f s) u = f (cvuOf s u) :=
  smGet_smSet_self ..

theorem cvuOf_onCvu_ne {u k : Nat} (f : Cvu → Cvu) (s : State) (h : k ≠ u) : cvuOf (onCvu u f s) k = cvuOf s k :=
  smGet_smSet_ne _ _ _ h

/-- A change of a unit is what it does to the unit's value. -/
theorem onCvu_congr {u : Nat} {f g : Cvu → Cvu} {s : State} (h : f (cvuOf s u) = g (cvuOf s u)) : onCvu u f s = onCvu u g s := by
  have h' : f (smGet Cvu.zero s.mgt.cvu u) = g (smGet Cvu.zero s.mgt.cvu u) := h
  simp only [onCvu, onMgt, h']

@[simp] theorem cvuOf_finish (c : CmdHdr) (op : Nat) (st : Status) (result data : List Byte) (s : State) (u : Nat) :
    cvuOf (finish c op st result data s) u = cvuOf s u := rfl

/-- The values of a unit that a change gives, and what stands beside it. -/
theorem onCvu_leaves {u : Nat} {f : Cvu → Cvu} {s : State} {y : Cvu} (h : f (cvuOf s u) = y) :
    cvuOf (onCvu u f s) u = y ∧ (∀ k, k ≠ u → cvuOf (onCvu u f s) k = cvuOf s k) ∧ (onCvu u f s).ctl = s.ctl ∧ (onCvu u f s).data = s.data :=
  ⟨(cvuOf_onCvu u f s).trans h, fun _ => cvuOf_onCvu_ne f s, rfl, rfl⟩

/-! ### Settings (R451, R458) -/

/-- A write of CTRL with ENABLE to a unit that stands takes the setting, and starts it or shows CFG_ERR. -/
theorem cvuCtrl_start {v : W32} {x : Cvu} (hoff : x.enable = false) (hon : v.getLsbD 31 = true) : cvuCtrl v (cvuTouched x) =
    if cvuSettingOk (cvuFields v x) = true then { cvuFields v x with underTest := false, enable := true, cfgErr := false }
    else { cvuFields v x with underTest := false, cfgErr := true } := by
  have hoff' : (cvuTouched x).enable = false := hoff
  have hset : cvuSettingOk (cvuFields v (cvuTouched x)) = cvuSettingOk (cvuFields v x) := rfl
  simp only [cvuCtrl, hoff', hon, Bool.false_eq_true, if_false, if_true, cvuStart, hset]
  rfl

/-- ENABLE 0 stops the unit: its open window is discarded and nothing of it is shown any more. -/
def Stopped (y : Cvu) : Prop := y.enable = false ∧ y.valid = false ∧ y.overrun = 0 ∧ y.winOpen = false ∧ y.window = []

theorem cvuStop_stopped (x : Cvu) : Stopped (cvuStop x) := ⟨rfl, rfl, rfl, rfl, rfl⟩

/-- With no closed window waiting a stop shows no further result. -/
theorem cvuStop_result {x : Cvu} (h : x.ended = []) : (cvuStop x).result = x.result := by
  simp only [cvuStop, cvuShow, h, List.foldl_nil]

theorem cvuCtrl_stop {v : W32} (x : Cvu) (hoff : v.getLsbD 31 = false) :
    Stopped (cvuCtrl v (cvuTouched x)) ∧ (x.ended = [] → (cvuCtrl v (cvuTouched x)).result = x.result) := by
  simp only [cvuCtrl, hoff, Bool.false_eq_true, if_false]
  split
  · exact ⟨cvuStop_stopped _, fun h => (cvuStop_result (x := cvuTouched x) h).trans rfl⟩
  · exact ⟨cvuStop_stopped _, fun h => (cvuStop_result (x := cvuFields v (cvuTouched x)) h).trans rfl⟩

/-! ### Windows (R452, R454, R455) -/

/-- What a window that closes shows: its check value, the next number, and VALID. -/
theorem cvuDone_shows (n : Scn) (r : W64) (len : W32) (x : Cvu) : (cvuDone n r len x).result = r ∧ (cvuDone n r len x).winBytes = len ∧
    (cvuDone n r len x).winScn = n ∧ (cvuDone n r len x).seq = x.seq + 1 ∧ (cvuDone n r len x).valid = true := ⟨rfl, rfl, rfl, rfl, rfl⟩

/-- The overrun counts, up to its end, a result that was not acknowledged. -/
theorem cvuDone_overrun (n : Scn) (r : W64) (len : W32) (x : Cvu) : (x.valid = false → (cvuDone n r len x).overrun = x.overrun) ∧
    (x.valid = true → (cvuDone n r len x).overrun.toNat = min 0xFFFF (x.overrun.toNat + 1)) := by
  refine ⟨fun h => by simp [cvuDone, h], fun h => ?_⟩
  simp only [cvuDone, h, if_true, satAdd, BitVec.toNat_ofNat]
  omega

theorem cvuOpen_soft {x : Cvu} (h : softUnit x = true) : cvuOpen (cvuTouched x) = { x with underTest := false, winOpen := true, window := [] } := by
  have h' : softUnit (cvuTouched x) = true := h
  rw [cvuOpen, if_pos h']
  rfl

theorem cvuSoftClose_open {x : Cvu} (n : Scn) (bytes : List Byte) (h : softUnit x = true) (ho : x.winOpen = true) :
    cvuSoftClose n bytes (cvuTouched x) = { cvuClose n bytes (cvuTouched x) with winOpen := false, window := [] } := by
  have h' : softUnit (cvuTouched x) = true ∧ (cvuTouched x).winOpen = true := ⟨h, ho⟩
  rw [cvuSoftClose, if_pos h']

/-! ### Writes over BAR0 -/

section

variable {s : State} {u : BitVec 4}

theorem exec_cvuEnableWrite (v : W32) (h : barUp s = true) :
    exec (.cvuEnableWrite u v) s = .next (onCvu u.toNat (fun x => cvuCtrl v (cvuTouched x)) s) :=
  congrArg Host.Outcome.next (if_pos h)

theorem exec_cvuOpenWrite (h : barUp s = true) : exec (.cvuOpenWrite u) s = .next (onCvu u.toNat (fun x => cvuOpen (cvuTouched x)) s) :=
  congrArg Host.Outcome.next (if_pos h)

theorem exec_cvuCloseWrite (bytes : List Byte) (h : barUp s = true) : exec (.cvuCloseWrite u bytes) s =
    .next (onCvu u.toNat (fun x => cvuSoftClose (scn s) (softBytes s u.toNat bytes) (cvuTouched x)) s) :=
  congrArg Host.Outcome.next (if_pos h)

theorem exec_cvuResultAckWrite (v : W32) (h : barUp s = true) :
    exec (.cvuResultAckWrite u v) s = .next (onCvu u.toNat (fun x => cvuAck v (cvuTouched x)) s) :=
  congrArg Host.Outcome.next (if_pos h)

/-- A window whose end waits is shown first. -/
theorem exec_cvuWindowClose_ended {bytes b : List Byte} {n : Scn} {rest : List (Scn × List Byte)} (hrun : domRun s 1 = true)
    (hon : (cvuOf s u.toNat).enable = true) (hended : (cvuOf s u.toNat).ended = (n, b) :: rest) :
    exec (.cvuWindowClose u bytes) s = .next (onCvu u.toNat (fun y => { cvuClose n b y with ended := rest }) s) := by
  have he : exec (.cvuWindowClose u bytes) s = execCvuWindowClose u bytes s := rfl
  simp only [he, execCvuWindowClose, hrun, hon, hended, Bool.and_self, if_true]

theorem exec_cvuWindowClose_given {bytes : List Byte} (hrun : domRun s 1 = true) (hon : (cvuOf s u.toNat).enable = true)
    (hended : (cvuOf s u.toNat).ended = []) (hfits : windowFits s (cvuOf s u.toNat) bytes = true) :
    exec (.cvuWindowClose u bytes) s = .next (onCvu u.toNat (cvuClose (scn s) bytes) s) := by
  have he : exec (.cvuWindowClose u bytes) s = execCvuWindowClose u bytes s := rfl
  simp only [he, execCvuWindowClose, hrun, hon, hended, hfits, Bool.and_self, if_true]

theorem exec_cvuUnitTest (hup : mgtUp s = true) (hoff : (cvuOf s u.toNat).enable = false) :
    exec (.cvuUnitTest u) s = .next (onCvu u.toNat (fun y => { y with underTest := !y.underTest }) s) :=
  congrArg Host.Outcome.next (if_pos (by simp [hup, hoff]))

theorem enableWrite_acts (v : W32) (h : barUp s = true) : let x := cvuOf s u.toNat
    (x.enable = false → v.getLsbD 31 = true → cvuSettingOk (cvuFields v x) = true → ∃ t, exec (.cvuEnableWrite u v) s = .next t ∧
      (cvuOf t u.toNat) = { cvuFields v x with underTest := false, enable := true, cfgErr := false } ∧
      (∀ k, k ≠ u.toNat → cvuOf t k = cvuOf s k) ∧ t.ctl = s.ctl ∧ t.data = s.data) ∧
    (x.enable = false → v.getLsbD 31 = true → cvuSettingOk (cvuFields v x) = false → ∃ t, exec (.cvuEnableWrite u v) s = .next t ∧
      (cvuOf t u.toNat).enable = false ∧ (cvuOf t u.toNat).cfgErr = true) ∧
    (v.getLsbD 31 = false → ∃ t, exec (.cvuEnableWrite u v) s = .next t ∧ (cvuOf t u.toNat).enable = false ∧ (cvuOf t u.toNat).valid = false ∧
      (cvuOf t u.toNat).overrun = 0 ∧ (cvuOf t u.toNat).winOpen = false ∧ (cvuOf t u.toNat).window = [] ∧
      (x.ended = [] → (cvuOf t u.toNat).result = x.result) ∧ t.ctl = s.ctl ∧ t.data = s.data) := by
  have he := exec_cvuEnableWrite (u := u) v h
  refine ⟨fun hoff hon hset => ?_, fun hoff hon hset => ?_, fun hon => ?_⟩
  · exact ⟨_, he, onCvu_leaves ((cvuCtrl_start hoff hon).trans (if_pos hset))⟩
  · obtain ⟨hx, -⟩ := onCvu_leaves (u := u.toNat) (f := fun x => cvuCtrl v (cvuTouched x)) (s := s)
      ((cvuCtrl_start hoff hon).trans (if_neg (by simp [hset])))
    exact ⟨_, he, by rw [hx]; exact hoff, by rw [hx]⟩
  · obtain ⟨⟨henable, hvalid, hover, hopen, hwindow⟩, hresult⟩ := cvuCtrl_stop (cvuOf s u.toNat) hon
    obtain ⟨hx, -, hctl, hdata⟩ := onCvu_leaves (u := u.toNat) (f := fun x => cvuCtrl v (cvuTouched x)) (s := s) rfl
    exact ⟨_, he, by rw [hx, henable], by rw [hx, hvalid], by rw [hx, hover], by rw [hx, hopen], by rw [hx, hwindow],
      fun hended => by rw [hx, hresult hended], hctl, hdata⟩

end

theorem unitsAreWrittenAndClose : UnitsAreWrittenAndClose := by
  intro s u
  refine ⟨fun v h => ?_, fun h hsoft => ⟨?_, fun bytes hopen => ?_⟩, fun bytes b n rest hrun hon hended => ?_, fun bytes hrun hon hended hfits => ?_,
    exec_cvuUnitTest⟩
  · obtain ⟨hstart, herr, hstop⟩ := enableWrite_acts (u := u) v h
    refine ⟨hstart, herr, hstop, ?_⟩
    rw [exec_cvuResultAckWrite v h]
    refine congrArg _ (onCvu_congr ?_)
    by_cases hseq : v = (cvuOf s u.toNat).seq <;> simp [cvuAck, cvuTouched, hseq]
  · rw [exec_cvuOpenWrite h]
    exact congrArg _ (onCvu_congr (cvuOpen_soft hsoft))
  · obtain ⟨hx, -, hctl, hdata⟩ := onCvu_leaves (u := u.toNat) (s := s)
      (f := fun x => cvuSoftClose (scn s) (softBytes s u.toNat bytes) (cvuTouched x)) (cvuSoftClose_open _ _ hsoft hopen)
    exact ⟨_, exec_cvuCloseWrite bytes h, by rw [hx]; rfl, by rw [hx], by rw [hx]; rfl, by rw [hx]; rfl, hctl, hdata⟩
  · obtain ⟨hx, -, hctl, hdata⟩ := onCvu_leaves (u := u.toNat) (s := s) (f := fun y => { cvuClose n b y with ended := rest }) rfl
    exact ⟨_, exec_cvuWindowClose_ended hrun hon hended, by rw [hx]; rfl, by rw [hx]; rfl, by rw [hx], by rw [hx]; rfl, by rw [hx]; rfl, hctl, hdata⟩
  · obtain ⟨hx, hothers, hctl, hdata⟩ := onCvu_leaves (u := u.toNat) (s := s) (f := cvuClose (scn s) bytes) rfl
    obtain ⟨hresult, hlen, hscn, hseq, hvalid⟩ := cvuDone_shows (scn s) (cvuResult (cvuOf s u.toNat) bytes) (BitVec.ofNat 32 bytes.length) (cvuOf s u.toNat)
    obtain ⟨hacked, hnot⟩ := cvuDone_overrun (scn s) (cvuResult (cvuOf s u.toNat) bytes) (BitVec.ofNat 32 bytes.length) (cvuOf s u.toNat)
    refine ⟨_, exec_cvuWindowClose_given hrun hon hended hfits, ?_⟩
    rw [hx]
    exact ⟨hresult, hlen, hscn, hseq, hvalid, hacked, hnot, hothers, hctl, hdata⟩

/-! ### The CVU commands (R429, R430) -/

section

variable {s : State} {c : CmdHdr}

theorem exec_cvuConfig {q : CvuParam} (h : Accepted (.cvuConfig c q) s) (hq : cvuParamBad q = false) :
    exec (.cvuConfig c q) s = .next (finish c 0x0400 .ok [] [] (onCvu q.unit.toNat (fun x => cvuStart (cvuSetting q (cvuTouched x))) s)) :=
  exec_of_accepted h rfl rfl (by simp [judge, hq]) rfl

/-- A setting of CVU_CONFIG is valid or not whatever the unit held before. -/
theorem cvuStart_setting {q : CvuParam} (hq : cvuParamBad q = false) (x : Cvu) :
    cvuStart (cvuSetting q x) = { cvuSetting q x with enable := true, cfgErr := false } := by
  have hok : cvuSettingOk (cvuSetting q x) = true := by
    have : cvuSettingOk (cvuSetting q x) = cvuSettingOk (cvuSetting q Cvu.zero) := rfl
    rw [this]
    simp only [cvuParamBad, Bool.or_eq_false_iff, Bool.not_eq_eq_eq_not, Bool.not_false] at hq
    exact hq.2
  rw [cvuStart, if_pos hok]

variable {u : Byte}

theorem exec_cvuRead (hu : u.toNat < 16) (h : Accepted (.cvuRead c u) s) : let x := cvuOf s u.toNat
    exec (.cvuRead c u) s = .next (finish c 0x0401 .ok [] (leBytes 8 x.result.toNat ++ le4 x.seq.toNat ++
      le4 (b2n x.valid + 2 * b2n x.winOpen + x.overrun.toNat * 65536)) (onCvu u.toNat cvuTouched s)) :=
  exec_of_accepted h rfl rfl (by simp [judge, unitBad, Nat.le_of_lt_succ hu]) (by
    dsimp only
    rw [cvuOf_onCvu]
    rfl)

theorem exec_cvuReadAck {seq : W32} (hu : u.toNat < 16) (h : Accepted (.cvuReadAck c u seq) s) : exec (.cvuReadAck c u seq) s =
    .next (finish c 0x0402 (if (cvuOf s u.toNat).seq = seq then .ok else .stale) [] [] (onCvu u.toNat (fun x => cvuAck seq (cvuTouched x)) s)) :=
  exec_of_accepted h rfl rfl (by simp [judge, unitBad, Nat.le_of_lt_succ hu]) rfl

/-- CVU_TRIGGER opens or closes a window of a unit under software trigger. -/
theorem exec_cvuTrigger {action : Byte} {bytes : List Byte} (hu : u.toNat < 16) (hsoft : softUnit (cvuOf s u.toNat) = true)
    (ha : action = 1#8 ∨ action = 2#8) (h : Accepted (.cvuTrigger c u action bytes) s) : ∃ r, exec (.cvuTrigger c u action bytes) s =
      .next (finish c 0x0403 .ok r [] (onCvu u.toNat (fun x => if action = 1 then cvuOpen (cvuTouched x)
        else cvuSoftClose (scn s) (softBytes s u.toNat bytes) (cvuTouched x)) s)) := by
  have htrig : (cvuOf s u.toNat).trigger = 3 := by
    simp only [softUnit, Bool.and_eq_true, decide_eq_true_eq] at hsoft
    exact hsoft.2
  refine ⟨_, exec_of_accepted h rfl rfl ?_ rfl⟩
  obtain rfl | rfl := ha <;> simp [judge, unitBad, Nat.le_of_lt_succ hu, htrig]

theorem exec_cvuDisable (hu : u.toNat < 16) (h : Accepted (.cvuDisable c u) s) :
    exec (.cvuDisable c u) s = .next (finish c 0x0404 .ok [] [] (onCvu u.toNat (fun x => cvuStop (cvuTouched x)) s)) :=
  exec_of_accepted h rfl rfl (by simp [judge, unitBad, Nat.le_of_lt_succ hu]) rfl

theorem readAck_acts {seq : W32} (hu : u.toNat < 16) (h : Accepted (.cvuReadAck c u seq) s) : ∃ t, exec (.cvuReadAck c u seq) s = .next t ∧
    ((cvuOf s u.toNat).seq = seq → (cvuOf t u.toNat).valid = false ∧ t.mgt.mbx.finished = (finish c 0x0402 .ok [] [] s).mgt.mbx.finished) ∧
    ((cvuOf s u.toNat).seq ≠ seq → (cvuOf t u.toNat).valid = (cvuOf s u.toNat).valid ∧
      t.mgt.mbx.finished = (finish c 0x0402 .stale [] [] s).mgt.mbx.finished) ∧
    (cvuOf t u.toNat).result = (cvuOf s u.toNat).result ∧ t.ctl = s.ctl ∧ t.data = s.data := by
  refine ⟨_, exec_cvuReadAck hu h, fun hseq => ?_, fun hseq => ?_, ?_, rfl, rfl⟩
  · rw [cvuOf_finish, cvuOf_onCvu, cvuAck, if_pos (show seq = (cvuTouched _).seq from hseq.symm), if_pos hseq]
    exact ⟨rfl, rfl⟩
  · rw [cvuOf_finish, cvuOf_onCvu, cvuAck, if_neg (show ¬ seq = (cvuTouched _).seq from Ne.symm hseq), if_neg hseq]
    exact ⟨rfl, rfl⟩
  · rw [cvuOf_finish, cvuOf_onCvu, cvuAck]
    split <;> rfl

end

theorem cvuCommandsAct : CvuCommandsAct := by
  intro s c
  refine ⟨fun q h hq => ?_, fun u hu => ⟨exec_cvuRead hu, fun seq => readAck_acts hu, fun bytes hsoft => ⟨fun h => ?_, fun h hopen => ?_⟩, exec_cvuDisable hu⟩⟩
  · obtain ⟨hx, hothers, hctl, hdata⟩ := onCvu_leaves (u := q.unit.toNat) (s := s) (f := fun x => cvuStart (cvuSetting q (cvuTouched x)))
      (cvuStart_setting hq _)
    refine ⟨_, exec_cvuConfig h hq, ?_⟩
    simp only [cvuOf_finish]
    rw [hx]
    exact ⟨rfl, rfl, rfl, rfl, hothers, rfl, hctl, hdata⟩
  · obtain ⟨r, he⟩ := exec_cvuTrigger hu hsoft (.inl rfl) h
    refine ⟨_, he, ?_, ?_, rfl, rfl⟩ <;> rw [cvuOf_finish, cvuOf_onCvu, if_pos (by decide), cvuOpen_soft hsoft]
  · obtain ⟨r, he⟩ := exec_cvuTrigger hu hsoft (.inr rfl) h
    refine ⟨_, he, ?_⟩
    rw [cvuOf_finish, cvuOf_onCvu, if_neg (by decide), cvuSoftClose_open _ _ hsoft hopen]
    exact ⟨rfl, rfl, rfl, rfl, rfl, rfl⟩

/-- Settles O59: every write and command is one change of the unit that it names, and the registers after it are those of `cvuCtrl`, `cvuOpen`,
`cvuClose`, `cvuAck` and `cvuStop` of the unit before. -/
theorem checkValueUnitsRun : Obligations.CheckValueUnitsRun := ⟨unitsAreWrittenAndClose, cvuCommandsAct⟩

end Sys2Proof.Proofs.CheckValues
end

section
/-! What the mailbox sends changes the mailbox and the check-value units that listen to it, and nothing else (R399, R405, R406, R449). -/

namespace Sys2Proof.Proofs.Sending

open Sys2Proof Sys2Proof.Machine Sys2Proof.Claims Sys2Proof.Laws

/-- `t` differs from `s` in the mailbox and in the check-value units alone. -/
def Outward (s t : State) : Prop := t = { s with mgt := { s.mgt with mbx := t.mgt.mbx, cvu := t.mgt.cvu } }

theorem Outward.refl (s : State) : Outward s s := rfl

theorem Outward.trans {s t u : State} (h : Outward s t) (h' : Outward t u) : Outward s u := by
  unfold Outward at *
  rw [h', h]

/-! ### What an outward change leaves -/

section
variable {s t : State} (h : Outward s t)
include h

theorem Outward.ctl : t.ctl = s.ctl := by rw [h]
theorem Outward.data : t.data = s.data := by rw [h]
theorem Outward.clk : t.clk = s.clk := by rw [h]
theorem Outward.power : t.power = s.power := by rw [h]
theorem Outward.recorder : t.mgt.recorder = s.mgt.recorder := by rw [h]
theorem Outward.exp : t.mgt.exp = s.mgt.exp := by rw [h]
theorem Outward.store : t.mgt.store = s.mgt.store := by rw [h]
theorem Outward.upd : t.mgt.upd = s.mgt.upd := by rw [h]
theorem Outward.start : t.mgt.start = s.mgt.start := by rw [h]
end

/-! ### The pieces -/

theorem outward_onRing (r : Nat) (f : RingS → RingS) (s : State) : Outward s (onRing r f s) := rfl
theorem outward_raise (code : Nat) (b : List Byte) (s : State) : Outward s (raise code b s) := rfl

theorem outward_snoop (p f : Nat) (first last : Bool) (b : List Byte) (s : State) : Outward s (snoop p f first last b s) := by
  obtain ⟨units, h⟩ := Proofs.Planes.snoop_eq p f first last b s
  rw [h]
  rfl

theorem outward_sendVector (v : Nat) (s : State) : Outward s (sendVector v s) := by
  obtain ⟨f, h⟩ := Proofs.Trips.sendVector_eq v s
  rw [h]
  rfl

theorem outward_alert (i : Nat) (s : State) : Outward s (alert i s) := by
  obtain ⟨f, h⟩ := Proofs.Trips.alert_eq i s
  rw [h]
  rfl

/-- A fold of outward changes is outward. -/
theorem outward_foldl {α : Type} {f : State → α → State} (h : ∀ s a, Outward s (f s a)) (l : List α) (s : State) : Outward s (l.foldl f s) := by
  induction l generalizing s with
  | nil => exact .refl s
  | cons a l ih => exact (h s a).trans (ih (f s a))

/-! ### Entries and streams (R399, R403, R405, R406) -/

theorem outward_ringMessage (key : Nat) (s : State) : Outward s (ringMessage key s) := by
  rw [ringMessage]
  split
  · exact outward_onRing ..
  · exact (outward_onRing ..).trans (outward_sendVector ..)

theorem outward_dsend (n type ring count index : Nat) (b : List Byte) (s : State) : Outward s (dsend n type ring count index b s) := rfl

theorem outward_sendEntry (key n i : Nat) (s : State) : Outward s (sendEntry key n i s) := by
  rw [sendEntry]
  split
  · exact outward_dsend ..
  · exact .refl s

theorem outward_writeEntry (key : Nat) (e : Completion) (s : State) : Outward s (writeEntry key e s) := by
  rw [writeEntry]
  split
  · exact (outward_onRing ..).trans (outward_sendEntry ..)
  · split
    · exact (outward_onRing ..).trans (outward_ringMessage ..)
    · exact outward_onRing ..

theorem outward_pumpOverflow (key : Nat) (s : State) : Outward s (pumpOverflow key s) := by
  rw [pumpOverflow]
  split
  · exact (outward_onRing ..).trans (outward_writeEntry ..)
  · exact .refl s

theorem outward_streamOne (key : Nat) (s : State) : Outward s (streamOne key s) := by
  rw [streamOne]
  split
  · exact .refl s
  split
  · exact .refl s
  split
  · exact .refl s
  split
  · exact outward_onRing ..
  · exact (outward_onRing ..).trans (outward_writeEntry ..)

theorem outward_streamPump (n key : Nat) (s : State) : Outward s (streamPump n key s) := by
  induction n generalizing s with
  | zero => exact .refl s
  | succ n ih => exact (outward_streamOne key s).trans (ih _)

theorem outward_streamsTake (n : Nat) (s : State) : Outward s (streamsTake n s) :=
  outward_foldl (f := fun s (p : Nat × RingS) => streamPump n p.1 s) (fun s p => outward_streamPump n p.1 s) _ s

theorem outward_streamsPump (s : State) : Outward s (streamsPump s) := outward_streamsTake streamBatch s

theorem outward_consume (key i : Nat) (s : State) : Outward s (consume key i s) :=
  ((outward_onRing ..).trans (outward_pumpOverflow ..)).trans (outward_streamsPump _)

end Sys2Proof.Proofs.Sending
end

section
/-! The event recorder (O58, R461 to R473): its rings and intakes, what intake and coalescing do, commit, freezes and the window. -/

namespace Sys2Proof.Proofs.Recorder

open Sys2Proof Sys2Proof.Machine Sys2Proof.Claims Sys2Proof.Laws Sys2Proof.Proofs.Sending

/-! ### A ring and its intake -/

@[simp] theorem recRing_setRecRing (r : RecRing) (x : RecRingS) (m : RecorderState) : recRing (setRecRing r x m) r = x := by cases r <;> rfl
@[simp] theorem recRing_setIntake (r k : RecRing) (x : List Rec) (m : RecorderState) : recRing (setIntake r x m) k = recRing m k := by
  cases r <;> cases k <;> rfl
@[simp] theorem intake_setIntake (r : RecRing) (x : List Rec) (m : RecorderState) : intake (setIntake r x m) r = x := by cases r <;> rfl
@[simp] theorem intake_setRecRing (r k : RecRing) (x : RecRingS) (m : RecorderState) : intake (setRecRing r x m) k = intake m k := by
  cases r <;> cases k <;> rfl
@[simp] theorem setIntake_frozen (r : RecRing) (x : List Rec) (m : RecorderState) : (setIntake r x m).frozen = m.frozen := by cases r <;> rfl
@[simp] theorem setIntake_reports (r : RecRing) (x : List Rec) (m : RecorderState) : (setIntake r x m).reports = m.reports := by cases r <;> rfl
@[simp] theorem setRecRing_frozen (r : RecRing) (x : RecRingS) (m : RecorderState) : (setRecRing r x m).frozen = m.frozen := by cases r <;> rfl
@[simp] theorem setRecRing_reports (r : RecRing) (x : RecRingS) (m : RecorderState) : (setRecRing r x m).reports = m.reports := by cases r <;> rfl

/-! ### Tails that close (R467) -/

@[simp] theorem closeTail_frozen (now : Nat) (ring : RecRing) (m : RecorderState) : (closeTail now ring m).frozen = m.frozen :=
  setIntake_frozen ring _ m
@[simp] theorem closeTail_reports (now : Nat) (ring : RecRing) (m : RecorderState) : (closeTail now ring m).reports = m.reports :=
  setIntake_reports ring _ m
@[simp] theorem recRing_closeTail (now : Nat) (ring k : RecRing) (m : RecorderState) : recRing (closeTail now ring m) k = recRing m k := by
  cases ring <;> cases k <;> rfl
@[simp] theorem intake_closeTail (now : Nat) (ring : RecRing) (m : RecorderState) : intake (closeTail now ring m) ring = closeIn now ring (intake m ring) := by
  cases ring <;> rfl
@[simp] theorem length_closeIn (now : Nat) (ring : RecRing) (rs : List Rec) : (closeIn now ring rs).length = rs.length := List.length_map ..

/-- No tail of the ring is open in a list whose tail has been closed. -/
theorem find_open_closeIn (now : Nat) (ring : RecRing) (rs : List Rec) :
    (closeIn now ring rs).find? (fun r => r.isOpen && decide (r.ev.ring = ring)) = none := by
  refine List.find?_eq_none.2 fun x hx => ?_
  obtain ⟨y, -, rfl⟩ := List.mem_map.1 hx
  split
  · simp
  · next h => simpa using h

theorem openTail_closeTail (now : Nat) (ring : RecRing) (m : RecorderState) : openTail (closeTail now ring m) ring = none := by
  rw [openTail, closeTail_frozen, intake_closeTail]
  split
  · exact find_open_closeIn now ring m.freeze
  · exact find_open_closeIn now ring _

/-! ### Intake (R461, R465, R467) -/

/-- With nothing lost there is no loss to settle. -/
theorem settleLosses_none {m : RecorderState} (s : State) (hl : m.lost = 0) (hv : m.vitalLossCount = 0) : settleLosses s m = m := by
  simp [settleLosses, hl, hv]

/-- RECORD_INTAKE of a report, with nothing lost before it. -/
theorem recordIntake_taken {s : State} {e : Report} {rest : List Report} (hup : mgtUp s = true) (hr : s.mgt.recorder.reports = e :: rest)
    (hl : s.mgt.recorder.lost = 0) (hv : s.mgt.recorder.vitalLossCount = 0) :
    exec .recordIntake s = .next (onRec (fun m => takeIn s e { m with reports := rest }) s) := by
  have hx : exec .recordIntake s = execRecordIntake s := rfl
  rw [hx, execRecordIntake, hr]
  dsimp only
  rw [if_pos hup]
  refine congrArg (fun m => Host.Outcome.next (onRec (fun _ => m) s)) (congrArg (takeIn s e) (settleLosses_none s hl hv))

/-- The tail counts an identical event and stays open short of the last count. -/
theorem merged_open (now : Nat) (e : Report) {r : Rec} (h : r.rept + 1 < 65535) :
    (merged now e r).seq = r.seq ∧ (merged now e r).rept = r.rept + 1 ∧ (merged now e r).ev.detail = e.detail ∧ (merged now e r).isOpen = r.isOpen := by
  have hne : r.rept + 1 ≠ 65535 := by omega
  simp only [merged, if_neg hne, and_self]

/-- The events that are merged into a tail of an intake. -/
def mergeIn (now : Nat) (e : Report) (r : Rec) (rs : List Rec) : List Rec :=
  rs.map (fun x => if x.isOpen ∧ x.seq = r.seq ∧ x.ev.ring = e.ring then merged now e x else x)

/-- An event identical to its ring's open tail is merged there. -/
theorem takeIn_identical {s : State} {e : Report} {m : RecorderState} {r : Rec} (hf : m.frozen = false) (ht : openTail m e.ring = some r)
    (hi : identical s e r = true) : takeIn s e m = setIntake e.ring (mergeIn s.clk.tick e r (intake m e.ring)) m := by
  simp only [takeIn, ht, hi, hf, if_true, Bool.false_eq_true, if_false]
  rfl

/-- Any other opens a record of its own. -/
theorem takeIn_other {s : State} {e : Report} {m : RecorderState} (h : ∀ r, openTail m e.ring = some r → identical s e r = false) :
    takeIn s e m = openNew s e m := by
  rw [takeIn]
  split
  · next r hr => rw [if_neg (by simp [h r hr])]
  · rfl

/-- The record that an event opens. -/
def freshRec (s : State) (e : Report) (m : RecorderState) : Rec := (opened s e m).1

theorem freshRec_fields (s : State) (e : Report) (m : RecorderState) : (freshRec s e m).seq = (recRing m e.ring).next ∧ (freshRec s e m).ev = e ∧
    (freshRec s e m).rept = 1 ∧ (freshRec s e m).isOpen = true := ⟨rfl, rfl, rfl, rfl⟩

@[simp] theorem opened_frozen (s : State) (e : Report) (m : RecorderState) : (opened s e m).2.frozen = m.frozen := setRecRing_frozen ..
@[simp] theorem opened_reports (s : State) (e : Report) (m : RecorderState) : (opened s e m).2.reports = m.reports := setRecRing_reports ..
@[simp] theorem intake_opened (s : State) (e : Report) (m : RecorderState) (k : RecRing) : intake (opened s e m).2 k = intake m k := intake_setRecRing ..
theorem opened_next (s : State) (e : Report) (m : RecorderState) : (recRing (opened s e m).2 e.ring).next = (recRing m e.ring).next + 1 := by
  rw [opened, recRing_setRecRing]

/-- The last record of an intake whose tail closes. -/
theorem getLast_closeIn_append (now : Nat) (e : Report) (rs : List Rec) {r : Rec} (ho : r.isOpen = true) (he : r.ev.ring = e.ring) :
    (closeIn now e.ring (rs ++ [r])).getLast? = some { r with isOpen := false, closedAt := now } := by
  simp [closeIn, ho, he]

/-- A record placed outside a freeze stands last in its ring's intake, open unless there is no coalescing. -/
theorem place_thawed {s : State} {e : Report} {m : RecorderState} (hf : m.frozen = false) : ∃ q, (intake (place s e m) e.ring).getLast? = some q ∧
    q.seq = (recRing m e.ring).next ∧ q.ev = e ∧ q.rept = 1 ∧ q.isOpen = decide (s.mgt.store.coalMs ≠ 0) ∧
    (intake (place s e m) e.ring).length = (intake m e.ring).length + 1 ∧ (recRing (place s e m) e.ring).next = (recRing m e.ring).next + 1 ∧
    (place s e m).reports = m.reports := by
  have hseq : (freshRec s e (closeTail s.clk.tick e.ring m)).seq = (recRing m e.ring).next := by
    rw [(freshRec_fields ..).1, recRing_closeTail]
  have hplace : place s e m = if s.mgt.store.coalMs = 0 then closeTail s.clk.tick e.ring (setIntake e.ring
      (closeIn s.clk.tick e.ring (intake m e.ring) ++ [freshRec s e (closeTail s.clk.tick e.ring m)]) (opened s e (closeTail s.clk.tick e.ring m)).2)
      else setIntake e.ring (closeIn s.clk.tick e.ring (intake m e.ring) ++ [freshRec s e (closeTail s.clk.tick e.ring m)])
        (opened s e (closeTail s.clk.tick e.ring m)).2 := by
    simp only [place, opened_frozen, closeTail_frozen, hf, Bool.false_eq_true, if_false, intake_opened, intake_closeTail]
    rfl
  rw [hplace]
  split
  · next hc =>
    refine ⟨{ freshRec s e (closeTail s.clk.tick e.ring m) with isOpen := false, closedAt := s.clk.tick }, ?_, hseq, rfl, rfl, ?_, ?_, ?_, ?_⟩
    · rw [intake_closeTail, intake_setIntake, getLast_closeIn_append _ e _ rfl rfl]
    · simp [hc]
    · simp
    · rw [recRing_closeTail, recRing_setIntake, opened_next, recRing_closeTail]
    · simp
  · next hc =>
    refine ⟨freshRec s e (closeTail s.clk.tick e.ring m), ?_, hseq, rfl, rfl, ?_, ?_, ?_, ?_⟩
    · simp
    · exact (decide_eq_true hc).symm
    · simp
    · rw [recRing_setIntake, opened_next, recRing_closeTail]
    · simp

/-- Outside a freeze and with an entry free, an event that opens a record is placed. -/
theorem openNew_thawed {s : State} {e : Report} {m : RecorderState} (hf : m.frozen = false) (hv : e.ring = .vital → m.vitalIn.length < 256)
    (hg : e.ring = .general → generalUsed m < 1024) : openNew s e m = place s e m := by
  rw [openNew]
  split
  · next he => simp [hf, hg he]
  · next he => simp [hf, hv he]

theorem generalUsed_reports (m : RecorderState) (rs : List Report) : generalUsed { m with reports := rs } = generalUsed m := rfl

/-- R461, R465, R467. -/
theorem recordsAreTakenInAndCoalesced : RecordsAreTakenInAndCoalesced := by
  intro s e rest m hup hr hl hv hf x
  have hex := recordIntake_taken hup hr hl hv
  refine ⟨fun r ht hi hc => ⟨_, hex, ?_⟩, fun ho hvit hgen => ?_, fun ring r ht ho =>
    ⟨onRec (closeTail s.clk.tick ring) s, ?_, ?_⟩⟩
  · have htake := takeIn_identical (s := s) (e := e) (m := { m with reports := rest }) (r := r) hf ht hi
    obtain ⟨hmem, hopen⟩ : r ∈ intake m e.ring ∧ (r.isOpen = true ∧ r.ev.ring = e.ring) := by
      have h : (intake m e.ring).find? (fun r => r.isOpen && decide (r.ev.ring = e.ring)) = some r := by
        simpa [openTail, hf] using ht
      exact ⟨List.mem_of_find?_eq_some h, by simpa using List.find?_some h⟩
    obtain ⟨hs, hn, hd, hop⟩ := merged_open s.clk.tick e hc
    simp only [onRec_mgt_recorder, onRec_ctl, onRec_data, onRec_mgt_mbx, and_true]
    rw [show takeIn s e { s.mgt.recorder with reports := rest } = _ from htake]
    simp only [setIntake_reports, recRing_setIntake, intake_setIntake, true_and]
    refine ⟨rfl, ?_, merged s.clk.tick e r, List.mem_map.2 ⟨r, hmem, if_pos ⟨hopen.1, rfl, hopen.2⟩⟩, hs, hn, hd, hop.trans hopen.1⟩
    exact List.length_map ..
  · have hgen' : e.ring = .general → generalUsed { m with reports := rest } < 1024 := fun h => (generalUsed_reports m rest).symm ▸ hgen h
    have hnew : openNew s e { m with reports := rest } = place s e { m with reports := rest } := openNew_thawed hf hvit hgen'
    have htake : takeIn s e { m with reports := rest } = place s e { m with reports := rest } :=
      (takeIn_other (m := { m with reports := rest }) ho).trans hnew
    obtain ⟨q, hlast, hseq, hev, hrept, hopen, hlen, hnext, hrep⟩ := place_thawed (s := s) (e := e) (m := { m with reports := rest }) hf
    refine ⟨_, q, hex, ?_⟩
    simp only [onRec_mgt_recorder, onRec_ctl, onRec_data, onRec_mgt_mbx, and_true]
    rw [show takeIn s e { s.mgt.recorder with reports := rest } = _ from htake]
    exact ⟨hrep, hlast, hseq, hev, hrept, hopen, hlen, hnext⟩
  · have hx : exec (.coalesceWindowExpiry ring) s = execCoalesceWindowExpiry ring s := rfl
    rw [hx, execCoalesceWindowExpiry, ht]
    dsimp only
    rw [if_pos (by simp [hup, ho])]
  · refine ⟨openTail_closeTail .., closeTail_reports .., ?_, rfl, rfl, rfl⟩
    rw [onRec_mgt_recorder, intake_closeTail, length_closeIn]

/-! ### Commit (R465, R466, R468) -/

theorem raiseVital_outward (s : State) (r : Rec) : Outward s (raiseVital s r) := by
  rw [raiseVital]
  split
  · exact outward_raise ..
  · exact .refl s

/-- A committed record is shown to the check-value units and raised as an event. -/
theorem shown_outward (s : State) (x : Rec) : Outward s (raiseVital (snoop 25 0 true true (recBytes x false false) s) x) :=
  (outward_snoop ..).trans (raiseVital_outward ..)

/-- What a commit leaves of the records held. -/
def uncommitted (rs : List Rec) (r : RecRing) (held : List Rec) : List Rec :=
  held.filter (fun x => !(decide (x.ev.ring = r) && rs.any (fun y => decide (y.seq = x.seq))))

/-- The recorder after a commit. -/
def recCommitted (rs : List Rec) (r : RecRing) (m : RecorderState) : RecorderState :=
  let m := setRecRing r (rs.foldl commitRec (recRing m r)) m
  { setIntake r (uncommitted rs r (intake m r)) m with freeze := uncommitted rs r m.freeze }

theorem commitAll_outward (rs : List Rec) (r : RecRing) (s : State) : Outward (onRec (recCommitted rs r) s) (commitAll rs r s) := by
  have h := outward_foldl shown_outward rs (onRec (recCommitted rs r) s)
  cases r <;> exact h

/-- Records in slots of their own stand in them once committed. -/
theorem committed_find {rs : List Rec} (hn : (rs.map (fun x => x.seq.toNat % ringSlots)).Nodup) (x₀ : RecRingS) {x : Rec} (hx : x ∈ rs) :
    smFind (rs.foldl commitRec x₀).committed (x.seq.toNat % ringSlots) = some x := by
  induction rs using List.reverseRecOn with
  | nil => cases hx
  | append_singleton rs r ih =>
    rw [List.map_append, List.nodup_append] at hn
    obtain ⟨hn, -, hdis⟩ := hn
    rw [List.foldl_append, List.foldl_cons, List.foldl_nil, commitRec, smFind_smPut]
    rcases List.mem_append.1 hx with h | h
    · rw [if_neg (hdis _ (List.mem_map_of_mem h) _ (by simp))]
      exact ih hn h
    · rw [List.mem_singleton.1 h, if_pos rfl]

/-- A record of the ring that was committed is no longer held. -/
theorem not_mem_uncommitted {rs held : List Rec} {r : RecRing} {x : Rec} (hx : x ∈ rs) (hr : x.ev.ring = r) : x ∉ uncommitted rs r held := by
  intro h
  have := (List.mem_filter.1 h).2
  simp only [hr, decide_true, Bool.true_and, Bool.not_eq_true', List.any_eq_false, decide_eq_true_eq] at this
  exact this x hx rfl

theorem recRing_opened_committed (s : State) (e : Report) (m : RecorderState) (k : RecRing) :
    (recRing (opened s e m).2 k).committed = (recRing m k).committed := by
  rw [opened]
  cases h : e.ring <;> cases k <;> rfl

/-- A record placed changes no committed one. -/
theorem place_committed (s : State) (e : Report) (m : RecorderState) (k : RecRing) :
    (recRing (place s e m) k).committed = (recRing m k).committed := by
  have hop := recRing_opened_committed s e (closeTail s.clk.tick e.ring m) k
  rw [recRing_closeTail] at hop
  have hfr (m' : RecorderState) (l : List Rec) : recRing { m' with freeze := l } k = recRing m' k := by cases k <;> rfl
  rw [place]
  dsimp only
  split <;> split <;> simp only [recRing_closeTail, recRing_setIntake, hfr, hop]

/-- An entry is free for a vital record, and for a general one. -/
def vitalFree (m : RecorderState) : Bool :=
  if m.frozen then decide (m.freeze.length < 4096) else decide (m.vitalIn.length < 256) || decide (generalUsed m < 1024)
def generalFree (m : RecorderState) : Bool :=
  if m.frozen then decide (m.freeze.length + 256 < 4096) else decide (generalUsed m < 1024)

/-- VITAL_LOSS, and the scree of a general loss, where an entry is free. -/
def vitalSettled (s : State) (m : RecorderState) : RecorderState :=
  if m.vitalLossCount ≠ 0 ∧ vitalFree m then
    place s ⟨.vital, 0, 0x0802, 0, upt s, le4 m.vitalLossCount, []⟩ { m with vitalLossCount := 0 }
  else m
def screeSettled (s : State) (m : RecorderState) : RecorderState :=
  if m.lost ≠ 0 ∧ generalFree m then
    place s (kindReport s .general 2 0x0803 (screeData m.lost m.lostFirst m.lostLast m.lostCause))
      { m with lost := 0, lostFirst := 0, lostLast := 0, lostCause := 0 }
  else m

theorem settleLosses_eq (s : State) (m : RecorderState) : settleLosses s m = screeSettled s (vitalSettled s m) := rfl

theorem vitalSettled_committed (s : State) (m : RecorderState) (k : RecRing) : (recRing (vitalSettled s m) k).committed = (recRing m k).committed := by
  rw [vitalSettled]
  split
  · exact (place_committed ..).trans (by cases k <;> rfl)
  · rfl

theorem screeSettled_committed (s : State) (m : RecorderState) (k : RecRing) : (recRing (screeSettled s m) k).committed = (recRing m k).committed := by
  rw [screeSettled]
  split
  · exact (place_committed ..).trans (by cases k <;> rfl)
  · rfl

/-- Losses written change no committed record. -/
theorem settleLosses_committed (s : State) (m : RecorderState) (k : RecRing) : (recRing (settleLosses s m) k).committed = (recRing m k).committed := by
  rw [settleLosses_eq, screeSettled_committed, vitalSettled_committed]

/-- What a page leaves in the recorder. -/
theorem commitPage_recorder (ring : RecRing) (s : State) : ∃ u, (commitPage ring s).mgt.recorder =
    settleLosses u (recCommitted ((committable s.mgt.recorder ring).take 64) ring s.mgt.recorder) :=
  ⟨_, congrArg (settleLosses _) (commitAll_outward _ ring s).recorder⟩

theorem commitPage_keeps (ring : RecRing) (s : State) : (commitPage ring s).ctl = s.ctl ∧ (commitPage ring s).data = s.data ∧
    (commitPage ring s).power = s.power := by
  have h := commitAll_outward ((committable s.mgt.recorder ring).take 64) ring s
  exact ⟨h.ctl, h.data, h.power⟩

theorem recRing_recCommitted (rs : List Rec) (r : RecRing) (m : RecorderState) : recRing (recCommitted rs r m) r = rs.foldl commitRec (recRing m r) := by
  cases r <;> rfl
theorem intake_recCommitted (rs : List Rec) (r : RecRing) (m : RecorderState) : intake (recCommitted rs r m) r = uncommitted rs r (intake m r) := by
  cases r <;> rfl
theorem recCommitted_lost (rs : List Rec) (r : RecRing) (m : RecorderState) : (recCommitted rs r m).lost = m.lost ∧
    (recCommitted rs r m).vitalLossCount = m.vitalLossCount := by
  cases r <;> exact ⟨rfl, rfl⟩

/-- R465, R466, R468. -/
theorem pageCommit_writes {s : State} {ring : RecRing} (hdue : pageDue s ring = true)
    (hn : (((committable s.mgt.recorder ring).take 64).map (fun x => x.seq.toNat % ringSlots)).Nodup)
    (hr : ∀ x ∈ (committable s.mgt.recorder ring).take 64, x.ev.ring = ring) : ∃ t, exec (.pageCommit ring) s = .next t ∧
      (∀ x ∈ (committable s.mgt.recorder ring).take 64, smFind (recRing t.mgt.recorder ring).committed (x.seq.toNat % ringSlots) = some x ∧
        (s.mgt.recorder.lost = 0 → s.mgt.recorder.vitalLossCount = 0 → x ∉ intake t.mgt.recorder ring)) ∧
      t.ctl = s.ctl ∧ t.data = s.data ∧ t.power = s.power := by
  have hout := outward_streamsPump (commitPage ring s)
  obtain ⟨u, hrec⟩ := commitPage_recorder ring s
  obtain ⟨hctl, hdata, hpower⟩ := commitPage_keeps ring s
  refine ⟨_, congrArg Host.Outcome.next (if_pos hdue), ?_, hout.ctl.trans hctl, hout.data.trans hdata, hout.power.trans hpower⟩
  rw [hout.recorder, hrec]
  refine fun x hx => ⟨?_, fun hl hv => ?_⟩
  · rw [settleLosses_committed, recRing_recCommitted]
    exact committed_find hn _ hx
  · obtain ⟨hlost, hvit⟩ := recCommitted_lost ((committable s.mgt.recorder ring).take 64) ring s.mgt.recorder
    rw [settleLosses_none u (hlost.trans hl) (hvit.trans hv), intake_recCommitted]
    exact not_mem_uncommitted hx (hr x hx)

/-! ### Freezes (R472) -/

theorem startFreeze_thawed {s : State} (h : s.mgt.recorder.frozen = false) : (startFreeze s).mgt.recorder.frozen = true ∧
    (startFreeze s).mgt.recorder.frozenUntil = s.clk.tick + 25000000 * s.mgt.store.freezeS ∧ (startFreeze s).mgt.recorder.vitalIn = [] ∧
    (startFreeze s).mgt.recorder.generalIn = [] ∧ (startFreeze s).mgt.recorder.reports = s.mgt.recorder.reports ∧
    (startFreeze s).ctl = s.ctl ∧ (startFreeze s).data = s.data := by
  rw [startFreeze, if_neg (by simp [h])]
  exact ⟨rfl, rfl, rfl, rfl, rfl, rfl, rfl⟩

/-- R465, R466, R468, R472. -/
theorem pagesAreCommittedAndFreezesEnd : PagesAreCommittedAndFreezesEnd := by
  refine fun s => ⟨fun ring hdue hn hr => pageCommit_writes hdue hn hr, fun hup hf => ⟨fun ht => ?_, fun hb => ?_, fun hb => ?_⟩,
    fun hup hb hf => ⟨⟨startFreeze s, ?_, startFreeze_thawed hf⟩, ?_⟩⟩
  · exact congrArg Host.Outcome.next (if_pos (by simp [hup, hf, ht]))
  · exact congrArg Host.Outcome.next (if_pos (by simp [hup, hf, hb]))
  · have hx : exec .logFreezeBit s = execLogFreezeBit s := rfl
    rw [hx, execLogFreezeBit, if_pos (by simp [hup, hb]), startFreeze, if_pos hf]
  · exact congrArg Host.Outcome.next (if_pos (by simp [hup, hb]))
  · exact congrArg Host.Outcome.next (if_neg (by simp [hf]))

/-! ### The window (R473) -/

/-- What a write of LOG_CTRL does before FREEZE and UNFREEZE act. -/
def windowNamed (v : W32) (s : State) : State :=
  onRec (fun m => { m with winRing := (if v.getLsbD 28 then RecRing.general else RecRing.vital), winReady := false, window := none,
                           autoInc := v.getLsbD 27, vitalLost := m.vitalLost && !v.getLsbD 24 }) s

/-- What neither the begin nor the end of a freeze changes. -/
structure SameWindow (s t : State) : Prop where
  winRing : t.mgt.recorder.winRing = s.mgt.recorder.winRing
  autoInc : t.mgt.recorder.autoInc = s.mgt.recorder.autoInc
  winReady : t.mgt.recorder.winReady = s.mgt.recorder.winReady
  cursor : t.mgt.recorder.cursor = s.mgt.recorder.cursor
  vitalLost : t.mgt.recorder.vitalLost = s.mgt.recorder.vitalLost
  ctl : t.ctl = s.ctl
  data : t.data = s.data

theorem startFreeze_sameWindow (s : State) : SameWindow s (startFreeze s) := by
  rw [startFreeze]
  split <;> exact ⟨rfl, rfl, rfl, rfl, rfl, rfl, rfl⟩

theorem endFreeze_sameWindow (now : Nat) (s : State) : SameWindow s (onRec (endFreeze now) s) := ⟨rfl, rfl, rfl, rfl, rfl, rfl, rfl⟩

/-- FREEZE and UNFREEZE of a write of LOG_CTRL. -/
def freezeBits (v : W32) (s : State) : State :=
  if v.getLsbD 31 == v.getLsbD 30 || !mgtUp s then s
  else if v.getLsbD 31 then startFreeze s
  else if s.mgt.recorder.frozen then onRec (endFreeze s.clk.tick) s else s

theorem logControl_eq (v : W32) (s : State) : logControl v s = freezeBits v (windowNamed v s) := rfl

theorem freezeBits_sameWindow (v : W32) (s : State) : SameWindow s (freezeBits v s) := by
  rw [freezeBits]
  split
  · exact ⟨rfl, rfl, rfl, rfl, rfl, rfl, rfl⟩
  split
  · exact startFreeze_sameWindow s
  split
  · exact endFreeze_sameWindow s.clk.tick s
  · exact ⟨rfl, rfl, rfl, rfl, rfl, rfl, rfl⟩

/-- R473. -/
theorem theWindowFollowsItsCursor : TheWindowFollowsItsCursor := by
  refine fun s => ⟨fun v hb => ⟨?_, logControl v s, ?_, ?_⟩, fun hup hw => ⟨_, congrArg Host.Outcome.next (if_pos (by simp [hup, hw])), rfl, ?_⟩,
    fun hb ha hw => congrArg Host.Outcome.next (if_pos (by simp [hb, ha, hw]))⟩
  · have hx : exec (.logCursorWrite false v) s = execLogCursorWrite false v s := rfl
    rw [hx, execLogCursorWrite, if_neg (by simp [hb])]
    rfl
  · have hx : exec (.logCursorWrite true v) s = execLogCursorWrite true v s := rfl
    rw [hx, execLogCursorWrite, if_neg (by simp [hb])]
    rfl
  · have h : SameWindow (windowNamed v s) (logControl v s) := freezeBits_sameWindow v (windowNamed v s)
    refine ⟨h.winRing, h.autoInc, h.winReady, h.cursor, fun hv => ?_, h.ctl, h.data⟩
    rw [h.vitalLost]
    simp [windowNamed, hv]
  · refine ⟨fun r hd f hc hfind => ?_, fun hc => ?_, rfl, rfl, rfl, rfl⟩
    · simp only [onRec_mgt_recorder, hc, hfind, if_true, Option.map_some]
    · simp only [onRec_mgt_recorder, hc, Bool.false_eq_true, if_false]

/-- Settles O58: intake, commit and the window each by what they do to the recorder. -/
theorem recorderTakesAndCommits : Obligations.RecorderTakesAndCommits :=
  ⟨recordsAreTakenInAndCoalesced, pagesAreCommittedAndFreezesEnd, theWindowFollowsItsCursor⟩

end Sys2Proof.Proofs.Recorder
end

section
/-! The LOG commands (O48, R428, R472 to R475): an accepted command that no row of its own refuses is its act. -/

namespace Sys2Proof.Proofs.LogCommands

open Sys2Proof Sys2Proof.Machine Sys2Proof.Claims Sys2Proof.Laws Sys2Proof.Proofs.Updates Sys2Proof.Proofs.Recorder

section

variable {s : State} {c : CmdHdr}

theorem ringArgBad_of_lt {r : Byte} (h : r.toNat < 2) : ringArgBad r = false :=
  decide_eq_false (by omega)

theorem exec_logRead {r : Byte} {from_ : W32} {n : BitVec 16} (h : Accepted (.logRead c r from_ n) s) (hr : r.toNat < 2) (hlow : 1 ≤ n.toNat)
    (hhigh : n.toNat ≤ 16384) (hnand : nandBusy s 0x0300 = false) :
    let start := readStart s (ringArg r) from_
    let rs := recordsFrom s (ringArg r) n.toNat start
    exec (.logRead c r from_ n) s = .next (finish c 0x0300 (if start = from_ then .ok else .stale)
      (le4 (start.toNat + rs.length) ++ le2 rs.length ++ le2 0 ++ le4 (wraps (recRing s.mgt.recorder (ringArg r)))) rs.flatten s) :=
  exec_of_accepted h rfl rfl (by simp [judge, ringArgBad_of_lt hr, hlow.not_gt, hhigh.not_gt, hnand]) rfl

theorem exec_logFreeze (h : Accepted (.logFreeze c) s) (hf : s.mgt.recorder.frozen = false) :
    exec (.logFreeze c) s = .next (finish c 0x0301 .ok (le4 s.mgt.store.freezeS) [] (startFreeze s)) :=
  exec_of_accepted h rfl rfl (by simp [judge, hf]) rfl

theorem startFreeze_mbx (s : State) : (startFreeze s).mgt.mbx = s.mgt.mbx := by
  rw [startFreeze]
  split <;> rfl

theorem exec_logUnfreeze (h : Accepted (.logUnfreeze c) s) (hf : s.mgt.recorder.frozen = true) : exec (.logUnfreeze c) s =
    .next (finish c 0x0302 .ok (le4 s.mgt.recorder.freeze.length) [] (onRec (endFreeze s.clk.tick) s)) :=
  exec_of_accepted h rfl rfl (by simp [judge, hf]) rfl

/-- LOG_CLEAR needs S1, and S6 as well for the vital ring. -/
theorem exec_logClear {r : Byte} (h : Accepted (.logClear c r) s) (hf : s.mgt.recorder.frozen = false) (hr : r.toNat < 2)
    (h1 : switchOn s 1 = true) (h6 : r = 0 → switchOn s 6 = true) (hnand : nandBusy s 0x0303 = false) :
    exec (.logClear c r) s = .next (finish c 0x0303 .ok (le4 (recRing s.mgt.recorder (ringArg r)).count) [] (clearRing r s)) := by
  have hseal : (!switchOn s 1 || (decide (r = 0) && !switchOn s 6)) = false := by
    simpa [h1] using h6
  exact exec_of_accepted h rfl rfl (by simp only [judge, List.find?, hf, ringArgBad_of_lt hr, hseal, hnand, Option.map_none]) rfl

theorem exec_logStream {sr r : Byte} {from_ : W32} (h : Accepted (.logStream c sr r from_) s) (hnone : (ringOf s sr.toNat).stream = none)
    (hr : r.toNat < 2) (h0 : sr ≠ 0) (ht : (ringOf s sr.toNat).rtype = 4) (he : (ringOf s sr.toNat).entrySize = 64)
    (hs : (ringOf s sr.toNat).session = c.session) :
    let start := readStart s (ringArg r) from_
    exec (.logStream c sr r from_) s = .next (streamsPump (onRing sr.toNat (fun x => { x with stream := some (r.toNat, start.toNat) })
      (finish c 0x0304 .ok (le4 start.toNat) [] s))) := by
  have h0' : ¬sr = 0#8 := h0
  exact exec_of_accepted h rfl rfl (by simp [judge, ringArgBad_of_lt hr, hnone, h0', ht, he, hs]) rfl

theorem exec_logHealth {l : Byte} {x : Lane} (h : Accepted (.logHealth c l) s) (hl : laneArg s l = some x) :
    exec (.logHealth c l) s = .next (finish c 0x0305 .ok [] (healthBytes s x) s) :=
  exec_of_accepted h rfl rfl (by simp [judge, hl]) (by rw [hl])

theorem exec_logCycles {first n : BitVec 16} (h : Accepted (.logCycles c first n) s) (hlow : 1 ≤ n.toNat)
    (hhigh : first.toNat + n.toNat ≤ 4096) : exec (.logCycles c first n) s = .next (finish c 0x0306 .ok (le4 s.mgt.cycles.persistedOph)
      ((List.range n.toNat).flatMap (fun i => le4 (smGet 0#32 s.mgt.cycles.counts (first.toNat + i)).toNat)) s) :=
  exec_of_accepted h rfl rfl (by simp [judge, hlow.not_gt, hhigh.not_gt]) rfl

theorem exec_logBelay {r : BelayReport} (h : Accepted (.logBelay c) s) (hr : s.mgt.bist.belayReport = some r) :
    exec (.logBelay c) s = .next (finish c 0x0307 .ok [] (belayBytes r) s) :=
  exec_of_accepted h rfl rfl (by simp [judge, hr]) (by rw [hr])

end


/-- Settles O48, command by command. -/
theorem logCommandsAct : Obligations.LogCommandsAct := by
  refine fun s c => ⟨fun r from_ n h => exec_logRead h, fun h hf => ⟨_, exec_logFreeze h hf, ?_⟩, exec_logUnfreeze, fun r h => exec_logClear h,
    fun sr r from_ h => exec_logStream h, fun l x h => exec_logHealth h, fun first n h => exec_logCycles h, fun r h => exec_logBelay h⟩
  obtain ⟨hfrozen, huntil, hvital, hgeneral, -, hctl, hdata⟩ := startFreeze_thawed hf
  refine ⟨hfrozen, huntil, hvital, hgeneral, ?_, hctl, hdata⟩
  exact congrArg (fun m : MbxState => m.finished ++ [_]) (startFreeze_mbx s)

end Sys2Proof.Proofs.LogCommands
end

section
/-! The station-data store over the mailbox: the CFG commands (R426), and the TIM commands (R427) that return the time bases (O47). -/

namespace Sys2Proof.Proofs.Configuration

open Sys2Proof Sys2Proof.Machine Sys2Proof.Claims Sys2Proof.Laws Sys2Proof.Proofs.Updates

/-! ### Blocks as stored -/

/-- A block that the store keeps: one of the four with a format, the trust anchor or a key. -/
def Kept : CfgBlock → Prop
  | .formatted blk => 1 ≤ blk ∧ blk ≤ 4
  | _ => True

theorem kept_of_cfgBlock {b : Byte} {k : CfgBlock} (h : cfgBlock b = some k) : Kept k := by
  rw [cfgBlock] at h
  split at h <;> cases h <;> simp [Kept, vioBlk, netBlk]

theorem kept_of_lnkBlock {b : Byte} {k : CfgBlock} (h : lnkBlock b = some k) : Kept k := by
  rw [lnkBlock] at h
  split at h <;> cases h <;> simp [Kept, linkBlk, schedBlk]

theorem smGet_storedBlocks_putBlocks (m : SMap (List Byte)) (s : State) {blk : Nat} (h : 1 ≤ blk ∧ blk ≤ 4) :
    smGet [] (storedBlocks (putBlocks m s)) blk = smGet [] m blk := by
  obtain rfl | rfl | rfl | rfl : blk = 1 ∨ blk = 2 ∨ blk = 3 ∨ blk = 4 := by omega
  all_goals rfl

theorem cfgStored_cfgStore {k : CfgBlock} (b : List Byte) (s : State) (h : Kept k) : cfgStored (cfgStore k b s) k = b := by
  cases k with
  | formatted blk => exact (smGet_storedBlocks_putBlocks _ s h).trans ((Proofs.Votes.smGet_smPut ..).trans (if_pos rfl))
  | anchor => rfl
  | key i => exact (Proofs.Votes.smGet_smPut ..).trans (if_pos rfl)

theorem cfgStored_cfgStore_ne {k j : CfgBlock} (b : List Byte) (s : State) (h : Kept j) (hne : j ≠ k) : cfgStored (cfgStore k b s) j = cfgStored s j := by
  cases k with
  | formatted blk =>
    cases j with
    | formatted a =>
      have ha : a ≠ blk := fun e => hne (congrArg _ e)
      exact (smGet_storedBlocks_putBlocks _ s h).trans ((Proofs.Votes.smGet_smPut ..).trans (if_neg ha))
    | anchor => rfl
    | key i => rfl
  | anchor =>
    cases j with
    | formatted a => rfl
    | anchor => exact absurd rfl hne
    | key n => rfl
  | key i =>
    cases j with
    | formatted a => rfl
    | anchor => rfl
    | key n =>
      have hn : n ≠ i := fun e => hne (congrArg _ e)
      exact (Proofs.Votes.smGet_smPut ..).trans (if_neg hn)

/-- A stored block is a matter of MGT: the control and data planes, the recorder and what waits in the mailbox stay. -/
theorem cfgStore_keeps (k : CfgBlock) (b : List Byte) (s : State) : (cfgStore k b s).ctl = s.ctl ∧ (cfgStore k b s).data = s.data ∧
    (cfgStore k b s).mgt.recorder = s.mgt.recorder ∧ (cfgStore k b s).mgt.mbx.finished = s.mgt.mbx.finished := by
  cases k <;> exact ⟨rfl, rfl, rfl, rfl⟩

theorem finished_congr {s t : State} (c : CmdHdr) (op : Nat) (st : Status) (result data : List Byte) (h : t.mgt.mbx.finished = s.mgt.mbx.finished) :
    (finish c op st result data t).mgt.mbx.finished = (finish c op st result data s).mgt.mbx.finished :=
  congrArg (· ++ [_]) h

theorem finish_recorder (c : CmdHdr) (op : Nat) (st : Status) (result data : List Byte) (s : State) :
    (finish c op st result data s).mgt.recorder = s.mgt.recorder := rfl

/-- The record of a block is one more report. -/
theorem blockRecord_eq (code : Nat) (s : State) : ∃ e, blockRecord code s =
    onRec (fun m => { m with reports := m.reports ++ [e] }) { s with free := s.free + 2 } := ⟨_, rfl⟩

theorem blockRecord_keeps (code : Nat) (s : State) : (blockRecord code s).ctl = s.ctl ∧ (blockRecord code s).data = s.data ∧
    (blockRecord code s).mgt.store = s.mgt.store ∧ (blockRecord code s).mgt.mbx.finished = s.mgt.mbx.finished ∧
    (blockRecord code s).mgt.recorder.reports.length = s.mgt.recorder.reports.length + 1 := by
  obtain ⟨e, he⟩ := blockRecord_eq code s
  rw [he]
  exact ⟨rfl, rfl, rfl, rfl, List.length_append⟩

theorem cfgStored_blockRecord (code : Nat) (s : State) (k : CfgBlock) : cfgStored (blockRecord code s) k = cfgStored s k := by
  cases k <;> rfl

/-! ### The CFG commands (R426) -/

section

variable {s : State} {c : CmdHdr}

/-- A block whose checks pass is stored as the firmware migrates it, and a record says so. -/
theorem exec_cfgWrite {block : Byte} {data : List Byte} {k : CfgBlock} (h : Accepted (.cfgWrite c block data) s) (hk : cfgBlock block = some k)
    (hlen : 2 ≤ data.length) (hver : cfgVersion s k data = false) (hbad : cfgBad s k data = false)
    (hseal : cfgSealed k = true → switchOn s 1 = true) (hnand : nandBusy s 0x0100 = false) : exec (.cfgWrite c block data) s =
    .next (finish c 0x0100 .ok [] [] (blockRecord block.toNat (cfgStore k (cfgNew s k data) s))) := by
  have hs : (cfgSealed k && !switchOn s 1) = false := by simpa using hseal
  exact exec_of_accepted h rfl rfl (by rw [hk]; simp [judge, hlen.not_gt, hver, hbad, hs, hnand]) (by rw [hk])

theorem exec_cfgRead {block : Byte} {k : CfgBlock} (h : Accepted (.cfgRead c block) s) (hk : cfgBlock block = some k)
    (hne : (cfgStored s k).isEmpty = false) (hnand : nandBusy s 0x0101 = false) : exec (.cfgRead c block) s =
    .next (finish c 0x0101 .ok (le4 (cfgStored s k).length ++ fmtRange s k) ((cfgStored s k).take c.dataLen) s) :=
  exec_of_accepted h rfl rfl (by rw [hk]; simp only [readRows, judge, List.find?, hne, hnand, Option.map_none]) (by rw [hk]; rfl)

theorem exec_cfgSet {id : Byte} {v : W32} (h : Accepted (.cfgSet c id v) s) (hid : paramKnown id = true) (hv : paramOk id.toNat v.toNat = true)
    (hnand : nandBusy s 0x0102 = false) : exec (.cfgSet c id v) s = .next (finish c 0x0102 .ok (le4 (param s id.toNat)) []
      (configRecord id.toNat 2 (param s id.toNat) v.toNat (setParam id.toNat v.toNat s))) :=
  exec_of_accepted h rfl rfl (by simp [judge, hid, hv, hnand]) rfl

theorem exec_cfgGet {id : Byte} (h : Accepted (.cfgGet c id) s) (hid : paramKnown id = true) (hnand : nandBusy s 0x0103 = false) :
    exec (.cfgGet c id) s = .next (finish c 0x0103 .ok (le4 (param s id.toNat)) [] s) :=
  exec_of_accepted h rfl rfl (by simp [judge, hid, hnand]) rfl

theorem exec_cfgKeyRemove {i : Byte} (h : Accepted (.cfgKeyRemove c i) s) (hi : i.toNat < 4)
    (hsign : (inService s && !s.mgt.store.image.isEmpty && decide (signingKey s = i.toNat)) = false) (h1 : switchOn s 1 = true)
    (hnand : nandBusy s 0x0104 = false) : exec (.cfgKeyRemove c i) s = .next (finish c 0x0104 .ok [] []
      (blockRecord (0x10 + i.toNat) (onStore (fun x => { x with keys := smDrop x.keys i.toNat }) s))) := by
  have hrange : ¬3 < i.toNat := by omega
  exact exec_of_accepted h rfl rfl (by simp only [judge, List.find?, hrange, hsign, h1, hnand, decide_false, Bool.not_true, Option.map_none]) rfl

end

/-! ### Parameters -/

theorem paramKnown_cases {id : Byte} (h : paramKnown id = true) : id.toNat = 1 ∨ id.toNat = 2 ∨ id.toNat = 3 ∨ id.toNat = 4 := by
  simp only [paramKnown, Bool.and_eq_true, decide_eq_true_eq] at h
  omega

/-- A parameter set reads as its value, and no other parameter, output or part of the data plane changes. -/
structure ParamSet (id v : Nat) (s t : State) : Prop where
  value : param t id = v
  others : ∀ j, j ≠ id → 1 ≤ j → j ≤ 4 → param t j = param s j
  finished : t.mgt.mbx.finished = s.mgt.mbx.finished
  data : t.data = s.data
  vio : t.ctl.vio = s.ctl.vio

/-- A parameter reads as set, and every other as before. -/
theorem param_setParam {id j : Nat} (v : Nat) (s : State) (h : id = 1 ∨ id = 2 ∨ id = 3 ∨ id = 4) (hj : j = 1 ∨ j = 2 ∨ j = 3 ∨ j = 4) :
    param (setParam id v s) j = if j = id then v else param s j := by
  obtain rfl | rfl | rfl | rfl := h <;> obtain rfl | rfl | rfl | rfl := hj <;> rfl

theorem setParam_sets {id : Nat} (v : Nat) (s : State) (h : id = 1 ∨ id = 2 ∨ id = 3 ∨ id = 4) : ParamSet id v s (setParam id v s) := by
  refine ⟨(param_setParam v s h h).trans (if_pos rfl), fun j hne hlow hhigh => ?_, ?_, ?_, ?_⟩
  · exact (param_setParam v s h (by omega)).trans (if_neg hne)
  all_goals obtain rfl | rfl | rfl | rfl := h <;> rfl

/-- R426. -/
theorem cfgCommandsAct : CfgCommandsAct := by
  refine fun s c => ⟨fun block data k h hk hlen hver hbad hseal hnand => ⟨_, exec_cfgWrite h hk hlen hver hbad hseal hnand, ?_⟩,
    fun block k h => exec_cfgRead h, fun id v h hid hv hnand => ⟨_, exec_cfgSet h hid hv hnand, ?_⟩, fun id h => exec_cfgGet h,
    fun i h hi hsign h1 hnand => ⟨_, exec_cfgKeyRemove h hi hsign h1 hnand, ?_⟩⟩
  · obtain ⟨hctl, hdata, hrec, hfin⟩ := cfgStore_keeps k (cfgNew s k data) s
    obtain ⟨hctl', hdata', -, hfin', hlen'⟩ := blockRecord_keeps block.toNat (cfgStore k (cfgNew s k data) s)
    refine ⟨?_, fun b2 j hj hne => ?_, ?_, finished_congr c _ _ _ _ (hfin'.trans hfin), hctl'.trans hctl, hdata'.trans hdata⟩
    · exact (cfgStored_blockRecord ..).trans (cfgStored_cfgStore _ s (kept_of_cfgBlock hk))
    · exact (cfgStored_blockRecord ..).trans (cfgStored_cfgStore_ne _ s (kept_of_cfgBlock hj) hne)
    · rw [finish_recorder, hlen', hrec]
  · have hset := setParam_sets v.toNat s (paramKnown_cases hid)
    exact ⟨hset.value, hset.others, finished_congr c _ _ _ _ hset.finished, hset.data, hset.vio⟩
  · obtain ⟨hctl, hdata, hstore, hfin, hlen⟩ := blockRecord_keeps (0x10 + i.toNat) (onStore (fun x => { x with keys := smDrop x.keys i.toNat }) s)
    exact ⟨congrArg StoreState.keys hstore, hlen, finished_congr c _ _ _ _ hfin, hctl, hdata⟩

/-! ### The TIM commands (R427) -/

/-- R427. -/
theorem timCommandsAct : TimCommandsAct := fun _ _ =>
  ⟨fun h => exec_of_accepted h rfl rfl rfl rfl,
    fun m h hm => exec_of_accepted h rfl rfl (by simp [judge, hm]) (by rw [hm]),
    fun h hd => exec_of_accepted h rfl rfl (by simp [judge, hd]) rfl⟩

/-- Settles O47. -/
theorem cfgAndTimCommandsAct : Obligations.CfgAndTimCommandsAct := ⟨cfgCommandsAct, timCommandsAct⟩

end Sys2Proof.Proofs.Configuration
end

section
/-! The LNK commands (O55, R440, R326, R334, R346, R355). -/

namespace Sys2Proof.Proofs.LinkCommands

open Sys2Proof Sys2Proof.Machine Sys2Proof.Claims Sys2Proof.Laws Sys2Proof.Proofs.Updates Sys2Proof.Proofs.Configuration

/-! ### The unlock of a port (R346) -/

/-- A port that changes state changes nothing that the station-data store keeps. -/
theorem store_setPortMode (ch : Chan) (p : Nat) (m : PortMode) (s : State) : (setPortMode ch p m s).mgt.store = s.mgt.store := by
  rw [setPortMode]
  split
  · rfl
  split <;> rfl

/-- The port leaves the lock list, with a record of it. -/
def unlisted (ch : Chan) (p : Nat) (s : State) : State :=
  lockRecord ch p false (itemStored locksItem (onStore (fun x => { x with lockList := x.lockList.filter (fun k => decide (k ≠ portKey ch p)) }) s))

theorem unlockPort_locked {s : State} {ch : Chan} {p : Nat} (h : (port s ch p).mode = .locked) :
    unlockPort ch p s = setPortMode ch p (if (port s ch p).linkUp then .integrating else .linkDown) (unlisted ch p s) := by
  rw [unlockPort, if_pos h]
  rfl

theorem unlockPort_unlocked {s : State} {ch : Chan} {p : Nat} (h : (port s ch p).mode ≠ .locked) : unlockPort ch p s = s := if_neg h

theorem unlisted_lockList (ch : Chan) (p : Nat) (s : State) : (unlisted ch p s).mgt.store.lockList.contains (portKey ch p) = false := by
  show (s.mgt.store.lockList.filter (fun k => decide (k ≠ portKey ch p))).contains (portKey ch p) = false
  simp

/-- A locked port is locked no more, and no longer listed. -/
theorem unlockPort_unlocks {s : State} {ch : Chan} {p : Nat} (h : (port s ch p).mode = .locked) :
    (port (unlockPort ch p s) ch p).mode ≠ .locked ∧ (unlockPort ch p s).mgt.store.lockList.contains (portKey ch p) = false := by
  rw [unlockPort_locked h, store_setPortMode]
  refine ⟨?_, unlisted_lockList ch p s⟩
  have hport : (port (unlisted ch p s) ch p).mode = .locked := h
  split
  · rw [Proofs.PortStates.port_setPortMode (by rw [hport]; decide), Proofs.PortStates.enterState_mode]
    decide
  · rw [Proofs.PortStates.port_setPortMode (by rw [hport]; decide), Proofs.PortStates.enterState_mode]
    decide

/-! ### The commands (R440) -/

section

variable {s : State} {c : CmdHdr}

theorem exec_lnkCfgWrite {block : Byte} {data : List Byte} {k : CfgBlock} (h : Accepted (.lnkCfgWrite c block data) s) (hk : lnkBlock block = some k)
    (hlen : 2 ≤ data.length) (hver : cfgVersion s k data = false) (hbad : cfgBad s k data = false) (hnand : nandBusy s 0x0B00 = false) :
    exec (.lnkCfgWrite c block data) s = .next (finish c 0x0B00 .ok [] [] (cfgStore k (cfgNew s k data) s)) :=
  exec_of_accepted h rfl rfl (by rw [hk]; simp [judge, hlen.not_gt, hver, hbad, hnand]) (by rw [hk])

theorem exec_lnkCfgRead {block : Byte} {k : CfgBlock} (h : Accepted (.lnkCfgRead c block) s) (hk : lnkBlock block = some k)
    (hne : (cfgStored s k).isEmpty = false) (hnand : nandBusy s 0x0B01 = false) : exec (.lnkCfgRead c block) s =
    .next (finish c 0x0B01 .ok (le4 (cfgStored s k).length ++ fmtRange s k) ((cfgStored s k).take c.dataLen) s) :=
  exec_of_accepted h rfl rfl (by rw [hk]; simp only [readRows, judge, List.find?, hne, hnand, Option.map_none]) (by rw [hk]; rfl)

theorem exec_lnkSchedChange {t : Byte} (h : Accepted (.lnkSchedChange c t) s) (hr : judge (schedRows s t.toNat) = none) :
    exec (.lnkSchedChange c t) s = .next (onSched (fun x => { x with change := some ⟨refOf c 0x0B02, t.toNat, none, none⟩ }) (clearAcks s)) :=
  exec_of_accepted h rfl rfl hr rfl

theorem exec_lnkPortPower {ch p on : Byte} {k : Chan} (h : Accepted (.lnkPortPower c ch p on) s) (hk : chanArg ch = some k)
    (hp : portArgBad s ch p = false) (hon : on.toNat ≤ 1) : exec (.lnkPortPower c ch p on) s =
      .next (finish c 0x0B03 .ok [] [] (portPower k p.toNat (decide (on ≠ 0)) (linkRecord 0x0B03 k p.toNat s))) :=
  exec_of_accepted h rfl rfl (by simp [judge, hp, hon.not_gt]) (by rw [hk])

theorem exec_lnkPortUnlock {ch p : Byte} {k : Chan} (h : Accepted (.lnkPortUnlock c ch p) s) (hk : chanArg ch = some k)
    (hp : portArgBad s ch p = false) : exec (.lnkPortUnlock c ch p) s =
      .next (let t := unlockPort k p.toNat (linkRecord 0x0B04 k p.toNat s)
        finish c 0x0B04 .ok (byte (portCode (port t k p.toNat).mode)) [] t) :=
  exec_of_accepted h rfl rfl (by simp [judge, hp]) (by rw [hk])

theorem exec_lnkPortStatus {ch first n : Byte} {k : Chan} (h : Accepted (.lnkPortStatus c ch first n) s) (hk : chanArg ch = some k)
    (hlow : 1 ≤ n.toNat) (hhigh : first.toNat + n.toNat ≤ 64) : exec (.lnkPortStatus c ch first n) s = .next (finish c 0x0B05 .ok []
      ((List.range n.toNat).flatMap (fun i => leBytes 8 (portWord s k (first.toNat + i)))) s) :=
  exec_of_accepted h rfl rfl (by simp [judge, hk, hlow.not_gt, hhigh.not_gt]) (by rw [hk])

theorem exec_lnkChannelPower {ch on : Byte} {k : Chan} (h : Accepted (.lnkChannelPower c ch on) s) (hk : chanArg ch = some k)
    (hon : on.toNat ≤ 1) (hother : on = 0 → domRun s (starDom k.other) = true) : exec (.lnkChannelPower c ch on) s =
      .next (finish c 0x0B06 .ok [] [] (channelPower k (decide (on ≠ 0)) (linkRecord 0x0B06 k 0 s))) := by
  have hdenied : (decide (on = 0) && !domRun s (starDom k.other)) = false := by simpa using hother
  exact exec_of_accepted h rfl rfl (by rw [hk]; simp only [judge, List.find?, hdenied, hon.not_gt, decide_false, Option.isNone_some, Bool.or_self, Option.map_none])
    (by rw [hk])

theorem exec_lnkCpSub {sub en v : Byte} {off div : W32} (h : Accepted (.lnkCpSub c sub en v off div) s) (hbad : cpSubBad s sub en v off div = false)
    (hs : c.session = none) : exec (.lnkCpSub c sub en v off div) s = .next (finish c 0x0B07 .ok [] [] (onSched (fun x => { x with
      cpSubs := if en = 0 then smDrop x.cpSubs sub.toNat else smPut x.cpSubs sub.toNat (off.toNat, v.toNat, div.toNat),
      cpSent := smDrop x.cpSent sub.toNat }) s)) :=
  exec_of_accepted h rfl rfl (by simp [judge, hbad, hs]) rfl

end

/-- A subscription that a command sets stands as set, one that it ends is gone. -/
theorem cpSubs_find (m : SMap (Nat × Nat × Nat)) (k : Nat) (x : Nat × Nat × Nat) (off : Prop) [Decidable off] :
    smFind (if off then smDrop m k else smPut m k x) k = if off then none else some x := by
  split
  · rw [smFind_smDrop, if_pos rfl]
  · rw [smFind_smPut, if_pos rfl]

/-- Settles O55, command by command. -/
theorem lnkCommandsAct : Obligations.LnkCommandsAct := by
  refine fun s c => ⟨fun block data k h hk hlen hver hbad hnand => ⟨_, exec_lnkCfgWrite h hk hlen hver hbad hnand, ?_⟩, fun block k h => exec_lnkCfgRead h,
    fun t h => exec_lnkSchedChange h, fun ch p k hk hp => ⟨fun on hon h => exec_lnkPortPower h hk hp hon,
      fun h hl => ⟨_, exec_lnkPortUnlock h hk hp, unlockPort_unlocks (s := linkRecord 0x0B04 k p.toNat s) hl⟩, fun h hl => ?_⟩,
    fun ch k first n hk hlow hhigh h => exec_lnkPortStatus h hk hlow hhigh, fun ch on k hk hon hother h => exec_lnkChannelPower h hk hon hother,
    fun sub en v off div hbad hs h => ⟨_, exec_lnkCpSub h hbad hs, cpSubs_find .., (smFind_smDrop ..).trans (if_pos rfl), rfl, rfl⟩⟩
  · obtain ⟨hctl, hdata, -, hfin⟩ := cfgStore_keeps k (cfgNew s k data) s
    exact ⟨cfgStored_cfgStore _ s (kept_of_lnkBlock hk), finished_congr c _ _ _ _ hfin, hctl, hdata⟩
  · have hun : unlockPort k p.toNat (linkRecord 0x0B04 k p.toNat s) = linkRecord 0x0B04 k p.toNat s := unlockPort_unlocked hl
    rw [exec_lnkPortUnlock h hk hp, hun]
    rfl

end Sys2Proof.Proofs.LinkCommands
end

section
/-! The REQ and EXP commands (O54, R435 to R444). -/

namespace Sys2Proof.Proofs.RequestsAndExports

open Sys2Proof Sys2Proof.Machine Sys2Proof.Claims Sys2Proof.Laws Sys2Proof.Proofs.Updates

/-! ### Requests (R435 to R439) -/

section

variable {s : State} {c : CmdHdr}

/-- The rows of R436 refuse nothing where the module runs and every target stands apart. -/
theorem reqRows_pass {ts : List ReqTarget} (hbiv : s.mgt.start.bivouac = false) (htrip : s.ctl.trip.inForce = false)
    (hok : ts.all (reqTargetOk s) = true) (hover : reqOverlap ts = false) : reqRows s ts = [(false, .notReady), (false, .badArg)] := by
  rw [reqRows, hbiv, htrip, hok, hover]
  rfl

theorem reqRows_one {t : ReqTarget} (hbiv : s.mgt.start.bivouac = false) (htrip : s.ctl.trip.inForce = false) (hok : reqTargetOk s t = true) :
    reqRows s [t] = [(false, .notReady), (false, .badArg)] :=
  reqRows_pass hbiv htrip (by simp [hok]) rfl

variable (hbiv : s.mgt.start.bivouac = false) (htrip : s.ctl.trip.inForce = false)
include hbiv htrip

theorem exec_reqWrite {a : W32} {n flags : Byte} {v : BitVec 16} (h : Accepted (.reqWrite c a n flags v) s)
    (hok : reqTargetOk s ⟨a.toNat, n.toNat, v.toNat⟩ = true) : exec (.reqWrite c a n flags v) s =
      .next (reqFinish c 0x0800 (flags.getLsbD 0) (pulsesEnd [⟨a.toNat, n.toNat, v.toNat⟩] (reqPut [⟨a.toNat, n.toNat, v.toNat⟩] s))) :=
  exec_of_accepted h rfl rfl (by rw [reqRows_one hbiv htrip hok]; rfl) rfl

theorem exec_reqPulse {a : W32} {n flags hold : Byte} {v : BitVec 16} (h : Accepted (.reqPulse c a n flags v hold) s) (hhold : hold ≠ 0)
    (hok : reqTargetOk s ⟨a.toNat, n.toNat, v.toNat⟩ = true) : exec (.reqPulse c a n flags v hold) s = .next (reqFinish c 0x0801 (flags.getLsbD 0)
      (pulseStart ⟨a.toNat, n.toNat, v.toNat⟩ hold.toNat (reqPut [⟨a.toNat, n.toNat, v.toNat⟩] s))) :=
  exec_of_accepted h rfl rfl (by rw [reqRows_one hbiv htrip hok, decide_eq_false hhold]; rfl) rfl

theorem exec_reqWriteMulti {flags : Byte} {es : List (W32 × Byte × BitVec 16)} (h : Accepted (.reqWriteMulti c flags es) s)
    (hlow : 1 ≤ es.length) (hhigh : es.length ≤ 512)
    (hok : (es.map (fun e => (⟨e.1.toNat, e.2.1.toNat, e.2.2.toNat⟩ : ReqTarget))).all (reqTargetOk s) = true)
    (hover : reqOverlap (es.map (fun e => (⟨e.1.toNat, e.2.1.toNat, e.2.2.toNat⟩ : ReqTarget))) = false) :
    let ts := es.map (fun e => (⟨e.1.toNat, e.2.1.toNat, e.2.2.toNat⟩ : ReqTarget))
    exec (.reqWriteMulti c flags es) s = .next (reqFinish c 0x0802 (flags.getLsbD 0) (pulsesEnd ts (reqPut ts s))) :=
  exec_of_accepted h rfl rfl (by rw [reqRows_pass hbiv htrip hok hover, decide_eq_false hlow.not_gt, decide_eq_false hhigh.not_gt]; rfl) rfl

theorem exec_reqRead {a n : W32} (h : Accepted (.reqRead c a n) s) (ha : a.toNat % 8 = 0) (hn : n.toNat % 8 = 0) (hlen : n.toNat ≤ 32768)
    (harea : reqInArea a.toNat n.toNat = true) : exec (.reqRead c a n) s = .next (finish c 0x0803 .ok (le4 (lastSnapshot s).toNat)
      ((List.range (n.toNat / 8)).map (fun i => BitVec.ofNat 8 (admRead 8 (a.toNat + 8 * i) s.ctl.adm.staging))) s) :=
  exec_of_accepted h rfl rfl (by simp [judge, hbiv, htrip, ha, hn, hlen.not_gt, harea]) rfl

end

/-- R435 to R439. -/
theorem reqCommandsAct : ReqCommandsAct := fun _ _ _ hbiv htrip =>
  ⟨fun _ _ _ hok => ⟨fun h => exec_reqWrite hbiv htrip h hok, fun _ hhold h => exec_reqPulse hbiv htrip h hhold hok⟩,
    fun _ h hlow hhigh hok hover => exec_reqWriteMulti hbiv htrip h hlow hhigh hok hover,
    fun _ _ h ha hn hlen harea => exec_reqRead hbiv htrip h ha hn hlen harea⟩

/-! ### Exports (R441 to R444) -/

section

variable {s : State} {c : CmdHdr}

theorem exec_expSubscribe {q : SubParam} {k : Nat} (h : Accepted (.expSubscribe c q) s) (hbad : subscribeBad s q = false)
    (hk : freeSub s q.sub.toNat = some k) : exec (.expSubscribe c q) s = .next (finish c 0x0900 .ok
      (byte k ++ leBytes 3 0 ++ byte (expParts q.ranges).length) [] (onExp (fun e => { e with
        subs := smPut e.subs k ⟨q.dstIp, q.dstUdp.toNat, q.netPort.toNat, q.ranges, q.divide.toNat, (expParts q.ranges).length, 0, 0, none⟩ }) s)) :=
  exec_of_accepted h rfl rfl (by simp [judge, hbad, hk]) (by rw [hk])

theorem exec_expUnsubscribe {sub : Byte} {x : ExpSub} (h : Accepted (.expUnsubscribe c sub) s) (hx : smFind s.mgt.exp.subs sub.toNat = some x) :
    exec (.expUnsubscribe c sub) s = .next (finish c 0x0901 .ok (le4 x.sent) [] (onExp (fun e => { e with subs := smDrop e.subs sub.toNat }) s)) :=
  exec_of_accepted h rfl rfl (by simp [judge, hx]) (by rw [hx])

theorem exec_expList (h : Accepted (.expList c) s) : exec (.expList c) s = .next (finish c 0x0902 .ok (byte s.mgt.exp.subs.length)
    (padTo 1024 (s.mgt.exp.subs.flatMap (fun p => subEntry p.1 p.2))) s) :=
  exec_of_accepted h rfl rfl rfl rfl

theorem exec_expRead {q : Snapshot} {off len : W32} (h : Accepted (.expRead c off len) s) (hq : currentSnapshot s = some q)
    (hlen : off.toNat + len.toNat ≤ 0x80000) :
    exec (.expRead c off len) s = .next (finish c 0x0903 .ok (le4 q.scn.toNat) (snapBytes q off.toNat len.toNat) s) :=
  exec_of_accepted h rfl rfl (by rw [hq, decide_eq_false hlen.not_gt]; rfl) (by rw [hq])

end

/-- R441 to R444. -/
theorem expCommandsAct : ExpCommandsAct := fun _ _ =>
  ⟨fun _ _ => exec_expSubscribe, fun _ _ hx h => exec_expUnsubscribe h hx, exec_expList, fun _ _ _ => exec_expRead⟩

/-- Settles O54. -/
theorem reqAndExpCommandsAct : Obligations.ReqAndExpCommandsAct := ⟨reqCommandsAct, expCommandsAct⟩

end Sys2Proof.Proofs.RequestsAndExports
end

section
/-! Resets (R43, R44, R479, R500): what the loss of a domain spares, what a start that fails leaves, and what an asserted source holds. -/

namespace Sys2Proof.Proofs.Resets

open Sys2Proof Sys2Proof.Machine Sys2Proof.Claims Sys2Proof.Laws

/-! ### What the loss of a domain spares (R44) -/

/-- Every output is without drive. -/
def Undriven (s : State) : Prop := ∀ p ∈ s.ctl.vio.vout, VoutDead p.2

/-- The debugger waits for nothing. -/
def DebugIdle (s : State) : Prop := s.ctl.dbg.pieces = [] ∧ s.ctl.dbg.haltCmd = none

/-- The marks of a start that outlast MGT's boot: of the store, the shutdown, the watchdog, bivouac and SERVICE. -/
def startMarks (x : StartState) : (Bool × Bool × Bool) × Bool × Bool := ((x.storeCharged, x.shutdownPending, x.wdBoot), x.bivouac, x.service)

/-- What no domain carries away: RET, power, REFCLK's ticks, the marks of the start, the shutdown BIST and the hold-up store. -/
def kernel (s : State) : Variant × RetState × PowerState × Nat × ((Bool × Bool × Bool) × Bool × Bool) × Bool × Bool :=
  (s.variant, s.ret, s.power, s.clk.tick, startMarks s.mgt.start, s.mgt.bist.running, s.mgt.elec.storeWeak)

/-- `t` follows `s` where a domain was lost: the kernel stands, and nothing begins to drive or to wait. -/
structure Spared (s t : State) : Prop where
  kernel : kernel t = kernel s
  undriven : Undriven s → Undriven t
  debugIdle : DebugIdle s → DebugIdle t

theorem Spared.refl (s : State) : Spared s s := ⟨rfl, id, id⟩

theorem Spared.trans {s t u : State} (h : Spared s t) (h' : Spared t u) : Spared s u :=
  ⟨h'.kernel.trans h.kernel, h'.undriven ∘ h.undriven, h'.debugIdle ∘ h.debugIdle⟩

theorem spared_foldl {α : Type} {f : State → α → State} (h : ∀ s a, Spared s (f s a)) (l : List α) (s : State) : Spared s (l.foldl f s) := by
  induction l generalizing s with
  | nil => exact .refl s
  | cons a l ih => exact (h s a).trans (ih (f s a))

section
variable {s t : State} (h : Spared s t)
include h

theorem Spared.variant : t.variant = s.variant := congrArg (·.1) h.kernel
theorem Spared.ret : t.ret = s.ret := congrArg (·.2.1) h.kernel
theorem Spared.power : t.power = s.power := congrArg (·.2.2.1) h.kernel
theorem Spared.tick : t.clk.tick = s.clk.tick := congrArg (·.2.2.2.1) h.kernel
theorem Spared.marks : startMarks t.mgt.start = startMarks s.mgt.start := congrArg (·.2.2.2.2.1) h.kernel
theorem Spared.running : t.mgt.bist.running = s.mgt.bist.running := congrArg (·.2.2.2.2.2.1) h.kernel
theorem Spared.storeWeak : t.mgt.elec.storeWeak = s.mgt.elec.storeWeak := congrArg (·.2.2.2.2.2.2) h.kernel
theorem Spared.dom (d : Nat) : dom t d = dom s d := by rw [Machine.dom, Machine.dom, h.variant, h.power]
end

/-! ### The run that ends with PD5 -/

theorem spared_abortRef (c : Option CmdRef) (s : State) : Spared s (abortRef c s) := by
  cases c <;> exact ⟨rfl, id, id⟩

theorem spared_olcRecord (kind status w : Nat) (crc : W32) (s : State) : Spared s (olcRecord kind status w crc s) := by
  rw [olcRecord]
  split <;> exact ⟨rfl, id, id⟩

theorem spared_onOlc (f : OlcState → OlcState) (s : State) : Spared s (onOlc f s) := ⟨rfl, id, id⟩

theorem spared_olcOvertaken (s : State) : Spared s (olcOvertaken s) := by
  have aborted := ((spared_abortRef s.ctl.olc.swapCmd s).trans (spared_abortRef s.ctl.olc.cancelCmd _)).trans (spared_abortRef s.ctl.olc.loadCmd _)
  have cleared := aborted.trans (spared_onOlc (fun o => { o with loadCmd := none, cancelCmd := none, swapCmd := none }) _)
  unfold olcOvertaken
  dsimp only
  split
  · exact cleared.trans (spared_onOlc _ _)
  split
  · exact (cleared.trans (spared_olcRecord _ _ _ _ _)).trans (spared_onOlc _ _)
  · exact cleared.trans (spared_onOlc _ _)

theorem spared_forcesOvertaken (s : State) : Spared s (forcesOvertaken s) := by
  have aborted := spared_foldl (f := fun s (q : ForceReq) => finishRef q.cmd .aborted 0 [] [] s) (fun _ _ => ⟨rfl, id, id⟩) s.ctl.force.pending s
  exact aborted.trans ⟨rfl, id, id⟩

theorem spared_schedOvertaken (s : State) : Spared s (schedOvertaken s) := by
  unfold schedOvertaken
  split
  · exact .refl s
  · exact ⟨rfl, id, id⟩

theorem spared_rotationEnds (l : Lane) (st : Status) (s : State) : Spared s (rotationEnds l st s) := ⟨rfl, id, id⟩

theorem spared_rotationsAbandoned (s : State) : Spared s (rotationsAbandoned s) := by
  have ended (ls : List Lane) (t : State) := spared_foldl (f := fun s l => rotationEnds l .aborted s) (fun s l => spared_rotationEnds l .aborted s) ls t
  have cleared (t : State) : Spared t (onRot (fun r => { r with queue := [], requested := none }) t) := ⟨rfl, id, id⟩
  unfold rotationsAbandoned
  dsimp only
  split
  · exact ((spared_rotationEnds _ .aborted s).trans (ended _ _)).trans (cleared _)
  · exact (ended _ s).trans (cleared _)

theorem spared_debugEnds (s : State) : Spared s (debugEnds s) := by
  have aborted := spared_foldl (f := fun s (p : DebugPiece) => abortRef p.last s) (fun s p => spared_abortRef p.last s) s.ctl.dbg.pieces
    (abortRef s.ctl.dbg.haltCmd s)
  have cleared (t : State) : Spared t (onDbg (fun d => { DebugState.zero with lastScn := d.lastScn }) t) := ⟨rfl, id, fun _ => ⟨rfl, rfl⟩⟩
  exact ((spared_abortRef s.ctl.dbg.haltCmd s).trans aborted).trans (cleared _)

/-- What the voter, the seals and the stars lose with the run. -/
def runCleared (s : State) : State :=
  let s := onAdm (fun a => { a with snapshot := [], taken := false, discard := false, laneOk := Quad.all true, cut := none }) s
  let s := onSeal (fun q => { q with poles := Halves.all [], sampled := Halves.all none, diffSince := [], judged := false }) s
  let s := onStar .a (fun x => { x with named := false }) (onStar .b (fun x => { x with named := false }) s)
  onVoter voterFresh s

theorem ctlDown_eq (s : State) : ctlDown s =
    runCleared (rotationsAbandoned (debugEnds (bookDiversity (schedOvertaken (forcesOvertaken (olcOvertaken s)))))) := rfl

theorem spared_runCleared (s : State) : Spared s (runCleared s) := ⟨rfl, id, id⟩

theorem spared_ctlDown (s : State) : Spared s (ctlDown s) := by
  have booked (t : State) : Spared t (bookDiversity t) := ⟨rfl, id, id⟩
  have h := ((((spared_olcOvertaken s).trans (spared_forcesOvertaken _)).trans (spared_schedOvertaken _)).trans (booked _)).trans
    ((spared_debugEnds _).trans (spared_rotationsAbandoned _))
  rw [ctlDown_eq]
  exact h.trans (spared_runCleared _)

/-! ### A lane that leaves RUN -/

theorem spared_setVote (l : Lane) (x : LaneVote) (s : State) : Spared s (setVote l x s) := by
  rw [setVote]
  split <;> exact ⟨rfl, id, id⟩

theorem spared_resyncFail (k : Seat) (l : Lane) (code : Nat) (n : Scn) (s : State) : Spared s (resyncFail k l code n s) := by
  have vacant (t : State) : Spared t (setVote l .vacated (onSeat k (fun x => { x with mode := .vacant, openFor := none, openScans := 0, verifying := false }) t)) :=
    Spared.trans (t := onSeat k _ t) ⟨rfl, id, id⟩ (spared_setVote ..)
  unfold resyncFail
  dsimp only
  split
  all_goals
    refine Spared.trans ?_ (vacant _)
    exact ⟨rfl, id, id⟩

theorem spared_belayState (state : Nat) (causes : BitVec 16) (s : State) : Spared s (belayState state causes s) := by
  unfold belayState
  split <;> exact ⟨rfl, id, id⟩

/-- What a join that ends leaves of the seat and the lane that it had prepared. -/
def joinDropped (j : Join) (s : State) : State :=
  let s := onVoter (fun v => { v with join := none }) s
  let s := match j.why with
    | .rotation => onRot (fun r => { r with queue := homeLane j.seat :: r.queue, active := none }) s
    | _ => s
  let s := onSeat j.seat (fun x => if x.mode = .handover then { x with mode := .held } else x) s
  onCore j.lane (fun c => { c with phase := .stopped }) s

theorem spared_joinDropped (j : Join) (s : State) : Spared s (joinDropped j s) := by
  unfold joinDropped
  dsimp only
  split <;> exact ⟨rfl, id, id⟩

theorem spared_abandonJoin (causes : BitVec 16) (s : State) : Spared s (abandonJoin causes s) := by
  have changed (k : Seat) (kind : Nat) (out inn : Option Lane) (a b : BitVec 16) (t : State) : Spared t (seatChange k kind out inn a b t) := ⟨rfl, id, id⟩
  unfold abandonJoin
  split
  · exact .refl s
  · next j _ =>
    refine Spared.trans ?_ (spared_joinDropped j _)
    split
    · exact (changed ..).trans (spared_belayState ..)
    all_goals
      split
      · exact changed ..
      · exact .refl s

theorem spared_laneLeaves (l : Lane) (s : State) : Spared s (laneLeaves l s) := by
  have captured : Spared s (captureSourceLost l s) := by
    unfold captureSourceLost
    split
    · split
      · exact ⟨rfl, id, id⟩
      · exact .refl s
    · exact .refl s
  have failed (ks : List Seat) (t : State) := spared_foldl (f := fun s k =>
    if ((voter s).seats.get k).mode = .opened ∧ ((voter s).seats.get k).openFor = some l then resyncFail k l 5 (scn s) s else s)
    (fun s k => by
      split
      · exact spared_resyncFail ..
      · exact .refl s) ks t
  have lost (t : State) : Spared t (joinLost l t) := by
    unfold joinLost
    split
    · split
      · exact spared_abandonJoin ..
      · exact .refl t
    · exact .refl t
  exact ((captured.trans (failed _ _)).trans (lost _)).trans ⟨rfl, id, id⟩

/-! ### Any domain -/

theorem spared_mgtDown (s : State) : Spared s (mgtDown s) := by
  refine ⟨?_, ?_, fun _ => ⟨rfl, rfl⟩⟩
  · simp [kernel, startMarks, mgtDown, onStaging]
  · simp [Undriven, mgtDown, onStaging]

/-- VIO comes back with every output without drive. -/
theorem spared_vioFresh (now : Nat) (s : State) : Spared s (onVio (vioFresh now) s) := by
  refine ⟨rfl, fun _ p hp => ?_, id⟩
  have hp' : p ∈ smMap VoutState.zero (fun o => { VoutState.zero with failed := o.failed, retest := o.failed.isSome }) s.ctl.vio.vout := hp
  obtain ⟨v, hv⟩ := smMap_mem hp'
  rw [hv]
  exact ⟨rfl, rfl, rfl, rfl⟩

theorem spared_domainLost (d : Nat) (s : State) : Spared s (domainLost d s) := by
  have follower : Spared s (followerLost d s) := ⟨rfl, id, id⟩
  refine follower.trans ?_
  unfold domainLost
  dsimp only
  split
  case h_1 => exact spared_mgtDown _
  case h_5 => exact spared_ctlDown _
  case h_7 | h_8 | h_9 | h_10 => exact spared_laneLeaves ..
  case h_11 => exact spared_vioFresh ..
  all_goals exact ⟨rfl, id, id⟩

/-! ### A domain held (R43, R479) -/

theorem holdDomain_run {s : State} {d : Nat} (h : dom s d = .run) : holdDomain d s = setDom d .held (domainLost d s) := by
  rw [holdDomain, h]

theorem holdDomain_still {s : State} {d : Nat} (h : dom s d ≠ .run) : holdDomain d s = s := by
  rw [holdDomain]
  split
  · next h' => exact absurd h' h
  · rfl

theorem dom_holdDomain_ne {d e : Nat} (s : State) (h : e ≠ d) : dom (holdDomain d s) e = dom s e := by
  by_cases hr : dom s d = .run
  · rw [holdDomain_run hr, dom_setDom_ne _ _ h, (spared_domainLost d s).dom]
  · rw [holdDomain_still hr]

theorem domRun_iff {s : State} {d : Nat} : domRun s d = true ↔ dom s d = .run := beq_iff_eq

theorem dom_holdDomain_self (d : Nat) (s : State) : dom (holdDomain d s) d ≠ .run := by
  by_cases hr : dom s d = .run
  · rw [holdDomain_run hr]
    by_cases ha : domAbsent (domainLost d s).variant d = true
    · have ha' : domAbsent (setDom d .held (domainLost d s)).variant d = true := ha
      rw [dom, if_pos ha']
      decide
    · rw [dom_setDom _ _ _ (Bool.eq_false_of_not_eq_true ha)]
      decide
  · rwa [holdDomain_still hr]

/-! ### What a reset leaves (R43, R479, R500) -/

/-- What no reset touches: the pin and its latches, the power supply's, REFCLK's ticks, and MGT's marks of the shutdown and of the store. -/
def standing (s : State) : Variant × Nat × (Bool × Nat × Bool) × PowerState × (Bool × Bool × Bool) × Bool × Bool :=
  (s.variant, s.clk.tick, (s.ret.resetnLevel, s.ret.levelSince, s.ret.stuckReset),
    { s.power with domains := [], sources := [], assertedAt := [], fullReset := false },
    (startMarks s.mgt.start).1, s.mgt.bist.running, s.mgt.elec.storeWeak)

/-- `t` follows `s` by resets: what no reset touches stands, no domain begins to run, no source but CTRL_RESET is released, bivouac does not end
and SERVICE does not begin, and nothing begins to drive or to wait. -/
structure Restrained (s t : State) : Prop where
  standing : standing t = standing s
  run : ∀ d, domRun t d = true → domRun s d = true
  sources : ∀ q ∈ s.power.sources, q ≠ .ctrlReset → q ∈ t.power.sources
  bivouac : s.mgt.start.bivouac = true → t.mgt.start.bivouac = true
  service : s.mgt.start.service = false → t.mgt.start.service = false
  undriven : Undriven s → Undriven t
  debugIdle : DebugIdle s → DebugIdle t

theorem Restrained.refl (s : State) : Restrained s s := ⟨rfl, fun _ => id, fun _ h _ => h, id, id, id, id⟩

theorem Restrained.trans {s t u : State} (h : Restrained s t) (h' : Restrained t u) : Restrained s u :=
  ⟨h'.standing.trans h.standing, fun d => h.run d ∘ h'.run d, fun q hq hne => h'.sources q (h.sources q hq hne) hne, h'.bivouac ∘ h.bivouac,
    h'.service ∘ h.service, h'.undriven ∘ h.undriven, h'.debugIdle ∘ h.debugIdle⟩

section
variable {s t : State} (h : Restrained s t)
include h

theorem Restrained.variant : t.variant = s.variant := congrArg (·.1) h.standing
theorem Restrained.tick : t.clk.tick = s.clk.tick := congrArg (·.2.1) h.standing
theorem Restrained.resetnLevel : t.ret.resetnLevel = s.ret.resetnLevel := congrArg (·.2.2.1.1) h.standing
theorem Restrained.levelSince : t.ret.levelSince = s.ret.levelSince := congrArg (·.2.2.1.2.1) h.standing
theorem Restrained.lastRelease : t.power.lastRelease = s.power.lastRelease := congrArg (·.2.2.2.1.lastRelease) h.standing
theorem Restrained.bootCfg : t.power.bootCfg = s.power.bootCfg := congrArg (·.2.2.2.1.bootCfg) h.standing
theorem Restrained.sysResetAt : t.power.sysResetAt = s.power.sysResetAt := congrArg (·.2.2.2.1.sysResetAt) h.standing
theorem Restrained.storeCharged : t.mgt.start.storeCharged = s.mgt.start.storeCharged := congrArg (·.2.2.2.2.1.1) h.standing
theorem Restrained.shutdownPending : t.mgt.start.shutdownPending = s.mgt.start.shutdownPending := congrArg (·.2.2.2.2.1.2.1) h.standing
theorem Restrained.wdBoot : t.mgt.start.wdBoot = s.mgt.start.wdBoot := congrArg (·.2.2.2.2.1.2.2) h.standing
theorem Restrained.running : t.mgt.bist.running = s.mgt.bist.running := congrArg (·.2.2.2.2.2.1) h.standing
theorem Restrained.storeWeak : t.mgt.elec.storeWeak = s.mgt.elec.storeWeak := congrArg (·.2.2.2.2.2.2) h.standing
end

/-- What a domain's loss spares no reset touches. -/
theorem Spared.restrained {s t : State} (h : Spared s t) : Restrained s t := by
  refine ⟨?_, fun d hd => ?_, fun q hq _ => h.power ▸ hq, fun hb => ?_, fun hb => ?_, h.undriven, h.debugIdle⟩
  · simp only [Resets.standing, h.variant, h.tick, h.ret, h.power, h.running, h.storeWeak, h.marks]
  · rwa [domRun, ← h.dom d]
  · exact (congrArg (·.2.1) h.marks).trans hb
  · exact (congrArg (·.2.2) h.marks).trans hb

theorem restrained_holdDomain (d : Nat) (s : State) : Restrained s (holdDomain d s) := by
  by_cases hr : dom s d = .run
  · rw [holdDomain_run hr]
    refine (spared_domainLost d s).restrained.trans ⟨rfl, fun e he => ?_, fun _ h _ => h, id, id, id, id⟩
    by_cases hde : e = d
    · subst hde
      have := dom_holdDomain_self e s
      rw [holdDomain_run hr] at this
      exact absurd (domRun_iff.1 he) this
    · rwa [domRun, ← dom_setDom_ne _ _ hde]
  · rw [holdDomain_still hr]
    exact .refl s

/-- A domain is held; PD0 is never. -/
def holdReached (d : Nat) (s : State) : State := if d = 0 then s else holdDomain d s

theorem restrained_holdReached (d : Nat) (s : State) : Restrained s (holdReached d s) := by
  rw [holdReached]
  split
  · exact .refl s
  · exact restrained_holdDomain d s

/-- The domains of a list are held. -/
def holdAll (ds : List Nat) (s : State) : State := ds.foldl (fun s d => holdReached d s) s

theorem restrained_holdAll (ds : List Nat) (s : State) : Restrained s (holdAll ds s) := by
  induction ds generalizing s with
  | nil => exact .refl s
  | cons d ds ih => exact (restrained_holdReached d s).trans (ih _)

theorem holdAll_holds {ds : List Nat} {d : Nat} (hd : d ∈ ds) (h0 : d ≠ 0) (s : State) : domRun (holdAll ds s) d = false := by
  refine Bool.eq_false_of_not_eq_true fun hrun => ?_
  induction ds generalizing s with
  | nil => cases hd
  | cons e ds ih =>
    rcases List.mem_cons.1 hd with rfl | h
    · have hd : domRun (holdReached d s) d = true := (restrained_holdAll ds _).run d hrun
      rw [holdReached, if_neg h0] at hd
      exact dom_holdDomain_self d s (domRun_iff.1 hd)
    · exact ih h _ hrun

theorem dom_holdAll_ne {ds : List Nat} {d : Nat} (hd : d ∉ ds) (s : State) : dom (holdAll ds s) d = dom s d := by
  induction ds generalizing s with
  | nil => rfl
  | cons e ds ih =>
    obtain ⟨he, hds⟩ := List.ne_and_not_mem_of_not_mem_cons hd
    refine (ih hds (holdReached e s)).trans ?_
    rw [holdReached]
    split
    · rfl
    · exact dom_holdDomain_ne s he

/-! ### A source asserted (R479) -/

/-- The source stands among the sources, with its instant. -/
def sourceNoted (r : ResetSrc) (s : State) : State :=
  if s.power.sources.contains r then s
  else onPower (fun p => { p with sources := p.sources ++ [r], assertedAt := p.assertedAt ++ [(r, s.clk.tick)] }) s

/-- Where a reset reaches PD1 and PD5 the cycle count restarts. -/
def restarted (r : ResetSrc) (s : State) : State := if (reach r).contains 1 && (reach r).contains 5 then countRestart s else s

theorem rawAssert_eq (r : ResetSrc) (s : State) : rawAssert r s = restarted r (holdAll (reach r) (singleBegins r (sourceNoted r s))) := rfl

theorem restrained_sourceNoted (r : ResetSrc) (s : State) : Restrained s (sourceNoted r s) := by
  rw [sourceNoted]
  split
  · exact .refl s
  · exact ⟨rfl, fun _ => id, fun _ hq _ => List.mem_append_left _ hq, id, id, id, id⟩

theorem mem_sourceNoted (r : ResetSrc) (s : State) : r ∈ (sourceNoted r s).power.sources := by
  rw [sourceNoted]
  split
  · next h => exact List.contains_iff_mem.1 h
  · exact List.mem_append_right _ (List.mem_singleton.2 rfl)

theorem restrained_singleChannel (c : Chan) (entry : Bool) (s : State) : Restrained s (singleChannel c entry s) ∧
    (singleChannel c entry s).power = s.power := by
  rw [singleChannel]
  split
  · exact ⟨⟨rfl, fun _ => id, fun _ h _ => h, id, id, id, id⟩, rfl⟩
  · exact ⟨.refl s, rfl⟩

theorem restrained_singleBegins (r : ResetSrc) (s : State) : Restrained s (singleBegins r s) ∧ (singleBegins r s).power = s.power := by
  unfold singleBegins
  cases r with
  | starReset c =>
    dsimp only
    split
    · exact restrained_singleChannel ..
    · exact ⟨.refl s, rfl⟩
  | _ => exact ⟨.refl s, rfl⟩

theorem restrained_restarted (r : ResetSrc) (s : State) : Restrained s (restarted r s) ∧ (∀ d, dom (restarted r s) d = dom s d) ∧
    (restarted r s).power.sources = s.power.sources := by
  rw [restarted]
  split
  · exact ⟨⟨rfl, fun _ => id, fun _ h _ => h, id, id, id, id⟩, fun _ => rfl, rfl⟩
  · exact ⟨.refl s, fun _ => rfl, rfl⟩

theorem restrained_rawAssert (r : ResetSrc) (s : State) : Restrained s (rawAssert r s) :=
  (((restrained_sourceNoted r s).trans (restrained_singleBegins r _).1).trans (restrained_holdAll _ _)).trans (restrained_restarted r _).1

/-- Every domain that the source reaches is held, but PD0. -/
theorem rawAssert_holds {r : ResetSrc} {d : Nat} (hd : d ∈ reach r) (h0 : d ≠ 0) (s : State) : domRun (rawAssert r s) d = false := by
  rw [domRun, rawAssert_eq, (restrained_restarted r _).2.1 d]
  exact holdAll_holds hd h0 _

theorem dom_rawAssert_ne {r : ResetSrc} {d : Nat} (hd : d ∉ reach r) (s : State) : dom (rawAssert r s) d = dom s d := by
  rw [rawAssert_eq, (restrained_restarted r _).2.1 d, dom_holdAll_ne hd]
  have hv : (singleBegins r (sourceNoted r s)).variant = s.variant :=
    (restrained_singleBegins r _).1.variant.trans (restrained_sourceNoted r s).variant
  have hp : (singleBegins r (sourceNoted r s)).power.domains = s.power.domains := by
    rw [(restrained_singleBegins r _).2, sourceNoted]
    split <;> rfl
  rw [dom, dom, hv, hp]

/-- No domain's loss releases a source. -/
theorem sources_holdAll (ds : List Nat) (s : State) : (holdAll ds s).power.sources = s.power.sources := by
  refine foldl_keeps (fun s => s.power.sources) _ (fun s d => ?_) ds s
  rw [holdReached]
  split
  · rfl
  by_cases hr : dom s d = .run
  · rw [holdDomain_run hr]
    exact Eq.trans (b := (domainLost d s).power.sources) rfl (congrArg PowerState.sources (spared_domainLost d s).power)
  · rw [holdDomain_still hr]

/-- The source stands. -/
theorem mem_rawAssert (r : ResetSrc) (s : State) : r ∈ (rawAssert r s).power.sources := by
  rw [rawAssert_eq, (restrained_restarted r _).2.2, sources_holdAll, (restrained_singleBegins r _).2]
  exact mem_sourceNoted r s

/-! ### A start that fails, and a source asserted during one (R500, R501) -/

theorem restrained_noteCause (c : Nat) (s : State) : Restrained s (noteCause c s) := by
  rw [noteCause]
  split
  · exact .refl s
  · exact ⟨rfl, fun _ => id, fun _ h _ => h, id, id, id, id⟩

theorem restrained_endWait (s : State) : Restrained s (endWait s) :=
  ⟨rfl, fun _ => id, fun _ hq hne => List.mem_filter.2 ⟨hq, decide_eq_true hne⟩, id, id, id, id⟩

theorem restrained_onSram (f : RetState → RetState) (s : State)
    (h : ((f s.ret).resetnLevel, (f s.ret).levelSince, (f s.ret).stuckReset) = (s.ret.resetnLevel, s.ret.levelSince, s.ret.stuckReset)) :
    Restrained s (onRet f s) :=
  ⟨congrArg (fun p => (s.variant, s.clk.tick, p, _, _, s.mgt.bist.running, _)) h, fun _ => id, fun _ hq _ => hq, id, id, id, id⟩

/-- The failures of the bank are counted, and the fourth changes the bank where it can (R502). -/
def bankCounted (verifies : Bool) (s : State) : State :=
  let fails := s.ret.sram.bankFails + 1
  if fails < 4 then onRet (fun r => { r with sram := { r.sram with bankFails := fails } }) s
  else if verifies && otherBankHolds s then
    rawAssert .sysReset (endWait (noteCause 0x0F (onRet (fun r => { r with sram := { r.sram with bank := 1 - r.sram.bank, bankFails := 0 } }) s)))
  else onRet (fun r => { r with sram := { r.sram with bankFails := 0 } }) s

theorem bankAfterFail_cases (verifies : Bool) (s : State) : bankAfterFail verifies s = s ∨ bankAfterFail verifies s = bankCounted verifies s :=
  ite_eq_or_eq ..

theorem restrained_bankCounted (verifies : Bool) (s : State) : Restrained s (bankCounted verifies s) := by
  unfold bankCounted
  dsimp only
  split
  · exact restrained_onSram _ s rfl
  split
  · exact (((restrained_onSram _ s rfl).trans (restrained_noteCause ..)).trans (restrained_endWait _)).trans (restrained_rawAssert ..)
  · exact restrained_onSram _ s rfl

theorem restrained_bankAfterFail (verifies : Bool) (s : State) : Restrained s (bankAfterFail verifies s) := by
  obtain h | h := bankAfterFail_cases verifies s
  · rw [h]
    exact .refl s
  · rw [h]
    exact restrained_bankCounted verifies s

/-- The attempt has failed: it is counted and recorded, and the module is in bivouac for the backoff wait. -/
def attemptFailed (st : Status) (s : State) : State :=
  let s := onRet (fun r => { r with failedStarts := BitVec.ofNat 16 (satAdd 65535 r.failedStarts.toNat 1) }) s
  let s := attemptEnds st s
  let wait := 25000000 * backoffSeconds s.ret.failedStarts.toNat
  onStart (fun x => { x with bivouac := true, service := false, backoffUntil := some (s.clk.tick + wait) }) s

theorem startFail_eq (st : Status) (s : State) : startFail st s = if s.mgt.start.inAttempt then
    bankAfterFail (decide (st ≠ .signatureFail)) (rawAssert .ctrlReset (noteCause 0x0F (attemptFailed st s))) else s := rfl

theorem restrained_attemptFailed (st : Status) (s : State) : Restrained s (attemptFailed st s) :=
  ⟨rfl, fun _ => id, fun _ h _ => h, fun _ => rfl, fun _ => rfl, id, id⟩

theorem restrained_startFail (st : Status) (s : State) : Restrained s (startFail st s) := by
  rw [startFail_eq]
  split
  · exact (((restrained_attemptFailed st s).trans (restrained_noteCause ..)).trans (restrained_rawAssert ..)).trans (restrained_bankAfterFail ..)
  · exact .refl s

/-- What a source does before it is asserted: its cause is noted, an attempt in progress ends, and a wait where the source reaches PD1. -/
def sourceBegins (r : ResetSrc) (cause : Nat) (s : State) : State :=
  let five := (reach r).contains 5
  let powerLost := decide (r = .retPor ∨ r = .mainPor)
  let s := if five then noteCause cause s else s
  let s := if five && s.mgt.start.inAttempt then
      (if powerLost then onStart (fun x => { x with inAttempt := false }) s else startFail .aborted s)
    else s
  if five && (reach r).contains 1 then endWait (onStart (fun x => { x with bivouac := true }) s) else s

theorem assertSrc_eq (r : ResetSrc) (cause : Nat) (s : State) : assertSrc r cause s = rawAssert r (sourceBegins r cause s) := rfl

theorem restrained_sourceBegins (r : ResetSrc) (cause : Nat) (s : State) : Restrained s (sourceBegins r cause s) := by
  have noted : Restrained s (if (reach r).contains 5 then noteCause cause s else s) := by
    split
    · exact restrained_noteCause ..
    · exact .refl s
  have failed (t : State) : Restrained t (if (reach r).contains 5 && t.mgt.start.inAttempt then
      (if decide (r = .retPor ∨ r = .mainPor) then onStart (fun x => { x with inAttempt := false }) t else startFail .aborted t) else t) := by
    split
    · split
      · exact ⟨rfl, fun _ => id, fun _ h _ => h, id, id, id, id⟩
      · exact restrained_startFail ..
    · exact .refl t
  have waited (t : State) : Restrained t (if (reach r).contains 5 && (reach r).contains 1 then
      endWait (onStart (fun x => { x with bivouac := true }) t) else t) := by
    split
    · exact Restrained.trans (t := onStart (fun x => { x with bivouac := true }) t) ⟨rfl, fun _ => id, fun _ h _ => h, fun _ => rfl, id, id, id⟩
        (restrained_endWait _)
    · exact .refl t
  exact (noted.trans (failed _)).trans (waited _)

theorem restrained_assertSrc (r : ResetSrc) (cause : Nat) (s : State) : Restrained s (assertSrc r cause s) :=
  (restrained_sourceBegins r cause s).trans (restrained_rawAssert r _)

theorem assertSrc_holds {r : ResetSrc} {d : Nat} (hd : d ∈ reach r) (h0 : d ≠ 0) (cause : Nat) (s : State) :
    domRun (assertSrc r cause s) d = false :=
  rawAssert_holds hd h0 _

theorem mem_assertSrc (r : ResetSrc) (cause : Nat) (s : State) : r ∈ (assertSrc r cause s).power.sources := mem_rawAssert r _

end Sys2Proof.Proofs.Resets
end

section
/-! Reset sources and the release of domains (O33, R43, R479, R482, R488 to R491, R573). -/

namespace Sys2Proof.Proofs.Sources

open Sys2Proof Sys2Proof.Machine Sys2Proof.Claims Sys2Proof.Laws Sys2Proof.Proofs.Resets

/-! ### A source asserted (R479) -/

/-- The source stands, and every domain that it reaches is held but PD0. -/
def Holds (r : ResetSrc) (t : State) : Prop := (∀ d ∈ reach r, d ≠ 0 → domRun t d = false) ∧ r ∈ t.power.sources

/-- Holding is a matter of power. -/
theorem Holds.congr {r : ResetSrc} {s t : State} (h : Holds r s) (hv : t.variant = s.variant) (hd : t.power.domains = s.power.domains)
    (hs : t.power.sources = s.power.sources) : Holds r t := by
  refine ⟨fun d hr h0 => ?_, hs ▸ h.2⟩
  rw [domRun, dom, hd, hv]
  exact h.1 d hr h0

theorem holds_assertSrc (r : ResetSrc) (cause : Nat) (s : State) : Holds r (assertSrc r cause s) :=
  ⟨fun _ hd h0 => assertSrc_holds hd h0 cause s, mem_assertSrc r cause s⟩

/-- What MGT does, before MAIN_POR is asserted, of what it has not committed (R471). -/
def powerLossNoted (s : State) : State :=
  let s := onRec (fun m => m.reports.foldl (fun m e => takeIn s e (settleLosses s { m with reports := [] })) m) s
  let s := onRec (endFreeze s.clk.tick) s
  let s := commitAll (committable s.mgt.recorder .vital) .vital s
  let left := s.mgt.recorder.generalIn.length + (s.mgt.recorder.freeze.filter (fun r => decide (r.ev.ring = .general))).length
  let s := onRet (fun r => { r with sram := { r.sram with uncommitted := r.sram.uncommitted + left } }) s
  let s := onRec (fun m => { m with vitalIn := [], generalIn := [], freeze := [], lost := 0 }) s
  let s := bistStopped (wake s)
  onStart (fun x => { x with storeCharged := false, shutdownPending := false }) s

theorem mainPowerLost_eq (s : State) : mainPowerLost s = onPower (fun p => { p with tb1Restart := true, pccBump := true, sysResetAt := none })
    (assertSrc .mainPor (sourceCause .mainPor) (powerLossNoted s)) := rfl

theorem holds_mainPowerLost (s : State) : Holds .mainPor (mainPowerLost s) := by
  rw [mainPowerLost_eq]
  generalize assertSrc .mainPor (sourceCause .mainPor) (powerLossNoted s) = t, holds_assertSrc .mainPor (sourceCause .mainPor) (powerLossNoted s) = h
  exact h.congr rfl rfl rfl

theorem storeCharged_mainPowerLost (s : State) : (mainPowerLost s).mgt.start.storeCharged = false := by
  have h : (assertSrc .mainPor (sourceCause .mainPor) (powerLossNoted s)).mgt.start.storeCharged = false := (restrained_assertSrc ..).storeCharged
  rw [mainPowerLost_eq]
  generalize assertSrc .mainPor (sourceCause .mainPor) (powerLossNoted s) = t at h
  exact h

/-- RET_POR asserted, before RET takes its reset values. -/
def retPorAsserted (s : State) : State :=
  assertSrc .retPor (sourceCause .retPor) (if asserted s .mainPor then s else mainPowerLost s)

theorem retentionLost_eq (s : State) : retentionLost s =
    { onClk (fun c => { c with tb3Ticks := 0, hoursPending := 0 }) (retPorAsserted s) with ret := RetState.zero } := by
  unfold retentionLost retPorAsserted
  rfl

theorem holds_retPorAsserted (s : State) : Holds .retPor (retPorAsserted s) := holds_assertSrc ..

theorem holds_retentionLost (s : State) : Holds .retPor (retentionLost s) := by
  rw [retentionLost_eq]
  generalize retPorAsserted s = t, holds_retPorAsserted s = h
  exact h.congr rfl rfl rfl

theorem retentionLost_clears (s : State) : (retentionLost s).ret = RetState.zero ∧ (retentionLost s).clk.tb3Ticks = 0 ∧
    (retentionLost s).clk.hoursPending = 0 := by
  rw [retentionLost_eq]
  exact ⟨rfl, rfl, rfl⟩

theorem mgtDown_leaves (s : State) : (mgtDown s).ctl.voter = s.ctl.voter ∧ (mgtDown s).ctl.vio = s.ctl.vio ∧ (mgtDown s).mgt.start.booted = false := by
  simp [mgtDown, onStaging]

theorem sourceNoted_ctl (r : ResetSrc) (s : State) : (sourceNoted r s).ctl = s.ctl := by
  rw [sourceNoted]
  split <;> rfl

theorem setDom_ctl (d : Nat) (x : DomState) (s : State) : (setDom d x s).ctl = s.ctl := rfl
theorem setDom_mgt (d : Nat) (x : DomState) (s : State) : (setDom d x s).mgt = s.mgt := rfl

/-- MGT alone leaves RUN where its watchdog resets it. -/
theorem assertSrc_watchdog {s : State} (h : domRun s 1 = true) (cause : Nat) :
    assertSrc .watchdog cause s = setDom 1 .held (mgtDown (followerLost 1 (sourceNoted .watchdog s))) := by
  have hrun : dom (sourceNoted .watchdog s) 1 = .run := by
    rw [← domRun_iff.1 h, sourceNoted]
    split <;> rfl
  have hbegins : sourceBegins .watchdog cause s = s := rfl
  have hend (t : State) : restarted .watchdog t = t := rfl
  have hsingle (t : State) : singleBegins .watchdog t = t := rfl
  have hone (t : State) : holdAll (reach .watchdog) t = holdDomain 1 t := rfl
  have hlost (t : State) : domainLost 1 t = mgtDown (followerLost 1 t) := rfl
  rw [assertSrc_eq, hbegins, rawAssert_eq, hend, hsingle, hone, holdDomain_run hrun, hlost]

/-- The watchdog leaves the voter and VIO. -/
theorem assertSrc_watchdog_leaves {s : State} (h : domRun s 1 = true) (cause : Nat) : (assertSrc .watchdog cause s).mgt.start.booted = false ∧
    (assertSrc .watchdog cause s).ctl.voter = s.ctl.voter ∧ (assertSrc .watchdog cause s).ctl.vio = s.ctl.vio := by
  obtain ⟨hvoter, hvio, hboot⟩ := mgtDown_leaves (followerLost 1 (sourceNoted .watchdog s))
  have hfollow (t : State) : (followerLost 1 t).ctl.voter = t.ctl.voter ∧ (followerLost 1 t).ctl.vio = t.ctl.vio := ⟨rfl, rfl⟩
  rw [assertSrc_watchdog h, setDom_ctl, setDom_mgt, hvoter, hvio, (hfollow _).1, (hfollow _).2, sourceNoted_ctl]
  exact ⟨hboot, rfl, rfl⟩

/-- The shutdown BIST stops, and MGT boots after its watchdog. -/
def watchdogNoted (s : State) : State := onStart (fun x => { x with wdBoot := true }) (bistStopped s)

theorem watchdogReset_run {s : State} (h : domRun s 1 = true) : watchdogReset s = assertSrc .watchdog 0 (watchdogNoted s) := if_pos h

theorem watchdogReset_leaves {s : State} (h : domRun s 1 = true) : domRun (watchdogReset s) 1 = false ∧ (watchdogReset s).mgt.start.booted = false ∧
    (watchdogReset s).mgt.start.wdBoot = true ∧ (watchdogReset s).ctl.voter = s.ctl.voter ∧ (watchdogReset s).ctl.vio = s.ctl.vio := by
  have hrun : domRun (watchdogNoted s) 1 = true := h
  obtain ⟨hboot, hvoter, hvio⟩ := assertSrc_watchdog_leaves hrun 0
  rw [watchdogReset_run h]
  exact ⟨(holds_assertSrc .watchdog 0 _).1 1 (by decide) (by decide), hboot, (restrained_assertSrc .watchdog 0 (watchdogNoted s)).wdBoot, hvoter, hvio⟩

/-- RESET_SOURCE_ASSERT of a source that is not asserted (R479). -/
def sourceAsserted (r : ResetSrc) (s : State) : State :=
  match r with
  | .retPor => retentionLost s
  | .mainPor => mainPowerLost s
  | .watchdog => watchdogReset s
  | .resetN => if s.ret.stuckReset then s
               else assertSrc .resetN (sourceCause .resetN) (bistStopped (onRet (fun x => { x with resetnLevel := false, levelSince := s.clk.tick }) s))
  | r => if (reach r).all (domAbsent s.variant) then s else assertSrc r (sourceCause r) s

theorem exec_resetSourceAssert {r : ResetSrc} {s : State} (h : asserted s r = false) :
    exec (.resetSourceAssert r) s = .next (sourceAsserted r s) := by
  have he : exec (.resetSourceAssert r) s = .next (if asserted s r then s else sourceAsserted r s) := by cases r <;> rfl
  rw [he, if_neg (by simp [h])]

/-- A source that reaches domains of its own alone: asserted where the variant has one of them. -/
theorem localSource_holds {r : ResetSrc} (s : State) (cause : Nat) (t : State) (ht : t = if (reach r).all (domAbsent s.variant) then s else assertSrc r cause s) :
    (∀ d ∈ reach r, d ≠ 0 → domRun t d = false) ∧ ((∃ d ∈ reach r, domAbsent s.variant d = false) → r ∈ t.power.sources) := by
  subst ht
  split
  · next h =>
    have habsent : ∀ d ∈ reach r, domAbsent s.variant d = true := List.all_eq_true.1 h
    refine ⟨fun d hd _ => ?_, fun ⟨d, hd, hf⟩ => ?_⟩
    · rw [domRun, dom, if_pos (habsent d hd)]
      rfl
    · rw [habsent d hd] at hf
      cases hf
  · exact ⟨(holds_assertSrc r cause s).1, fun _ => (holds_assertSrc r cause s).2⟩

theorem sourceAsserted_holds {r : ResetSrc} {s : State} (hn : r = .resetN → s.ret.stuckReset = false) (hw : r = .watchdog → domRun s 1 = true) :
    (∀ d ∈ reach r, d ≠ 0 → domRun (sourceAsserted r s) d = false) ∧
      ((∃ d ∈ reach r, domAbsent s.variant d = false) → r ∈ (sourceAsserted r s).power.sources) := by
  have of_holds {r : ResetSrc} {t : State} (h : Holds r t) : (∀ d ∈ reach r, d ≠ 0 → domRun t d = false) ∧
      ((∃ d ∈ reach r, domAbsent s.variant d = false) → r ∈ t.power.sources) := ⟨h.1, fun _ => h.2⟩
  cases r with
  | retPor => exact of_holds (holds_retentionLost s)
  | mainPor => exact of_holds (holds_mainPowerLost s)
  | watchdog =>
    rw [sourceAsserted, watchdogReset_run (hw rfl)]
    exact of_holds (holds_assertSrc .watchdog 0 _)
  | resetN =>
    rw [sourceAsserted, if_neg (by simp [hn rfl])]
    exact of_holds (holds_assertSrc .resetN _ _)
  | _ => exact localSource_holds s _ _ rfl

/-- R479, R43. -/
theorem assertedSourceHoldsItsDomains : AssertedSourceHoldsItsDomains := by
  refine fun s r h hn hw => ⟨⟨_, exec_resetSourceAssert h, sourceAsserted_holds hn hw⟩, fun hr mV n out ho => ?_, fun hr mV hlow => ?_, fun hr => ?_⟩
  · subst hr
    have hguard : ¬((asserted s .mainPor || !(out || (decide (mV < 15000) && decide (250 ≤ n)))) = true) := by
      rcases ho with ho | ⟨hlow, hn⟩
      · simp [h, ho]
      · simp [h, hlow, hn]
    exact ⟨_, congrArg Host.Outcome.next (if_neg hguard), (holds_mainPowerLost s).1, (holds_mainPowerLost s).2, storeCharged_mainPowerLost s⟩
  · subst hr
    have hguard : ¬((asserted s .retPor || decide (2000 ≤ mV)) = true) := by simp [h, hlow]
    exact ⟨_, congrArg Host.Outcome.next (if_neg hguard), (holds_retentionLost s).1, (holds_retentionLost s).2, retentionLost_clears s⟩
  · exact ⟨_, rfl, watchdogReset_leaves (hw hr)⟩

/-! ### A source released (R479, R504) -/

theorem mem_dropSource {r q : ResetSrc} {s : State} (h : q ∈ (dropSource r s).power.sources) : q ∈ s.power.sources ∧ q ≠ r :=
  let ⟨hmem, hne⟩ := List.mem_filter.1 h
  ⟨hmem, of_decide_eq_true hne⟩

theorem mem_wake {q : ResetSrc} {s : State} (h : q ∈ (wake s).power.sources) : q ∈ s.power.sources := by
  rw [wake] at h
  split at h
  · exact (mem_dropSource h).1
  · exact h

theorem offStars_sources (s : State) : (offStars s).power.sources = s.power.sources := by
  rw [offStars]
  split <;> split <;> rfl

/-- A release of a source acts on power alone. -/
theorem releaseSrc_keeps (r : ResetSrc) (s : State) : (releaseSrc r s).ret = s.ret ∧ (releaseSrc r s).ctl = s.ctl := by
  have woken (t : State) : (wake t).ret = t.ret ∧ (wake t).ctl = t.ctl := by
    rw [wake]
    split <;> exact ⟨rfl, rfl⟩
  have stars (t : State) : (offStars t).ret = t.ret ∧ (offStars t).ctl = t.ctl := by
    rw [offStars]
    split <;> split <;> exact ⟨rfl, rfl⟩
  obtain ⟨hret, hctl⟩ := woken (dropSource r s)
  rw [releaseSrc]
  split <;> split
  · exact ⟨(stars _).1.trans hret, (stars _).2.trans hctl⟩
  · exact stars (dropSource r s)
  · exact ⟨hret, hctl⟩
  · exact ⟨rfl, rfl⟩

theorem mem_releaseSrc {r q : ResetSrc} {s : State} (h : q ∈ (releaseSrc r s).power.sources) : q ∈ s.power.sources ∧ q ≠ r := by
  have dropped (t : State) (ht : q ∈ (if r = .resetN then wake t else t).power.sources) : q ∈ t.power.sources := by
    split at ht
    · exact mem_wake ht
    · exact ht
  refine mem_dropSource (dropped _ ?_)
  rw [releaseSrc] at h
  split at h
  · rwa [← offStars_sources]
  · exact h

/-! ### A domain released (R482) -/

/-- The domain runs, and its release is noted. -/
def domReleased (d : Nat) (s : State) : State := onPower (fun p => { p with lastRelease := s.clk.tick }) (setDom d .run s)

theorem dom_of_nextDomain {s : State} {d : Nat} (h : nextDomain s = some d) : dom s d = .held := by
  rw [nextDomain] at h
  split at h
  · cases h
  split at h
  · next e hf =>
    split at h
    · cases h
    · cases h
      simpa using List.find?_some hf
  · cases h

theorem dom_domReleased {s : State} {d : Nat} (h : nextDomain s = some d) : dom (domReleased d s) d = .run := by
  refine dom_setDom d .run s (Bool.eq_false_of_not_eq_true fun ha => ?_)
  have := dom_of_nextDomain h
  rw [dom, if_pos ha] at this
  cases this

/-- What the release of each domain begins. -/
def releaseBegins (strap : List Nat) (mj d : Nat) (s : State) : State :=
  match d with
  | 1 => releaseMgt strap mj s
  | 2 => handNet s
  | 3 => releaseStar .a s
  | 4 => releaseStar .b s
  | 5 => releaseVoter s
  | 7 => releaseLane .a s
  | 8 => releaseLane .b s
  | 9 => releaseLane .c s
  | 10 => releaseLane .d s
  | _ => s

theorem exec_domainRelease {s : State} {d : Nat} (strap : List Nat) (mj : Nat) (h : nextDomain s = some d) :
    exec (.domainRelease strap mj) s = .next (releaseBegins strap mj d (domReleased d s)) := by
  have he : exec (.domainRelease strap mj) s = execDomainRelease strap mj s := rfl
  rw [he, execDomainRelease, h]
  rfl

/-! ### NET and the stars (R17, R307, R376) -/

theorem handNet_keeps (s : State) : (handNet s).power = s.power ∧ (handNet s).ctl = s.ctl ∧ (handNet s).variant = s.variant := by
  rw [handNet]
  split <;> exact ⟨rfl, rfl, rfl⟩

/-- A star released is in COLDSTART, whatever MGT loads it with. -/
theorem handStar_keeps (ch : Chan) (s : State) : (handStar ch s).power = s.power ∧ (handStar ch s).ctl = s.ctl ∧ (handStar ch s).variant = s.variant ∧
    (star (handStar ch s) ch).mode = (star s ch).mode := by
  have ports {β : Type} (g : State → β) (hg : ∀ (t : State) p f, g (onPort ch p f t) = g t) (l : List Nat) (t : State) :
      g (l.foldl (fun s p => onPort ch p (fun _ => portStart s ch p) s) t) = g t := foldl_keeps g _ (fun u p => hg u p _) l t
  have mode (t : State) (p : Nat) (f : PortState → PortState) : (star (onPort ch p f t) ch).mode = (star t ch).mode := by
    cases ch <;> rfl
  rw [handStar]
  split
  · dsimp only
    rw [ports State.power (fun _ _ _ => rfl), ports State.ctl (fun _ _ _ => rfl), ports State.variant (fun _ _ _ => rfl),
      ports (fun s => (star s ch).mode) mode]
    exact ⟨rfl, rfl, rfl, rfl⟩
  · exact ⟨rfl, rfl, rfl, rfl⟩

theorem singleChannel_keeps (c : Chan) (entry : Bool) (s : State) : (singleChannel c entry s).power = s.power ∧ (singleChannel c entry s).ctl = s.ctl ∧
    (singleChannel c entry s).variant = s.variant ∧ (singleChannel c entry s).data = s.data := by
  rw [singleChannel]
  split <;> exact ⟨rfl, rfl, rfl, rfl⟩

theorem releaseStar_keeps (ch : Chan) (s : State) : (releaseStar ch s).power = s.power ∧ (releaseStar ch s).ctl = s.ctl ∧
    (releaseStar ch s).variant = s.variant ∧ (star (releaseStar ch s) ch).mode = .coldStart := by
  obtain ⟨hpower, hctl, hvar, hmode⟩ := handStar_keeps ch (onStar ch (fun x => { x with mode := .coldStart, coldSince := s.clk.tick }) s)
  obtain ⟨hpower', hctl', hvar', hdata'⟩ := singleChannel_keeps ch false
    (handStar ch (onStar ch (fun x => { x with mode := .coldStart, coldSince := s.clk.tick }) s))
  refine ⟨hpower'.trans hpower, hctl'.trans hctl, hvar'.trans hvar, ?_⟩
  have hstar := congrArg (fun d => (d.stars.get ch).mode) hdata'
  exact hstar.trans (hmode.trans (by cases ch <;> rfl))

/-! ### MGT (R488, R491 to R494, R499, R573) -/

/-- What MGT's release shows: PD1's state, its strap, the store's strength, the instant of the release and REFCLK's ticks. -/
def mgtRelease (s : State) : DomState × Option Nat × Bool × Nat × Nat :=
  (dom s 1, s.power.bootCfg, s.mgt.elec.storeWeak, s.power.lastRelease, s.clk.tick)

theorem mgtRelease_enterRecovery (s : State) : mgtRelease (enterRecovery s) = mgtRelease s := by
  have raw {r : ResetSrc} (h : 1 ∉ reach r) (t : State) : mgtRelease (rawAssert r t) = mgtRelease t := by
    have hr := restrained_rawAssert r t
    simp only [mgtRelease, dom_rawAssert_ne h, hr.bootCfg, hr.storeWeak, hr.lastRelease, hr.tick]
  rw [enterRecovery, raw (by decide), raw (by decide), raw (by decide)]
  rfl

/-- PCC, the bank and TB1 at the release; PD1, its strap and the store are not concerned. -/
theorem countPowerCycle_keeps (s : State) : dom (countPowerCycle s) 1 = dom s 1 ∧ (countPowerCycle s).power.bootCfg = s.power.bootCfg := by
  unfold countPowerCycle
  dsimp only
  constructor
  · repeat' split
    all_goals rfl
  · repeat' split
    all_goals rfl

theorem measureStore_weak (mj : Nat) (s : State) : (measureStore mj s).mgt.elec.storeWeak = decide (mj < 2700) ∧ (measureStore mj s).power = s.power ∧
    (measureStore mj s).variant = s.variant := by
  rw [measureStore]
  split <;> exact ⟨rfl, rfl, rfl⟩

/-- PD1 released, before what its strap names begins. -/
def mgtMeasured (strap : List Nat) (mj : Nat) (s : State) : State := measureStore mj (countPowerCycle (sampleStrap strap s))

theorem mgtRelease_releaseMgt (strap : List Nat) (mj : Nat) (s : State) : mgtRelease (releaseMgt strap mj s) =
    (dom s 1, some ((strapCode strap).getD 15), decide (mj < 2700), (mgtMeasured strap mj s).clk.tick, (mgtMeasured strap mj s).clk.tick) := by
  obtain ⟨hweak, hpower, hvar⟩ := measureStore_weak mj (countPowerCycle (sampleStrap strap s))
  obtain ⟨hdom, hboot⟩ := countPowerCycle_keeps (sampleStrap strap s)
  have hnoted : mgtRelease (onPower (fun p => { p with fullReset := false, lastRelease := (mgtMeasured strap mj s).clk.tick }) (mgtMeasured strap mj s)) =
      (dom s 1, some ((strapCode strap).getD 15), decide (mj < 2700), (mgtMeasured strap mj s).clk.tick, (mgtMeasured strap mj s).clk.tick) := by
    have hd : dom (mgtMeasured strap mj s) 1 = dom s 1 := by
      rw [dom, mgtMeasured, hpower, hvar]
      exact hdom
    have hb : (mgtMeasured strap mj s).power.bootCfg = some ((strapCode strap).getD 15) := by
      rw [mgtMeasured, hpower, hboot]
      rfl
    exact congrArg₂ (fun a (p : Option Nat × Bool) => (a, p.1, p.2, _, _)) hd (congrArg₂ Prod.mk hb hweak)
  rw [← hnoted, releaseMgt]
  split
  · exact mgtRelease_enterRecovery _
  · split <;> rfl
  · split <;> rfl

/-! ### The voter and a lane (R17, R121, R171, R480) -/

/-- With an attempt or a shutdown BIST in progress the voter's release begins none. -/
theorem releaseVoter_keeps {s : State} (h : s.mgt.bist.running = true ∨ s.mgt.start.inAttempt = true) : (releaseVoter s).power = s.power ∧
    (releaseVoter s).variant = s.variant ∧ (releaseVoter s).ctl.trip.inForce = false ∧
    (releaseVoter s).mgt.start.restartCause = lowestCause s.mgt.start.causes ∧ (releaseVoter s).mgt.start.causes = [] ∧
    (releaseVoter s).ctl.lanes = s.ctl.lanes := by
  have hguard : (s.mgt.bist.running || s.mgt.start.inAttempt) = true := by simpa using h
  have he : releaseVoter s = onStart (fun x => { x with restartCause := lowestCause x.causes, causes := [] })
      (onTrip (fun t => { TripState.zero with supplyLow := t.supplyLow, supplyOkSince := t.supplyOkSince }) s) := if_pos hguard
  rw [he]
  exact ⟨rfl, rfl, rfl, rfl, rfl, rfl⟩

theorem setVote_keeps (l : Lane) (x : LaneVote) (s : State) : (setVote l x s).power = s.power ∧ (setVote l x s).variant = s.variant ∧
    (setVote l x s).ctl.lanes = s.ctl.lanes := by
  rw [setVote]
  split <;> exact ⟨rfl, rfl, rfl⟩

theorem releaseLane_keeps (l : Lane) (s : State) : (releaseLane l s).power = s.power ∧ (releaseLane l s).variant = s.variant ∧
    (∀ m, m ≠ l → lane (releaseLane l s) m = lane s m) ∧ ((voter s).running = false → (releaseLane l s).ctl = s.ctl) := by
  rw [releaseLane]
  split
  · next hrun =>
    have hne : ¬(voter s).running = false := by
      intro hf
      simp [hf] at hrun
    split
    · next i _ =>
      obtain ⟨hpower, hvar, hlanes⟩ := setVote_keeps l .vacated (onLane l (fun x => { loadLane i (laneFirmware s) with health := x.health }) s)
      refine ⟨hpower, hvar, fun m hm => ?_, fun hf => absurd hf hne⟩
      exact (congrArg (fun q : Quad LaneState => q.get m) hlanes).trans (lane_onLane_ne _ _ hm)
    · exact ⟨rfl, rfl, fun _ _ => rfl, fun _ => rfl⟩
  · exact ⟨rfl, rfl, fun _ _ => rfl, fun _ => rfl⟩

theorem releaseBegins_lane (strap : List Nat) (mj : Nat) (l : Lane) (s : State) : releaseBegins strap mj (laneDom l) s = releaseLane l s := by
  cases l <;> rfl

/-- A state with the power and the variant of a domain's release shows the release. -/
theorem shows_release {s t : State} {d : Nat} (h : nextDomain s = some d) (hp : t.power = (domReleased d s).power)
    (hv : t.variant = (domReleased d s).variant) : dom t d = .run ∧ t.power.lastRelease = s.clk.tick := by
  refine ⟨?_, congrArg PowerState.lastRelease hp⟩
  rw [dom, hp, hv]
  exact dom_domReleased h

/-- R479, R482, R488, R491, R573. -/
theorem sourcesAndDomainsAreReleased : SourcesAndDomainsAreReleased := by
  refine fun s => ⟨fun r mV n rest h => ⟨_, congrArg Host.Outcome.next (if_pos h), fun hm => (mem_releaseSrc hm).2 rfl, fun q hq => (mem_releaseSrc hq).1⟩,
    fun d strap mj h hd => ?_, fun d strap mj h hd => ⟨_, exec_domainRelease strap mj h, ?_⟩, fun strap mj h => ⟨_, exec_domainRelease strap mj h, ?_⟩,
    fun strap mj h hr => ⟨_, exec_domainRelease strap mj h, ?_⟩, fun l strap mj h => ⟨_, exec_domainRelease strap mj h, ?_⟩⟩
  · rw [exec_domainRelease strap mj h]
    obtain rfl | rfl := hd <;> rfl
  · obtain rfl | rfl | rfl := hd
    · obtain ⟨hpower, hctl, hvar⟩ := handNet_keeps (domReleased 2 s)
      obtain ⟨hrun, hlast⟩ := shows_release h hpower hvar
      exact ⟨hrun, hlast, hctl, fun h => absurd h (by decide), fun h => absurd h (by decide)⟩
    · obtain ⟨hpower, hctl, hvar, hmode⟩ := releaseStar_keeps .a (domReleased 3 s)
      obtain ⟨hrun, hlast⟩ := shows_release h hpower hvar
      exact ⟨hrun, hlast, hctl, fun _ => hmode, fun h => absurd h (by decide)⟩
    · obtain ⟨hpower, hctl, hvar, hmode⟩ := releaseStar_keeps .b (domReleased 4 s)
      obtain ⟨hrun, hlast⟩ := shows_release h hpower hvar
      exact ⟨hrun, hlast, hctl, fun h => absurd h (by decide), fun _ => hmode⟩
  · have hr := mgtRelease_releaseMgt strap mj (domReleased 1 s)
    simp only [mgtRelease, Prod.mk.injEq] at hr
    obtain ⟨hdom, hboot, hweak, hlast, htick⟩ := hr
    exact ⟨hdom.trans (dom_domReleased h), hboot, hweak, hlast.trans htick.symm⟩
  · obtain ⟨hpower, hvar, htrip, hcause, hnone, hlanes⟩ := releaseVoter_keeps (s := domReleased 5 s) hr
    obtain ⟨hrun, hlast⟩ := shows_release h hpower hvar
    exact ⟨hrun, hlast, htrip, hcause, hnone, hlanes⟩
  · rw [releaseBegins_lane]
    obtain ⟨hpower, hvar, hlanes, hctl⟩ := releaseLane_keeps l (domReleased (laneDom l) s)
    obtain ⟨hrun, hlast⟩ := shows_release h hpower hvar
    exact ⟨hrun, hlast, hlanes, hctl⟩

/-! ### RESET_N (R489, R490) -/

/-- The pin has taken a level. -/
def pinTaken (level : Bool) (s : State) : State := onRet (fun r => { r with resetnLevel := level, levelSince := s.clk.tick }) s

/-- What follows of a level taken: nothing while the input is stuck, the release of RESET_N, or its assertion. -/
def pinFollowed (level : Bool) (s : State) : State :=
  if s.ret.stuckReset then s
  else if level then (if asserted s .resetN && !s.power.refclkHeld then releaseSrc .resetN s else s)
  else assertSrc .resetN (sourceCause .resetN) (bistStopped s)

theorem exec_resetNDebounce {s : State} {level : Bool} {n : Nat} (hm : asserted s .mainPor = false) (hr : asserted s .retPor = false)
    (hl : s.ret.resetnLevel = !level) (hn : 250000 ≤ n) : exec (.resetNDebounce level n) s = .next (pinFollowed level (pinTaken level s)) := by
  have he : exec (.resetNDebounce level n) s = .next (if asserted s .mainPor || asserted s .retPor || s.ret.resetnLevel == level ||
      decide (n < 250000) then s else pinFollowed level (pinTaken level s)) := rfl
  have hguard : ¬((asserted s .mainPor || asserted s .retPor || s.ret.resetnLevel == level || decide (n < 250000)) = true) := by
    simp [hm, hr, hl, hn]
  rw [he, if_neg hguard]

theorem pinFollowed_low {s : State} (h : s.ret.stuckReset = false) :
    pinFollowed false s = assertSrc .resetN (sourceCause .resetN) (bistStopped s) := by
  rw [pinFollowed, if_neg (by simp [h]), if_neg (by decide)]

theorem pinFollowed_high {s : State} (h : s.ret.stuckReset = false) (ha : asserted s .resetN = true) (hr : s.power.refclkHeld = false) :
    pinFollowed true s = releaseSrc .resetN s := by
  rw [pinFollowed, if_neg (by simp [h]), if_pos rfl, if_pos (by simp [ha, hr])]

/-- Every domain but PD0 is among those that RESET_N reaches. -/
theorem mem_reach_resetN {d : Nat} (hlow : 1 ≤ d) (hhigh : d ≤ 11) : d ∈ reach .resetN := by
  simp only [reach, List.mem_cons, List.not_mem_nil, or_false]
  omega

/-- R489, R490. -/
theorem resetPinIsDebounced : ResetPinIsDebounced := by
  refine fun s n hm hr hn => ⟨fun level m hlt => congrArg Host.Outcome.next (if_pos (by simp [hlt])), fun hl hs => ⟨_, exec_resetNDebounce hm hr hl hn, ?_⟩,
    fun hl hs => ?_, fun hl hs ha hc => ⟨_, exec_resetNDebounce (level := true) hm hr hl hn, ?_⟩, fun hl hs ha hlong => ?_,
    fun hl hs hsince => congrArg Host.Outcome.next (if_pos (by simp [hl, hs, hsince]))⟩
  · have hheld := holds_assertSrc .resetN (sourceCause .resetN) (bistStopped (pinTaken false s))
    have hres := restrained_assertSrc .resetN (sourceCause .resetN) (bistStopped (pinTaken false s))
    rw [pinFollowed_low (s := pinTaken false s) hs]
    exact ⟨hres.resetnLevel, hres.levelSince, hheld.2, fun d hlow hhigh => hheld.1 d (mem_reach_resetN hlow hhigh) (by omega)⟩
  · rw [exec_resetNDebounce (level := true) hm hr hl hn]
    exact congrArg Host.Outcome.next (if_pos hs)
  · rw [pinFollowed_high (s := pinTaken true s) hs ha hc]
    exact ⟨congrArg RetState.resetnLevel (releaseSrc_keeps .resetN (pinTaken true s)).1, fun h => (mem_releaseSrc h).2 rfl⟩
  · have he : exec .resetNStuck s = execResetNStuck s := rfl
    refine ⟨releaseSrc .resetN (onRet (fun r => { r with stuckReset := true }) s), ?_,
      congrArg RetState.stuckReset (releaseSrc_keeps .resetN (onRet (fun r => { r with stuckReset := true }) s)).1, fun h => (mem_releaseSrc h).2 rfl,
      (releaseSrc_keeps .resetN (onRet (fun r => { r with stuckReset := true }) s)).2⟩
    rw [he, execResetNStuck, if_pos (by simp [hl, hs, hlong])]
    exact congrArg Host.Outcome.next (if_pos ha)

/-- Settles O33. -/
theorem sourcesHoldAndReleaseDomains : Obligations.SourcesHoldAndReleaseDomains :=
  ⟨assertedSourceHoldsItsDomains, sourcesAndDomainsAreReleased, resetPinIsDebounced⟩

end Sys2Proof.Proofs.Sources
end

section
/-! The TST and DBG commands (O56, R445, R446, R516, R522, R524, R560 to R564). -/

namespace Sys2Proof.Proofs.TestAndDebug

open Sys2Proof Sys2Proof.Machine Sys2Proof.Claims Sys2Proof.Laws Sys2Proof.Proofs.Updates Sys2Proof.Proofs.Resets

/-! ### Tests (R445, R516, R522, R524) -/

section

variable {s : State} {c : CmdHdr}

theorem exec_tstRotate {l : Byte} {ls : List Lane} (h : Accepted (.tstRotate c l) s) (hl : rotateLanes l = some ls) (hnone : s.ctl.rot.active = none)
    (hq : s.ctl.rot.queue = []) (hf : s.variant = .f) (h1 : laneCfg s ≠ 1) (h2 : laneCfg s ≠ 2) : exec (.tstRotate c l) s =
    .next (finish c 0x0A00 .pending [] [] (onRot (fun r => { r with queue := ls, requested := some l.toNat }) s)) :=
  exec_of_accepted h rfl rfl (by simp [judge, hl, hnone, hq, hf, h1, h2]) (by rw [hl]; rfl)

theorem exec_tstStatus (h : Accepted (.tstStatus c) s) :
    exec (.tstStatus c) s = .next (drawn (finish c 0x0A01 .ok (byte (selfTestCode s)) (tstData s) s)) :=
  exec_of_accepted h rfl rfl rfl rfl

theorem exec_tstFuseRepair {l : Byte} {x : Lane} (h : Accepted (.tstFuseRepair c l) s) (hl : laneArg s l = some x) (hnone : s.mgt.bist.fuseBurn = none)
    (hbusy : fuseBusy s x = false) (h1 : switchOn s 1 = true) :
    exec (.tstFuseRepair c l) s = .next (onBist (fun b => { b with fuseBurn := some (x, refOf c 0x0A02) }) s) :=
  exec_of_accepted h rfl rfl (by simp [judge, hl, hnone, hbusy, h1]) (by rw [hl])

theorem exec_tstShutdownRecord {r : BistRecord} (h : Accepted (.tstShutdownRecord c) s) (hr : s.mgt.bist.record = some r)
    (hnand : nandBusy s 0x0A03 = false) : exec (.tstShutdownRecord c) s = .next (finish c 0x0A03 .ok [] (bistRecordBytes r) s) :=
  exec_of_accepted h rfl rfl (by simp [judge, hr, hnand]) (by rw [hr])

end

/-- R445, R516, R522, R524. -/
theorem tstCommandsAct : TstCommandsAct := fun _ _ =>
  ⟨fun _ _ hl hnone hq hf h1 h2 h => exec_tstRotate h hl hnone hq hf h1 h2, fun h => ⟨_, exec_tstStatus h, rfl, rfl, rfl, rfl⟩,
    fun _ _ hl hnone hbusy h1 h => exec_tstFuseRepair h hl hnone hbusy h1, fun _ hr hnand h => exec_tstShutdownRecord h hr hnand⟩

/-! ### Detachment and resumption (R446, R560, R564) -/

/-- A lane halted by R562 whose resynchronisation begins. -/
def resyncBegun (l : Lane) (s : State) : State :=
  onLane l (fun x => { x with health := { x.health with resyncStarted := x.health.resyncStarted + 1 } }) (onDbg (fun d => { d with halted := none }) s)

theorem debugResume_halted {s : State} {l : Lane} (hl : s.ctl.dbg.halted = some l) (ht : s.ctl.dbg.trippedByHalt = false) :
    debugResume s = setVote l .resync (resyncBegun l s) := by
  rw [debugResume, hl]
  exact if_neg (by simp [ht])

/-- A resumption brings nothing that the debugger waits for. -/
theorem debugResume_idle {s : State} (h : DebugIdle s) : DebugIdle (debugResume s) := by
  unfold debugResume
  split
  · exact h
  next l _ =>
    split
    · exact (restrained_assertSrc ..).debugIdle h
    · have hbegun : DebugIdle (resyncBegun l s) := h
      exact (spared_setVote l .resync (resyncBegun l s)).debugIdle hbegun

/-- What the debugger asked for and has not acted is dropped. -/
def askedDropped (s : State) : State :=
  onDbg (fun d => { d with pieces := [], haltCmd := none }) (s.ctl.dbg.pieces.foldl (fun s p => abortRef p.last s) (abortRef s.ctl.dbg.haltCmd s))

theorem debugDetach_attached {s : State} (h : debugAttached s = true) :
    debugDetach s = onDbg (fun d => { d with attached := none, before := LaneState.zero }) (debugResume (askedDropped s)) := by
  have hsome : ¬s.ctl.dbg.attached.isNone = true := by simpa [debugAttached, Option.isSome_iff_ne_none] using h
  exact if_neg hsome

theorem debugDetach_clears {s : State} (h : debugAttached s = true) : (debugDetach s).ctl.dbg.attached = none ∧ (debugDetach s).ctl.dbg.pieces = [] ∧
    (debugDetach s).ctl.dbg.haltCmd = none := by
  have hidle : DebugIdle (debugResume (askedDropped s)) := debugResume_idle ⟨rfl, rfl⟩
  rw [debugDetach_attached h]
  generalize debugResume (askedDropped s) = t at hidle
  exact ⟨rfl, hidle⟩

/-! ### The DBG commands (R446, R560 to R564) -/

section

variable {s : State} {c : CmdHdr}

theorem exec_dbgAttach {l : Byte} {x : Lane} (h : Accepted (.dbgAttach c l) s) (hl : laneArg s l = some x)
    (hthree : threeVote s = true → holder s .s1 = some x) (hrun : notRunning s = false) (hfree : debugAttached s = false)
    (hserv : inService s = false) (h2 : engSwitchOn s 2 = true) : exec (.dbgAttach c l) s =
      .next (finish c 0x0F00 .ok [] [] (onDbg (fun d => { d with attached := some x, before := lane s x }) s)) := by
  have hl' : (Lane.ofIdx l.toNat).filter (fun x => (fitted s.variant).contains x) = some x := hl
  have harg : (threeVote s && decide (holder s .s1 ≠ some x)) = false := by simpa using hthree
  exact exec_of_accepted h rfl rfl
    (by simp only [hl', judge, List.find?, hrun, hfree, harg, hserv, h2, Option.isNone_some, Bool.or_self, Bool.not_true, Option.map_none])
    (by simp only [hl'])

theorem exec_dbgDetach (h : Accepted (.dbgDetach c) s) (ha : debugAttached s = true) :
    exec (.dbgDetach c) s = .next (debugDetach (finish c 0x0F01 .ok [] [] s)) :=
  exec_of_accepted h rfl rfl (by simp [judge, ha]) rfl

theorem exec_dbgHalt (h : Accepted (.dbgHalt c) s) (ha : debugAttached s = true) (hrun : notRunning s = false) (hnone : s.ctl.dbg.haltCmd = none)
    (hthree : threeVote s = false) : exec (.dbgHalt c) s = .next (onDbg (fun d => { d with haltCmd := some (refOf c 0x0F02) }) s) :=
  exec_of_accepted h rfl rfl (by simp [judge, ha, hrun, hnone, hthree]) rfl

theorem exec_dbgResume {l : Lane} (h : Accepted (.dbgResume c) s) (hl : s.ctl.dbg.halted = some l) :
    exec (.dbgResume c) s = .next (debugResume (finish c 0x0F03 .ok [] [] s)) :=
  exec_of_accepted h rfl rfl (by simp [judge, hl]) rfl

theorem exec_dbgRead {sp : Byte} {a len : W32} (h : Accepted (.dbgRead c sp a len) s) (ha : debugAttached s = true)
    (hr : debugRangeBad sp.toNat a.toNat len.toNat = false) : exec (.dbgRead c sp a len) s = .next (finish c 0x0F04 .ok (le4 (debugView s).2.toNat)
      ((List.range len.toNat).map (fun k => debugByte (debugView s).1 sp.toNat (a.toNat + k))) s) :=
  exec_of_accepted h rfl rfl (by simp [judge, ha, hr]) rfl

/-- The rows of DBG_WRITE refuse nothing where a lane is attached and the space is the debugger's. -/
theorem dbgWrite_rows {sp : Byte} {a : W32} {data : List Byte} {l : Lane} (hl : s.ctl.dbg.attached = some l)
    (hr : debugRangeBad sp.toNat a.toNat data.length = false) (hsp : (threeVote s && (sp == 1 || sp == 4)) = false) :
    judge [(!debugAttached s, .notReady), (debugRangeBad sp.toNat a.toNat data.length, .badArg), (threeVote s && (sp == 1 || sp == 4), .deniedMode)] =
      none := by
  have ha : debugAttached s = true := by simp [debugAttached, hl]
  simp only [judge, List.find?, ha, hr, hsp, Bool.not_true, Option.map_none]

/-- A write passes over the voter in pieces, to every lane or to a halted one alone. -/
theorem exec_dbgWrite_pieces {sp : Byte} {a : W32} {data : List Byte} {l : Lane} (h : Accepted (.dbgWrite c sp a data) s)
    (hl : s.ctl.dbg.attached = some l) (hr : debugRangeBad sp.toNat a.toNat data.length = false)
    (hsp : (threeVote s && (sp == 1 || sp == 4)) = false) (ht : s.ctl.dbg.trippedByHalt = false) : exec (.dbgWrite c sp a data) s =
      .next (onDbg (fun d => { d with
        pieces := d.pieces ++ debugPieces s.ctl.dbg.halted sp.toNat (refOf c 0x0F05) data.length a.toNat data }) s) :=
  exec_of_accepted h rfl rfl (dbgWrite_rows hl hr hsp) (by rw [ht])

/-- A lane whose halt has tripped the module takes the write at once. -/
theorem exec_dbgWrite_halted {sp : Byte} {a : W32} {data : List Byte} {l k : Lane} (h : Accepted (.dbgWrite c sp a data) s)
    (hl : s.ctl.dbg.attached = some l) (hr : debugRangeBad sp.toNat a.toNat data.length = false)
    (hsp : (threeVote s && (sp == 1 || sp == 4)) = false) (ht : s.ctl.dbg.trippedByHalt = true) (hk : s.ctl.dbg.halted = some k) :
    exec (.dbgWrite c sp a data) s = .next (finish c 0x0F05 .ok (scnLe s) [] (onLane k (debugPutAll sp.toNat a.toNat data) s)) :=
  exec_of_accepted h rfl rfl (dbgWrite_rows hl hr hsp) (by rw [ht, hk])

end

/-- R446, R560 to R564. -/
theorem dbgCommandsAct : DbgCommandsAct := by
  refine fun s c => ⟨fun l x hl hthree hrun hfree hserv h2 h => exec_dbgAttach h hl hthree hrun hfree hserv h2,
    fun h ha => ⟨_, exec_dbgDetach h ha, debugDetach_clears (s := finish c 0x0F01 .ok [] [] s) ha⟩,
    fun h ha hrun hnone hthree => exec_dbgHalt h ha hrun hnone hthree, fun l h hl ht hd => ⟨_, exec_dbgResume h hl, ?_⟩,
    fun sp a len h ha hr => exec_dbgRead h ha hr,
    fun sp a data l h hl hr hsp => ⟨exec_dbgWrite_pieces h hl hr hsp, fun k ht hk => exec_dbgWrite_halted h hl hr hsp ht hk⟩⟩
  have hdom : domRun (resyncBegun l (finish c 0x0F03 .ok [] [] s)) (laneDom l) = true := hd
  rw [debugResume_halted (s := finish c 0x0F03 .ok [] [] s) hl ht, setVote, if_pos hdom]
  exact ⟨rfl, Quad_get_set_self .., rfl, rfl⟩

/-- Settles O56. -/
theorem tstAndDbgCommandsAct : Obligations.TstAndDbgCommandsAct := ⟨tstCommandsAct, dbgCommandsAct⟩

end Sys2Proof.Proofs.TestAndDebug
end

section
/-! A shutdown (O46, R424, R504, R515): the module restrictive, the shutdown BIST, and the hold. -/

namespace Sys2Proof.Proofs.Shutdown

open Sys2Proof Sys2Proof.Machine Sys2Proof.Claims Sys2Proof.Laws Sys2Proof.Proofs.Updates Sys2Proof.Proofs.Resets

/-! ### The hold (R504) -/

/-- What the sequencer's hold leaves. -/
structure HeldBySequencer (s t : State) : Prop where
  hold : t.power.shutdownHold = true
  source : ResetSrc.sysReset ∈ t.power.sources
  held : ∀ d, 1 ≤ d → d ≤ 11 → domRun t d = false
  bivouac : s.mgt.start.bivouac = true → t.mgt.start.bivouac = true
  service : s.mgt.start.service = false → t.mgt.start.service = false
  undriven : Undriven s → Undriven t

/-- SYS_RESET reaches every domain but PD0. -/
theorem mem_reach_sysReset {d : Nat} (hlow : 1 ≤ d) (hhigh : d ≤ 11) : d ∈ reach .sysReset := by
  simp only [reach, List.mem_cons, List.not_mem_nil, or_false]
  omega

theorem sysReset_holds {d : Nat} (hlow : 1 ≤ d) (hhigh : d ≤ 11) (cause : Nat) (s : State) : domRun (assertSrc .sysReset cause s) d = false :=
  assertSrc_holds (mem_reach_sysReset hlow hhigh) (by omega) cause s

theorem enterHold_holds (s : State) : HeldBySequencer s (enterHold s) := by
  have hres := restrained_assertSrc .sysReset (sourceCause .sysReset) (onStart (fun x => { x with shutdownPending := false, skipBist := false }) s)
  have hmem := mem_assertSrc .sysReset (sourceCause .sysReset) (onStart (fun x => { x with shutdownPending := false, skipBist := false }) s)
  have hheld := fun d (hlow : 1 ≤ d) (hhigh : d ≤ 11) => sysReset_holds hlow hhigh (sourceCause .sysReset)
    (onStart (fun x => { x with shutdownPending := false, skipBist := false }) s)
  rw [enterHold]
  generalize assertSrc .sysReset (sourceCause .sysReset) (onStart (fun x => { x with shutdownPending := false, skipBist := false }) s) = t at hres hmem hheld
  exact ⟨rfl, hmem, hheld, hres.bivouac, hres.service, hres.undriven⟩

/-! ### The module restrictive (R424) -/

/-- What an attempt or a wait in progress leaves as the module shuts down. -/
def attemptDropped (s : State) : State :=
  let s := if s.mgt.start.inAttempt then attemptEnds .aborted s else s
  if s.mgt.start.backoffUntil.isSome then endWait s else s

/-- The drive removed and the lanes stopped. -/
def driveRemoved (s : State) : State := onLanes (fun x => { x with core := { x.core with phase := .stopped } }) (allDead s)

/-- The stars substitute, and the run is over. -/
def runOver (s : State) : State :=
  let s := onStar .a (fun x => { x with substitution := true }) (onStar .b (fun x => { x with substitution := true }) s)
  onTrip (fun t => { t with ctrlReset := false }) (onStart (fun x => { x with bivouac := true, service := false, loaded := false }) s)

theorem goRestrictive_eq (s : State) : goRestrictive s = runOver (driveRemoved (ctlDown (attemptDropped s))) := rfl

theorem undriven_driveRemoved (s : State) : Undriven (driveRemoved s) := by
  intro p hp
  have hp' : p ∈ smMap VoutState.zero (deadVout s.clk.tick) s.ctl.vio.vout := hp
  obtain ⟨v, hv⟩ := smMap_mem hp'
  rw [hv]
  exact ⟨rfl, rfl, rfl, rfl⟩

theorem runOver_leaves (s : State) : (runOver s).mgt.start.bivouac = true ∧ (runOver s).mgt.start.service = false ∧
    ((runOver s).ctl.vio.vout = s.ctl.vio.vout) ∧ (runOver s).clk = s.clk ∧ (runOver s).mgt.mbx = s.mgt.mbx := ⟨rfl, rfl, rfl, rfl, rfl⟩

theorem goRestrictive_leaves (s : State) : (goRestrictive s).mgt.start.bivouac = true ∧ (goRestrictive s).mgt.start.service = false ∧
    Undriven (goRestrictive s) := by
  rw [goRestrictive_eq]
  obtain ⟨hbiv, hserv, hvout, -, -⟩ := runOver_leaves (driveRemoved (ctlDown (attemptDropped s)))
  refine ⟨hbiv, hserv, ?_⟩
  rw [Undriven, hvout]
  exact undriven_driveRemoved _

/-- REFCLK's ticks go on. -/
theorem goRestrictive_tick (s : State) : (goRestrictive s).clk.tick = s.clk.tick := by
  have hattempt : (attemptDropped s).clk = s.clk := by
    rw [attemptDropped]
    split <;> split <;> rfl
  have hdrive (t : State) : (driveRemoved t).clk = t.clk := rfl
  rw [goRestrictive_eq, (runOver_leaves _).2.2.2.1, hdrive, (spared_ctlDown _).tick, hattempt]

/-! ### Answers stay (R402, R424) -/

/-- No answer that waits is taken back. -/
def AnswersKept (s t : State) : Prop := s.mgt.mbx.finished ⊆ t.mgt.mbx.finished

theorem AnswersKept.refl (s : State) : AnswersKept s s := fun _ => id

theorem AnswersKept.trans {s t u : State} (h : AnswersKept s t) (h' : AnswersKept t u) : AnswersKept s u := fun _ hx => h' (h hx)

theorem answersKept_of_eq {s t : State} (h : t.mgt.mbx.finished = s.mgt.mbx.finished) : AnswersKept s t := fun _ hx => h ▸ hx

theorem answersKept_foldl {α : Type} {f : State → α → State} (h : ∀ s a, AnswersKept s (f s a)) (l : List α) (s : State) :
    AnswersKept s (l.foldl f s) := by
  induction l generalizing s with
  | nil => exact .refl s
  | cons a l ih => exact (h s a).trans (ih (f s a))

theorem answersKept_finishRef (c : CmdRef) (st : Status) (est : Nat) (result data : List Byte) (s : State) :
    AnswersKept s (finishRef c st est result data s) := List.subset_append_left ..

theorem answersKept_abortRef (c : Option CmdRef) (s : State) : AnswersKept s (abortRef c s) := by
  cases c with
  | none => exact .refl s
  | some c => exact answersKept_finishRef ..

theorem answersKept_olcRecord (kind status w : Nat) (crc : W32) (s : State) : AnswersKept s (olcRecord kind status w crc s) := by
  rw [olcRecord]
  split <;> exact answersKept_of_eq rfl

theorem answersKept_onOlc (f : OlcState → OlcState) (s : State) : AnswersKept s (onOlc f s) := answersKept_of_eq rfl

theorem answersKept_olcOvertaken (s : State) : AnswersKept s (olcOvertaken s) := by
  have aborted := ((answersKept_abortRef s.ctl.olc.swapCmd s).trans (answersKept_abortRef s.ctl.olc.cancelCmd _)).trans
    (answersKept_abortRef s.ctl.olc.loadCmd _)
  have cleared := aborted.trans (answersKept_onOlc (fun o => { o with loadCmd := none, cancelCmd := none, swapCmd := none }) _)
  unfold olcOvertaken
  dsimp only
  split
  · exact cleared.trans (answersKept_onOlc _ _)
  split
  · exact (cleared.trans (answersKept_olcRecord _ _ _ _ _)).trans (answersKept_onOlc _ _)
  · exact cleared.trans (answersKept_onOlc _ _)

theorem answersKept_forcesOvertaken (s : State) : AnswersKept s (forcesOvertaken s) := by
  have aborted := answersKept_foldl (f := fun s (q : ForceReq) => finishRef q.cmd .aborted 0 [] [] s) (fun s q => answersKept_finishRef ..)
    s.ctl.force.pending s
  exact aborted.trans (answersKept_of_eq rfl)

theorem answersKept_schedOvertaken (s : State) : AnswersKept s (schedOvertaken s) := by
  unfold schedOvertaken
  split
  · exact .refl s
  · next c _ => exact (answersKept_finishRef c.cmd .aborted 0 [] [] s).trans (answersKept_of_eq rfl)

theorem answersKept_rotationsAbandoned (s : State) : AnswersKept s (rotationsAbandoned s) := by
  have ended (ls : List Lane) (t : State) := answersKept_foldl (f := fun s l => rotationEnds l .aborted s) (fun _ _ => answersKept_of_eq rfl) ls t
  unfold rotationsAbandoned
  dsimp only
  split
  · exact (AnswersKept.trans (t := rotationEnds _ .aborted s) (answersKept_of_eq rfl) (ended _ _)).trans (answersKept_of_eq rfl)
  · exact (ended _ s).trans (answersKept_of_eq rfl)

theorem answersKept_debugEnds (s : State) : AnswersKept s (debugEnds s) := by
  have aborted := answersKept_foldl (f := fun s (p : DebugPiece) => abortRef p.last s) (fun s p => answersKept_abortRef p.last s) s.ctl.dbg.pieces
    (abortRef s.ctl.dbg.haltCmd s)
  exact ((answersKept_abortRef s.ctl.dbg.haltCmd s).trans aborted).trans (answersKept_of_eq rfl)

theorem answersKept_ctlDown (s : State) : AnswersKept s (ctlDown s) := by
  have booked (t : State) : AnswersKept t (bookDiversity t) := answersKept_of_eq rfl
  have cleared (t : State) : AnswersKept t (runCleared t) := answersKept_of_eq rfl
  rw [ctlDown_eq]
  exact (((((answersKept_olcOvertaken s).trans (answersKept_forcesOvertaken _)).trans (answersKept_schedOvertaken _)).trans (booked _)).trans
    ((answersKept_debugEnds _).trans (answersKept_rotationsAbandoned _))).trans (cleared _)

theorem answersKept_goRestrictive (s : State) : AnswersKept s (goRestrictive s) := by
  have hattempt : AnswersKept s (attemptDropped s) := by
    rw [attemptDropped]
    split <;> split <;> exact answersKept_of_eq rfl
  have hdrive (t : State) : AnswersKept t (driveRemoved t) := answersKept_of_eq rfl
  have hover (t : State) : AnswersKept t (runOver t) := answersKept_of_eq rfl
  rw [goRestrictive_eq]
  exact ((hattempt.trans (answersKept_ctlDown _)).trans (hdrive _)).trans (hover _)

/-! ### SYS_SHUTDOWN (R424, R504, R515) -/

/-- The marks of a shutdown: the cycle counters kept, the evidence of a BIST gone, and what the flags ask for. -/
def shutdownMarked (skip : Bool) (s : State) : State :=
  onStart (fun x => { x with shutdownPending := true, skipBist := skip })
    (onRet (fun r => { r with sram := { r.sram with evidPcc := 0xFFFFFFFF } }) (persistCycles s))

/-- The module as a shutdown leaves it before its test or its hold. -/
def shutDown (c : CmdHdr) (flags : Byte) (s : State) : State :=
  shutdownMarked (flags.getLsbD 0) (goRestrictive (finish c 0x0004 .pending [] [] s))

theorem exec_sysShutdown {s : State} {c : CmdHdr} {flags : Byte} (h : Accepted (.sysShutdown c flags) s) (ha : s.mgt.upd.mode ≠ .activating)
    (hr : s.mgt.upd.mode ≠ .rollback) : exec (.sysShutdown c flags) s =
      .next (if flags.getLsbD 0 then enterHold (shutDown c flags s) else beginShutdownBist (shutDown c flags s)) :=
  exec_of_accepted h rfl rfl (by simp [judge, ha, hr]) rfl

theorem shutDown_leaves (c : CmdHdr) (flags : Byte) (s : State) : (shutDown c flags s).mgt.start.bivouac = true ∧
    (shutDown c flags s).mgt.start.service = false ∧ Undriven (shutDown c flags s) ∧ (shutDown c flags s).clk.tick = s.clk.tick ∧
    (⟨c.ring.toNat, c.session, c.tag.toNat, 0x0004, .pending, 0, 0, false, [], [], false, 0⟩ : Completion) ∈ (shutDown c flags s).mgt.mbx.finished := by
  obtain ⟨hbiv, hserv, hdead⟩ := goRestrictive_leaves (finish c 0x0004 .pending [] [] s)
  have htick := goRestrictive_tick (finish c 0x0004 .pending [] [] s)
  have hmem := answersKept_goRestrictive (finish c 0x0004 .pending [] [] s)
    (List.mem_append_right s.mgt.mbx.finished (List.mem_singleton.2 (rfl : (⟨c.ring.toNat, c.session, c.tag.toNat, 0x0004, .pending, 0, 0, false, [], [], false, 0⟩ : Completion) = _)))
  rw [shutDown]
  generalize goRestrictive (finish c 0x0004 .pending [] [] s) = t at hbiv hserv hdead htick hmem
  exact ⟨hbiv, hserv, hdead, htick, hmem⟩

/-- The shutdown BIST begins with nothing driven, and keeps the answers. -/
theorem beginShutdownBist_leaves (s : State) : (beginShutdownBist s).mgt.start = s.mgt.start ∧ (beginShutdownBist s).ctl = s.ctl ∧
    (beginShutdownBist s).mgt.bist.running = true ∧ (beginShutdownBist s).mgt.bist.startedAt = s.clk.tick ∧
    (beginShutdownBist s).mgt.mbx = s.mgt.mbx := ⟨rfl, rfl, rfl, rfl, rfl⟩

/-- With nothing driven every output is without drive, listed or not. -/
theorem voutDead_of_undriven {s : State} (h : Undriven s) (k : Nat) : VoutDead (smGet VoutState.zero s.ctl.vio.vout k) := by
  obtain hz | hm := smGet_mem VoutState.zero s.ctl.vio.vout k
  · rw [hz]
    exact ⟨rfl, rfl, rfl, rfl⟩
  · exact h _ hm

/-- In bivouac the control plane does not run. -/
theorem ctlRuns_bivouac {s : State} (h : s.mgt.start.bivouac = true) : ctlRuns s = false := by
  simp [ctlRuns, h]

/-- Settles O46: step 1 leaves every output without drive, and neither the BIST nor the hold gives any back. -/
theorem shutdownLeavesTheModuleRestrictive : Obligations.ShutdownLeavesTheModuleRestrictive := by
  intro s c flags h ha hr
  obtain ⟨hbiv, hserv, hdead, htick, hmem⟩ := shutDown_leaves c flags s
  have hpending : (shutDown c flags s).mgt.start.shutdownPending = true := rfl
  have hx := exec_sysShutdown h ha hr
  generalize shutDown c flags s = u at hbiv hserv hdead htick hmem hpending hx
  cases hf : flags.getLsbD 0 with
  | false =>
    obtain ⟨hstart, hctl, hrun, hat, hmbx⟩ := beginShutdownBist_leaves u
    have hdead' : Undriven (beginShutdownBist u) := hdead
    have hbiv' : (beginShutdownBist u).mgt.start.bivouac = true := hstart ▸ hbiv
    refine ⟨beginShutdownBist u, hx.trans (by rw [hf]; rfl), hbiv', hstart ▸ hserv, voutDead_of_undriven hdead', ctlRuns_bivouac hbiv',
      fun _ => ⟨hrun, hat.trans htick, hstart ▸ hpending, hmbx ▸ hmem⟩, nofun⟩
  | true =>
    have hhold := enterHold_holds u
    refine ⟨enterHold u, hx.trans (by rw [hf]; rfl), hhold.bivouac hbiv, hhold.service hserv, voutDead_of_undriven (hhold.undriven hdead),
      ctlRuns_bivouac (hhold.bivouac hbiv), nofun, fun _ => ⟨hhold.hold, List.contains_iff_mem.2 hhold.source⟩⟩

end Sys2Proof.Proofs.Shutdown
end

section
/-! The heartbeat and the operating hours (R360, R391, R478), and the tests of a shutdown (R424, R515, R516) (O36). -/

namespace Sys2Proof.Proofs.HeartbeatAndTests

open Sys2Proof Sys2Proof.Machine Sys2Proof.Claims Sys2Proof.Laws Sys2Proof.Proofs.Sending Sys2Proof.Proofs.Resets Sys2Proof.Proofs.Shutdown

/-! ### The status registers (R391) -/

/-- The registers of the seals and of the seats. -/
def sealAndSeat (s : State) : W32 × W32 := (s.mgt.mbx.regs.sealStatus, s.mgt.mbx.regs.seatStatus)

theorem sealAndSeat_alert (i : Nat) (s : State) : sealAndSeat (alert i s) = sealAndSeat s := by
  rw [alert]
  split
  · obtain ⟨-, h⟩ | ⟨-, h⟩ := sendVector_cases 0 (onRegs (fun r => { r with alert := setBit r.alert i true }) s) <;> rw [h] <;> rfl
  · rfl

/-- What the host is told of a status word changes neither register and nothing but the mailbox. -/
theorem shown_keeps {new old : W32} {f : State → State} (ho : ∀ s, Outward s (f s)) (hf : ∀ s, sealAndSeat (f s) = sealAndSeat s) (s : State) :
    Outward s (shown new old f s) ∧ sealAndSeat (shown new old f s) = sealAndSeat s := by
  rw [shown]
  split
  · exact ⟨.refl s, rfl⟩
  · exact ⟨ho s, hf s⟩

theorem statusTold_keeps (old : RegFile) (dev sealW dom seat : BitVec 32) (s : State) :
    Outward s (statusTold old dev sealW dom seat s) ∧ sealAndSeat (statusTold old dev sealW dom seat s) = sealAndSeat s := by
  have told (code i : Nat) (b : List Byte) (t : State) : Outward t (raise code b (alert i t)) := (outward_alert i t).trans (outward_raise ..)
  obtain ⟨h1, r1⟩ := shown_keeps (new := dev) (old := old.devStatus) (outward_alert 0) (sealAndSeat_alert 0) s
  obtain ⟨h2, r2⟩ := shown_keeps (new := sealW) (old := old.sealStatus) (told 0x000B 2 (le4 sealW.toNat)) (sealAndSeat_alert 2) (shown dev old.devStatus (alert 0) s)
  obtain ⟨h3, r3⟩ := shown_keeps (new := dom) (old := old.domainState) (told 0x000C 4 (le4 dom.toNat)) (sealAndSeat_alert 4) (shown sealW old.sealStatus
    (fun s => raise 0x000B (le4 sealW.toNat) (alert 2 s)) (shown dev old.devStatus (alert 0) s))
  rw [statusTold]
  generalize hu : shown dom old.domainState (fun s => raise 0x000C (le4 dom.toNat) (alert 4 s)) _ = u
  obtain ⟨h4, r4⟩ := shown_keeps (new := seat) (old := old.seatStatus) (outward_raise 0x0003 (le4 seat.toNat ++ scnLe u)) (fun _ => rfl) u
  subst hu
  exact ⟨((h1.trans h2).trans h3).trans h4, ((r4.trans r3).trans r2).trans r1⟩

theorem statusWritten_shows (dev sealW dom seat : BitVec 32) (s : State) : Outward s (statusWritten dev sealW dom seat s) ∧
    sealAndSeat (statusWritten dev sealW dom seat s) = (sealW, seat) := ⟨rfl, rfl⟩

/-- MGT brings the registers up to date, and nothing else changes. -/
theorem refreshStatus_up {s : State} (h : mgtUp s = true) : Outward s (refreshStatus s) ∧
    sealAndSeat (refreshStatus s) = (sealWord s, seatStatus s) := by
  rw [refreshStatus, if_pos h]
  obtain ⟨ho, hr⟩ := statusTold_keeps s.mgt.mbx.regs (devStatus s) (sealWord s) (domainWord s) (seatStatus s)
    (statusWritten (devStatus s) (sealWord s) (domainWord s) (seatStatus s) s)
  obtain ⟨hw, hs⟩ := statusWritten_shows (devStatus s) (sealWord s) (domainWord s) (seatStatus s) s
  exact ⟨hw.trans ho, hr.trans hs⟩

/-! ### The heartbeat and the hours (R360, R391, R478) -/

theorem updPump_idle {s : State} (h : s.mgt.upd.mode = .idle) : updPump s = s := by
  rw [updPump]
  exact if_pos (by simp [h])

/-- MGT's main loop has counted. -/
def beaten (s : State) : State := onClk (fun c => { c with heartbeat := c.heartbeat + 1, beatAt := c.tick }) s

theorem exec_heartbeatTick {s : State} (hup : mgtUp s = true) (ht : s.clk.beatAt + 25000 ≤ s.clk.tick) (hidle : s.mgt.upd.mode = .idle) :
    exec .heartbeatTick s = .next (refreshStatus (beaten s)) := by
  have he : exec .heartbeatTick s = execHeartbeatTick s := rfl
  rw [he, execHeartbeatTick, if_pos (by simp [hup, ht])]
  exact congrArg (fun u => Host.Outcome.next (refreshStatus u)) (updPump_idle (s := beaten s) hidle)

/-- The diversity allowance rests on the hours as a whole, whoever holds them. -/
theorem diversityLeft_congr {s t : State} (hh : tb3Tick t = tb3Tick s) (hd : t.ctl.voter.diversity = s.ctl.voter.diversity) :
    diversityLeft t = diversityLeft s := by
  rw [diversityLeft, diversityLeft, hh, hd]

/-- MGT has taken the hours that RET counted. -/
def hoursTaken (s : State) : State := onClk (fun c => { c with tb3Hours := c.tb3Hours + c.hoursPending, hoursPending := 0 }) s

/-- R360, R391, R478. -/
theorem heartbeatAndHours : HeartbeatAndHours := by
  refine fun s hup => ⟨fun ht hidle => ⟨_, exec_heartbeatTick hup ht hidle, ?_⟩, fun hp => ⟨_, congrArg Host.Outcome.next (if_pos (by simp [hup, hp])), rfl, rfl, rfl, rfl, ?_⟩⟩
  · obtain ⟨ho, hregs⟩ := refreshStatus_up (s := beaten s) hup
    obtain ⟨hseal, hseat⟩ := Prod.mk.inj hregs
    exact ⟨congrArg ClockState.heartbeat ho.clk, congrArg ClockState.beatAt ho.clk, ho.ctl, ho.data, hseal, hseat⟩
  · exact diversityLeft_congr (t := persistCycles (hoursTaken s)) rfl rfl

/-! ### A die's tests (R510 to R516) -/

/-- What a die's tests mark: the dies done and failed, the repairs and the soft maps. -/
def testMarks (s : State) : BitVec 16 × BitVec 16 × BitVec 16 × Nat × SMap (List Repair) × Bool :=
  (s.mgt.bist.done, s.mgt.bist.lFail, s.mgt.bist.mFail, s.mgt.bist.repairs, s.mgt.bist.softMap, s.mgt.bist.running)

/-- `t` follows `s` by `n` records at least, with the marks and the voter as they were. -/
structure Recorded (n : Nat) (s t : State) : Prop where
  marks : testMarks t = testMarks s
  voter : t.ctl.voter = s.ctl.voter
  reports : s.mgt.recorder.reports.length + n ≤ t.mgt.recorder.reports.length

theorem Recorded.refl (s : State) : Recorded 0 s s := ⟨rfl, rfl, Nat.le_refl _⟩

theorem Recorded.trans {n m : Nat} {s t u : State} (h : Recorded n s t) (h' : Recorded m t u) : Recorded (n + m) s u :=
  ⟨h'.marks.trans h.marks, h'.voter.trans h.voter, by have := h.reports; have := h'.reports; omega⟩

theorem recorded_bistResult (r : RecRing) (block test : Nat) (st : Status) (used : Nat) (s : State) : Recorded 1 s (bistResult r block test st used s) :=
  ⟨rfl, rfl, Nat.le_of_eq (List.length_append (as := s.mgt.recorder.reports) (bs := [_])).symm⟩

theorem recorded_report (r : RecRing) (code source : Nat) (key detail : List Byte) (s : State) : Recorded 0 s (report r code source key detail s) :=
  ⟨rfl, rfl, List.length_append ▸ Nat.le_add_right ..⟩

theorem recorded_spareRecords (block : Nat) (made : List Repair) (s : State) : Recorded 0 s (spareRecords block made s) := by
  rw [spareRecords]
  generalize usedUp (repairsOf s block) made = ms
  induction ms generalizing s with
  | nil => exact .refl s
  | cons m ms ih => exact (recorded_report ..).trans (ih _)

/-- A die has a record of its logic BIST and one of its MBIST, and may have one of its retest. -/
theorem recorded_dieRecords (block : Nat) (v : Verdict) (s : State) : Recorded 2 s (dieRecords block v s) := by
  have both := (recorded_bistResult .vital block 1 (if v.logic then .ok else .checkFail) (v.made.filter isEngine).length s).trans
    (recorded_bistResult .vital block 2 (if v.memory then .ok else .checkFail) (v.made.filter (fun r => !isEngine r)).length _)
  rw [dieRecords]
  split
  · have h := both.trans (recorded_bistResult .vital block 3 (if v.passes then .ok else .checkFail) v.made.length _)
    exact ⟨h.marks, h.voter, Nat.le_of_succ_le h.reports⟩
  · exact both

/-- The marks that a verdict leaves. -/
theorem dieMarks_marks (block : Nat) (v : Verdict) (s : State) : testMarks (dieMarks block v s) = (setBit s.mgt.bist.done block true,
    setBit s.mgt.bist.lFail block (!v.lPass), setBit s.mgt.bist.mFail block (!v.mPass), s.mgt.bist.repairs + v.kept.length,
    (if v.kept.isEmpty then s.mgt.bist.softMap else smPut s.mgt.bist.softMap block (smGet [] s.mgt.bist.softMap block ++ v.kept)),
    s.mgt.bist.running) ∧ (dieMarks block v s).ctl.voter = s.ctl.voter ∧ (dieMarks block v s).mgt.recorder = s.mgt.recorder := by
  rw [dieMarks]
  cases v.kept.isEmpty
  all_goals
    cases Lane.ofIdx block with
    | none => exact ⟨rfl, rfl, rfl⟩
    | some l =>
      dsimp only
      split <;> exact ⟨rfl, rfl, rfl⟩

theorem getLsbD_setBit_self {w i : Nat} (x : BitVec w) (b : Bool) (h : i < w) : (setBit x i b).getLsbD i = b :=
  (getLsbD_setBit x i i b h).trans (if_pos rfl)

theorem exec_dieBistDone {s : State} {b : BitVec 4} {found : DieTest} (hup : mgtUp s = true) (hb : b.toNat ∈ bistBlocks s)
    (hd : domRun s (blockDom b.toNat) = true) (hn : s.mgt.bist.done.getLsbD b.toNat = false) (hrun : s.mgt.bist.running = true)
    (ht : (dieTested b.toNat (verdict s b.toNat found) s).mgt.bist.running = true) :
    exec (.dieBistDone b found) s = .next (moveEnd (dieTested b.toNat (verdict s b.toNat found) s)) := by
  have he : exec (.dieBistDone b found) s = execDieBistDone b found s := rfl
  have hb' : (bistBlocks s).contains b.toNat = true := List.contains_iff_mem.2 hb
  rw [he, execDieBistDone, if_pos (by simp only [hup, hb', hd, hn, shutdownTest, hrun, Bool.not_false, Bool.true_or, Bool.and_self])]
  exact congrArg Host.Outcome.next (if_pos ht)

/-- A die's test leaves the marks of its verdict and two records at least. -/
theorem dieTested_recorded (block : Nat) (v : Verdict) (s : State) : Recorded 2 (dieMarks block v s) (dieTested block v s) :=
  (recorded_dieRecords ..).trans (recorded_spareRecords ..)

/-- R515, R516, R424. -/
theorem shutdownTestsAndHolds : ShutdownTestsAndHolds := by
  refine fun s hup => ⟨fun b found hb hd hn hrun => ?_, fun hrun hall => ⟨_, congrArg Host.Outcome.next (if_pos (by simp [hup, hrun, hall])), ?_⟩,
    fun at_ hat hle => ?_⟩
  · have hrec := dieTested_recorded b.toNat (verdict s b.toNat found) s
    obtain ⟨hmarks, hvoter, hrecorder⟩ := dieMarks_marks b.toNat (verdict s b.toNat found) s
    have hall := hrec.marks.trans hmarks
    simp only [testMarks, Prod.mk.injEq] at hall
    obtain ⟨hdone, hl, hm, hrep, hsoft, hrunning⟩ := hall
    have hex := exec_dieBistDone hup hb hd hn hrun (hrunning.trans hrun)
    have hbit : b.toNat < 16 := b.isLt
    have hreports := hrec.reports
    rw [hrecorder] at hreports
    generalize dieTested b.toNat (verdict s b.toNat found) s = t at hex hdone hl hm hrep hsoft hreports hrec
    refine ⟨moveEnd t, hex, ?_, ?_, ?_, hrep, fun hne => ?_, hrec.voter.trans hvoter, hreports⟩
    · exact (congrArg (·.getLsbD b.toNat) hdone).trans (getLsbD_setBit_self _ _ hbit)
    · exact (congrArg (·.getLsbD b.toNat) hl).trans (getLsbD_setBit_self _ _ hbit)
    · exact (congrArg (·.getLsbD b.toNat) hm).trans (getLsbD_setBit_self _ _ hbit)
    · have hempty : ¬(verdict s b.toNat found).kept.isEmpty = true := by simpa using hne
      rw [if_neg hempty] at hsoft
      exact (congrArg (smFind · b.toNat) hsoft).trans ((smFind_smPut ..).trans (if_pos rfl))
  · have h := enterHold_holds (storeRecord false s.mgt.store.pccCopy s)
    exact ⟨h.hold, h.source, h.held⟩
  · have he : exec .sysResetAssert s = execSysResetAssert s := rfl
    refine ⟨assertSrc .sysReset (sourceCause .sysReset) (onPower (fun p => { p with sysResetAt := none }) s), ?_,
      (restrained_assertSrc ..).sysResetAt, mem_assertSrc .., fun d hlow hhigh => sysReset_holds hlow hhigh ..⟩
    rw [he, execSysResetAssert, hat]
    exact congrArg Host.Outcome.next (if_pos (by simp [hup, hle]))

/-- Settles O36. -/
theorem heartbeatAndShutdownTests : Obligations.HeartbeatAndShutdownTests := ⟨heartbeatAndHours, shutdownTestsAndHolds⟩

end Sys2Proof.Proofs.HeartbeatAndTests
end

section
/-! The SYS commands (O45, R424, R425). -/

namespace Sys2Proof.Proofs.SysCommands

open Sys2Proof Sys2Proof.Machine Sys2Proof.Claims Sys2Proof.Laws Sys2Proof.Proofs.Updates Sys2Proof.Proofs.Resets

section

variable {s : State} {c : CmdHdr}

/-! ### Echo and registers -/

theorem exec_sysNop {e : W32} (h : Accepted (.sysNop c e) s) : exec (.sysNop c e) s = .next (finish c 0x0000 .ok (le4 e.toNat) [] s) :=
  exec_of_accepted h rfl rfl rfl rfl

theorem exec_sysRegRead {off : W32} {n : BitVec 16} (h : Accepted (.sysRegRead c off n) s) (h4 : off.toNat % 4 = 0) (hlow : 1 ≤ n.toNat)
    (hhigh : n.toNat ≤ 256) (hend : off.toNat + 4 * n.toNat ≤ 0x4000) :
    let s' := if off.toNat ≤ 0x50 ∧ 0x50 < off.toNat + 4 * n.toNat then captureScn s else s
    let s'' := if off.toNat ≤ 0x184C ∧ 0x184C < off.toNat + 4 * n.toNat then autoRead s' else s'
    exec (.sysRegRead c off n) s = .next (finish c 0x0001 .ok []
      ((List.range n.toNat).flatMap (fun k => le4 (regRead s' (off.toNat + 4 * k)))) s'') :=
  exec_of_accepted h rfl rfl (by simp [judge, h4, hlow.not_gt, hhigh.not_gt, hend.not_gt]) rfl

/-! ### Rings (R425) -/

/-- The ring that SYS_RING_CREATE makes. -/
def ringMade (c : CmdHdr) (q : RingParam) : RingS :=
  { newRing q.rtype.toNat c.session q.log2.toNat with cplRing := q.cplRing.toNat, vector := q.vector.toNat, coalEntries := q.coalEntries.toNat, coalUs := q.coalUs.toNat, eventMask := q.eventMask, entrySize := entryBytes q, base := q.base }

theorem exec_sysRingCreate {q : RingParam} {k : Nat} (h : Accepted (.sysRingCreate c q) s) (hbad : ringParamBad s c.session q = false)
    (hk : (if q.ring.toNat = 0 then freeRing s else some q.ring.toNat) = some k) : exec (.sysRingCreate c q) s =
    .next (finish c 0x0002 .ok (byte k) [] (onRing k (fun _ => ringMade c q) s)) :=
  exec_of_accepted h rfl rfl (by rw [hk]; simp only [judge, List.find?, hbad, Option.isNone_some, Option.map_none]) (by rw [hk]; rfl)

theorem ringOf_onRing (k : Nat) (f : RingS → RingS) (s : State) : ringOf (onRing k f s) k = f (ringOf s k) := smGet_smSet_self ..
theorem ringOf_onRing_ne {k j : Nat} (f : RingS → RingS) (s : State) (h : j ≠ k) : ringOf (onRing k f s) j = ringOf s j := smGet_smSet_ne _ _ _ h

theorem ringOf_finish (c : CmdHdr) (op : Nat) (st : Status) (result data : List Byte) (s : State) (j : Nat) :
    ringOf (finish c op st result data s) j = ringOf s j := rfl

/-- A ring is destroyed with what is in flight from it; a completion ring goes only where no command ring names it. -/
theorem exec_sysRingDestroy {r : Byte} (h : Accepted (.sysRingDestroy c r) s) (h0 : r.toNat ≠ 0) (hthere : ringThere (ringOf s r.toNat) = true)
    (hown : (ringOf s r.toNat).session = c.session)
    (hfree : (ringOf s r.toNat).rtype = 2 → ∀ p ∈ s.mgt.mbx.rings, p.2.rtype = 1 → p.2.cplRing ≠ r.toNat) : exec (.sysRingDestroy c r) s =
    .next (finish c 0x0003 .ok [] [] (onMbx (fun m => { m with rings := smDrop m.rings r.toNat, inflight := m.inflight.filter (fun f => !(decide (f.ring = r.toNat) && decide (f.session = c.session))) }) s)) := by
  have hnamed : (decide ((ringOf s r.toNat).rtype = 2) &&
      s.mgt.mbx.rings.any (fun p => decide (p.2.rtype = 1) && decide (p.2.cplRing = r.toNat) && decide (r.toNat ≠ 0))) = false := by
    rw [Bool.and_eq_false_imp]
    intro h2
    refine List.any_eq_false.2 fun p hp => ?_
    simp only [Bool.and_eq_true, decide_eq_true_eq, not_and]
    exact fun ⟨h1, hc⟩ => absurd hc (hfree (of_decide_eq_true h2) p hp h1)
  have hbad : (decide (r.toNat = 0) || !ringThere (ringOf s r.toNat) || decide ((ringOf s r.toNat).session ≠ c.session) ||
      (decide ((ringOf s r.toNat).rtype = 2) &&
        s.mgt.mbx.rings.any (fun p => decide (p.2.rtype = 1) && decide (p.2.cplRing = r.toNat) && decide (r.toNat ≠ 0)))) = false := by
    rw [hnamed, hthere, decide_eq_false h0, decide_eq_false (not_not.2 hown)]
    rfl
  exact exec_of_accepted h rfl rfl (congrArg (fun b => judge [(b, .badArg)]) hbad) rfl

/-! ### Start and resets (R424, R517) -/

theorem exec_sysStart_waiting (h : Accepted (.sysStart c) s) (hb : s.mgt.bist.running = false) (hr : ctlRuns s = false) :
    exec (.sysStart c) s = .next (if s.mgt.start.backoffUntil.isSome then endWait (finish c 0x0005 .ok [] [] s) else finish c 0x0005 .ok [] [] s) :=
  exec_of_accepted h rfl rfl (by simp [judge, hr]) (if_neg (fun hb' : s.mgt.bist.running = true => by simp [hb] at hb'))

/-- The shutdown BIST is abandoned: its record stands, and no shutdown waits. -/
def bistAbandoned (c : CmdHdr) (s : State) : State :=
  onStart (fun x => { x with shutdownPending := false }) (storeRecord true s.mgt.store.pccCopy (finish c 0x0005 .ok [] [] s))

theorem exec_sysStart_testing (h : Accepted (.sysStart c) s) (hb : s.mgt.bist.running = true) :
    exec (.sysStart c) s = .next (assertSrc .sysReset (sourceCause .sysReset) (bistAbandoned c s)) :=
  exec_of_accepted h rfl rfl (by simp [judge, hb]) (if_pos hb)

theorem exec_sysReset (h : Accepted (.sysReset c) s) (h1 : switchOn s 1 = true) : exec (.sysReset c) s = .next (onPower (fun p => { p with
    sysResetAt := some (match p.sysResetAt with | some t => min t (s.clk.tick + msTicks 10) | none => s.clk.tick + msTicks 10) })
    (finish c 0x0006 .ok [] [] s)) :=
  exec_of_accepted h rfl rfl (by simp [judge, h1]) rfl

theorem inForce_of_ctlRuns (h : ctlRuns s = true) : s.ctl.trip.inForce = false := by
  simp only [ctlRuns, Bool.and_eq_true, Bool.not_eq_true'] at h
  exact h.1.2

theorem exec_sysCtrlReset (h : Accepted (.sysCtrlReset c) s) : exec (.sysCtrlReset c) s = .next (ctrlReset (finish c 0x0007 .ok (scnLe s) [] s)) :=
  exec_of_accepted h rfl rfl rfl rfl

/-- SYS_CTRL_RESET takes the trip sequence where the control plane runs. -/
theorem ctrlReset_running (h : ctlRuns s = true) : ctrlReset s = tripNow 5 true (noteCause 5 s) := by
  rw [ctrlReset, if_neg (by simp [inForce_of_ctlRuns h]), if_pos h]

theorem ctrlReset_still (h : ctlRuns s = false) (ht : s.ctl.trip.inForce = false) : ctrlReset s = assertSrc .ctrlReset (sourceCause .ctrlReset) s := by
  rw [ctrlReset, if_neg (by simp [ht]), if_neg (by simp [h])]

theorem exec_sysTrip (h : Accepted (.sysTrip c) s) : exec (.sysTrip c) s =
    .next (if s.ctl.trip.inForce then finish c 0x0008 .ok (scnLe s) [] s else trip 0x0D true (finish c 0x0008 .ok (scnLe s) [] s)) :=
  exec_of_accepted h rfl rfl rfl rfl

theorem trip_running (h : ctlRuns s = true) (hs : silentRun s = false) (cause : Nat) (reset : Bool) : trip cause reset s = tripNow cause reset s := by
  rw [trip, if_neg (by simp [inForce_of_ctlRuns h]), if_neg (by simp [hs]), if_pos h]

theorem exec_sysBlockReset {b : Byte} {r : ResetSrc} (h : Accepted (.sysBlockReset c b) s) (hb : blockTarget b = some r)
    (ha : blockAbsent s (some r) = false) (hd : blockDenied s (some r) = false) : exec (.sysBlockReset c b) s =
    .next (assertSrc r 0 (reportSvc 0x0106 0 (byte b.toNat) [] (finish c 0x0009 .ok [] [] s))) :=
  exec_of_accepted h rfl rfl (by rw [hb]; simp only [judge, List.find?, ha, hd, Option.map_none]) (by rw [hb])

end

/-- Settles O45, command by command. -/
theorem sysCommandsAct : Obligations.SysCommandsAct := by
  refine fun s c => ⟨fun e h => exec_sysNop h, fun off n h => exec_sysRegRead h,
    fun q k h hbad hk => ⟨_, exec_sysRingCreate h hbad hk, (ringOf_finish ..).trans (ringOf_onRing ..),
      fun j hj => (ringOf_finish ..).trans (ringOf_onRing_ne _ s hj), rfl, rfl, rfl, rfl⟩,
    fun r h h0 hthere hown hfree => ⟨_, exec_sysRingDestroy h h0 hthere hown hfree, rfl, rfl, rfl, rfl, rfl⟩,
    exec_sysStart_waiting, fun h hb => ⟨_, exec_sysStart_testing h hb, ?_⟩, exec_sysReset, fun h hr => ?_, fun h hr ht => ?_, fun h ht => ?_, fun h hr hs => ?_,
    fun b r h => exec_sysBlockReset h⟩
  · have hres := restrained_assertSrc .sysReset (sourceCause .sysReset) (bistAbandoned c s)
    exact ⟨List.contains_iff_mem.2 (mem_assertSrc .sysReset _ _), hres.shutdownPending, hres.running⟩
  · have hr' : ctlRuns (finish c 0x0007 .ok (scnLe s) [] s) = true := hr
    rw [exec_sysCtrlReset h, ctrlReset_running hr']
  · have hr' : ctlRuns (finish c 0x0007 .ok (scnLe s) [] s) = false := hr
    rw [exec_sysCtrlReset h, ctrlReset_still hr' ht]
  · rw [exec_sysTrip h, if_pos ht]
  · have hr' : ctlRuns (finish c 0x0008 .ok (scnLe s) [] s) = true := hr
    have hs' : silentRun (finish c 0x0008 .ok (scnLe s) [] s) = false := hs
    rw [exec_sysTrip h, if_neg (by simp [inForce_of_ctlRuns hr]), trip_running hr' hs']

end Sys2Proof.Proofs.SysCommands
end

section
/-! Queues of the mailbox: the fetch of descriptors and the posting of completions (O42, R396 to R402). -/

namespace Sys2Proof.Proofs.Queues

open Sys2Proof Sys2Proof.Machine Sys2Proof.Claims Sys2Proof.Laws Sys2Proof.Proofs.Sending Sys2Proof.Proofs.SysCommands

/-! ### What a message or a datagram leaves of the queues -/

/-- `t` has the queues of `s` and as many sessions: what a message or a datagram may change lies elsewhere. -/
structure Queued (s t : State) : Prop where
  rings : t.mgt.mbx.rings = s.mgt.mbx.rings
  finished : t.mgt.mbx.finished = s.mgt.mbx.finished
  inflight : t.mgt.mbx.inflight = s.mgt.mbx.inflight
  sessions : t.mgt.mbx.sessions.length = s.mgt.mbx.sessions.length

theorem Queued.refl (s : State) : Queued s s := ⟨rfl, rfl, rfl, rfl⟩

theorem Queued.trans {s t u : State} (h : Queued s t) (h' : Queued t u) : Queued s u :=
  ⟨h'.rings.trans h.rings, h'.finished.trans h.finished, h'.inflight.trans h.inflight, h'.sessions.trans h.sessions⟩

theorem Queued.ringOf {s t : State} (h : Queued s t) (k : Nat) : ringOf t k = ringOf s k := congrArg (smGet RingS.zero · k) h.rings

theorem queued_onSession (n : Nat) (f : Session → Session) (s : State) : Queued s (onSession n f s) :=
  ⟨rfl, rfl, rfl, List.length_map _⟩

theorem queued_dsend (n type ring count index : Nat) (b : List Byte) (s : State) : Queued s (dsend n type ring count index b s) :=
  queued_onSession ..

theorem queued_sendEntry (key n i : Nat) (s : State) : Queued s (sendEntry key n i s) := by
  rw [sendEntry]
  split
  · exact queued_dsend ..
  · exact .refl s

theorem queued_sendVector (v : Nat) (s : State) : Queued s (sendVector v s) := by
  obtain ⟨-, h⟩ | ⟨-, h⟩ := sendVector_cases v s <;> rw [h] <;> exact ⟨rfl, rfl, rfl, rfl⟩

theorem queued_snoop (p f : Nat) (first last : Bool) (b : List Byte) (s : State) : Queued s (snoop p f first last b s) := by
  obtain ⟨units, h⟩ := Proofs.Planes.snoop_eq p f first last b s
  rw [h]
  exact ⟨rfl, rfl, rfl, rfl⟩

theorem queued_snoopEntry (session : Option Nat) (r : Nat) (e : Completion) (s : State) : Queued s (snoopEntry session r e s) := by
  rw [snoopEntry]
  split
  · exact .refl s
  · split
    · exact queued_snoop ..
    · exact (queued_snoop ..).trans (queued_snoop ..)

theorem outward_snoopEntry (session : Option Nat) (r : Nat) (e : Completion) (s : State) : Outward s (snoopEntry session r e s) := by
  rw [snoopEntry]
  split
  · exact .refl s
  · split
    · exact outward_snoop ..
    · exact (outward_snoop ..).trans (outward_snoop ..)

/-! ### An entry is written (R399, R405, R406) -/

/-- In `t` the ring holds entry `e` at what was its producer index, and goes on by one; every other ring and the commands finished and in flight stay. -/
structure Entered (key : Nat) (e : Completion) (s t : State) : Prop where
  slot : smFind (ringOf t key).slots (ringOf s key).prod = some { e with phase := (ringOf s key).phase }
  prod : (ringOf t key).prod = ((ringOf s key).prod + 1) % ringSize (ringOf s key)
  cons : (ringOf t key).cons = (ringOf s key).cons
  others : ∀ k, k ≠ key → ringOf t k = ringOf s k
  finished : t.mgt.mbx.finished = s.mgt.mbx.finished
  inflight : t.mgt.mbx.inflight = s.mgt.mbx.inflight

theorem Entered.queued {key : Nat} {e : Completion} {s t u : State} (h : Entered key e s t) (hq : Queued t u) : Entered key e s u where
  slot := by rw [hq.ringOf, h.slot]
  prod := by rw [hq.ringOf, h.prod]
  cons := by rw [hq.ringOf, h.cons]
  others k hk := by rw [hq.ringOf, h.others k hk]
  finished := hq.finished.trans h.finished
  inflight := hq.inflight.trans h.inflight

/-- A message about the ring clears its count alone. -/
theorem Entered.ringMessage {key : Nat} {e : Completion} {s t : State} (h : Entered key e s t) : Entered key e s (ringMessage key t) := by
  have hclear : Entered key e s (onRing key (fun r => { r with unsent := 0, firstAt := none }) t) :=
    { slot := by rw [ringOf_onRing]; exact h.slot
      prod := by rw [ringOf_onRing]; exact h.prod
      cons := by rw [ringOf_onRing]; exact h.cons
      others := fun k hk => (ringOf_onRing_ne _ _ hk).trans (h.others k hk)
      finished := h.finished
      inflight := h.inflight }
  rw [Machine.ringMessage]
  split
  · exact hclear
  · exact hclear.queued (queued_sendVector ..)

theorem entered_writeEntry (key : Nat) (e : Completion) (s : State) : Entered key e s (writeEntry key e s) := by
  rw [writeEntry]
  have hput : Entered key e s (onRing key (fun r =>
    let n := r.prod + 1
    { r with slots := smPut r.slots r.prod { e with phase := r.phase }, prod := n % ringSize r,
             phase := if n = ringSize r then !r.phase else r.phase, unsent := r.unsent + 1,
             firstAt := match r.firstAt with | some t => some t | none => some s.clk.tick }) s) :=
    { slot := by rw [ringOf_onRing, smFind_smPut, if_pos rfl]
      prod := by rw [ringOf_onRing]
      cons := by rw [ringOf_onRing]
      others := fun k hk => ringOf_onRing_ne _ _ hk
      finished := rfl
      inflight := rfl }
  split
  · exact hput.queued (queued_sendEntry ..)
  · split
    · exact hput.ringMessage
    · exact hput

/-! ### Fetch (R400 to R402) -/

/-- The descriptor in hand: of a session what its datagrams brought. -/
def fetched (s : State) (session : Option Nat) (key : Nat) (given : Descriptor) : Descriptor :=
  match session with | some _ => (smFind (ringOf s key).descs (ringOf s key).cons).getD given | none => given

/-- The ring's consumer index is one further and the command is in flight. -/
def taken (s : State) (session : Option Nat) (r key : Nat) (d : Descriptor) : State :=
  onMbx (fun m => { m with turn := turnRank key, inflight := m.inflight ++ [⟨r, session, d.tag.toNat, d.opcode, d.fence⟩] })
    (onRing key (fun y => { y with cons := (y.cons + 1) % ringSize y }) s)

/-- A fetched command that is refused finishes at once. -/
def refusedAtFetch (session : Option Nat) (r : Nat) (d : Descriptor) (st : Option (Status × Bool)) (s : State) : State :=
  match st with
  | some (c, dup) => onMbx (fun m => { m with finished := m.finished ++ [⟨r, session, d.tag.toNat, d.opcode, c, 0, 0, dup, [], [], false, 0⟩] }) s
  | none => s

theorem refusedAtFetch_eq (session : Option Nat) (r : Nat) (d : Descriptor) (st : Option (Status × Bool)) (s : State) :
    ∃ done, refusedAtFetch session r d st s = onMbx (fun m => { m with finished := done }) s := by
  cases st with
  | none => exact ⟨s.mgt.mbx.finished, rfl⟩
  | some p => exact ⟨_, rfl⟩

theorem exec_commandFetch {s : State} {r : Byte} {session : Option Nat} {given : Descriptor} (hup : mgtUp s = true) (hready : s.mgt.mbx.ready = true)
    (hroom : s.mgt.mbx.inflight.length < 256) (hown : (ringOf s (cmdKey session r.toNat)).session = session)
    (hnext : nextFetch s = some (cmdKey session r.toNat)) : exec (.commandFetch r session given) s =
    .next (refusedAtFetch session r.toNat (fetched s session (cmdKey session r.toNat) given)
      (fetchStatus s session r.toNat (fetched s session (cmdKey session r.toNat) given))
      (taken s session r.toNat (cmdKey session r.toNat) (fetched s session (cmdKey session r.toNat) given))) :=
  congrArg Host.Outcome.next (if_pos (by simp only [hup, hready, hroom, hown, hnext, decide_true, Bool.and_true]))

section
variable {s : State} {session : Option Nat} {r : Nat} {d : Descriptor}

theorem fetchStatus_unknown (h : opcodeKnown d.opcode = false) : fetchStatus s session r d = some (.unknownOpcode, false) := by
  simp [fetchStatus, h]

theorem fetchStatus_layout (h : opcodeKnown d.opcode = true) (hl : d.layout ≠ 1) : fetchStatus s session r d = some (.version, false) := by
  simp [fetchStatus, h, hl]

variable (h : opcodeKnown d.opcode = true) (hl : d.layout = 1)
include h hl

theorem fetchStatus_again (ha : s.mgt.mbx.inflight.any (fun f => decide (f.ring = r) && decide (f.session = session) && decide (f.tag = d.tag.toNat)) = true) :
    fetchStatus s session r d = some (.badArg, true) := by
  simp only [fetchStatus, h, hl, ha, Bool.not_true, Bool.false_eq_true, if_false, if_true, ne_eq, not_true_eq_false]

variable (ha : s.mgt.mbx.inflight.any (fun f => decide (f.ring = r) && decide (f.session = session) && decide (f.tag = d.tag.toNat)) = false)
include ha

theorem fetchStatus_ringCommand (hr : r ≠ 0) (ho : d.opcode = 2 ∨ d.opcode = 3) : fetchStatus s session r d = some (.badArg, false) := by
  simp only [fetchStatus, h, hl, ha, Bool.not_true, Bool.false_eq_true, if_false, ne_eq, not_true_eq_false]
  exact if_pos ⟨hr, ho⟩

theorem fetchStatus_taken (ho : r = 0 ∨ (d.opcode ≠ 2 ∧ d.opcode ≠ 3)) : fetchStatus s session r d = none := by
  simp only [fetchStatus, h, hl, ha, Bool.not_true, Bool.false_eq_true, if_false, ne_eq, not_true_eq_false]
  exact if_neg fun ⟨hr, hd⟩ => ho.elim hr fun ⟨h2, h3⟩ => hd.elim h2 h3

end

theorem fetchTakesTheTurn : FetchTakesTheTurn := by
  intro s r session given key hup hready hroom hown hnext d fly ended again
  have he := exec_commandFetch (given := given) hup hready hroom hown hnext
  rw [he]
  change ∃ t, Host.Outcome.next (refusedAtFetch session r.toNat d (fetchStatus s session r.toNat d) (taken s session r.toNat (cmdKey session r.toNat) d)) = .next t ∧ _
  obtain ⟨done, hdone⟩ := refusedAtFetch_eq session r.toNat d (fetchStatus s session r.toNat d) (taken s session r.toNat (cmdKey session r.toNat) d)
  have hrings : ∀ k, ringOf (refusedAtFetch session r.toNat d (fetchStatus s session r.toNat d) (taken s session r.toNat (cmdKey session r.toNat) d)) k =
      ringOf (onRing (cmdKey session r.toNat) (fun y => { y with cons := (y.cons + 1) % ringSize y }) s) k := fun k => by rw [hdone]; rfl
  refine ⟨_, rfl, by rw [hrings, ringOf_onRing], by rw [hrings, ringOf_onRing], fun k hk => by rw [hrings, ringOf_onRing_ne _ _ hk],
    by rw [hdone]; rfl, by rw [hdone]; rfl, by rw [hdone]; rfl, by rw [hdone]; rfl, by rw [hdone]; rfl, ?_, ?_, ?_, ?_, ?_⟩
  · intro h
    rw [fetchStatus_unknown h]
    rfl
  · intro h hl
    rw [fetchStatus_layout h hl]
    rfl
  · intro h hl ha
    rw [fetchStatus_again h hl ha]
    rfl
  · intro h hl ha hr ho
    rw [fetchStatus_ringCommand h hl ha hr ho]
    rfl
  · intro h hl ha ho
    rw [fetchStatus_taken h hl ha ho]
    rfl

/-! ### Completions (R399, R402) -/

/-- The completion passes the snoop point of its command ring and enters its queue. -/
def postedAt (key : Nat) (e : Completion) (s : State) : State :=
  writeEntry key e (snoopEntry e.session e.ring { e with phase := (ringOf s key).phase } s)

/-- The command of the completion is in flight no longer. -/
def landed (e : Completion) (s : State) : State := onMbx (fun m => { m with inflight := endFlight e m.inflight }) s

/-- A completion taken from the finished ones is written where its command is awaited and its queue stands. -/
def posted (e : Completion) (s : State) : State :=
  if awaited s e then
    if ringThere (ringOf (landed e s) (cplKey s e.session e.ring)) then
      postedAt (cplKey s e.session e.ring) { e with cmdIndex := (ringOf s (cmdKey e.session e.ring)).cons } (landed e s)
    else landed e s
  else s

theorem posted_awaited {e : Completion} {s : State} (hawait : awaited s e = true) (hthere : ringThere (ringOf s (cplKey s e.session e.ring)) = true) :
    posted e s = postedAt (cplKey s e.session e.ring) { e with cmdIndex := (ringOf s (cmdKey e.session e.ring)).cons } (landed e s) := by
  have hthere' : ringThere (ringOf (landed e s) (cplKey s e.session e.ring)) = true := hthere
  rw [posted, if_pos hawait, if_pos hthere']

/-- The first finished command whose queue has room is the one posted. -/
theorem exec_completionPost_first {s : State} {e : Completion} {rest : List Completion} (hup : mgtUp s = true)
    (hfin : s.mgt.mbx.finished = e :: rest) (hpost : postable s e = true) :
    exec .completionPost s = .next (posted e (onMbx (fun m => { m with finished := rest }) s)) := by
  have hfind : s.mgt.mbx.finished.find? (postable s) = some e := by rw [hfin, List.find?_cons_of_pos hpost]
  have herase : onMbx (fun m => { m with finished := m.finished.eraseP (postable s) }) s = onMbx (fun m => { m with finished := rest }) s := by
    simp only [onMbx, onMgt, hfin, List.eraseP_cons_of_pos hpost]
  have he : exec .completionPost s = .next (match s.mgt.mbx.finished.find? (postable s) with
    | none => s
    | some e => if mgtUp s then posted e (onMbx (fun m => { m with finished := m.finished.eraseP (postable s) }) s) else s) := rfl
  rw [he, hfind, ← herase]
  exact congrArg Host.Outcome.next (if_pos hup)

/-- The mailbox once the first completion is taken for its queue. -/
def posting (e : Completion) (rest : List Completion) (s : State) : State :=
  landed e (onMbx (fun m => { m with finished := rest }) s)

theorem exec_completionPost {s : State} {e : Completion} {rest : List Completion} (hup : mgtUp s = true) (hfin : s.mgt.mbx.finished = e :: rest)
    (hawait : awaited s e = true) (hthere : ringThere (ringOf s (cplKey s e.session e.ring)) = true)
    (hroom : ringHasRoom (cplKey s e.session e.ring) (ringOf s (cplKey s e.session e.ring)) = true) : exec .completionPost s =
    .next (postedAt (cplKey s e.session e.ring) { e with cmdIndex := (ringOf s (cmdKey e.session e.ring)).cons } (posting e rest s)) := by
  have hpost : postable s e = true := by simp only [postable, hawait, hthere, hroom, Bool.not_true, Bool.false_or, Bool.or_true]
  rw [exec_completionPost_first hup hfin hpost]
  exact congrArg Host.Outcome.next (posted_awaited (s := onMbx (fun m => { m with finished := rest }) s) hawait hthere)

theorem completionsAreWritten : CompletionsAreWritten := by
  intro s e rest hup hfin hawait key hthere hroom
  rw [exec_completionPost hup hfin hawait hthere hroom]
  let d := { e with cmdIndex := (ringOf s (cmdKey e.session e.ring)).cons }
  let u := snoopEntry d.session d.ring { d with phase := (ringOf (posting e rest s) key).phase } (posting e rest s)
  have hsnoop : Queued (posting e rest s) u := queued_snoopEntry ..
  have hout : Outward (posting e rest s) (writeEntry key d u) := (outward_snoopEntry ..).trans (outward_writeEntry ..)
  have hring : ∀ k, ringOf u k = ringOf s k := hsnoop.ringOf
  obtain ⟨hslot, hprod, hcons, hothers, hfinished, hinflight⟩ := entered_writeEntry key d u
  rw [hring] at hslot hprod hcons
  exact ⟨_, rfl, hfinished.trans hsnoop.finished, hinflight.trans hsnoop.inflight, hslot, hprod, hcons,
    fun k hk => (hothers k hk).trans (hring k), hout.ctl, hout.data, hout.power⟩

/-- Settles O42: the turn decides what is fetched, and a completion is written once its queue has room. -/
theorem commandsAreFetchedAndCompleted : Obligations.CommandsAreFetchedAndCompleted :=
  ⟨fetchTakesTheTurn, completionsAreWritten⟩

end Sys2Proof.Proofs.Queues
end

section
/-! The host's side of the mailbox: MBX_EN, resets, doorbells and register writes (O41, R387, R391 to R396). -/

namespace Sys2Proof.Proofs.HostRegisters

open Sys2Proof Sys2Proof.Machine Sys2Proof.Claims Sys2Proof.Laws Sys2Proof.Proofs.SysCommands

variable {s : State}

/-! ### MBX_EN (R391, R396) -/

theorem exec_mbxEnable (h : barUp s = true) : exec .mbxEnable s = .next (mbxEnableWrite s) := congrArg Host.Outcome.next (if_pos h)

/-- The rings that MBX_EN takes, with the exponents of their sizes. -/
def adminTaken (r : RegFile) (a b : Nat) (s : State) : State :=
  onRegs (fun x => { x with mbxEn := true })
    (onRing 0 (fun _ => { newRing 1 none a with base := r.admCmd, cplRing := 256 }) (onRing 256 (fun _ => { newRing 2 none b with base := r.admCpl }) s))

theorem ringOf_adminTaken (r : RegFile) (a b : Nat) (s : State) (k : Nat) : ringOf (adminTaken r a b s) k =
    ringOf (onRing 0 (fun _ => { newRing 1 none a with base := r.admCmd, cplRing := 256 }) (onRing 256 (fun _ => { newRing 2 none b with base := r.admCpl }) s)) k := rfl

section
variable (hup : mgtUp s = true) (hen : s.mgt.mbx.regs.mbxEn = false) (hreset : s.mgt.mbx.regs.mbxReset = false)
include hup hen hreset

theorem mbxEnableWrite_open : (s.mgt.mbx.regs.mbxEn || s.mgt.mbx.regs.mbxReset || !mgtUp s) = false := by simp only [hup, hen, hreset, Bool.or_false, Bool.not_true]

theorem mbxEnableWrite_taken {a b : Nat} (ha : adminLog2 (s.mgt.mbx.regs.admEntries.toNat % 65536) = some a)
    (hb : adminLog2 (s.mgt.mbx.regs.admEntries.toNat / 65536) = some b) (hcmd : s.mgt.mbx.regs.admCmd.toNat % 64 = 0)
    (hcpl : s.mgt.mbx.regs.admCpl.toNat % 32 = 0) : mbxEnableWrite s = adminTaken s.mgt.mbx.regs a b s := by
  simp only [mbxEnableWrite, mbxEnableWrite_open hup hen hreset, Bool.false_eq_true, if_false, ha, hb]
  exact if_pos ⟨hcmd, hcpl⟩

theorem mbxEnableWrite_badEntries (ha : adminLog2 (s.mgt.mbx.regs.admEntries.toNat % 65536) = none) : mbxEnableWrite s = alert 5 s := by
  simp only [mbxEnableWrite, mbxEnableWrite_open hup hen hreset, Bool.false_eq_true, if_false, ha]

end

/-! ### What resets destroy (R393, R567) -/

theorem pcieReset_rings (s : State) : (pcieReset s).mgt.mbx.rings = s.mgt.mbx.rings.filter (fun p => p.2.session.isSome) :=
  List.filter_congr fun p _ => by cases p.2.session <;> rfl

theorem exec_mbxResetDone (h : s.mgt.mbx.regs.mbxReset = true) :
    exec .mbxResetDone s = .next (onRegs (fun r => { r with mbxReset := false }) (pcieReset s)) := congrArg Host.Outcome.next (if_pos h)

theorem exec_perstN (h : domRun s 1 = true) :
    exec .perstN s = .next (onRegs (fun r => { r with mbxReset := false, msixTable := [], msixPending := 0 }) (pcieReset s)) :=
  congrArg Host.Outcome.next (if_pos h)

/-! ### Doorbells (R394) -/

section
variable {r i : Nat} (hreset : s.mgt.mbx.regs.mbxReset = false) (hown : (ringOf s r).session = none)
include hreset hown

theorem doorbellWrite_command (htype : (ringOf s r).rtype = 1) (hstate : (ringOf s r).state ≠ 3) (hi : i < ringSize (ringOf s r)) :
    doorbellWrite r i s = onRing r (fun y => { y with prod := i }) s := by
  simp [doorbellWrite, hreset, hown, htype, hstate, ringThere, hi.not_ge]

theorem doorbellWrite_beyond (htype : (ringOf s r).rtype ≠ 0) (hi : ringSize (ringOf s r) ≤ i) :
    doorbellWrite r i s = alert 5 (onRing r (fun y => { y with state := 3 }) s) := by
  simp [doorbellWrite, hreset, hown, htype, ringThere, hi]

end

theorem ringsFollowTheirRegisters : RingsFollowTheirRegisters := by
  intro s
  refine ⟨fun hbar hup hen hreset => ⟨fun a b ha hb hcmd hcpl => ?_, fun ha => ?_⟩, fun hbar => congrArg Host.Outcome.next (if_pos hbar), fun h => ?_, fun h => ?_,
    fun r i hbar hreset hown => ⟨fun htype hstate hi => ?_, fun htype hi => ?_⟩⟩
  · rw [exec_mbxEnable hbar, mbxEnableWrite_taken hup hen hreset ha hb hcmd hcpl]
    refine ⟨_, rfl, rfl, ?_, ?_, fun k h0 h256 => ?_, rfl, rfl, rfl, rfl⟩
    · rw [ringOf_adminTaken, ringOf_onRing]
    · rw [ringOf_adminTaken, ringOf_onRing_ne _ _ (by decide), ringOf_onRing]
    · rw [ringOf_adminTaken, ringOf_onRing_ne _ _ h0, ringOf_onRing_ne _ _ h256]
  · rw [exec_mbxEnable hbar, mbxEnableWrite_badEntries hup hen hreset ha]
  · rw [exec_mbxResetDone h]
    exact ⟨_, rfl, rfl, rfl, pcieReset_rings s, rfl, rfl, rfl⟩
  · rw [exec_perstN h]
    exact ⟨_, rfl, rfl, rfl, pcieReset_rings s, rfl, rfl, rfl, rfl⟩
  · exact (congrArg Host.Outcome.next (if_pos hbar)).trans (congrArg Host.Outcome.next (doorbellWrite_command hreset hown htype hstate hi))
  · exact (congrArg Host.Outcome.next (if_pos hbar)).trans (congrArg Host.Outcome.next (doorbellWrite_beyond hreset hown htype hi))

/-! ### Register writes (R387, R391) -/

theorem exec_registerWrite (h : barUp s = true) (off : BitVec 14) (v : W32) : exec (.registerWrite off v) s = .next (regWrite off.toNat v s) :=
  congrArg Host.Outcome.next (if_pos h)

theorem regWrite_admEntries (v : W32) (s : State) : regWrite (0x0118#14).toNat v s = admWriteReg (fun r => { r with admEntries := v }) s := rfl

/-- Below 0x100 stand only registers that are read. -/
theorem controlWrite_identity {o : Nat} (h : o < 0x100) (v : W32) (s : State) : controlWrite o v s = s := by
  unfold controlWrite
  split
  case h_10 => rfl
  all_goals omega

/-- An offset that no table lists, or between two registers, takes nothing. -/
theorem regWrite_unlisted {o : Nat} (h : o % 4 ≠ 0 ∨ o < 0x100 ∨ 0x3400 ≤ o) (v : W32) (s : State) : regWrite o v s = s := by
  by_cases h4 : o % 4 ≠ 0
  · exact if_pos h4
  obtain h | h := h.resolve_left h4
  · rw [regWrite, if_neg h4, if_pos (by omega), controlWrite_identity h]
  · simp only [regWrite, if_neg h4, if_neg (show ¬o < 0x400 by omega), if_neg (show ¬o < 0xC00 by omega), if_neg (show ¬o < 0x1000 by omega),
      if_neg (show ¬o < 0x1400 by omega), if_neg (show ¬o < 0x1800 by omega), if_neg (show ¬o < 0x1850 by omega), if_neg (show ¬o = 0x2000 by omega),
      if_neg (show ¬o < 0x3000 by omega), if_neg (show ¬o < 0x3400 by omega)]

/-- Where NET is up a capture holds its time bases too (R395). -/
theorem captureTime_netUp (h : domRun s 2 = true) : (captureTime s).mgt.mbx.latch.tb0 = s.data.time.tb0 ∧ (captureTime s).mgt.mbx.latch.tb2 = s.clk.tb2 := by
  have hdown : (!domRun s 2) = false := by rw [h]; rfl
  exact ⟨if_neg (by rw [hdown]; decide), if_neg (by rw [hdown]; decide)⟩

theorem registersTakeWrites : RegistersTakeWrites := by
  intro s v hbar
  refine ⟨exec_registerWrite hbar .., exec_registerWrite hbar .., fun h => ?_, fun h => ?_, fun off h => ?_, ?_, ?_⟩
  · rw [exec_registerWrite hbar, regWrite_admEntries, admWriteReg, if_pos h]
  · rw [exec_registerWrite hbar, regWrite_admEntries, admWriteReg, if_neg (by rw [h]; decide)]
  · rw [exec_registerWrite hbar, regWrite_unlisted h]
  · exact ⟨captureTime s, congrArg Host.Outcome.next (if_pos hbar), rfl, rfl, rfl, captureTime_netUp, rfl, rfl, rfl⟩
  · exact ⟨captureScn s, congrArg Host.Outcome.next (if_pos hbar), rfl, rfl, rfl, rfl⟩

/-- Settles O41: each register changes the rings and registers that it names. -/
theorem ringsAndRegistersFollowTheHost : Obligations.RingsAndRegistersFollowTheHost :=
  ⟨ringsFollowTheirRegisters, registersTakeWrites⟩

end Sys2Proof.Proofs.HostRegisters
end

section
/-! DTLS sessions: how they open, what their datagrams do and how they end (O44, R388, R398, R406 to R408). -/

namespace Sys2Proof.Proofs.Sessions

open Sys2Proof Sys2Proof.Machine Sys2Proof.Claims Sys2Proof.Laws Sys2Proof.Proofs.Sending Sys2Proof.Proofs.Queues Sys2Proof.Proofs.SysCommands

variable {s : State} {n : Nat}

/-! ### The handshake (R388, R398) -/

/-- Session `n` stands with its admin pair. -/
def sessionOpened (n port : Nat) (peer : W32) (s : State) : State :=
  onRing (512 + 2 * n) (fun _ => { newRing 1 (some n) 6 with cplRing := 513 + 2 * n })
    (onRing (513 + 2 * n) (fun _ => newRing 2 (some n) 6)
      (onMbx (fun m => { m with sessions := m.sessions ++ [⟨n, port, peer, s.clk.tick, [], 0, []⟩] }) s))

/-- A failed certificate is recorded (R388). -/
def certificateFailed (port : Nat) (peer : W32) (s : State) : State := report .general 0x0604 0 (byte port ++ le4 peer.toNat) [] s

section
variable {port : BitVec 2} {peer : W32} {chain : List (List Byte)} (hport : dtlsPort s port.toNat = true)
  (hfree : (List.range 32).find? (fun n => !(s.mgt.mbx.sessions.map (·.id)).contains n) = some n)
include hport hfree

theorem exec_dtlsHandshake : exec (.dtlsHandshake port peer chain) s =
    .next (if s.mgt.mbx.trustAnchor.isEmpty || decide (3 < chain.length) || !Config.peerOk s.mgt.mbx.trustAnchor chain then
        certificateFailed port.toNat peer s
      else sessionOpened n port.toNat peer s) := by
  have he : exec (.dtlsHandshake port peer chain) s = .next (
    match (List.range 32).find? (fun n => !(s.mgt.mbx.sessions.map (·.id)).contains n) with
    | none => s
    | some n =>
      if !dtlsPort s port.toNat then s
      else if s.mgt.mbx.trustAnchor.isEmpty || decide (3 < chain.length) || !Config.peerOk s.mgt.mbx.trustAnchor chain then
        certificateFailed port.toNat peer s
      else sessionOpened n port.toNat peer s) := rfl
  rw [he, hfree]
  exact congrArg Host.Outcome.next (if_neg (by rw [hport]; decide))

theorem exec_dtlsHandshake_verified (hanchor : s.mgt.mbx.trustAnchor.isEmpty = false) (hlen : chain.length ≤ 3)
    (hok : Config.peerOk s.mgt.mbx.trustAnchor chain = true) : exec (.dtlsHandshake port peer chain) s = .next (sessionOpened n port.toNat peer s) := by
  rw [exec_dtlsHandshake hport hfree, if_neg (by simp [hanchor, hok, hlen.not_gt])]

theorem exec_dtlsHandshake_failed (h : 3 < chain.length ∨ Config.peerOk s.mgt.mbx.trustAnchor chain = false) :
    exec (.dtlsHandshake port peer chain) s = .next (certificateFailed port.toNat peer s) := by
  rw [exec_dtlsHandshake hport hfree, if_pos]
  obtain h | h := h <;> simp [h]

end

theorem ringOf_sessionOpened (n port : Nat) (peer : W32) (s : State) (k : Nat) : ringOf (sessionOpened n port peer s) k =
    ringOf (onRing (512 + 2 * n) (fun _ => { newRing 1 (some n) 6 with cplRing := 513 + 2 * n }) (onRing (513 + 2 * n) (fun _ => newRing 2 (some n) 6) s)) k := rfl

/-! ### The end of a session (R388, R408) -/

/-- A session's end takes its rings and writes one record. -/
theorem closeSession_ends {cause : Nat} (h : (sessionOf s n).isSome = true) :
    (closeSession n cause s).mgt.mbx.sessions = s.mgt.mbx.sessions.filter (fun x => decide (x.id ≠ n)) ∧
    (closeSession n cause s).mgt.mbx.rings = s.mgt.mbx.rings.filter (fun p => decide (p.2.session ≠ some n)) ∧
    (closeSession n cause s).mgt.recorder.reports.length = s.mgt.recorder.reports.length + 1 ∧
    (closeSession n cause s).ctl = s.ctl ∧ (closeSession n cause s).data = s.data := by
  have hany : s.mgt.mbx.sessions.any (fun x => decide (x.id = n)) = true := List.any_eq_true.2 (List.find?_isSome.1 h)
  rw [closeSession, if_pos hany]
  exact ⟨rfl, rfl, List.length_append (as := s.mgt.recorder.reports) (bs := [_]), rfl, rfl⟩

theorem exec_dtlsAlert (h : dtlsUp s n = true) : exec (.dtlsAlert n) s = .next (closeSession n 2 s) := congrArg Host.Outcome.next (if_pos h)

theorem exec_dtlsIdleTimeout {x : Session} (hx : sessionOf s n = some x) (hup : mgtUp s = true) (hidle : x.lastRx + msTicks 60000 ≤ s.clk.tick) :
    exec (.dtlsIdleTimeout n) s = .next (closeSession n 1 s) := by
  have he : exec (.dtlsIdleTimeout n) s = execDtlsIdleTimeout n s := rfl
  rw [he, execDtlsIdleTimeout, hx]
  exact congrArg Host.Outcome.next (if_pos (by simp only [hup, hidle, decide_true, Bool.and_self]))

theorem sessionOf_isSome (h : dtlsUp s n = true) : (sessionOf s n).isSome = true := by
  simp only [dtlsUp, Bool.and_eq_true] at h
  exact h.2

/-! ### Command datagrams (R407) -/

/-- One more descriptor in a command ring. -/
def brought (y : RingS) (d : Descriptor) : RingS := { y with descs := smPut y.descs y.prod d, prod := (y.prod + 1) % ringSize y }

theorem ringSize_pos (x : RingS) : 0 < ringSize x := Nat.two_pow_pos _

/-- Descriptors brought leave the consumer index and the size, and move the producer index by their number. -/
theorem foldl_brought (ds : List Descriptor) (x : RingS) (hx : x.prod < ringSize x) :
    (ds.foldl brought x).prod = (x.prod + ds.length) % ringSize x ∧ (ds.foldl brought x).cons = x.cons := by
  induction ds generalizing x with
  | nil => exact ⟨(Nat.mod_eq_of_lt hx).symm, rfl⟩
  | cons d ds ih =>
    obtain ⟨hprod, hcons⟩ := ih (brought x d) (Nat.mod_lt _ (ringSize_pos x))
    refine ⟨hprod.trans ?_, hcons⟩
    rw [show ringSize (brought x d) = ringSize x from rfl, show (brought x d).prod = (x.prod + 1) % ringSize x from rfl, Nat.mod_add_mod,
      List.length_cons, Nat.add_assoc, Nat.add_comm 1]

theorem newDescriptors_le (x : RingS) (index count : Nat) : newDescriptors x index count ≤ count := by
  rw [newDescriptors]
  split
  · exact Nat.sub_le ..
  · exact Nat.zero_le _

/-- The host is told the producer index of a command ring (R407). -/
def acknowledged (n : Nat) (r : Byte) (s : State) : State := dsend n 2 r.toNat 0 (ringOf s (cmdKey (some n) r.toNat)).prod [] s

/-- The descriptors stand in the session's command ring, and the host is told so. -/
def datagramTaken (n : Nat) (r : Byte) (fresh : List Descriptor) (s : State) : State :=
  acknowledged n r (onRing (cmdKey (some n) r.toNat) (fun y => fresh.foldl brought y) s)

theorem exec_dtlsCmdDatagram {r : Byte} {index : Nat} {ds : List Descriptor} (hup : dtlsUp s n = true)
    (htype : (ringOf s (cmdKey (some n) r.toNat)).rtype = 1) (hown : (ringOf s (cmdKey (some n) r.toNat)).session = some n)
    (hroom : ringUsed (ringOf s (cmdKey (some n) r.toNat)) + newDescriptors (ringOf s (cmdKey (some n) r.toNat)) index ds.length <
      ringSize (ringOf s (cmdKey (some n) r.toNat))) : exec (.dtlsCmdDatagram n r index ds) s =
    .next (datagramTaken n r (ds.drop (ds.length - newDescriptors (ringOf s (cmdKey (some n) r.toNat)) index ds.length)) (heard n s)) := by
  let x := ringOf s (cmdKey (some n) r.toNat)
  have he : exec (.dtlsCmdDatagram n r index ds) s = .next (if dtlsUp s n then acknowledged n r
      (if x.rtype = 1 ∧ x.session = some n ∧ ringUsed x + newDescriptors x index ds.length < ringSize x then
        onRing (cmdKey (some n) r.toNat) (fun y => (ds.drop (ds.length - newDescriptors x index ds.length)).foldl brought y) (heard n s)
      else heard n s) else s) := rfl
  rw [he, if_pos hup, if_pos ⟨htype, hown, hroom⟩]
  rfl

theorem datagramTaken_ring (r : Byte) (fresh : List Descriptor) (s : State) : ringOf (datagramTaken n r fresh s) (cmdKey (some n) r.toNat) =
    fresh.foldl brought (ringOf s (cmdKey (some n) r.toNat)) :=
  ((queued_dsend ..).ringOf _).trans (ringOf_onRing ..)

theorem datagramTaken_others (r : Byte) (fresh : List Descriptor) (s : State) {k : Nat} (hk : k ≠ cmdKey (some n) r.toNat) :
    ringOf (datagramTaken n r fresh s) k = ringOf s k :=
  ((queued_dsend ..).ringOf _).trans (ringOf_onRing_ne _ _ hk)

theorem ringOf_heard (n : Nat) (s : State) (k : Nat) : ringOf (heard n s) k = ringOf s k := rfl

/-! ### Acknowledgements (R394, R408) -/

/-- A ring whose consumer index moves to `i` where that lies among its entries. -/
def consumed (i : Nat) (r : RingS) : RingS :=
  if (i + ringSize r - r.cons) % ringSize r ≤ ringUsed r then { r with cons := i, state := if r.state = 2 then 1 else r.state } else r

theorem streamPump_still {key : Nat} (h : (ringOf s key).stream = none) (m : Nat) : streamPump m key s = s := by
  induction m with
  | zero => rfl
  | succ m ih =>
    have hone : streamOne key s = s := by
      rw [streamOne]
      simp only [h]
    rw [streamPump, hone, ih]

/-- Where no ring streams, nothing is pumped. -/
theorem streamsTake_still (h : ∀ k, (ringOf s k).stream = none) (m : Nat) : streamsTake m s = s :=
  List.foldl_fixed' (f := fun s (p : Nat × RingS) => streamPump m p.1 s) (fun p => streamPump_still (h p.1) m) _

theorem streamsPump_still (h : ∀ k, (ringOf s k).stream = none) : streamsPump s = s := streamsTake_still h streamBatch

/-- Where nothing is lost and nothing streams, a new consumer index changes its ring alone. -/
theorem consume_quiet {key i : Nat} (hlost : (ringOf s key).lost = 0) (hstream : ∀ k, (ringOf s k).stream = none) :
    consume key i s = onRing key (consumed i) s := by
  have hring : ringOf (onRing key (consumed i) s) key = consumed i (ringOf s key) := ringOf_onRing ..
  have hkeep : (consumed i (ringOf s key)).lost = (ringOf s key).lost ∧ (consumed i (ringOf s key)).stream = (ringOf s key).stream := by
    rw [consumed]
    split <;> exact ⟨rfl, rfl⟩
  have hover : pumpOverflow key (onRing key (consumed i) s) = onRing key (consumed i) s := by
    rw [pumpOverflow]
    exact if_neg fun ⟨_, h, _⟩ => h (by rw [hring, hkeep.1, hlost])
  have hstill : ∀ k, (ringOf (onRing key (consumed i) s) k).stream = none := fun k => by
    by_cases hk : k = key
    · rw [hk, hring, hkeep.2, hstream]
    · rw [ringOf_onRing_ne _ _ hk, hstream]
  exact (congrArg streamsPump hover).trans (streamsPump_still hstill)

/-- What a ring still holds waits for its acknowledgement from now on. -/
def waitAgain (key : Nat) (s : State) : State :=
  onRing key (fun x => { x with firstAt := if x.prod = x.cons then none else some s.clk.tick }) s

/-- An acknowledged ring: no repetition has been counted, and what is left waits. -/
def cplAcked (n key index : Nat) (r : Byte) (s : State) : State :=
  waitAgain key (onSession n (fun x => { x with tries := smDrop x.tries r.toNat }) (consume key index s))

theorem exec_dtlsCplAck {r : Byte} {key index : Nat} (hup : dtlsUp s n = true) (hring : hostRing s n r.toNat = some key)
    (hindex : index < ringSize (ringOf s key)) : exec (.dtlsCplAck n r index) s = .next (cplAcked n key index r (heard n s)) := by
  have he : exec (.dtlsCplAck n r index) s = .next (if dtlsUp s n then
      match hostRing (heard n s) n r.toNat with
      | some key => if index < ringSize (ringOf (heard n s) key) then cplAcked n key index r (heard n s) else heard n s
      | none => heard n s
    else s) := rfl
  have hring' : hostRing (heard n s) n r.toNat = some key := hring
  rw [he, hring']
  exact congrArg Host.Outcome.next ((if_pos hup).trans (if_pos hindex))

/-! ### Retransmission (R408) -/

/-- The wait of a ring begins anew, and the repetition is counted. -/
def repeating (n key : Nat) (r : Byte) (tries : Nat) (s : State) : State :=
  onSession n (fun x => { x with tries := smPut x.tries r.toNat (tries + 1) }) (onRing key (fun y => { y with firstAt := some s.clk.tick }) s)

/-- The entries of a ring are sent. -/
def entriesSent (n key : Nat) (s : State) : State :=
  (List.range (ringUsed (ringOf s key))).foldl (fun t i => sendEntry key n (((ringOf s key).cons + i) % ringSize (ringOf s key)) t) s

theorem exec_dtlsRetransmit {r : Byte} {x : Session} {key t0 : Nat} (hx : sessionOf s n = some x) (hup : mgtUp s = true)
    (hring : hostRing s n r.toNat = some key) (hfirst : (ringOf s key).firstAt = some t0) (hused : 0 < ringUsed (ringOf s key))
    (hdue : t0 + msTicks 100 ≤ s.clk.tick) (htries : smGet 0 x.tries r.toNat < 10) :
    exec (.dtlsRetransmit n r) s = .next (entriesSent n key (repeating n key r (smGet 0 x.tries r.toNat) s)) := by
  have he : exec (.dtlsRetransmit n r) s = execDtlsRetransmit n r s := rfl
  rw [he, execDtlsRetransmit, hx, hring]
  dsimp only
  rw [hfirst]
  exact congrArg Host.Outcome.next ((if_pos (by simp only [hup, hused, hdue, decide_true, Bool.and_self])).trans (if_neg htries.not_ge))

theorem queued_foldl {α : Type} {f : State → α → State} (h : ∀ s a, Queued s (f s a)) (l : List α) (s : State) : Queued s (l.foldl f s) := by
  induction l generalizing s with
  | nil => exact .refl s
  | cons a l ih => exact (h s a).trans (ih (f s a))

theorem queued_entriesSent (n key : Nat) (s : State) : Queued s (entriesSent n key s) := queued_foldl (fun _ _ => queued_sendEntry ..) ..

theorem outward_entriesSent (n key : Nat) (s : State) : Outward s (entriesSent n key s) := outward_foldl (fun _ _ => outward_sendEntry ..) ..

theorem ringOf_repeating (n key : Nat) (r : Byte) (tries : Nat) (s : State) (k : Nat) :
    ringOf (repeating n key r tries s) k = ringOf (onRing key (fun y => { y with firstAt := some s.clk.tick }) s) k := rfl

/-! ### The obligation's clauses -/

theorem cmdDatagram_brings {r : Byte} {index : Nat} {ds : List Descriptor} {x : RingS} {new : Nat} (hx : ringOf s (cmdKey (some n) r.toNat) = x)
    (hnew : newDescriptors x index ds.length = new) (hup : dtlsUp s n = true)
    (htype : x.rtype = 1) (hown : x.session = some n) (hroom : ringUsed x + new < ringSize x) (hprod : x.prod < ringSize x) :
    ∃ t, exec (.dtlsCmdDatagram n r index ds) s = .next t ∧
      (ringOf t (cmdKey (some n) r.toNat)).prod = (x.prod + new) % ringSize x ∧
      (ringOf t (cmdKey (some n) r.toNat)).cons = x.cons ∧
      (∀ d, ds = [d] → new = 1 → smFind (ringOf t (cmdKey (some n) r.toNat)).descs x.prod = some d) ∧
      (∀ k, k ≠ cmdKey (some n) r.toNat → ringOf t k = ringOf s k) ∧ t.ctl = s.ctl ∧ t.data = s.data := by
  subst hx hnew
  have hlen : (ds.drop (ds.length - newDescriptors (ringOf s (cmdKey (some n) r.toNat)) index ds.length)).length =
      newDescriptors (ringOf s (cmdKey (some n) r.toNat)) index ds.length := by
    rw [List.length_drop, Nat.sub_sub_self (newDescriptors_le ..)]
  refine ⟨_, exec_dtlsCmdDatagram hup htype hown hroom, ?_⟩
  generalize newDescriptors (ringOf s (cmdKey (some n) r.toNat)) index ds.length = new at hlen ⊢
  obtain ⟨hprod', hcons'⟩ := foldl_brought (ds.drop (ds.length - new)) (ringOf s (cmdKey (some n) r.toNat)) hprod
  refine ⟨?_, ?_, fun d hd hone => ?_, fun k hk => (datagramTaken_others _ _ _ hk).trans (ringOf_heard ..), rfl, rfl⟩
  · rw [datagramTaken_ring, ringOf_heard, hprod', hlen]
  · rw [datagramTaken_ring, ringOf_heard, hcons']
  · subst hd hone
    rw [datagramTaken_ring, ringOf_heard]
    exact (smFind_smPut ..).trans (if_pos rfl)

/-- The ring after its acknowledgement. -/
theorem cplAcked_ring {key index : Nat} {r : Byte} (hlost : (ringOf s key).lost = 0) (hstream : ∀ k, (ringOf s k).stream = none)
    (hwithin : (index + ringSize (ringOf s key) - (ringOf s key).cons) % ringSize (ringOf s key) ≤ ringUsed (ringOf s key)) :
    (ringOf (cplAcked n key index r s) key).cons = index ∧ (ringOf (cplAcked n key index r s) key).prod = (ringOf s key).prod ∧
    ∀ k, k ≠ key → ringOf (cplAcked n key index r s) k = ringOf s k := by
  have hquiet : ∀ k, ringOf (onSession n (fun x => { x with tries := smDrop x.tries r.toNat }) (consume key index s)) k = ringOf (onRing key (consumed index) s) k :=
    fun k => ((queued_onSession ..).ringOf k).trans (by rw [consume_quiet hlost hstream])
  have hconsumed : consumed index (ringOf s key) = { ringOf s key with cons := index, state := if (ringOf s key).state = 2 then 1 else (ringOf s key).state } := if_pos hwithin
  rw [cplAcked, waitAgain, ringOf_onRing, hquiet, ringOf_onRing, hconsumed]
  exact ⟨rfl, rfl, fun k hk => by rw [ringOf_onRing_ne _ _ hk, hquiet, ringOf_onRing_ne _ _ hk]⟩

theorem outward_onSession (n : Nat) (f : Session → Session) (s : State) : Outward s (onSession n f s) := rfl

theorem outward_waitAgain (key : Nat) (s : State) : Outward s (waitAgain key s) := rfl

theorem outward_cplAcked (n key index : Nat) (r : Byte) (s : State) : Outward s (cplAcked n key index r s) :=
  ((outward_consume key index s).trans (outward_onSession ..)).trans (outward_waitAgain ..)

theorem retransmit_repeats {r : Byte} {x : Session} {key t0 : Nat} (hx : sessionOf s n = some x) (hup : mgtUp s = true)
    (hring : hostRing s n r.toNat = some key) (hfirst : (ringOf s key).firstAt = some t0) (hused : 0 < ringUsed (ringOf s key))
    (hdue : t0 + msTicks 100 ≤ s.clk.tick) (htries : smGet 0 x.tries r.toNat < 10) :
    ∃ t, exec (.dtlsRetransmit n r) s = .next t ∧
      (ringOf t key) = { ringOf s key with firstAt := some s.clk.tick } ∧ (∀ k, k ≠ key → ringOf t k = ringOf s k) ∧
      t.mgt.mbx.sessions.length = s.mgt.mbx.sessions.length ∧ t.ctl = s.ctl ∧ t.data = s.data := by
  have hq := queued_entriesSent n key (repeating n key r (smGet 0 x.tries r.toNat) s)
  have ho := outward_entriesSent n key (repeating n key r (smGet 0 x.tries r.toNat) s)
  refine ⟨_, exec_dtlsRetransmit hx hup hring hfirst hused hdue htries, ?_, fun k hk => ?_, hq.sessions.trans (List.length_map ..), ho.ctl, ho.data⟩
  · rw [hq.ringOf, ringOf_repeating, ringOf_onRing]
  · rw [hq.ringOf, ringOf_repeating, ringOf_onRing_ne _ _ hk]

/-- Settles O44: each datagram, timer and alert acts on its own session. -/
theorem sessionsLiveAndEnd : Obligations.SessionsLiveAndEnd := by
  intro s
  refine ⟨fun port peer n hport hfree => ⟨fun chain hanchor hlen hok => ?_, fun chain h => exec_dtlsHandshake_failed hport hfree h⟩,
    fun n hup => ⟨congrArg Host.Outcome.next (if_pos hup), ⟨_, exec_dtlsAlert hup, closeSession_ends (sessionOf_isSome hup)⟩,
      fun r index ds => cmdDatagram_brings rfl rfl hup, fun r key index hring hlost hstream _ hindex hwithin => ?_⟩,
    fun n x hx hup => ⟨fun r key t0 hring hfirst hused hdue htries => retransmit_repeats hx hup hring hfirst hused hdue htries, fun hidle => ?_⟩⟩
  · refine ⟨_, exec_dtlsHandshake_verified hport hfree hanchor hlen hok, rfl, ?_, ?_, fun k hcmd hcpl => ?_, rfl, rfl⟩
    · rw [ringOf_sessionOpened, ringOf_onRing]
    · rw [ringOf_sessionOpened, ringOf_onRing_ne _ _ (by omega), ringOf_onRing]
    · rw [ringOf_sessionOpened, ringOf_onRing_ne _ _ hcmd, ringOf_onRing_ne _ _ hcpl]
  · obtain ⟨hcons, hprod, hothers⟩ := cplAcked_ring (s := heard n s) (n := n) (r := r) hlost hstream hwithin
    have ho := outward_cplAcked n key index r (heard n s)
    exact ⟨_, exec_dtlsCplAck hup hring hindex, hcons, hprod, hothers, ho.ctl, ho.data⟩
  · obtain ⟨hsessions, hrings, -, hctl, hdata⟩ := closeSession_ends (cause := 1) (n := n) (s := s) (by rw [hx]; rfl)
    exact ⟨_, exec_dtlsIdleTimeout hx hup hidle, hsessions, hrings, hctl, hdata⟩

end Sys2Proof.Proofs.Sessions
end

section
/-! Tests in service: lane tests, the belay lane's own tests, NAND scrubs and fuse burns (O60, R207, R510 to R514, R518, R519). -/

namespace Sys2Proof.Proofs.TestsInService

open Sys2Proof Sys2Proof.Machine Sys2Proof.Claims Sys2Proof.Laws

variable {s : State} {l : Lane}

/-! ### What the records of a test leave -/

/-- `t` differs from `s` in the recorder and in the last result of each block alone. -/
def Noted (s t : State) : Prop :=
  t = { s with mgt := { s.mgt with recorder := t.mgt.recorder, bist := { s.mgt.bist with lastResult := t.mgt.bist.lastResult } } }

theorem Noted.refl (s : State) : Noted s s := rfl

theorem Noted.trans {s t u : State} (h : Noted s t) (h' : Noted t u) : Noted s u := by
  unfold Noted at *
  rw [h', h]

section
variable {t : State} (h : Noted s t)
include h

theorem Noted.ctl : t.ctl = s.ctl := by rw [h]
theorem Noted.data : t.data = s.data := by rw [h]
theorem Noted.power : t.power = s.power := by rw [h]
theorem Noted.variant : t.variant = s.variant := by rw [h]
theorem Noted.mbx : t.mgt.mbx = s.mgt.mbx := by rw [h]
theorem Noted.softMap : t.mgt.bist.softMap = s.mgt.bist.softMap := by rw [h]
theorem Noted.fuseMap : t.mgt.bist.fuseMap = s.mgt.bist.fuseMap := by rw [h]
theorem Noted.fuseBurn : t.mgt.bist.fuseBurn = s.mgt.bist.fuseBurn := by rw [h]
end

theorem noted_report (r : RecRing) (code source : Nat) (key detail : List Byte) (s : State) : Noted s (report r code source key detail s) := rfl

theorem noted_bistResult (r : RecRing) (block test : Nat) (st : Status) (used : Nat) (s : State) : Noted s (bistResult r block test st used s) := rfl

theorem noted_spareRecords (block : Nat) (made : List Repair) (s : State) : Noted s (spareRecords block made s) := by
  rw [spareRecords]
  generalize usedUp (repairsOf s block) made = ms
  induction ms generalizing s with
  | nil => exact .refl s
  | cons m ms ih => exact (noted_report ..).trans (ih _)

theorem noted_dieRecords (block : Nat) (v : Verdict) (s : State) : Noted s (dieRecords block v s) := by
  rw [dieRecords]
  split
  · exact ((noted_bistResult ..).trans (noted_bistResult ..)).trans (noted_bistResult ..)
  · exact (noted_bistResult ..).trans (noted_bistResult ..)

theorem noted_dieTested (block : Nat) (v : Verdict) (s : State) : Noted (dieMarks block v s) (dieTested block v s) :=
  (noted_dieRecords block v _).trans (noted_spareRecords block v.kept _)

/-! ### A lane's test has ended (R207, R511, R518) -/

/-- A lane that passes takes part in rotations again. -/
def readmitted (l : Lane) (passes : Bool) (s : State) : State :=
  if passes then onRot (fun r => { r with excluded := r.excluded.set l false }) s else s

/-- The marks of a lane's test: the control plane but for the lane's exclusion, and the rest but for MGT's own state, stay. -/
theorem dieMarks_lane (l : Lane) (v : Verdict) (s : State) : (dieMarks l.idx v s).ctl = (readmitted l v.passes s).ctl ∧
    (dieMarks l.idx v s).data = s.data ∧ (dieMarks l.idx v s).power = s.power ∧ (dieMarks l.idx v s).variant = s.variant ∧
    smGet [] (dieMarks l.idx v s).mgt.bist.softMap l.idx = smGet [] s.mgt.bist.softMap l.idx ++ v.kept := by
  have hl : Lane.ofIdx l.idx = some l := by cases l <;> rfl
  have hmap : smGet [] (if v.kept.isEmpty then s.mgt.bist.softMap else smPut s.mgt.bist.softMap l.idx (smGet [] s.mgt.bist.softMap l.idx ++ v.kept)) l.idx =
      smGet [] s.mgt.bist.softMap l.idx ++ v.kept := by
    split
    · next h => rw [List.isEmpty_iff.1 h, List.append_nil]
    · rw [Proofs.Votes.smGet_smPut, if_pos rfl]
  refine ⟨?_, ?_, ?_, ?_, Eq.trans ?_ hmap⟩
  all_goals
    rw [dieMarks, hl]
    cases v.kept.isEmpty <;> cases v.passes <;> rfl

/-- The lane's test and its records: what a pass or a failure of the lane then begins from. -/
theorem dieTested_lane (l : Lane) (v : Verdict) (s : State) : (dieTested l.idx v s).ctl = (readmitted l v.passes s).ctl ∧
    (dieTested l.idx v s).data = s.data ∧ (dieTested l.idx v s).power = s.power ∧ (dieTested l.idx v s).variant = s.variant ∧
    smGet [] (dieTested l.idx v s).mgt.bist.softMap l.idx = smGet [] s.mgt.bist.softMap l.idx ++ v.kept := by
  obtain ⟨hctl, hdata, hpower, hvar, hsoft⟩ := dieMarks_lane l v s
  have h := noted_dieTested l.idx v s
  exact ⟨h.ctl.trans hctl, h.data.trans hdata, h.power.trans hpower, h.variant.trans hvar, (congrArg (smGet [] · l.idx) h.softMap).trans hsoft⟩

theorem setVote_run {x : LaneVote} (h : domRun s (laneDom l) = true) : setVote l x s = onVoter (fun v => { v with laneVote := v.laneVote.set l x }) s := if_pos h

/-- A lane's failure is dated, and what it has reported for a join is forgotten. -/
def failureDated (l : Lane) (s : State) : State :=
  let at_ := (ophHours s, ophFrac s)
  let s := onLane l (fun x => { x with health := { x.health with failedAt := some (x.health.failedAt.getD at_) } }) s
  onVoter (fun v => { v with belay := v.belay.filter (fun p => decide (p.1.lane ≠ l)) }) s

/-- A rotation that has the lane under test ends without success. -/
def rotationFailed (l : Lane) (s : State) : State := if s.ctl.rot.active = some l then rotationEnds l .checkFail s else s

theorem laneFails_eq (l : Lane) (s : State) :
    laneFails l s = rotationFailed l (failureDated l (setVote l .failed (onRot (fun r => { r with excluded := r.excluded.set l true }) s))) := rfl

/-- What the failure of a lane leaves, once the voter has marked it. -/
theorem rotationFailed_keeps (l : Lane) (s : State) : (rotationFailed l s).ctl.voter = s.ctl.voter ∧
    (rotationFailed l s).ctl.rot.excluded = s.ctl.rot.excluded ∧ (rotationFailed l s).ctl.lanes = s.ctl.lanes ∧
    (rotationFailed l s).data = s.data ∧ (rotationFailed l s).ctl.vio = s.ctl.vio := by
  rw [rotationFailed]
  split <;> exact ⟨rfl, rfl, rfl, rfl, rfl⟩

theorem failureDated_keeps (l : Lane) (s : State) : (failureDated l s).ctl.voter.laneVote = s.ctl.voter.laneVote ∧
    (failureDated l s).ctl.voter.seats = s.ctl.voter.seats ∧ (failureDated l s).ctl.rot = s.ctl.rot ∧
    (∀ m, m ≠ l → lane (failureDated l s) m = lane s m) ∧ (failureDated l s).data = s.data ∧ (failureDated l s).ctl.vio = s.ctl.vio :=
  ⟨rfl, rfl, rfl, fun _ hm => Quad_get_set_ne _ _ hm, rfl, rfl⟩

/-- A lane that fails is FAILED and excluded; the other lanes, the seats, the outputs and the data plane stay. -/
theorem laneFails_fails (hrun : domRun s (laneDom l) = true) : (laneFails l s).ctl.voter.laneVote.get l = .failed ∧
    (laneFails l s).ctl.rot.excluded.get l = true ∧ (∀ m, m ≠ l → lane (laneFails l s) m = lane s m) ∧
    (laneFails l s).ctl.voter.seats = s.ctl.voter.seats ∧ (laneFails l s).data = s.data ∧ (laneFails l s).ctl.vio = s.ctl.vio := by
  let u := onVoter (fun v => { v with laneVote := v.laneVote.set l .failed }) (onRot (fun r => { r with excluded := r.excluded.set l true }) s)
  have he : laneFails l s = rotationFailed l (failureDated l u) := by rw [laneFails_eq, setVote_run (show domRun (onRot _ s) (laneDom l) = true from hrun)]
  obtain ⟨hvote, hseats, hrot, hlanes, hdata, hvio⟩ := failureDated_keeps l u
  obtain ⟨hvoter', hrot', hlanes', hdata', hvio'⟩ := rotationFailed_keeps l (failureDated l u)
  rw [he, hvoter', hrot', hdata', hvio', hvote, hseats, hrot, hdata, hvio]
  refine ⟨Quad_get_set_self .., Quad_get_set_self .., fun m hm => ?_, rfl, rfl, rfl⟩
  exact (congrArg (fun q : Quad LaneState => q.get m) hlanes').trans (hlanes m hm)

/-- The test of a passing lane ends, in a firmware activation with the lane's turn. -/
def testEnds (l : Lane) (s : State) : State :=
  onRot (fun r => { r with testing := if r.active = some l then false else r.testing,
                           waiting := if r.forFirmware then r.waiting.filter (fun x => decide (x ≠ l)) else r.waiting }) s

/-- The lane has no failure to its name. -/
def cleared (l : Lane) (s : State) : State := onLane l (fun x => { x with health := { x.health with failedAt := none } }) s

theorem lanePasses_eq (l : Lane) (s : State) : lanePasses l s =
    if (cleared l (testEnds l s)).variant = .t then reopened l (cleared l (testEnds l s)) else setVote l .belay (cleared l (testEnds l s)) := rfl

theorem cleared_keeps (l : Lane) (s : State) : (cleared l (testEnds l s)).ctl.rot.excluded = s.ctl.rot.excluded ∧
    (cleared l (testEnds l s)).mgt = s.mgt ∧ (lane (cleared l (testEnds l s)) l).health.failedAt = none ∧
    (lane (cleared l (testEnds l s)) l).core = (lane s l).core ∧ (∀ m, m ≠ l → lane (cleared l (testEnds l s)) m = lane s m) ∧
    (cleared l (testEnds l s)).ctl.voter = s.ctl.voter ∧ (cleared l (testEnds l s)).data = s.data ∧
    (cleared l (testEnds l s)).variant = s.variant ∧ (cleared l (testEnds l s)).power = s.power :=
  ⟨rfl, rfl, congrArg (·.health.failedAt) (lane_onLane ..), congrArg (·.core) (lane_onLane ..), fun _ hm => lane_onLane_ne _ _ hm, rfl, rfl, rfl, rfl⟩

/-- On F a lane that passes stands by without a failure to its name; its core, the other lanes, the seats and the data plane stay. -/
theorem lanePasses_standsBy (hrun : domRun s (laneDom l) = true) (hf : s.variant = .f) :
    (lanePasses l s).ctl.voter.laneVote.get l = .belay ∧ (lanePasses l s).ctl.rot.excluded = s.ctl.rot.excluded ∧
    (lanePasses l s).mgt = s.mgt ∧ (lane (lanePasses l s) l).health.failedAt = none ∧ (lane (lanePasses l s) l).core = (lane s l).core ∧
    (∀ m, m ≠ l → lane (lanePasses l s) m = lane s m) ∧ (lanePasses l s).ctl.voter.seats = s.ctl.voter.seats ∧ (lanePasses l s).data = s.data := by
  obtain ⟨hrot, hmgt, hfailed, hcore, hlanes, hvoter, hdata, hvar, hpower⟩ := cleared_keeps l s
  have hrun' : domRun (cleared l (testEnds l s)) (laneDom l) = true := hrun
  have ht : ¬(cleared l (testEnds l s)).variant = .t := by
    rw [hvar, hf]
    decide
  have hseats : (cleared l (testEnds l s)).ctl.voter.seats = s.ctl.voter.seats := congrArg Voter.seats hvoter
  rw [lanePasses_eq, if_neg ht, setVote_run hrun']
  exact ⟨Quad_get_set_self .., hrot, hmgt, hfailed, hcore, hlanes, hseats, hdata⟩

theorem laneTested_runs (h : laneTested s l = true) : domRun s (laneDom l) = true := by
  simp only [laneTested, Bool.and_eq_true] at h
  obtain ⟨⟨⟨⟨⟨⟨⟨-, -⟩, hrun⟩, -⟩, -⟩, -⟩, -⟩, -⟩ := h
  exact hrun

theorem exec_laneTestDone {d : DieTest} (h : laneTested s l = true) : exec (.laneTestDone l d) s =
    .next (if (verdict s l.idx d).passes then lanePasses l (dieTested l.idx (verdict s l.idx d) s) else laneFails l (dieTested l.idx (verdict s l.idx d) s)) :=
  congrArg Host.Outcome.next (if_pos h)

theorem domRun_congr {t : State} (hv : t.variant = s.variant) (hp : t.power = s.power) (k : Nat) : domRun t k = domRun s k := by
  rw [domRun, domRun, dom, dom, hv, hp]

/-- R207, R518. -/
theorem laneTest_fails {d : DieTest} (h : laneTested s l = true) (hv : (verdict s l.idx d).passes = false) : ∃ t, exec (.laneTestDone l d) s = .next t ∧
    t.ctl.voter.laneVote.get l = .failed ∧ t.ctl.rot.excluded.get l = true ∧ (∀ m, m ≠ l → lane t m = lane s m) ∧
    t.ctl.voter.seats = s.ctl.voter.seats ∧ t.data = s.data ∧ t.ctl.vio = s.ctl.vio := by
  obtain ⟨hctl, hdata, hpower, hvar, -⟩ := dieTested_lane l (verdict s l.idx d) s
  rw [hv] at hctl
  have hctl' : (dieTested l.idx (verdict s l.idx d) s).ctl = s.ctl := hctl
  obtain ⟨hvote, hexcl, hlanes, hseats, hdata', hvio⟩ := laneFails_fails (l := l) (s := dieTested l.idx (verdict s l.idx d) s)
    ((domRun_congr hvar hpower _).trans (laneTested_runs h))
  refine ⟨_, (exec_laneTestDone h).trans (congrArg Host.Outcome.next (if_neg (by rw [hv]; decide))), hvote, hexcl, fun m hm => (hlanes m hm).trans ?_,
    hseats.trans (congrArg (·.voter.seats) hctl'), hdata'.trans hdata, hvio.trans (congrArg (·.vio) hctl')⟩
  exact congrArg (·.lanes.get m) hctl'

/-- R207, R511, R518. -/
theorem laneTest_passes {d : DieTest} (hf : s.variant = .f) (h : laneTested s l = true) (hv : (verdict s l.idx d).passes = true) :
    ∃ t, exec (.laneTestDone l d) s = .next t ∧ t.ctl.voter.laneVote.get l = .belay ∧ t.ctl.rot.excluded.get l = false ∧
      smGet [] t.mgt.bist.softMap l.idx = smGet [] s.mgt.bist.softMap l.idx ++ (verdict s l.idx d).made ∧ (lane t l).health.failedAt = none ∧
      (lane t l).core = (lane s l).core ∧ (∀ m, m ≠ l → lane t m = lane s m) ∧ t.ctl.voter.seats = s.ctl.voter.seats ∧ t.data = s.data := by
  obtain ⟨hctl, hdata, hpower, hvar, hsoft⟩ := dieTested_lane l (verdict s l.idx d) s
  have hkept : (verdict s l.idx d).kept = (verdict s l.idx d).made := if_pos hv
  rw [hv] at hctl
  have hctl' : (dieTested l.idx (verdict s l.idx d) s).ctl = (onRot (fun r => { r with excluded := r.excluded.set l false }) s).ctl := hctl
  rw [hkept] at hsoft
  obtain ⟨hvote, hexcl, hmgt, hfailed, hcore, hlanes, hseats, hdata'⟩ := lanePasses_standsBy (l := l) (s := dieTested l.idx (verdict s l.idx d) s)
    ((domRun_congr hvar hpower _).trans (laneTested_runs h)) (hvar.trans hf)
  have hlane : ∀ m, lane (dieTested l.idx (verdict s l.idx d) s) m = lane s m := fun m => congrArg (·.lanes.get m) hctl'
  refine ⟨_, (exec_laneTestDone h).trans (congrArg Host.Outcome.next (if_pos hv)), hvote, ?_, ?_, hfailed, hcore.trans (by rw [hlane]),
    fun m hm => (hlanes m hm).trans (hlane m), hseats.trans (congrArg (·.voter.seats) hctl'), hdata'.trans hdata⟩
  · rw [hexcl, hctl']
    exact Quad_get_set_self ..
  · rw [hmgt, hsoft]

/-! ### The belay lane's own tests (R519) -/

section
variable (hlane : belayLane s = some l) (hjoin : s.ctl.voter.join = none)
include hlane hjoin

theorem exec_belayTestStep (step : BelayStep) : exec (.belayTestStep step) s = .next (match step with
    | .logic misr golden => belayLogic l misr golden s
    | .memory r m cells last => if belayMayTest s l r then belayMemory l m cells last s else s) := by
  have he : exec (.belayTestStep step) s = .next (match belayLane s, s.ctl.voter.join with
    | some l, none =>
      match step with
      | .logic misr golden => belayLogic l misr golden s
      | .memory r m cells last => if belayMayTest s l r then belayMemory l m cells last s else s
    | _, _ => s) := rfl
  rw [he, hlane, hjoin]

end

/-- `t` has the voter, the data plane and the core of lane `l` as in `s`, and `x` as what the lane's own test has found. -/
structure SelfTested (l : Lane) (x : LaneTest) (s t : State) : Prop where
  test : (lane t l).selfTest = x
  core : (lane t l).core = (lane s l).core
  voter : t.ctl.voter = s.ctl.voter
  data : t.data = s.data

theorem selfTested_onTest (l : Lane) (f : LaneTest → LaneTest) (s : State) : SelfTested l (f (lane s l).selfTest) s (onTest l f s) :=
  ⟨congrArg (·.selfTest) (lane_onLane ..), congrArg (·.core) (lane_onLane ..), rfl, rfl⟩

theorem SelfTested.congr {x : LaneTest} {s t u : State} (h : SelfTested l x s t) (hctl : u.ctl = t.ctl) (hdata : u.data = t.data) : SelfTested l x s u :=
  ⟨(congrArg (fun c => (c.lanes.get l).selfTest) hctl).trans h.test, (congrArg (fun c => (c.lanes.get l).core) hctl).trans h.core,
    (congrArg (·.voter) hctl).trans h.voter, hdata.trans h.data⟩

/-- Repairs that are kept leave the test's other results. -/
theorem selfTested_trialKept (l : Lane) (kind : Repair → Bool) {x : LaneTest} {s t : State} (h : SelfTested l x s t) :
    SelfTested l { x with trial := x.trial.filter (fun r => !kind r) } s (trialKept l kind t) := by
  obtain ⟨htest, hcore, hvoter, hdata⟩ := h
  obtain ⟨htest', hcore', hvoter', hdata'⟩ := selfTested_onTest l (fun x => { x with trial := x.trial.filter (fun r => !kind r) }) t
  have hbase : SelfTested l { x with trial := x.trial.filter (fun r => !kind r) } s (onTest l (fun x => { x with trial := x.trial.filter (fun r => !kind r) }) t) :=
    ⟨htest'.trans (by rw [htest]), hcore'.trans hcore, hvoter'.trans hvoter, hdata'.trans hdata⟩
  rw [trialKept]
  split
  · exact hbase
  · exact hbase.congr (noted_spareRecords ..).ctl (noted_spareRecords ..).data

/-- The partition or memory under test is shown. -/
def partShown (p : Nat) (s : State) : State := onBist (fun b => { b with belayPart := p }) s

/-- A change of the test after its part is shown is a change of the test alone. -/
theorem selfTested_shown (l : Lane) (p : Nat) (f : LaneTest → LaneTest) (s : State) : SelfTested l (f (lane s l).selfTest) s (onTest l f (partShown p s)) :=
  have h := selfTested_onTest l f (partShown p s)
  ⟨h.test, h.core, h.voter, h.data⟩

theorem belayLogic_inside {misr : W64} {golden : Bool} (h : (lane s l).selfTest.steps % 256 ≠ 255) :
    belayLogic l misr golden s = onTest l (fun t => { t with steps := t.steps + 1 }) (partShown ((lane s l).selfTest.steps / 256) s) := if_pos h

/-- A failing partition of logic: the run begins again, and repairs are tried. -/
def logicFailed (l : Lane) (rs : List Repair) (p : Nat) (t : LaneTest) : LaneTest :=
  { t with steps := 0, lbistFail := true, trial := trialOf isEngine (engineRepairs l.idx rs ⟨⟨[p], []⟩, [], [], ⟨[], []⟩⟩) t }

theorem belayLogic_fails {misr : W64} (h : (lane s l).selfTest.steps % 256 = 255)
    (hused : partitionUsed (repairsOf s l.idx ++ (lane s l).selfTest.trial) ((lane s l).selfTest.steps / 256) = true) : belayLogic l misr false s =
    onTest l (logicFailed l (repairsOf s l.idx ++ (lane s l).selfTest.trial) ((lane s l).selfTest.steps / 256)) (partShown ((lane s l).selfTest.steps / 256) s) :=
  (if_neg (not_not.2 h)).trans (if_pos (by rw [hused]; rfl))

/-- A run of logic is complete and clean. -/
def logicRun (misr : W64) (t : LaneTest) : LaneTest := { t with steps := 0, lbistFail := false, lbistRuns := t.lbistRuns + 1, misr := misr }

theorem belayLogic_runs {misr : W64} (h : (lane s l).selfTest.steps % 256 = 255) (hp : (lane s l).selfTest.steps / 256 = 35) :
    belayLogic l misr true s = trialKept l isEngine (onTest l (logicRun misr) (partShown ((lane s l).selfTest.steps / 256) s)) :=
  (if_neg (not_not.2 h)).trans ((if_neg (by simp)).trans (if_neg (by rw [hp]; decide)))

/-- Faulty cells of a memory: repairs are tried. -/
def memoryFailed (rs : List Repair) (cells : List Cell) (t : LaneTest) : LaneTest :=
  { t with mbistFail := true, trial := trialOf (fun r => !isEngine r) (memoryRepairs rs ⟨⟨[], cells⟩, [], [], ⟨[], []⟩⟩) t }

/-- A run of memories is complete and clean. -/
def memoryRun (t : LaneTest) : LaneTest := { t with mbistFail := false, mbistRuns := t.mbistRuns + 1 }

theorem belayMemory_fails {m : Nat} {cells : List Cell} {last : Bool} (h : cells ≠ []) : belayMemory l m cells last s =
    onTest l (memoryFailed (repairsOf s l.idx ++ (lane s l).selfTest.trial) cells) (partShown m s) :=
  if_pos (by simpa using h)

theorem belayMemory_runs {m : Nat} : belayMemory l m [] true s = trialKept l (fun r => !isEngine r) (onTest l memoryRun (partShown m s)) := rfl

/-- R519: the steps of the belay lane. -/
theorem belaySteps (hlane : belayLane s = some l) (hjoin : s.ctl.voter.join = none) :
    (∀ (misr : W64) (golden : Bool), (lane s l).selfTest.steps % 256 ≠ 255 → ∃ t, exec (.belayTestStep (.logic misr golden)) s = .next t ∧
      SelfTested l { (lane s l).selfTest with steps := (lane s l).selfTest.steps + 1 } s t) ∧
    (∀ misr : W64, (lane s l).selfTest.steps % 256 = 255 →
      partitionUsed (repairsOf s l.idx ++ (lane s l).selfTest.trial) ((lane s l).selfTest.steps / 256) = true →
      ∃ t x, exec (.belayTestStep (.logic misr false)) s = .next t ∧ x.lbistFail = true ∧ x.steps = 0 ∧ x.lbistRuns = (lane s l).selfTest.lbistRuns ∧
        SelfTested l x s t) ∧
    (∀ misr : W64, (lane s l).selfTest.steps % 256 = 255 → (lane s l).selfTest.steps / 256 = 35 →
      ∃ t x, exec (.belayTestStep (.logic misr true)) s = .next t ∧ x.lbistFail = false ∧ x.steps = 0 ∧
        x.lbistRuns = (lane s l).selfTest.lbistRuns + 1 ∧ x.misr = misr ∧ SelfTested l x s t) ∧
    (∀ (r : TestRegion) (m : Nat) (cells : List Cell) (last : Bool),
      (belayMayTest s l r = true → cells ≠ [] → ∃ t x, exec (.belayTestStep (.memory r m cells last)) s = .next t ∧
        x.mbistFail = true ∧ x.mbistRuns = (lane s l).selfTest.mbistRuns ∧ SelfTested l x s t) ∧
      (belayMayTest s l r = true → ∃ t x, exec (.belayTestStep (.memory r m [] true)) s = .next t ∧ x.mbistFail = false ∧
        x.mbistRuns = (lane s l).selfTest.mbistRuns + 1 ∧ SelfTested l x s t) ∧
      (belayMayTest s l r = false → exec (.belayTestStep (.memory r m cells last)) s = .next s)) := by
  have he := exec_belayTestStep hlane hjoin
  have hmemory : ∀ r m cells last, belayMayTest s l r = true → exec (.belayTestStep (.memory r m cells last)) s = .next (belayMemory l m cells last s) :=
    fun r m cells last h => (he _).trans (congrArg Host.Outcome.next (if_pos h))
  refine ⟨fun misr golden h => ⟨_, (he _).trans (congrArg Host.Outcome.next (belayLogic_inside h)), selfTested_shown l _ (fun t => { t with steps := t.steps + 1 }) s⟩,
    fun misr h hused => ⟨_, logicFailed l _ _ (lane s l).selfTest, (he _).trans (congrArg Host.Outcome.next (belayLogic_fails h hused)), rfl, rfl, rfl, selfTested_shown ..⟩,
    fun misr h hp => ⟨_, { logicRun misr (lane s l).selfTest with trial := _ }, (he _).trans (congrArg Host.Outcome.next (belayLogic_runs h hp)), rfl, rfl, rfl, rfl, selfTested_trialKept l _ (selfTested_shown ..)⟩,
    fun r m cells last => ⟨fun hmay h => ⟨_, memoryFailed _ cells (lane s l).selfTest, (hmemory _ _ _ _ hmay).trans (congrArg Host.Outcome.next (belayMemory_fails h)), rfl, rfl, selfTested_shown ..⟩,
      fun hmay => ⟨_, { memoryRun (lane s l).selfTest with trial := _ }, (hmemory _ _ _ _ hmay).trans (congrArg Host.Outcome.next belayMemory_runs), rfl, rfl, selfTested_trialKept l _ (selfTested_shown ..)⟩,
      fun hmay => (he _).trans (congrArg Host.Outcome.next (if_neg (by rw [hmay]; decide)))⟩⟩

/-! ### NAND scrubs and fuse burns (R513, R514) -/

/-- The scrub of a region has begun. -/
def scrubbing (region : Nat) (s : State) : State :=
  drawn (onBist (fun b => { b with nandRegion := some region, nandEnd := s.clk.tick + (freeNow s).toNat,
                                   scrubbed := smPut b.scrubbed region (ophHours s / 24) }) s)

theorem exec_nandScrubRegion_begins {region : Byte} (hup : mgtUp s = true) (hidle : s.mgt.bist.nandRegion = none)
    (hdue : smFind s.mgt.bist.scrubbed region.toNat ≠ some (ophHours s / 24)) :
    exec (.nandScrubRegion region false) s = .next (scrubbing region.toNat s) :=
  congrArg Host.Outcome.next ((if_neg (by rw [hup]; decide)).trans ((if_neg (by decide)).trans (if_pos (by simp [hidle, hdue]))))

theorem exec_nandScrubRegion_ends {region : Byte} (hup : mgtUp s = true) (hregion : s.mgt.bist.nandRegion = some region.toNat) :
    exec (.nandScrubRegion region true) s = .next (onBist (fun b => { b with nandRegion := none }) s) :=
  congrArg Host.Outcome.next ((if_neg (by rw [hup]; decide)).trans ((if_pos rfl).trans (if_pos hregion)))

/-- Every fuse reads back and the retest finds nothing. -/
def burnOk (l : Lane) (unburnt : List Nat) (r : DieRun) (s : State) : Bool :=
  unburnt.isEmpty && logicClean l.idx (repairsOf s l.idx) r && r.cells.isEmpty

/-- The lane's soft repairs have passed into its fuses. -/
def fused (l : Lane) (s : State) : State :=
  itemStored repairsItem
    (onBist (fun b => { b with softMap := smDrop b.softMap l.idx, fuseMap := smPut b.fuseMap l.idx (smGet [] b.fuseMap l.idx ++ smGet [] s.mgt.bist.softMap l.idx) }) s)

/-- The burn is answered and raised. -/
def burnTold (l : Lane) (c : CmdRef) (st : Status) (result : List Byte) (s : State) : State :=
  raise 0x0007 (byte l.idx ++ byte 2 ++ byte st.code) (finishRef c st 0 result [] s)

section
variable {c : CmdRef} {unburnt : List Nat} {r : DieRun} (hburn : s.mgt.bist.fuseBurn = some (l, c)) (hup : mgtUp s = true)
include hburn hup

theorem exec_fuseBurnDone : exec (.fuseBurnDone unburnt r) s = .next (burnTold l c (if burnOk l unburnt r s then .ok else .checkFail)
    (if burnOk l unburnt r s then le2 (smGet [] s.mgt.bist.softMap l.idx).length else [])
    (if burnOk l unburnt r s then fused l (onBist (fun b => { b with fuseBurn := none }) s)
      else bistResult .vital l.idx 3 .checkFail 0 (onBist (fun b => { b with fuseBurn := none }) s))) := by
  have he : exec (.fuseBurnDone unburnt r) s = .next (match s.mgt.bist.fuseBurn with
    | none => s
    | some (l, c) => if !mgtUp s then s else burnTold l c (if burnOk l unburnt r s then .ok else .checkFail)
        (if burnOk l unburnt r s then le2 (smGet [] s.mgt.bist.softMap l.idx).length else [])
        (if burnOk l unburnt r s then fused l (onBist (fun b => { b with fuseBurn := none }) s)
          else bistResult .vital l.idx 3 .checkFail 0 (onBist (fun b => { b with fuseBurn := none }) s))) := rfl
  rw [he, hburn]
  exact congrArg Host.Outcome.next (if_neg (by rw [hup]; decide))

theorem exec_fuseBurnDone_burnt (h : burnOk l unburnt r s = true) : exec (.fuseBurnDone unburnt r) s =
    .next (burnTold l c .ok (le2 (smGet [] s.mgt.bist.softMap l.idx).length) (fused l (onBist (fun b => { b with fuseBurn := none }) s))) := by
  rw [exec_fuseBurnDone hburn hup, if_pos h, if_pos h, if_pos h]

theorem exec_fuseBurnDone_failed (h : ¬burnOk l unburnt r s = true) : exec (.fuseBurnDone unburnt r) s =
    .next (burnTold l c .checkFail [] (bistResult .vital l.idx 3 .checkFail 0 (onBist (fun b => { b with fuseBurn := none }) s))) := by
  rw [exec_fuseBurnDone hburn hup, if_neg h, if_neg h, if_neg h]

end

theorem fused_maps (l : Lane) (s : State) : smGet [] (fused l s).mgt.bist.softMap l.idx = [] ∧
    smGet [] (fused l s).mgt.bist.fuseMap l.idx = smGet [] s.mgt.bist.fuseMap l.idx ++ smGet [] s.mgt.bist.softMap l.idx := by
  constructor
  · exact (smGet_smDrop ..).trans (if_pos rfl)
  · exact (Proofs.Votes.smGet_smPut ..).trans (if_pos rfl)

theorem fused_keeps (l : Lane) (s : State) : (fused l s).mgt.bist.fuseBurn = s.mgt.bist.fuseBurn ∧ (fused l s).mgt.mbx = s.mgt.mbx ∧
    (fused l s).ctl = s.ctl ∧ (fused l s).data = s.data := ⟨rfl, rfl, rfl, rfl⟩

theorem burnTold_keeps (l : Lane) (c : CmdRef) (st : Status) (result : List Byte) (s : State) : (burnTold l c st result s).mgt.bist = s.mgt.bist ∧
    (burnTold l c st result s).mgt.mbx.finished = (finishRef c st 0 result [] s).mgt.mbx.finished ∧
    (burnTold l c st result s).ctl = s.ctl ∧ (burnTold l c st result s).data = s.data := ⟨rfl, rfl, rfl, rfl⟩

theorem finishRef_congr {t : State} (c : CmdRef) (st : Status) (est : Nat) (result data : List Byte) (h : t.mgt.mbx = s.mgt.mbx) :
    (finishRef c st est result data t).mgt.mbx.finished = (finishRef c st est result data s).mgt.mbx.finished := by
  rw [finishRef_finished, finishRef_finished, h]

section
variable {c : CmdRef} {unburnt : List Nat} {r : DieRun} (hburn : s.mgt.bist.fuseBurn = some (l, c)) (hup : mgtUp s = true)
include hburn hup

/-- R513: the repairs pass into the fuses. -/
theorem fuseBurn_burns (h : burnOk l unburnt r s = true) : ∃ t, exec (.fuseBurnDone unburnt r) s = .next t ∧ t.mgt.bist.fuseBurn = none ∧
    smGet [] t.mgt.bist.softMap l.idx = [] ∧
    smGet [] t.mgt.bist.fuseMap l.idx = smGet [] s.mgt.bist.fuseMap l.idx ++ smGet [] s.mgt.bist.softMap l.idx ∧
    t.mgt.mbx.finished = (finishRef c .ok 0 (le2 (smGet [] s.mgt.bist.softMap l.idx).length) [] s).mgt.mbx.finished ∧ t.ctl = s.ctl ∧ t.data = s.data := by
  refine ⟨_, exec_fuseBurnDone_burnt hburn hup h, ?_⟩
  obtain ⟨hsoft, hfuse⟩ := fused_maps l (onBist (fun b => { b with fuseBurn := none }) s)
  obtain ⟨hnone, hmbx, hctl, hdata⟩ := fused_keeps l (onBist (fun b => { b with fuseBurn := none }) s)
  generalize fused l (onBist (fun b => { b with fuseBurn := none }) s) = u at hsoft hfuse hnone hmbx hctl hdata ⊢
  obtain ⟨hbist, hfin, hctl', hdata'⟩ := burnTold_keeps l c .ok (le2 (smGet [] s.mgt.bist.softMap l.idx).length) u
  rw [hbist, hfin, hctl', hdata']
  exact ⟨hnone, hsoft, hfuse, finishRef_congr _ _ _ _ _ hmbx, hctl, hdata⟩

/-- R513: the soft repairs are kept. -/
theorem fuseBurn_fails (h : ¬burnOk l unburnt r s = true) : ∃ t, exec (.fuseBurnDone unburnt r) s = .next t ∧ t.mgt.bist.fuseBurn = none ∧
    t.mgt.bist.softMap = s.mgt.bist.softMap ∧ t.mgt.bist.fuseMap = s.mgt.bist.fuseMap ∧
    t.mgt.mbx.finished = (finishRef c .checkFail 0 [] [] s).mgt.mbx.finished ∧ t.ctl = s.ctl ∧ t.data = s.data := by
  refine ⟨_, exec_fuseBurnDone_failed hburn hup h, ?_⟩
  have hnoted := noted_bistResult .vital l.idx 3 .checkFail 0 (onBist (fun b => { b with fuseBurn := none }) s)
  generalize bistResult .vital l.idx 3 .checkFail 0 (onBist (fun b => { b with fuseBurn := none }) s) = u at hnoted ⊢
  obtain ⟨hbist, hfin, hctl', hdata'⟩ := burnTold_keeps l c .checkFail [] u
  rw [hbist, hfin, hctl', hdata']
  exact ⟨hnoted.fuseBurn, hnoted.softMap, hnoted.fuseMap, finishRef_congr _ _ _ _ _ hnoted.mbx, hnoted.ctl, hnoted.data⟩

end

/-- Settles O60: each test in service is judged by its own verdict. -/
theorem testsInServiceAreJudged : Obligations.TestsInServiceAreJudged := by
  intro s
  refine ⟨fun l d h hv => laneTest_fails h hv, fun l d hf _ h hv => laneTest_passes hf h hv, fun l hlane hjoin => ?_, fun region hup => ⟨fun hidle hdue => ?_, fun h => exec_nandScrubRegion_ends hup h⟩,
    fun l c r hburn hup => ⟨fun hlogic hcells => ?_, fun unburnt h => ?_⟩⟩
  · obtain ⟨hinside, hfails, hruns, hmemory⟩ := belaySteps hlane hjoin
    refine ⟨fun misr golden h => ?_, fun misr h hused => ?_, fun misr h hp => ?_, fun r m cells last => ⟨fun hmay hcells => ?_, fun hmay => ?_, (hmemory r m cells last).2.2⟩⟩
    · obtain ⟨t, he, htest, hcore, hvoter, hdata⟩ := hinside misr golden h
      exact ⟨t, he, htest, hcore, hvoter, hdata⟩
    · obtain ⟨t, x, he, hfail, hsteps, hcount, rfl, -, hvoter, hdata⟩ := hfails misr h hused
      exact ⟨t, he, hfail, hsteps, hcount, hvoter, hdata⟩
    · obtain ⟨t, x, he, hfail, hsteps, hcount, hmisr, rfl, -, hvoter, hdata⟩ := hruns misr h hp
      exact ⟨t, he, hfail, hsteps, hcount, hmisr, hvoter, hdata⟩
    · obtain ⟨t, x, he, hfail, hcount, rfl, -, hvoter, hdata⟩ := (hmemory r m cells last).1 hmay hcells
      exact ⟨t, he, hfail, hcount, hvoter, hdata⟩
    · obtain ⟨t, x, he, hfail, hcount, rfl, -, hvoter, hdata⟩ := (hmemory r m cells last).2.1 hmay
      exact ⟨t, he, hfail, hcount, hvoter, hdata⟩
  · exact ⟨_, exec_nandScrubRegion_begins hup hidle hdue, rfl, (smFind_smPut ..).trans (if_pos rfl), Nat.le_add_right .., rfl, rfl⟩
  · exact fuseBurn_burns hburn hup (by simp [burnOk, hlogic, hcells])
  · have hbad : ¬burnOk l unburnt r s = true := by
      simp only [burnOk, Bool.and_eq_true, List.isEmpty_iff]
      rintro ⟨⟨hu, hl⟩, hc⟩
      obtain h | h | h := h
      · exact h hu
      · exact absurd hl (by rw [h]; decide)
      · exact h hc
    exact fuseBurn_fails hburn hup hbad

end Sys2Proof.Proofs.TestsInService
end

section
/-! What the records of online change leave, and the OLC commands (O50, R256, R263, R264, R269, R433, R588). -/

namespace Sys2Proof.Proofs.OnlineChange

open Sys2Proof Sys2Proof.Machine Sys2Proof.Claims Sys2Proof.Laws Sys2Proof.Proofs.Updates

/-! ### Records -/

/-- `t` differs from `s` in the recorder and in the events that wait alone. -/
def Logged (s t : State) : Prop :=
  t = { s with mgt := { s.mgt with recorder := t.mgt.recorder, mbx := { s.mgt.mbx with events := t.mgt.mbx.events } } }

theorem Logged.refl (s : State) : Logged s s := rfl

theorem Logged.trans {s t u : State} (h : Logged s t) (h' : Logged t u) : Logged s u := by
  unfold Logged at *
  rw [h', h]

section
variable {s t : State} (h : Logged s t)
include h

theorem Logged.ctl : t.ctl = s.ctl := by rw [h]
theorem Logged.data : t.data = s.data := by rw [h]
theorem Logged.variant : t.variant = s.variant := by rw [h]
theorem Logged.power : t.power = s.power := by rw [h]
theorem Logged.finished : t.mgt.mbx.finished = s.mgt.mbx.finished := by rw [h]
theorem Logged.store : t.mgt.store = s.mgt.store := by rw [h]
theorem Logged.start : t.mgt.start = s.mgt.start := by rw [h]
end

theorem logged_report (r : RecRing) (code source : Nat) (key detail : List Byte) (s : State) : Logged s (report r code source key detail s) := rfl

theorem logged_olcRecord (kind status w : Nat) (crc : W32) (s : State) : Logged s (olcRecord kind status w crc s) := by
  rw [olcRecord]
  split <;> rfl

theorem logged_dissentRecord (kind mask : Nat) (st : Status) (crc : Nat) (s : State) : Logged s (dissentRecord kind mask st crc s) := by
  rw [dissentRecord]
  split
  · exact .refl s
  · exact logged_report ..

theorem logged_foldl {α : Type} {f : State → α → State} (h : ∀ s a, Logged s (f s a)) (l : List α) (s : State) : Logged s (l.foldl f s) := by
  induction l generalizing s with
  | nil => exact .refl s
  | cons a l ih => exact (h s a).trans (ih (f s a))

theorem logged_ite {p : Prop} [Decidable p] {s t : State} (h : Logged s t) : Logged s (if p then t else s) := by
  split
  · exact h
  · exact .refl s

theorem logged_notCarried (i : Image) (s : State) : Logged s (notCarried i s) :=
  logged_foldl (fun _ _ => logged_ite (logged_report ..)) i.elements s

/-! ### The checks of an image (R140, R256) -/

/-- Whatever the checks find, they write records of dissent and note what the certificate fails in. -/
theorem changeCheck_state (s : State) (b : List Byte) : (changeCheck s b).1 =
    noteCertificate b (checkAll s (some s.tscan) b).1 (dissentRecord 1 (checkAll s (some s.tscan) b).2 .version (leAt b 0xFC 4) s) := by
  unfold changeCheck
  dsimp only
  split
  · rfl
  · split <;> rfl

theorem noteCertificate_eq (b : List Byte) (r : Except Status Image) (s : State) : ∃ item, noteCertificate b r s = onOlc (fun o => { o with certItem := item }) s :=
  ⟨_, rfl⟩

theorem changeCheck_eq (s : State) (b : List Byte) : ∃ item t, Logged s t ∧ (changeCheck s b).1 = onOlc (fun o => { o with certItem := item }) t := by
  rw [changeCheck_state]
  obtain ⟨item, h⟩ := noteCertificate_eq b (checkAll s (some s.tscan) b).1 (dissentRecord 1 (checkAll s (some s.tscan) b).2 .version (leAt b 0xFC 4) s)
  exact ⟨item, _, logged_dissentRecord .., h⟩

/-- Whether the control plane runs rests on the voter, the trip and the bivouac. -/
theorem ctlRuns_congr {s t : State} (hvoter : t.ctl.voter = s.ctl.voter) (htrip : t.ctl.trip = s.ctl.trip) (hstart : t.mgt.start = s.mgt.start) :
    ctlRuns t = ctlRuns s := by
  rw [ctlRuns, ctlRuns, voter, voter, hvoter, htrip, hstart]

/-! ### The OLC commands (R263, R264, R269, R433) -/

section
variable {s : State} {c : CmdHdr}

theorem exec_olcLoadBegin {tg : Byte} {len crc : W32} (h : Accepted (.olcLoadBegin c tg len crc) s) (hmode : s.ctl.olc.mode ≠ .swapping)
    (htg : tg.toNat ≤ 1) (hlen : len.toNat ≤ 16777216 + 65536) (hbank : tg = 0 → notRunning s = false ∧ switchOn s 3 = true)
    (hstore : tg = 1 → inService s = false) : exec (.olcLoadBegin c tg len crc) s = .next (finish c 0x0600 .ok [] []
      (onOlc (fun o => { o with load := some ⟨tg.toNat, len.toNat, crc, []⟩ }) (dropLoad s))) := by
  refine exec_of_accepted h rfl rfl ?_ rfl
  have hreadyBank : (tg == 0 && notRunning s) = false := Bool.and_eq_false_imp.2 fun h0 => (hbank (eq_of_beq h0)).1
  have hready : (s.ctl.olc.mode == .swapping || (tg == 0 && notRunning s)) = false :=
    Bool.or_eq_false_iff.2 ⟨by simpa using hmode, hreadyBank⟩
  have hseal : (tg == 0 && !switchOn s 3) = false := Bool.and_eq_false_imp.2 fun h0 => by rw [(hbank (eq_of_beq h0)).2]; rfl
  have hservice : (tg == 1 && inService s) = false := Bool.and_eq_false_imp.2 fun h1 => hstore (eq_of_beq h1)
  simp only [judge, List.find?, hready, hseal, hservice, decide_eq_false htg.not_gt, decide_eq_false hlen.not_gt, Bool.or_false, Option.map_none]

theorem exec_olcLoadData {l : OlcLoad} {off : W32} {data : List Byte} (hload : s.ctl.olc.load = some l) (h : Accepted (.olcLoadData c off data) s)
    (hoff : off.toNat % 8 = 0) (hend : off.toNat + data.length ≤ l.len) (hwhole : data.length % 8 = 0 ∨ off.toNat + data.length = l.len) :
    exec (.olcLoadData c off data) s = .next (finish c 0x0601 .ok (le4 (heldBytes (if data.isEmpty then l.pieces else putPiece off.toNat data l.pieces))) []
        (onOlc (fun o => { o with load := some { l with pieces := if data.isEmpty then l.pieces else putPiece off.toNat data l.pieces } }) s)) := by
  refine exec_of_accepted h rfl rfl ?_ (by rw [hload])
  have hpart : (decide (data.length % 8 ≠ 0) && decide (off.toNat + data.length ≠ l.len)) = false := by
    obtain hw | hw := hwhole <;> simp [hw]
  rw [hload]
  simp only [judge, List.find?, Option.isNone_some, hpart, decide_eq_false (not_not.2 hoff), decide_eq_false hend.not_gt, Bool.or_false, Option.map_none]

/-! ### The end of a load (R140, R256, R433) -/

/-- The bytes of a load. -/
def loadBytes (l : OlcLoad) : List Byte := (l.pieces.map (·.2)).flatten

/-- The load is whole, and its last word is the CRC that was announced. -/
def loadWhole (l : OlcLoad) : Prop := heldBytes l.pieces = l.len ∧ 256 ≤ (loadBytes l).length ∧ leAt (loadBytes l) 0xFC 4 = l.crc.toNat

/-- The load is held no more. -/
def unloaded (s : State) : State := onOlc (fun o => { o with load := none }) s

/-- A whole load for the station-data store ends in the checks of R140. -/
def storeLoadEnds (c : CmdHdr) (b : List Byte) (r : Except Status Image) (s : State) : State :=
  match r with
  | .error st => finish c 0x0602 st [] [] s
  | .ok _ => finish c 0x0602 .ok (leBytes 12 0) [] (onStore (fun x => { x with image := b }) s)

/-- A whole load for the shadow banks ends in the checks of R256. -/
def bankLoadEnds (c : CmdHdr) (l : OlcLoad) (b : List Byte) (r : State × Except Status Image) : State :=
  match r.2 with
  | .error st => finish c 0x0602 st [] [] (olcRecord 2 st.code 0 l.crc r.1)
  | .ok i =>
    if notRunning r.1 then finish c 0x0602 .notReady [] [] (olcRecord 2 Status.notReady.code 0 l.crc r.1)
    else notCarried i (onOlc (fun o => { o with image := some i, loadCmd := some (refOf c 0x0602) }) (onStore (fun x => { x with staged := b }) r.1))

/-- What OLC_LOAD_END does with a load. -/
def loadEnds (c : CmdHdr) (l : OlcLoad) (s : State) : State :=
  if heldBytes l.pieces ≠ l.len ∨ (loadBytes l).length < 256 ∨ leAt (loadBytes l) 0xFC 4 ≠ l.crc.toNat then finish c 0x0602 .checkFail [] [] s
  else if l.target = 1 then
    storeLoadEnds c (loadBytes l) (checkImage s.mgt.upd.active.lane s.variant s.mgt.store.keys none (loadBytes l))
      (noteCertificate (loadBytes l) (checkImage s.mgt.upd.active.lane s.variant s.mgt.store.keys none (loadBytes l)) (unloaded s))
  else bankLoadEnds c l (loadBytes l) (changeCheck (unloaded s) (loadBytes l))

theorem exec_olcLoadEnd {l : OlcLoad} (hload : s.ctl.olc.load = some l) (h : Accepted (.olcLoadEnd c) s) (hnand : nandBusy s 0x0602 = false) :
    exec (.olcLoadEnd c) s = .next (loadEnds c l s) := by
  refine exec_of_accepted h rfl rfl ?_ (by rw [hload]; rfl)
  simp only [judge, List.find?, hload, hnand, Option.isNone_some, Option.map_none]

theorem loadEnds_broken {l : OlcLoad} (h : heldBytes l.pieces ≠ l.len ∨ (loadBytes l).length < 256 ∨ leAt (loadBytes l) 0xFC 4 ≠ l.crc.toNat) :
    loadEnds c l s = finish c 0x0602 .checkFail [] [] s := if_pos h

theorem loadWhole_not_broken {l : OlcLoad} (h : loadWhole l) :
    ¬(heldBytes l.pieces ≠ l.len ∨ (loadBytes l).length < 256 ∨ leAt (loadBytes l) 0xFC 4 ≠ l.crc.toNat) := by
  obtain ⟨hheld, hlen, hcrc⟩ := h
  rintro (hb | hb | hb)
  · exact hb hheld
  · exact hlen.not_gt hb
  · exact hb hcrc

theorem loadEnds_store {l : OlcLoad} {im : Image} (hwhole : loadWhole l) (htarget : l.target = 1)
    (hok : checkImage s.mgt.upd.active.lane s.variant s.mgt.store.keys none (loadBytes l) = .ok im) : loadEnds c l s =
    finish c 0x0602 .ok (leBytes 12 0) [] (onStore (fun x => { x with image := loadBytes l }) (onOlc (fun o => { o with load := none, certItem := none }) s)) := by
  rw [loadEnds, if_neg (loadWhole_not_broken hwhole), if_pos htarget, hok]
  rfl

/-- A sound load for the shadow banks goes onto the staging path, and nothing is answered yet. -/
theorem loadEnds_staging {l : OlcLoad} {im : Image} (hwhole : loadWhole l) (htarget : l.target = 0)
    (hok : (changeCheck (unloaded s) (loadBytes l)).2 = .ok im) (hrun : notRunning s = false) :
    (loadEnds c l s).ctl.olc.image = some im ∧ (loadEnds c l s).ctl.olc.loadCmd = some (refOf c 0x0602) ∧ (loadEnds c l s).ctl.olc.load = none ∧
    (loadEnds c l s).mgt.store.staged = loadBytes l ∧ (loadEnds c l s).mgt.mbx.finished = s.mgt.mbx.finished ∧ (loadEnds c l s).data = s.data := by
  obtain ⟨item, u, hlog, hstate⟩ := changeCheck_eq (unloaded s) (loadBytes l)
  have hrun' : notRunning (onOlc (fun o => { o with certItem := item }) u) = false := by
    rw [← hrun]
    exact congrArg (!·) (ctlRuns_congr (t := onOlc (fun o => { o with certItem := item }) u) (congrArg (·.voter) hlog.ctl) (congrArg (·.trip) hlog.ctl) hlog.start)
  rw [loadEnds, if_neg (loadWhole_not_broken hwhole), if_neg (by rw [htarget]; decide), bankLoadEnds, hok]
  dsimp only
  rw [hstate, hrun', if_neg Bool.false_ne_true]
  generalize hv : onOlc (fun o => { o with image := some im, loadCmd := some (refOf c 0x0602) }) _ = v
  have hn := logged_notCarried im v
  rw [hn.ctl, hn.store, hn.finished, hn.data, ← hv]
  exact ⟨rfl, rfl, congrArg (·.olc.load) hlog.ctl, rfl, hlog.finished, hlog.data⟩

/-! ### Swap, cancellation, discard and status (R263, R264, R269, R433) -/

theorem exec_olcSwap {w : W32} (h : Accepted (.olcSwap c w) s) (hrun : notRunning s = false) (hmode : s.ctl.olc.mode = .staged)
    (hrestage : s.ctl.olc.restage = false) (hcmd : s.ctl.olc.swapCmd = none) (hseal : switchOn s 3 = true) (hsched : schedAnnounced s = false)
    (hdbg : debugAttached s = false) : exec (.olcSwap c w) s = .next (onOlc (fun o => { o with swapCmd := some (refOf c 0x0603) })
        (writeOseq 1 (if w = 0 then nextCarried s + 32 else w) s)) := by
  refine exec_of_accepted h rfl rfl ?_ rfl
  simp only [judge, List.find?, hrun, hmode, hrestage, hcmd, hseal, hsched, hdbg, bne_self_eq_false, Option.isSome_none, Bool.or_false, Bool.not_true,
    Option.map_none]

section
variable (h : Accepted (.olcCancel c) s) (hmode : s.ctl.olc.mode = .swapping) (hcmd : s.ctl.olc.cancelCmd = none)
include h hmode hcmd

theorem exec_olcCancel_carried (hw : scnBefore (nextCarried s) s.ctl.olc.w = true) (hswapped : s.ctl.olc.swapped = false) :
    exec (.olcCancel c) s = .next (onOlc (fun o => { o with cancelCmd := some (refOf c 0x0604) }) (writeOseq 2 s.ctl.olc.w s)) := by
  refine exec_of_accepted h rfl rfl ?_ rfl
  simp only [judge, List.find?, hmode, hcmd, hw, hswapped, bne_self_eq_false, Option.isSome_none, Bool.or_false, Bool.not_true, Option.map_none]

theorem exec_olcCancel_stale (hw : scnBefore (nextCarried s) s.ctl.olc.w = false) : exec (.olcCancel c) s = .next (finish c 0x0604 .stale [] [] s) := by
  refine exec_of_refused h rfl rfl ?_ (by decide)
  simp only [judge, List.find?, hmode, hcmd, hw, bne_self_eq_false, Option.isSome_none, Bool.or_false, Bool.not_false, Bool.true_or, Option.map_some]

end

theorem exec_olcDiscard (h : Accepted (.olcDiscard c) s) (hmode : s.ctl.olc.mode = .staged) :
    exec (.olcDiscard c) s = .next (finish c 0x0605 .ok [] [] (olcIdle (olcRecord 9 0 0 (stagedCrc s) s))) := by
  refine exec_of_accepted h rfl rfl ?_ rfl
  simp only [judge, List.find?, hmode, bne_self_eq_false, Option.map_none]

/-- OLC_STATUS answers the state, the scan of a swap and the staged image. -/
theorem exec_olcStatus (h : Accepted (.olcStatus c) s) : exec (.olcStatus c) s = .next (finish c 0x0606 .ok (leBytes 4 (olcCode s.ctl.olc.mode) ++
      le4 (if s.ctl.olc.mode = .swapping then s.ctl.olc.w.toNat else 0) ++ le4 (if s.ctl.olc.mode = .idle then 0 else (stagedCrc s).toNat)) [] s) :=
  exec_of_accepted h rfl rfl rfl rfl

end

/-- R263, R264, R269, R433. -/
theorem olcCommandsAct : OlcCommandsAct := by
  refine fun s c => ⟨fun tg len crc h hmode htg hlen hbank hstore => exec_olcLoadBegin h hmode htg hlen hbank hstore,
    fun l off data hload h hoff hend hwhole => exec_olcLoadData hload h hoff hend hwhole,
    fun l hload h hnand => ⟨fun hbroken => ?_, fun im htarget hheld hlen hcrc hok => ?_, fun im htarget hheld hlen hcrc hok hrun => ?_⟩,
    fun w h hrun hmode hrestage hcmd hseal hsched hdbg => exec_olcSwap h hrun hmode hrestage hcmd hseal hsched hdbg,
    fun h hmode hcmd => ⟨fun hw hswapped => exec_olcCancel_carried h hmode hcmd hw hswapped, fun hw => exec_olcCancel_stale h hmode hcmd hw⟩,
    fun h hmode => exec_olcDiscard h hmode, fun h hmode => ?_, fun h hmode => ?_, fun h hmode => ?_⟩
  · rw [exec_olcLoadEnd hload h hnand, loadEnds_broken hbroken]
  · rw [exec_olcLoadEnd hload h hnand, loadEnds_store ⟨hheld, hlen, hcrc⟩ htarget hok]
    rfl
  · exact ⟨_, exec_olcLoadEnd hload h hnand, loadEnds_staging ⟨hheld, hlen, hcrc⟩ htarget hok hrun⟩
  all_goals
    rw [exec_olcStatus h, hmode]
    rfl

end Sys2Proof.Proofs.OnlineChange
end

section
/-! Staging: how an image reaches the shadow banks and how the last lane decides it (O50, R23, R256, R257, R262, R268). -/

namespace Sys2Proof.Proofs.Staging

open Sys2Proof Sys2Proof.Machine Sys2Proof.Claims Sys2Proof.Laws Sys2Proof.Proofs.OnlineChange

variable {s : State} {l : Lane} {i old : Image}

/-! ### A lane takes the image (R23, R256) -/

/-- The image stands in the lane's shadow bank. -/
def shadowed (l : Lane) (i : Image) (s : State) : State := onCore l (fun c => { c with shadow := some i }) s

/-- A shadow bank is not what runs. -/
theorem runImage_shadowed (l : Lane) (i : Image) (s : State) : runImage (shadowed l i s) = runImage s := by
  have hactive : (fun m => ((shadowed l i s).ctl.lanes.get m).core.active) = fun m => (s.ctl.lanes.get m).core.active := by
    funext m
    by_cases hm : m = l
    · rw [hm]
      exact congrArg (·.core.active) (lane_onLane ..)
    · exact congrArg (·.core.active) (lane_onLane_ne _ _ hm)
  exact congrArg (List.findSome? · _) hactive

section
variable (hdue : stagingDue s = true) (hrun : ctlRuns s = true) (hlane : (stagingLanes s).contains l = true)
  (hphase : (lane s l).core.phase = .idle ∨ (lane s l).core.phase = .stopped) (hshadow : (lane s l).core.shadow ≠ some i)
include hdue hrun hlane hphase hshadow

/-- A lane that stands idle takes the image, and the last of them decides the staging. -/
theorem stageLane_takes : stageLane l i s =
    if stagingOpen s && allStaged (shadowed l i s) i then stagingVerdict (shadowed l i s) else shadowed l i s := by
  have hnew : (!((lane s l).core.shadow == some i)) = true := by simpa using hshadow
  rw [stageLane]
  refine if_pos ?_
  obtain h | h := hphase
  all_goals
    rw [hdue, hrun, hlane, h, hnew]
    rfl

theorem exec_stagingTransferDone_lane (himage : s.ctl.olc.image = some i) (hidle : idlePart s = true) : exec (.stagingTransferDone (.lane l)) s =
    .next (if stagingOpen s && allStaged (shadowed l i s) i then stagingVerdict (shadowed l i s) else shadowed l i s) := by
  have he : exec (.stagingTransferDone (.lane l)) s = .next (if !(ctlRuns s && idlePart s) then s
    else match s.ctl.olc.image with
      | some i => stageLane l i s
      | none => s) := rfl
  rw [he, himage, if_neg (by rw [hrun, hidle]; decide)]
  exact congrArg Host.Outcome.next (stageLane_takes hdue hrun hlane hphase hshadow)

end

/-! ### The verdict (R257, R262, R268, R269) -/

/-- The image is staged with its map. -/
def stagedWith (m : List MapEntry) (s : State) : State := onOlc (fun o => { o with mode := .staged, map := m, digest := mapDigest m, restage := false }) s

/-- A load's staging is recorded. -/
def stagingRecorded (i : Image) (s : State) : State := if s.ctl.olc.loadCmd.isSome then olcRecord 1 0 0 i.hdrCrc s else s

/-- What OLC_LOAD_END answers of a staged image. -/
def stagedResult (i : Image) (m : List MapEntry) : List Byte := le4 m.length ++ le4 ((mapDigest m).toNat % 2 ^ 32) ++ le4 (i.certCycles + swapCost m)

/-- An image whose checks have passed is staged where every checker has its map and scan W fits its budget. -/
def judgedBy (old i : Image) (s : State) : State :=
  if digestDissent s (mapDigest (transferMap old i)) ≠ 0 then
    stagingFails .checkFail (dissentRecord 2 (digestDissent s (mapDigest (transferMap old i))) .checkFail i.hdrCrc.toNat s)
  else if Config.budget i.tscan < i.certCycles + swapCost (transferMap old i) then stagingFails .checkFail s
  else finishLoad .ok (stagedResult i (transferMap old i)) (stagingRecorded i (stagedWith (transferMap old i) s))

/-- The verdict on what the checks have answered. -/
def verdictFrom (old i : Image) (c : State × Except Status Image) : State :=
  match c.2 with
  | .error st => stagingFails st c.1
  | .ok _ => judgedBy old i c.1

section
variable (hold : runImage s = some old) (himage : s.ctl.olc.image = some i)
include hold himage

theorem stagingVerdict_eq : stagingVerdict s = verdictFrom old i (if s.ctl.olc.restage then changeCheck s s.mgt.store.staged else (s, .ok i)) := by
  have he : stagingVerdict s = match runImage s, s.ctl.olc.image with
    | some old, some i => verdictFrom old i (if s.ctl.olc.restage then changeCheck s s.mgt.store.staged else (s, .ok i))
    | _, _ => s := rfl
  rw [he, hold, himage]

theorem stagingVerdict_fresh (h : s.ctl.olc.restage = false) : stagingVerdict s = judgedBy old i s := by
  rw [stagingVerdict_eq hold himage, if_neg (by rw [h]; decide)]
  rfl

theorem stagingVerdict_recheckFails {st : Status} (h : s.ctl.olc.restage = true) (hst : (changeCheck s s.mgt.store.staged).2 = .error st) :
    stagingVerdict s = stagingFails st (changeCheck s s.mgt.store.staged).1 := by
  rw [stagingVerdict_eq hold himage, if_pos h, verdictFrom, hst]

end

/-- A load that ends is answered where a command has asked for it, and leaves the rest of the online change. -/
theorem finishLoad_ends (st : Status) (result : List Byte) (s : State) : (finishLoad st result s).ctl.olc = { s.ctl.olc with loadCmd := none } ∧
    (finishLoad st result s).data = s.data ∧
    (∀ c, s.ctl.olc.loadCmd = some c → (finishLoad st result s).mgt.mbx.finished = (finishRef c st 0 result [] s).mgt.mbx.finished) := by
  have hnone (hc : s.ctl.olc.loadCmd = none) : s.ctl.olc = { s.ctl.olc with loadCmd := none } := by rw [← hc]
  rw [finishLoad]
  cases hc : s.ctl.olc.loadCmd with
  | none => exact ⟨hnone hc, rfl, fun c h => nomatch h⟩
  | some c =>
    refine ⟨rfl, rfl, fun c' h => ?_⟩
    cases h
    rfl

theorem finishRef_congr {t : State} (c : CmdRef) (st : Status) (result : List Byte) (h : t.mgt.mbx.finished = s.mgt.mbx.finished) :
    (finishRef c st 0 result [] t).mgt.mbx.finished = (finishRef c st 0 result [] s).mgt.mbx.finished := by
  rw [finishRef_finished, finishRef_finished, h]

/-- A staging that fails leaves nothing staged and answers its load. -/
theorem stagingFails_ends {t : State} (st : Status) (h : Logged s t) : (stagingFails st t).ctl.olc.mode = .idle ∧ (stagingFails st t).ctl.olc.image = none ∧
    (stagingFails st t).data = s.data ∧
    (∀ c, s.ctl.olc.loadCmd = some c → (stagingFails st t).mgt.mbx.finished = (finishRef c st 0 [] [] s).mgt.mbx.finished) := by
  have hlog : Logged s (olcRecord (if t.ctl.olc.restage then 7 else 2) st.code 0 (stagedCrc t) t) := h.trans (logged_olcRecord ..)
  obtain ⟨-, hdata, hfin⟩ := finishLoad_ends st [] (olcRecord (if t.ctl.olc.restage then 7 else 2) st.code 0 (stagedCrc t) t)
  have hfails : stagingFails st t = olcIdle (finishLoad st [] (olcRecord (if t.ctl.olc.restage then 7 else 2) st.code 0 (stagedCrc t) t)) := rfl
  rw [hfails]
  refine ⟨rfl, rfl, hdata.trans hlog.data, fun c hc => ?_⟩
  exact (hfin c ((congrArg (·.olc.loadCmd) hlog.ctl).trans hc)).trans (finishRef_congr c st [] hlog.finished)

/-- An image that every checker agrees on and the budget allows is staged with its map. -/
theorem judgedBy_stages (hdigest : digestDissent s (mapDigest (transferMap old i)) = 0)
    (hbudget : i.certCycles + swapCost (transferMap old i) ≤ Config.budget i.tscan) : (judgedBy old i s).ctl.olc.mode = .staged ∧
    (judgedBy old i s).ctl.olc.map = transferMap old i ∧ (judgedBy old i s).ctl.olc.digest = mapDigest (transferMap old i) ∧
    (judgedBy old i s).ctl.olc.loadCmd = none ∧ (judgedBy old i s).data = s.data ∧
    (∀ c, s.ctl.olc.loadCmd = some c → (judgedBy old i s).mgt.mbx.finished =
      (finishRef c .ok 0 (stagedResult i (transferMap old i)) [] s).mgt.mbx.finished) := by
  have hlog : Logged (stagedWith (transferMap old i) s) (stagingRecorded i (stagedWith (transferMap old i) s)) := logged_ite (logged_olcRecord ..)
  rw [judgedBy, if_neg (not_not.2 hdigest), if_neg hbudget.not_gt]
  generalize stagingRecorded i (stagedWith (transferMap old i) s) = v at hlog ⊢
  obtain ⟨holc, hdata, hfin⟩ := finishLoad_ends .ok (stagedResult i (transferMap old i)) v
  rw [holc, hlog.ctl, hdata, hlog.data]
  exact ⟨rfl, rfl, rfl, rfl, rfl, fun c hc => (hfin c ((congrArg (·.olc.loadCmd) hlog.ctl).trans hc)).trans (finishRef_congr c .ok _ hlog.finished)⟩

/-- One that a checker's digest or the budget speaks against is not. -/
theorem judgedBy_fails (h : digestDissent s (mapDigest (transferMap old i)) ≠ 0 ∨ Config.budget i.tscan < i.certCycles + swapCost (transferMap old i)) :
    ∃ t, Logged s t ∧ judgedBy old i s = stagingFails .checkFail t := by
  by_cases hdigest : digestDissent s (mapDigest (transferMap old i)) = 0
  · refine ⟨s, .refl s, ?_⟩
    rw [judgedBy, if_neg (not_not.2 hdigest), if_pos (h.resolve_left (not_not.2 hdigest))]
  · exact ⟨_, logged_dissentRecord .., if_pos hdigest⟩

/-! ### VIO and the voter halves (R18, R540, R541) -/

/-- A target's shadow bank has its firmware, or the step fails. -/
theorem exec_stagingTransferDone_vio {sound : Bool} (hrun : ctlRuns s = true) (hidle : idlePart s = true) (hstep : inStep s 5 = true)
    (hdom : domRun s 11 = true) (hshadow : s.mgt.upd.shadowVio = none) : exec (.stagingTransferDone (.vio sound)) s =
    .next (shadowReport sound (fun u => { u with shadowVio := some u.bankP.vio }) s) :=
  congrArg Host.Outcome.next ((if_neg (by rw [hrun, hidle]; decide)).trans (if_pos (by rw [hstep, hdom, hshadow]; rfl)))

theorem exec_stagingTransferDone_half {h : Half} {sound : Bool} (hrun : ctlRuns s = true) (hidle : idlePart s = true) (hstep : inStep s 6 = true)
    (hshadow : s.mgt.upd.shadowVoter.get h = none) : exec (.stagingTransferDone (.half h sound)) s =
    .next (shadowReport sound (fun u => { u with shadowVoter := u.shadowVoter.set h (some u.bankP.voter) }) s) :=
  congrArg Host.Outcome.next ((if_neg (by rw [hrun, hidle]; decide)).trans (if_pos (by rw [hstep, hshadow]; rfl)))

/-- R18, R23, R256, R257, R262, R268, R540, R541. -/
theorem stagingReachesEveryLane : StagingReachesEveryLane := by
  refine ⟨fun s l i old himage hdue hrun hidle hlane hphase hshadow hold => ?_, fun s hrun hidle =>
    ⟨fun hstep hdom hshadow => ⟨exec_stagingTransferDone_vio hrun hidle hstep hdom hshadow, exec_stagingTransferDone_vio hrun hidle hstep hdom hshadow⟩,
    fun h hstep hshadow => ⟨exec_stagingTransferDone_half hrun hidle hstep hshadow, exec_stagingTransferDone_half hrun hidle hstep hshadow⟩⟩⟩
  have he := exec_stagingTransferDone_lane hdue hrun hlane hphase hshadow himage hidle
  have hold' : runImage (shadowed l i s) = some old := (runImage_shadowed l i s).trans hold
  have hlast (hopen : stagingOpen s = true) (hall : allStaged (shadowed l i s) i = true) :
      exec (.stagingTransferDone (.lane l)) s = .next (stagingVerdict (shadowed l i s)) := by rw [he, if_pos (by rw [hopen, hall]; rfl)]
  refine ⟨fun hmore => ?_, fun hopen hall => ⟨fun hfresh hdigest hbudget => ?_, fun hfresh hbad => ?_, fun st hagain hst => ?_⟩⟩
  · exact he.trans (congrArg Host.Outcome.next (if_neg (Bool.eq_false_iff.1 hmore)))
  · exact ⟨_, (hlast hopen hall).trans (congrArg Host.Outcome.next (stagingVerdict_fresh hold' himage hfresh)), judgedBy_stages hdigest hbudget⟩
  · obtain ⟨t, hlog, hfails⟩ := judgedBy_fails hbad
    refine ⟨_, (hlast hopen hall).trans (congrArg Host.Outcome.next ((stagingVerdict_fresh hold' himage hfresh).trans hfails)), stagingFails_ends (s := shadowed l i s) .checkFail hlog⟩
  · exact (hlast hopen hall).trans (congrArg Host.Outcome.next (stagingVerdict_recheckFails hold' himage hagain hst))

end Sys2Proof.Proofs.Staging
end

section
/-! The boundary of a swap: each half judges it, and every lane whose shadow bank holds the image exchanges its banks (O50, R265, R266). -/

namespace Sys2Proof.Proofs.SwapBoundary

open Sys2Proof Sys2Proof.Machine Sys2Proof.Claims Sys2Proof.Laws Sys2Proof.Proofs.OnlineChange Sys2Proof.Proofs.Staging

variable {s : State} {old new : Image}

/-! ### What leaves the lanes' cores (R251, R260) -/

/-- `t` has the voter, the data plane and every lane's core as in `s`. -/
structure CoresKept (s t : State) : Prop where
  core : ∀ l, (lane t l).core = (lane s l).core
  voter : t.ctl.voter = s.ctl.voter
  data : t.data = s.data

theorem CoresKept.refl (s : State) : CoresKept s s := ⟨fun _ => rfl, rfl, rfl⟩

theorem CoresKept.trans {s t u : State} (h : CoresKept s t) (h' : CoresKept t u) : CoresKept s u :=
  ⟨fun l => (h'.core l).trans (h.core l), h'.voter.trans h.voter, h'.data.trans h.data⟩

theorem coresKept_foldl {α : Type} {f : State → α → State} (h : ∀ s a, CoresKept s (f s a)) (l : List α) (s : State) : CoresKept s (l.foldl f s) := by
  induction l generalizing s with
  | nil => exact .refl s
  | cons a l ih => exact (h s a).trans (ih (f s a))

theorem coresKept_of_logged {s t : State} (h : Logged s t) : CoresKept s t :=
  ⟨fun l => congrArg (fun c => (c.lanes.get l).core) h.ctl, congrArg (·.voter) h.ctl, h.data⟩

theorem coresKept_onForce (f : ForceState → ForceState) (s : State) : CoresKept s (onForce f s) := ⟨fun _ => rfl, rfl, rfl⟩

/-- A change of a lane that leaves its core. -/
theorem coresKept_onLane (l : Lane) {f : LaneState → LaneState} (hf : ∀ x, (f x).core = x.core) (s : State) : CoresKept s (onLane l f s) := by
  refine ⟨fun m => ?_, rfl, rfl⟩
  by_cases hm : m = l
  · rw [hm, lane_onLane, hf]
  · rw [lane_onLane_ne _ _ hm]

theorem coresKept_onTables (f : SMap Force → SMap Force) (s : State) : CoresKept s (onTables f s) := by
  have hlane (s : State) (l : Lane) : CoresKept s (if runs s l then onLane l (fun x => { x with forces := f x.forces }) s else s) := by
    split
    · exact coresKept_onLane l (f := fun x => { x with forces := f x.forces }) (fun _ => rfl) s
    · exact .refl s
  exact (coresKept_foldl hlane Lane.list s).trans (coresKept_onForce (fun x => { x with out := ⟨f x.out.x, f x.out.y⟩ }) _)

theorem coresKept_removeForces (sel : Nat → Force → Bool) (cause : Nat) (s : State) : CoresKept s (removeForces sel cause s) :=
  (coresKept_foldl (fun _ _ => coresKept_of_logged (logged_report ..)) _ s).trans (coresKept_onTables ..)

theorem coresKept_carryForces (old new : Image) (s : State) : CoresKept s (carryForces old new s) :=
  (coresKept_removeForces ..).trans (coresKept_onTables ..)

/-! ### The swap itself (R194, R257, R266) -/

/-- The entities that the new image removes are recorded (R588). -/
def removalsRecorded (old new : Image) (s : State) : State :=
  (s.ctl.olc.map.filter (fun e => e.etype = 9)).foldl (fun s e => match entityOf old e.id with
    | some x => olcRecord 8 x.cls e.id new.hdrCrc s
    | none => s) s

theorem logged_removalsRecorded (old new : Image) (s : State) : Logged s (removalsRecorded old new s) := by
  refine logged_foldl (fun s e => ?_) _ s
  split
  · exact logged_olcRecord ..
  · exact .refl s

/-- The lanes named have applied the map and exchanged their banks. -/
def lanesSwapped (old new : Image) (ls : List Lane) (s : State) : State := ls.foldl (fun s l => onLane l (swapLane old new) s) s

theorem lane_lanesSwapped {ls : List Lane} (hls : ls.Nodup) (s : State) (m : Lane) :
    lane (lanesSwapped old new ls s) m = if m ∈ ls then swapLane old new (lane s m) else lane s m := by
  induction ls generalizing s with
  | nil => rfl
  | cons l ls ih =>
    obtain ⟨hnew, hrest⟩ := List.nodup_cons.1 hls
    refine (ih hrest (onLane l (swapLane old new) s)).trans ?_
    by_cases hm : m = l
    · rw [hm, if_neg hnew, if_pos (List.mem_cons_self ..), lane_onLane]
    · rw [lane_onLane_ne _ _ hm]
      simp [hm]

theorem lanesSwapped_data (old new : Image) (ls : List Lane) (s : State) : (lanesSwapped old new ls s).data = s.data :=
  foldl_keeps State.data (fun s l => onLane l (swapLane old new) s) (fun _ _ => rfl) ls s

/-- The cairn is lost, and the swap stands as done. -/
def swapMade (s : State) : State :=
  onForce (fun f => { f with oseqResult := Status.ok.code }) (onOlc (fun o => { o with swapped := true })
    (onVoter (fun v => { v with cairn := none, capture := none }) s))

theorem swapNow_eq (old new : Image) (s : State) : swapNow old new s =
    swapMade (lanesSwapped old new (Lane.list.filter (swaps (carryForces old new (removalsRecorded old new s)) new))
      (carryForces old new (removalsRecorded old new s))) := rfl

/-- The lanes that swap are known before the forces are carried. -/
theorem swaps_congr {s t : State} (h : CoresKept s t) (new : Image) (l : Lane) : swaps t new l = swaps s new l := by
  rw [swaps, swaps, voter, voter, h.voter, h.core]

theorem swapNow_swaps (old new : Image) (s : State) : (swapNow old new s).ctl.olc.swapped = true ∧ (swapNow old new s).ctl.voter.cairn = none ∧
    (∀ l, swaps s new l = true → (lane (swapNow old new s) l).core.active = some new ∧ (lane (swapNow old new s) l).core.shadow = some old) ∧
    (∀ l, swaps s new l = false → (lane (swapNow old new s) l).core = (lane s l).core) ∧ (swapNow old new s).data = s.data := by
  have hkept : CoresKept s (carryForces old new (removalsRecorded old new s)) :=
    (coresKept_of_logged (logged_removalsRecorded old new s)).trans (coresKept_carryForces ..)
  rw [swapNow_eq]
  generalize carryForces old new (removalsRecorded old new s) = u at hkept ⊢
  have hmem : ∀ l, l ∈ Lane.list.filter (swaps u new) ↔ swaps s new l = true := fun l => by
    rw [List.mem_filter, swaps_congr hkept]
    exact and_iff_right (by cases l <;> decide)
  have hlane : ∀ l, lane (swapMade (lanesSwapped old new (Lane.list.filter (swaps u new)) u)) l =
      if swaps s new l = true then swapLane old new (lane u l) else lane u l := fun l =>
    (lane_lanesSwapped ((by decide : Lane.list.Nodup).filter _) u l).trans (if_congr (hmem l) rfl rfl)
  refine ⟨rfl, rfl, fun l h => ?_, fun l h => ?_, (lanesSwapped_data ..).trans hkept.data⟩
  · rw [hlane, if_pos h]
    exact ⟨rfl, rfl⟩
  · rw [hlane, if_neg (by rw [h]; decide), hkept.core]

/-! ### The decision (R156, R265) -/

/-- A swap that both halves refuse. -/
def swapRefused (st : Status) (w : Scn) (new : Image) (s : State) : State :=
  finishSwap st [] (onForce (fun f => { f with oseqResult := st.code })
    (olcRecord 4 st.code w.toNat new.hdrCrc (onOlc (fun o => { o with mode := .staged }) s)))

/-- What the halves decide of a swap. -/
def swapDecided (old new : Image) (w : Scn) (s : State) : State :=
  if swapRefusal s .x old new ≠ swapRefusal s .y old new then tripXY s
  else match swapRefusal s .x old new with
    | some st => swapRefused st w new s
    | none => swapNow old new s

/-- The scan whose release comes due. -/
def dueScan (s : State) : Scn := BitVec.ofNat 32 s.ctl.followers.x.cycle

theorem exec_olcSwapBoundary (hmode : s.ctl.olc.mode = .swapping) (hswapped : s.ctl.olc.swapped = false) (hw : scnBefore (dueScan s) s.ctl.olc.w = false)
    (hscn : dueScan s ≠ scn s) (hrun : ctlRuns s = true) (hold : runImage s = some old) (hnew : s.ctl.olc.image = some new) :
    exec .olcSwapBoundary s = .next (atScan (dueScan s) (swapDecided old new s.ctl.olc.w) s) := by
  have he : exec .olcSwapBoundary s = .next (if s.ctl.olc.mode = .swapping ∧ !s.ctl.olc.swapped ∧ !scnBefore (dueScan s) s.ctl.olc.w ∧ dueScan s ≠ scn s ∧ ctlRuns s then
      match runImage s, s.ctl.olc.image with
      | some old, some new => atScan (dueScan s) (swapDecided old new s.ctl.olc.w) s
      | _, _ => s
    else s) := rfl
  rw [he, hold, hnew]
  exact congrArg Host.Outcome.next (if_pos ⟨hmode, by rw [hswapped]; rfl, by rw [hw]; rfl, hscn, hrun⟩)

theorem finishSwap_ends (st : Status) (s : State) : (finishSwap st [] s).ctl = { s.ctl with olc := { s.ctl.olc with swapCmd := none } } ∧
    (finishSwap st [] s).data = s.data ∧
    (∀ c, s.ctl.olc.swapCmd = some c → (finishSwap st [] s).mgt.mbx.finished = (finishRef c st 0 [] [] s).mgt.mbx.finished) := by
  have hnone (hc : s.ctl.olc.swapCmd = none) : s.ctl = { s.ctl with olc := { s.ctl.olc with swapCmd := none } } := by rw [← hc]
  rw [finishSwap]
  cases hc : s.ctl.olc.swapCmd with
  | none => exact ⟨hnone hc, rfl, fun c h => nomatch h⟩
  | some c =>
    refine ⟨rfl, rfl, fun c' h => ?_⟩
    cases h
    rfl

/-- A refused swap leaves the image staged and answers OLC_SWAP; lanes and voter stay. -/
theorem swapRefused_ends (st : Status) (w : Scn) (new : Image) (s : State) : (swapRefused st w new s).ctl.olc.mode = .staged ∧
    (swapRefused st w new s).ctl.olc.swapCmd = none ∧ (swapRefused st w new s).ctl.lanes = s.ctl.lanes ∧
    (swapRefused st w new s).ctl.voter = s.ctl.voter ∧ (swapRefused st w new s).data = s.data ∧
    (∀ c, s.ctl.olc.swapCmd = some c → (swapRefused st w new s).mgt.mbx.finished = (finishRef c st 0 [] [] s).mgt.mbx.finished) := by
  have hlog := logged_olcRecord 4 st.code w.toNat new.hdrCrc (onOlc (fun o => { o with mode := .staged }) s)
  rw [swapRefused]
  generalize olcRecord 4 st.code w.toNat new.hdrCrc (onOlc (fun o => { o with mode := .staged }) s) = u at hlog ⊢
  obtain ⟨hctl, hdata, hfin⟩ := finishSwap_ends st (onForce (fun f => { f with oseqResult := st.code }) u)
  rw [hctl, hdata]
  refine ⟨congrArg (·.olc.mode) hlog.ctl, rfl, congrArg (·.lanes) hlog.ctl, congrArg (·.voter) hlog.ctl, hlog.data, fun c hc => ?_⟩
  exact (hfin c ((congrArg (·.olc.swapCmd) hlog.ctl).trans hc)).trans (Staging.finishRef_congr c st [] hlog.finished)

/-- R265, R266. -/
theorem swapsAreDecidedAtTheirBoundary : SwapsAreDecidedAtTheirBoundary := by
  intro s old new o n at_ hmode hswapped hw hscn hrun hold hnew
  have he := exec_olcSwapBoundary hmode hswapped hw hscn hrun hold hnew
  refine ⟨fun hx hy => ?_, fun st hx hy => ?_, fun hxy => ?_⟩
  · have hdecided : swapDecided old new s.ctl.olc.w at_ = swapNow old new at_ := by rw [swapDecided, hx, hy, if_neg (not_not.2 rfl)]
    obtain ⟨hdone, hcairn, hlanes, hothers, hdata⟩ := swapNow_swaps old new at_
    rw [← hdecided] at hdone hcairn hlanes hothers hdata
    exact ⟨_, he, hdone, hcairn, rfl, hlanes, hothers, hdata⟩
  · have hdecided : swapDecided old new s.ctl.olc.w at_ = swapRefused st s.ctl.olc.w new at_ := by rw [swapDecided, hx, hy, if_neg (not_not.2 rfl)]
    obtain ⟨hstaged, hcmd, hlanes, hvoter, hdata, hfin⟩ := swapRefused_ends st s.ctl.olc.w new at_
    rw [← hdecided] at hstaged hcmd hlanes hvoter hdata hfin
    exact ⟨_, he, hstaged, hcmd, hlanes, congrArg (fun v => { v with scn := scn s }) hvoter, hdata, hfin⟩
  · have hdecided : swapDecided old new s.ctl.olc.w at_ = tripXY at_ := if_pos hxy
    exact he.trans (congrArg (fun t => Host.Outcome.next (onVoter (fun v => { v with scn := scn s }) t)) hdecided)

/-- Settles O50: the OLC commands act, the staging path fills the shadow banks, and the boundary decides the swap. -/
theorem onlineChangeActs : Obligations.OnlineChangeActs :=
  ⟨olcCommandsAct, stagingReachesEveryLane, swapsAreDecidedAtTheirBoundary⟩

end Sys2Proof.Proofs.SwapBoundary
end
